-- ==== Sys2Proof/Word.lean ====
section
/-! DEFINITION. The word type of the Broath B9 and its plainest helpers (R7: little-endian, bit 0 least significant). -/

namespace Sys2Proof

/-- A 64-bit word (R7). -/
abbrev Word := BitVec 64

/-- A byte (R7). -/
abbrev Byte := BitVec 8

/-- Bit `n` of a word. -/
abbrev bit (w : Word) (n : Nat) : Bool := w.getLsbD n

end Sys2Proof
end

