-- ==== Sys2Proof/Config.lean ====
section
/-! DEFINITION. What an implementation fixes, and the free values: the values that the spec leaves open. A free value is
an opaque constant, so no proof can see what it is. -/

namespace Sys2Proof.Config

/-- The default of a free value; it is never unfolded. -/
abbrev zeroOf (w : Nat) : BitVec w := 0

/-- A fresh value of 64 bits that the spec does not state (log entry 2): applied to the counter `State.free`. (DESIGN CHOICE: log entry 2) -/
opaque freeWord : Nat → BitVec 64
/-- A fresh choice among alternatives that the spec leaves open (log entry 2). (DESIGN CHOICE: log entry 2) -/
opaque freeNat : Nat → Nat
/-- What the odd engine of a pair computes where the even one computes `w` (R432): whether they agree is open. (DEDUCED: log entry 29) -/
opaque oddEngine : Nat → (w : BitVec 64) → BitVec 64
/-- Whether a read that may be served from a candidate is so served (R322): the architecture does not fix it. (DESIGN CHOICE: log entry 11) -/
opaque useCandidate : Nat → Bool
/-- Whether the host's completer reports an error for a fetched read (R258): the host decides. (DESIGN CHOICE: log entry 10) -/
opaque hostFails : Nat → Bool
/-- The effect of a Lovar OS call on its result word (R465): the services themselves are software. (DESIGN CHOICE: log entry 15) -/
opaque callResult : Nat → BitVec 64
/-- Whether a translation or rights entry, or an instruction word, that a cache still holds is used again (R138, R247, R254):
replacement is not fixed. (DESIGN CHOICE: log entry 12) -/
opaque useHeld : Nat → Bool
/-- Where Lovar OS places the code of the scarab thread of a core (R292). (DESIGN CHOICE: log entry 16) -/
opaque scarabEntry : Nat → BitVec 64
/-- How many bytes beyond its first the host port's window of bus addresses has (R253). (DESIGN CHOICE: log entry 10) -/
opaque hostMore : Nat
/-- Where the host port's window of bus addresses ends (R253): a window is not empty. (DESIGN CHOICE: log entry 10) -/
def hostWindow : Nat := hostMore + 1
/-- How many images and flits a park region of a number of granules holds beyond one for each granule: its layout is not
architected (R144, R365). (DESIGN CHOICE: log entry 9) -/
opaque parkMore : Nat → Nat
/-- How many images and flits a park region of a number of granules holds (R144, R365): at least one for each granule. (DESIGN CHOICE: log entry 9) -/
def parkRoom (granules : Nat) : Nat := parkMore granules + granules
/-- The bank that holds a word (R337). (DESIGN CHOICE: log entry 13) -/
opaque bankOf : Nat → Nat
/-- Ryllaum's firmware key, and the owner key and host key slots of a part, as fused (R472 to R474). (DESIGN CHOICE: log entry 5) -/
opaque firmwareKey : List (BitVec 8)
opaque ownerKey : List (BitVec 8)
opaque hostKey : Nat → Option (List (BitVec 8))
/-- The measurement values of boot (R473). (DESIGN CHOICE: log entry 5) -/
opaque bootMeasurement : Nat → BitVec 512

end Sys2Proof.Config
end

