-- ==== Sys2Proof/Syntax.lean ====
section
/-! DEFINITION. The syntax of Numbelet (05 to 22) and of the device's own events (95): one constructor of `Instr` for
each row of spec/opcode_table.json. An instruction's operands are register names and values; no raw encoding is left. -/

namespace Sys2Proof

/-- A register name (R15). Number 63 has no name. -/
inductive Reg
  | g (n : Fin 16)
  | v (n : Fin 32)
  | m (n : Fin 8)
  | sm (n : Fin 4)
  | z
  | pw
  | ip
deriving DecidableEq, Repr

/-- A source: a register and the take modifier of R19. -/
structure Src where
  reg : Reg
  take : Bool
deriving DecidableEq, Repr

/-- The second operand of the register and immediate forms (R127, R168). -/
inductive Opd
  | reg (s : Src)
  | imm (i : BitVec 21)
deriving DecidableEq, Repr

/-- The guard field G: negate bit and flag number (R120). -/
abbrev Guard := BitVec 4

/-- A memory operand: base + (index << sc) + sext(disp), with the hint `sp` (R20). -/
structure MemOp where
  base : Src
  index : Src
  sc : BitVec 2
  sp : BitVec 2
  disp : BitVec 24
deriving DecidableEq, Repr

/-- The wait clause `sem ws >= wt` and the signal clause `sem ss + si` (R21). -/
structure Clauses where
  ws : BitVec 8
  wt : BitVec 6
  ss : BitVec 8
  si : BitVec 4
deriving DecidableEq, Repr

/-- The element mask fields MK and Z (R124, R187). -/
structure VMask where
  m : BitVec 3
  z : Bool
deriving DecidableEq, Repr

/-- The element types of R36. -/
inductive ETyp
  | f32 | f64 | f16 | e8m7 | i8 | i16 | i32 | i64 | n8 | n16 | n32 | n64 | fna | fnb
deriving DecidableEq, Repr

/-- The rounding modes of R48; code 7 is not a mode. -/
inductive RM
  | rne | rtz | rdn | rup | rna | sr | dyn
deriving DecidableEq, Repr

/-- Access sizes b, q, h, w: 1, 2, 4 and 8 bytes (R7, R127). -/
inductive Size
  | b | q | h | w
deriving DecidableEq, Repr

/-- The conditions of R126, codes 0 to 13. -/
inductive Cond
  | eq | ne | lt | ge | le | gt | ltn | gen | len | gtn | tst | ntst | un | ord
deriving DecidableEq, Repr

/-- The conditions that CMP accepts (R126, R173). -/
inductive ICond
  | eq | ne | lt | ge | le | gt | ltn | gen | len | gtn | tst | ntst
deriving DecidableEq, Repr

/-- The conditions that FCMP accepts (R126, R182). -/
inductive FCond
  | eq | ne | lt | ge | le | gt | un | ord
deriving DecidableEq, Repr

/-- FLOP's operators (R174). -/
inductive FlopOp | and | or | xor
deriving DecidableEq, Repr

/-- The pw fields of PWRD and PWWR (R175). -/
inductive PwField | flags | st | fpf | rm | all
deriving DecidableEq, Repr

/-- FSGN's variants (R181). -/
inductive SgnOp | j | jn | jx
deriving DecidableEq, Repr

/-- CORD's forms (R263). -/
inductive CordOp | own | ownL | cl (a : Src) | lc (a : Src)
deriving DecidableEq, Repr

/-- A scope operand: a register holding a rectangle, or system scope (R324, R335, R336). -/
inductive Scope | reg (s : Src) | sys
deriving DecidableEq, Repr

/-- FENCE's kinds (R336). -/
inductive FenceKind | acq | rel | ar
deriving DecidableEq, Repr

/-- ALOG's operators (R337). -/
inductive LogOp | and | or | xor | andn
deriving DecidableEq, Repr

/-- AMNX's operators (R337). -/
inductive MnxOp | min | max | minn | maxn
deriving DecidableEq, Repr

/-- TRDY's choices for one bit: keep, set, clear (R366). -/
inductive Ksc | keep | set | clear
deriving DecidableEq, Repr

/-- An index or count: the immediate I10 or a register (R191). -/
inductive VIdx | imm (i : BitVec 10) | reg (s : Src)
deriving DecidableEq, Repr

/-- The element format of VQNT and VDQNT (R200). -/
inductive VCodec | bs4 | bsa | bsb
deriving DecidableEq, Repr

/-- The operators of VRED and VSCAN (R202). -/
inductive RedOp | sum | max | min | and | or | xor
deriving DecidableEq, Repr

/-- The operators of MOPS; the binary ones carry their second source (R205). -/
inductive MopsOp | and (b : Src) | or (b : Src) | xor (b : Src) | andn (b : Src) | not | first | below
deriving DecidableEq, Repr

/-- The row of TARD and TAWR: an immediate or a register (R231). -/
inductive RowSel | imm (r : BitVec 6) | reg (s : Src)
deriving DecidableEq, Repr

/-- FMTLD's forms (R211). -/
inductive FmtldOp | a (s : Src) | b (s : Src) | fsh (n : BitVec 2)
deriving DecidableEq, Repr

/-- The codec selector of CPY (R271). -/
inductive CodecSel | none | zb | sb1 | bs4 | bsn | cust | fsh (n : BitVec 2)
deriving DecidableEq, Repr

/-- The collective operators (R394). -/
inductive CollOp | sumf | maxf | minf | sumi | and | or | rscl
deriving DecidableEq, Repr

/-- The special registers of R415. -/
inductive Spr
  | tcause | taddr | tpc | tvec | tframe | wlim | rndseed | mode | domid | cinv | thmeta | cycle | retired | typebase
  | pwin | fpint | xlbase | bnd0 | bnd1 | bnd2
deriving DecidableEq, Repr

/-- What the completer of a host atomic answers (R340): the old value, Unsupported Request, or an abort. -/
inductive HostAnswer | value (old : BitVec 64) | unsupported | abort
deriving DecidableEq, Repr

/-- The PCI Express AtomicOps (R340, R456). -/
inductive HostAop | fetchAdd | swap | cas
deriving DecidableEq, Repr

/-- What one rewrite of a placement-table entry sets (R89, R90): the die word, or one CMAP byte. -/
inductive PlaceEntry
  | die (v : Bool) (pdie : BitVec 8)
  | cmap (cluster : Nat) (v : Bool) (pos : BitVec 6)
deriving DecidableEq, Repr

/-- The writes of the management interfaces (R248, R148, R470, R448, R438). -/
inductive MgmtWrite
  | tcmOwner (core : Nat) (dom : BitVec 12)
  | scratchOwner (cluster : Nat) (dom : BitVec 12)
  | deckGrant (die seg : Nat) (dom : BitVec 12)
  | hotThreshold (die : Nat) (degrees : Nat)
  | coolThreshold (die : Nat) (degrees : Nat)
  | storageTarget (target : BitVec 16) (device : Option Nat)
  | shadowReserve (cluster : Nat) (granules : Nat)
  | orphanClear (cluster : Nat)
deriving DecidableEq, Repr

/-- One constructor per row of spec/opcode_table.json, in the table's order: instructions first, then the events that
the device takes by itself. An instruction's first argument is its guard. The arguments of an event name the unit or the
message it concerns, and what its surroundings supply. -/
inductive Instr
  /-- Adds two 64-bit or 32-bit integer operands, wrapping, and writes the sum to gd. (R168) -/
  | add (g : Guard) (h : Bool) (d : Reg) (a : Src) (b : Opd)
  /-- Subtracts the second integer operand from the first, wrapping. (R168) -/
  | sub (g : Guard) (h : Bool) (d : Reg) (a : Src) (b : Opd)
  /-- Multiplies two integers and keeps the low w bits of the product. (R168) -/
  | mul (g : Guard) (h : Bool) (d : Reg) (a : Src) (b : Opd)
  /-- Writes the high half of the exact signed product. (R168) -/
  | mulh (g : Guard) (h : Bool) (d : Reg) (a : Src) (b : Opd)
  /-- Writes the high half of the exact unsigned product. (R168) -/
  | mulhn (g : Guard) (h : Bool) (d : Reg) (a : Src) (b : Opd)
  /-- Performs signed division truncating toward zero; traps DIVZ when the divisor is zero. (R168) -/
  | div (g : Guard) (h : Bool) (d : Reg) (a : Src) (b : Opd)
  /-- Performs unsigned division; traps DIVZ when the divisor is zero. (R168) -/
  | divn (g : Guard) (h : Bool) (d : Reg) (a : Src) (b : Opd)
  /-- Writes the signed remainder, with the sign of the dividend; traps DIVZ when the divisor is zero. (R168) -/
  | rem (g : Guard) (h : Bool) (d : Reg) (a : Src) (b : Opd)
  /-- Writes the unsigned remainder; traps DIVZ when the divisor is zero. (R168) -/
  | remn (g : Guard) (h : Bool) (d : Reg) (a : Src) (b : Opd)
  /-- Writes the bitwise AND of the two operands. (R168) -/
  | and (g : Guard) (h : Bool) (d : Reg) (a : Src) (b : Opd)
  /-- Writes the bitwise OR of the two operands; in its special shape it reads or writes pw. (R168) -/
  | or (g : Guard) (h : Bool) (d : Reg) (a : Src) (b : Opd)
  /-- Writes the bitwise exclusive OR of the two operands. (R168) -/
  | xor (g : Guard) (h : Bool) (d : Reg) (a : Src) (b : Opd)
  /-- Writes the first operand AND NOT the second. (R168) -/
  | andn (g : Guard) (h : Bool) (d : Reg) (a : Src) (b : Opd)
  /-- Shifts left, giving 0 when the count is w or more. (R168) -/
  | shl (g : Guard) (h : Bool) (d : Reg) (a : Src) (b : Opd)
  /-- Shifts right logically, giving 0 when the count is w or more. (R168) -/
  | shr (g : Guard) (h : Bool) (d : Reg) (a : Src) (b : Opd)
  /-- Shifts right arithmetically, giving the sign fill when the count is w or more. (R168) -/
  | sar (g : Guard) (h : Bool) (d : Reg) (a : Src) (b : Opd)
  /-- Rotates left within w bits by the count modulo w. (R168) -/
  | rot (g : Guard) (h : Bool) (d : Reg) (a : Src) (b : Opd)
  /-- Writes the smaller operand, compared as signed values. (R168) -/
  | min (g : Guard) (h : Bool) (d : Reg) (a : Src) (b : Opd)
  /-- Writes the larger operand, compared as signed values. (R168) -/
  | max (g : Guard) (h : Bool) (d : Reg) (a : Src) (b : Opd)
  /-- Writes the smaller operand, compared as unsigned values. (R168) -/
  | minn (g : Guard) (h : Bool) (d : Reg) (a : Src) (b : Opd)
  /-- Writes the larger operand, compared as unsigned values. (R168) -/
  | maxn (g : Guard) (h : Bool) (d : Reg) (a : Src) (b : Opd)
  /-- Counts the leading zero bits within w. (R168) -/
  | clz (g : Guard) (h : Bool) (d : Reg) (a : Src)
  /-- Counts the trailing zero bits within w. (R168) -/
  | ctz (g : Guard) (h : Bool) (d : Reg) (a : Src)
  /-- Counts the one bits of the operand. (R168) -/
  | popc (g : Guard) (h : Bool) (d : Reg) (a : Src)
  /-- Reverses the bit order within w. (R168) -/
  | brev (g : Guard) (h : Bool) (d : Reg) (a : Src)
  /-- Reverses the byte order within w. (R168) -/
  | bswp (g : Guard) (h : Bool) (d : Reg) (a : Src)
  /-- Extracts a bit field, optionally sign-extending it. (R169) -/
  | ext (g : Guard) (h : Bool) (s : Bool) (d : Reg) (a : Src) (b : Opd)
  /-- Deposits the low bits of a source into a bit field of a. (R169) -/
  | dep (g : Guard) (h : Bool) (d : Reg) (a : Src) (b : Src) (c : Src)
  /-- Selects one of two sources according to a flag that is read at issue. (R170) -/
  | sel (g : Guard) (h : Bool) (neg : Bool) (fl : BitVec 3) (d : Reg) (a : Src) (b : Opd)
  /-- Writes a computed effective address without accessing memory. (R171) -/
  | lea (g : Guard) (h : Bool) (d : Reg) (m : MemOp)
  /-- Writes a sign-extended 42-bit immediate. (R172) -/
  | movw (g : Guard) (d : Reg) (i : BitVec 42)
  /-- Replaces bits [63:42] of gd with an immediate and keeps bits [41:0]. (R172) -/
  | movh (g : Guard) (d : Reg) (i : BitVec 22)
  /-- Sets a flag to an integer comparison of two 64-bit values. (R173) -/
  | cmp (g : Guard) (cc : ICond) (fd : BitVec 3) (a : Src) (b : Opd)
  /-- Combines two flags, each optionally negated, with AND, OR or XOR into a third flag. (R174) -/
  | flop (g : Guard) (op : FlopOp) (fd : BitVec 3) (nx : Bool) (fx : BitVec 3) (ny : Bool) (fy : BitVec 3)
  /-- Reads one field of pw into a g register. (R175) -/
  | pwrd (g : Guard) (f : PwField) (d : Reg)
  /-- Writes one field of pw from a g register; the fixed bits of pw do not change. (R175) -/
  | pwwr (g : Guard) (f : PwField) (a : Src)
  /-- Branches to PC plus eight times the displacement. (R176) -/
  | br (g : Guard) (i : BitVec 35)
  /-- Branches and writes the link PC + 8. (R176) -/
  | brl (g : Guard) (d : Reg) (i : BitVec 35)
  /-- Jumps to a register plus a byte offset. (R176) -/
  | jmp (g : Guard) (a : Src) (i : BitVec 21)
  /-- Jumps to a register plus a byte offset and writes the link. (R176) -/
  | jmpl (g : Guard) (d : Reg) (a : Src) (i : BitVec 21)
  /-- Decrements a counter and branches while the result is nonzero. (R176) -/
  | loop (g : Guard) (d : Reg) (i : BitVec 35)
  /-- Does nothing. (R176) -/
  | nop (g : Guard)
  /-- Adds two scalar floats with one rounding. (R179) -/
  | fadd (g : Guard) (s : Bool) (rm : RM) (d : Reg) (a : Src) (b : Src)
  /-- Subtracts two scalar floats with one rounding. (R179) -/
  | fsub (g : Guard) (s : Bool) (rm : RM) (d : Reg) (a : Src) (b : Src)
  /-- Multiplies two scalar floats with one rounding. (R179) -/
  | fmul (g : Guard) (s : Bool) (rm : RM) (d : Reg) (a : Src) (b : Src)
  /-- Computes a fused multiply-add with one rounding. (R179) -/
  | ffma (g : Guard) (s : Bool) (rm : RM) (d : Reg) (a : Src) (b : Src) (c : Src)
  /-- Divides two scalar floats with one rounding. (R179) -/
  | fdiv (g : Guard) (s : Bool) (rm : RM) (d : Reg) (a : Src) (b : Src)
  /-- Takes the square root of a scalar float with one rounding. (R179) -/
  | fsqrt (g : Guard) (s : Bool) (rm : RM) (d : Reg) (a : Src)
  /-- Writes the smaller of two floats, with −0 below +0. (R179) -/
  | fmin (g : Guard) (s : Bool) (d : Reg) (a : Src) (b : Src)
  /-- Writes the larger of two floats, with +0 above −0. (R179) -/
  | fmax (g : Guard) (s : Bool) (d : Reg) (a : Src) (b : Src)
  /-- Sets a flag to a floating comparison and raises NV as the table requires. (R182) -/
  | fcmp (g : Guard) (cc : FCond) (s : Bool) (fd : BitVec 3) (a : Src) (b : Src)
  /-- Converts a scalar between two element types; traps FMTBAD for an invalid narrow format. (R180) -/
  | fcvt (g : Guard) (rm : RM) (dt : ETyp) (ty : ETyp) (d : Reg) (a : Src)
  /-- Combines the magnitude of a with a sign derived from b. (R181) -/
  | fsgn (g : Guard) (s : Bool) (op : SgnOp) (d : Reg) (a : Src) (b : Src)
  /-- Writes a one-hot mask of the operand's floating class. (R183) -/
  | fcls (g : Guard) (s : Bool) (d : Reg) (a : Src)
  /-- Loads from memory, locally, by migration or by a fetch, under the serving rules. (R259) -/
  | ld (g : Guard) (z : Size) (x : Bool) (d : Reg) (m : MemOp)
  /-- Stores to memory, locally, by migration or sent to the home; the tag does not change. (R259) -/
  | st (g : Guard) (z : Size) (d : Reg) (m : MemOp)
  /-- Waits at the home until the word is full, reads it, and empties it with .e. (R332) -/
  | ldf (g : Guard) (z : Size) (e : Bool) (d : Reg) (m : MemOp)
  /-- Stores at the home and sets the tag full; with .e it first waits until the word is empty. (R332) -/
  | stf (g : Guard) (z : Size) (e : Bool) (d : Reg) (m : MemOp)
  /-- Sets the tags of k consecutive words empty or full without changing data. (R334) -/
  | feset (g : Guard) (full : Bool) (d : Reg) (m : MemOp)
  /-- Reads a word's tag and poison state at its home. (R334) -/
  | feqry (g : Guard) (d : Reg) (m : MemOp)
  /-- Reads at the home, bypassing candidates, and then performs an acquire of the scope. (R335) -/
  | lda (g : Guard) (z : Size) (d : Reg) (base : Src) (disp : BitVec 24) (sc : Scope)
  /-- Performs a release of the scope and then stores. (R335) -/
  | stl (g : Guard) (z : Size) (d : Reg) (base : Src) (disp : BitVec 24) (sc : Scope)
  /-- Empties gd and fetches the value without migrating; the register fills on arrival. (R259) -/
  | fetch (g : Guard) (z : Size) (x : Bool) (d : Reg) (m : MemOp)
  /-- Asks the cluster cache region to hold a line; never traps or waits. (R260) -/
  | pref (g : Guard) (m : MemOp)
  /-- Moves a roaming thread to a named core, where it resumes after the MIGR. (R261) -/
  | migr (g : Guard) (a : Src)
  /-- Reports where an address is served and how, without accessing it. (R262) -/
  | home (g : Guard) (d : Reg) (a : Src)
  /-- Returns the thread's own position or converts a position between coordinate and level forms. (R263) -/
  | cord (g : Guard) (d : Reg) (op : CordOp)
  /-- Sends a new roaming thread image to a core and writes the placement status. (R151) -/
  | spawn (g : Guard) (d : Reg) (a : Src) (b : Src) (c : Src)
  /-- Waits for pending responses, then releases the monitor, barriers, tag and frame, reports to the launch and frees the slot. (R153) -/
  | exit (g : Guard)
  /-- Makes the slot not ready for eight cycles. (R154) -/
  | yield (g : Guard)
  /-- Yields, and a roaming thread moves to the run queue tail when a waiting entry could take the slot. (R154) -/
  | yieldRq (g : Guard)
  /-- Anchors a roaming thread, moving it to an anchor-capable slot or searching for VEC first. (R155) -/
  | anch (g : Guard)
  /-- Waits for outstanding vector and matrix work, then releases the anchor and clears the vector file. (R155) -/
  | anchR (g : Guard)
  /-- Arms a monitored line and registers a watch at its home. (R347) -/
  | marm (g : Guard) (m : MemOp)
  /-- Releases every armed line and clears TRIG. (R347) -/
  | marmClr (g : Guard)
  /-- Waits until the monitor fires, times out or is woken, then releases the record. (R348) -/
  | mwait (g : Guard) (d : Reg) (a : Src)
  /-- Initialises a barrier at its home, releasing existing waiters with BRK. (R354) -/
  | binit (g : Guard) (a : Src) (b : Src) (c : Src)
  /-- Arrives at a barrier without waiting and returns the phase. (R354) -/
  | barv (g : Guard) (d : Reg) (a : Src)
  /-- Reads the barrier state without arriving. (R354) -/
  | barvQ (g : Guard) (d : Reg) (a : Src)
  /-- Waits until a named phase completes and writes BRK. (R354) -/
  | barw (g : Guard) (a : Src) (b : Src)
  /-- Arrives at a barrier and waits for the phase of that arrival. (R354) -/
  | barwA (g : Guard) (a : Src)
  /-- Lowers LIVE of a barrier and ends the thread's membership. (R354) -/
  | bdrop (g : Guard) (a : Src)
  /-- Sets a cluster semaphore's count and clears OVF. (R356) -/
  | semi (g : Guard) (n : BitVec 8) (b : Src) (v : BitVec 13)
  /-- Adds to a semaphore's count, saturating and setting OVF. (R356) -/
  | sema (g : Guard) (n : BitVec 8) (b : Src) (v : BitVec 13)
  /-- Reads a semaphore's state. (R356) -/
  | semr (g : Guard) (d : Reg) (n : BitVec 8)
  /-- Waits in FIFO order until the count reaches v, then subtracts v. (R356) -/
  | semw (g : Guard) (n : BitVec 8) (b : Src) (v : BitVec 13)
  /-- Performs an atomic add at the home and returns the old value. (R338) -/
  | aadd (g : Guard) (x : Bool) (d : Reg) (base : Src) (disp : BitVec 24) (b : Src)
  /-- Performs an atomic logical operation at the home. (R338) -/
  | alog (g : Guard) (op : LogOp) (x : Bool) (d : Reg) (base : Src) (disp : BitVec 24) (b : Src)
  /-- Performs an atomic minimum or maximum, signed or unsigned. (R338) -/
  | amnx (g : Guard) (op : MnxOp) (x : Bool) (d : Reg) (base : Src) (disp : BitVec 24) (b : Src)
  /-- Performs an atomic exchange. (R338) -/
  | axch (g : Guard) (x : Bool) (d : Reg) (base : Src) (disp : BitVec 24) (b : Src)
  /-- Performs an atomic compare-and-swap against gd. (R338) -/
  | acas (g : Guard) (x : Bool) (d : Reg) (base : Src) (disp : BitVec 24) (b : Src)
  /-- Performs an atomic floating add, rounded RNE. (R338) -/
  | afadd (g : Guard) (x : Bool) (d : Reg) (base : Src) (disp : BitVec 24) (b : Src)
  /-- Performs a release, an acquire, or both, of a scope. (R336) -/
  | fence (g : Guard) (k : FenceKind) (sc : Scope)
  /-- Sends a push of a value to a channel object, possibly paired in a router. (R360) -/
  | push (g : Guard) (pr : Bool) (d : Reg) (m : MemOp)
  /-- Sends a pop of a channel object and receives the value taken. (R360) -/
  | pop (g : Guard) (pr : Bool) (d : Reg) (m : MemOp)
  /-- Initialises a channel object's header, COUNT and HEAD in one line write. (R359) -/
  | chinit (g : Guard) (d : Reg) (m : MemOp)
  /-- Releases domain scope and sends up to four words to a routing channel. (R367) -/
  | send (g : Guard) (d : Reg) (a : Src) (b : Src) (n : BitVec 3)
  /-- Sends a bulk message to the posted receive block of a channel. (R370) -/
  | sendm (g : Guard) (d : Reg) (a : Src) (b : Src) (c : Src)
  /-- Posts a receive block on a channel and empties its STATUS tag. (R369) -/
  | recv (g : Guard) (a : Src) (ch : BitVec 6)
  /-- Writes a routing-channel entry of a core. (R371) -/
  | chbind (g : Guard) (a : Src) (b : Src) (ch : BitVec 6)
  /-- Sets or clears READY and HOLD of a channel entry, starting parked tasks when the channel becomes ready. (R372) -/
  | trdy (g : Guard) (r : Ksc) (h : Ksc) (d : Reg) (a : Src)
  /-- Adds vector elements, with rounding or integer wrap or saturation. (R193) -/
  | vadd (g : Guard) (sat : Bool) (t : ETyp) (rm : RM) (k : VMask) (d : Reg) (a : Src) (b : Src)
  /-- Subtracts vector elements. (R193) -/
  | vsub (g : Guard) (sat : Bool) (t : ETyp) (rm : RM) (k : VMask) (d : Reg) (a : Src) (b : Src)
  /-- Multiplies vector elements. (R193) -/
  | vmul (g : Guard) (sat : Bool) (t : ETyp) (rm : RM) (k : VMask) (d : Reg) (a : Src) (b : Src)
  /-- Computes a · b + c per element with one rounding. (R193) -/
  | vfma (g : Guard) (t : ETyp) (rm : RM) (k : VMask) (d : Reg) (a : Src) (b : Src) (c : Src)
  /-- Computes a · b − c per element with one rounding. (R193) -/
  | vfms (g : Guard) (t : ETyp) (rm : RM) (k : VMask) (d : Reg) (a : Src) (b : Src) (c : Src)
  /-- Computes −(a · b) + c per element with one rounding. (R193) -/
  | vfnma (g : Guard) (t : ETyp) (rm : RM) (k : VMask) (d : Reg) (a : Src) (b : Src) (c : Src)
  /-- Writes the elementwise minimum. (R193) -/
  | vmin (g : Guard) (t : ETyp) (k : VMask) (d : Reg) (a : Src) (b : Src)
  /-- Writes the elementwise maximum. (R193) -/
  | vmax (g : Guard) (t : ETyp) (k : VMask) (d : Reg) (a : Src) (b : Src)
  /-- Writes the elementwise absolute value. (R193) -/
  | vabs (g : Guard) (sat : Bool) (t : ETyp) (k : VMask) (d : Reg) (a : Src)
  /-- Writes the elementwise negation. (R193) -/
  | vneg (g : Guard) (sat : Bool) (t : ETyp) (k : VMask) (d : Reg) (a : Src)
  /-- Divides vector elements. (R193) -/
  | vdiv (g : Guard) (t : ETyp) (rm : RM) (k : VMask) (d : Reg) (a : Src) (b : Src)
  /-- Takes the elementwise square root. (R193) -/
  | vsqrt (g : Guard) (t : ETyp) (rm : RM) (k : VMask) (d : Reg) (a : Src)
  /-- Computes the correctly rounded elementwise reciprocal. (R194) -/
  | vrcp (g : Guard) (t : ETyp) (rm : RM) (k : VMask) (d : Reg) (a : Src)
  /-- Computes the correctly rounded elementwise reciprocal square root. (R194) -/
  | vrsq (g : Guard) (t : ETyp) (rm : RM) (k : VMask) (d : Reg) (a : Src)
  /-- Computes the correctly rounded elementwise 2^a. (R194) -/
  | vexp2 (g : Guard) (t : ETyp) (rm : RM) (k : VMask) (d : Reg) (a : Src)
  /-- Computes the correctly rounded elementwise log2 a. (R194) -/
  | vlog2 (g : Guard) (t : ETyp) (rm : RM) (k : VMask) (d : Reg) (a : Src)
  /-- Writes the bitwise AND of the elements. (R193) -/
  | vand (g : Guard) (t : ETyp) (k : VMask) (d : Reg) (a : Src) (b : Src)
  /-- Writes the bitwise OR of the elements. (R193) -/
  | vor (g : Guard) (t : ETyp) (k : VMask) (d : Reg) (a : Src) (b : Src)
  /-- Writes the bitwise XOR of the elements. (R193) -/
  | vxor (g : Guard) (t : ETyp) (k : VMask) (d : Reg) (a : Src) (b : Src)
  /-- Shifts integer elements left. (R193) -/
  | vshl (g : Guard) (t : ETyp) (k : VMask) (d : Reg) (a : Src) (b : VIdx)
  /-- Shifts integer elements right. (R193) -/
  | vshr (g : Guard) (t : ETyp) (k : VMask) (d : Reg) (a : Src) (b : VIdx)
  /-- Writes a mask of elementwise comparisons. (R195) -/
  | vcmp (g : Guard) (cc : Cond) (t : ETyp) (k : VMask) (d : Reg) (a : Src) (b : Src)
  /-- Selects elements from two vectors under a mask. (R195) -/
  | vsel (g : Guard) (t : ETyp) (k : VMask) (d : Reg) (a : Src) (b : Src) (c : Src)
  /-- Copies active elements without interpreting them. (R196) -/
  | vmov (g : Guard) (t : ETyp) (k : VMask) (d : Reg) (a : Src)
  /-- Broadcasts a scalar into every active element. (R196) -/
  | vbcst (g : Guard) (t : ETyp) (k : VMask) (d : Reg) (a : Src)
  /-- Reads one element into a g register. (R197) -/
  | vgetl (g : Guard) (t : ETyp) (d : Reg) (a : Src) (b : VIdx)
  /-- Writes one element from a g register. (R197) -/
  | vputl (g : Guard) (t : ETyp) (d : Reg) (a : Src) (b : VIdx)
  /-- Permutes elements by indices held in a vector. (R198) -/
  | vperm (g : Guard) (t : ETyp) (k : VMask) (d : Reg) (a : Src) (b : Src)
  /-- Rotates the elements toward lower indices. (R198) -/
  | vrot (g : Guard) (t : ETyp) (k : VMask) (d : Reg) (a : Src) (b : VIdx)
  /-- Converts elements between types, with half selection. (R199) -/
  | vcvt (g : Guard) (hi : Bool) (dt : ETyp) (ty : ETyp) (rm : RM) (k : VMask) (d : Reg) (a : Src)
  /-- Quantises one block of 32 elements into a packed image with its scale. (R200) -/
  | vqnt (g : Guard) (cd : VCodec) (t : ETyp) (rm : RM) (k : VMask) (d : Reg) (a : Src)
  /-- Decodes a packed block image into elements. (R201) -/
  | vdqnt (g : Guard) (cd : VCodec) (t : ETyp) (rm : RM) (k : VMask) (d : Reg) (a : Src)
  /-- Reduces the active elements by the fixed pairwise tree into gd. (R202) -/
  | vred (g : Guard) (op : RedOp) (t : ETyp) (rm : RM) (k : VMask) (d : Reg) (a : Src)
  /-- Computes a prefix scan over the active elements. (R203) -/
  | vscan (g : Guard) (op : RedOp) (t : ETyp) (rm : RM) (k : VMask) (d : Reg) (a : Src)
  /-- Loads n consecutive elements into a vector register. (R206) -/
  | vld (g : Guard) (t : ETyp) (d : Reg) (m : MemOp)
  /-- Stores n consecutive elements from a vector register. (R206) -/
  | vst (g : Guard) (t : ETyp) (d : Reg) (m : MemOp)
  /-- Loads elements with a byte stride. (R207) -/
  | vlds (g : Guard) (t : ETyp) (d : Reg) (m : MemOp)
  /-- Stores elements with a byte stride. (R207) -/
  | vsts (g : Guard) (t : ETyp) (d : Reg) (m : MemOp)
  /-- Gathers the active elements from indexed addresses. (R207) -/
  | vgth (g : Guard) (t : ETyp) (k : VMask) (sc : BitVec 2) (d : Reg) (a : Src) (b : Src)
  /-- Scatters the active elements to indexed addresses. (R207) -/
  | vsct (g : Guard) (t : ETyp) (k : VMask) (sc : BitVec 2) (d : Reg) (a : Src) (b : Src)
  /-- Performs a logical operation on mask registers. (R205) -/
  | mops (g : Guard) (op : MopsOp) (d : Reg) (a : Src)
  /-- Writes base + i · step into each active element. (R196) -/
  | vidx (g : Guard) (t : ETyp) (k : VMask) (step : BitVec 10) (d : Reg) (a : Src)
  /-- Computes a dot product of two vectors into gd. (R204) -/
  | vdot (g : Guard) (t : ETyp) (rm : RM) (k : VMask) (d : Reg) (a : Src) (b : Src)
  /-- Reads a matrix command block into the shadow set, latching fa and fb. (R227) -/
  | mxset (g : Guard) (a : Src)
  /-- Makes the shadow set pending with its clauses and locks its tile. (R229) -/
  | mxrun (g : Guard) (cl : Clauses)
  /-- Sends a command block with a capability to another core's matrix engine. (R230) -/
  | mxsend (g : Guard) (a : Src) (b : Src) (cl : Clauses)
  /-- Reads one accumulator row into a vector register, waiting for the tile lock. (R231) -/
  | tard (g : Guard) (t : ETyp) (rm : RM) (k : VMask) (d : Reg) (tile : BitVec 2) (row : RowSel)
  /-- Writes one accumulator row from a vector register. (R231) -/
  | tawr (g : Guard) (k : VMask) (a : Src) (tile : BitVec 2) (row : RowSel)
  /-- Accepts a clear of one accumulator tile. (R232) -/
  | taz (g : Guard) (tile : BitVec 2) (cl : Clauses)
  /-- Reads ENGST, and with .w first waits for the thread's engine work. (R233) -/
  | taq (g : Guard) (wt : Bool) (d : Reg)
  /-- Loads fa or fb, or both together with DYN, from a register or a format descriptor. (R211) -/
  | fmtld (g : Guard) (op : FmtldOp)
  /-- Mints or revokes the matrix engine capability. (R234) -/
  | mxcap (g : Guard) (d : Reg) (a : Src)
  /-- Accepts a chained accumulation that receives, adds and sends a tile. (R235) -/
  | tacc (g : Guard) (tile : BitVec 2) (a : Src) (b : Src)
  /-- Queues a copy command, optionally encoding or decoding through a codec. (R272) -/
  | cpy (g : Guard) (q : BitVec 3) (dec : Bool) (cd : CodecSel) (a : Src) (b : Src) (cl : Clauses)
  /-- Queues a copy on the cross-core channel. (R267) -/
  | cpyx (g : Guard) (a : Src) (b : Src) (cl : Clauses)
  /-- Binds a stream register to a tensor for reading or writing. (R291) -/
  | strm (g : Guard) (wr : Bool) (sm : BitVec 2) (a : Src)
  /-- Waits for and returns the next element of a read stream. (R291) -/
  | strcGet (g : Guard) (d : Reg) (sm : BitVec 2)
  /-- Appends an element to a write stream, waiting while its buffer is full. (R291) -/
  | strcPut (g : Guard) (sm : BitVec 2) (a : Src)
  /-- Drains a write stream and unbinds the stream register. (R291) -/
  | strcEnd (g : Guard) (sm : BitVec 2)
  /-- Returns the number of elements not yet got or put. (R291) -/
  | strcQ (g : Guard) (d : Reg) (sm : BitVec 2)
  /-- Reads the QSTS of a copy queue. (R289) -/
  | cpq (g : Guard) (d : Reg) (q : BitVec 4)
  /-- Cancels the commands of a copy queue that have not completed. (R289) -/
  | cpcan (g : Guard) (d : Reg) (q : BitVec 4)
  /-- Sets the scout distance of a copy queue. (R289) -/
  | scout (g : Guard) (a : Src) (q : BitVec 3)
  /-- Queues a storage transfer between memory and a storage target. (R287) -/
  | stor (g : Guard) (wr : Bool) (q : BitVec 3) (a : Src) (b : Src) (cl : Clauses)
  /-- Walks a graph and copies it into an arena as one record. (R314) -/
  | gcopy (g : Guard) (d : Reg) (a : Src) (b : Src)
  /-- Copies a graph into a remote arena and then sends a task message. (R315) -/
  | gsend (g : Guard) (d : Reg) (a : Src) (b : Src)
  /-- Walks two graphs together and reports the first serialised difference. (R313) -/
  | gcmp (g : Guard) (d : Reg) (a : Src) (b : Src)
  /-- Computes SHA-512 over a graph's canonical serialisation. (R312) -/
  | ghash (g : Guard) (d : Reg) (a : Src) (b : Src)
  /-- Walks a graph and, when it is unmutated, marks its objects FREED and pushes them onto a stack. (R316) -/
  | gfree (g : Guard) (d : Reg) (a : Src) (b : Src)
  /-- Describes one object's type, size and pointer words. (R317) -/
  | gtype (g : Guard) (d : Reg) (a : Src) (p : Option Src)
  /-- Queries the state of a walk in the cluster's engine. (R318) -/
  | gqry (g : Guard) (d : Reg) (a : Src)
  /-- Reads a collective descriptor and installs trestle entries down the tree. (R400) -/
  | cjoin (g : Guard) (d : Reg) (a : Src)
  /-- Reads the state of the own node's trestle entry. (R400) -/
  | cjoinQ (g : Guard) (d : Reg) (a : Src)
  /-- Removes every entry of a group. (R400) -/
  | cjoinLv (g : Guard) (d : Reg) (a : Src)
  /-- Stores the own contribution for the next round of a group. (R401) -/
  | cred (g : Guard) (op : CollOp) (a : Src) (b : Src) (c : Src)
  /-- Sends a multicast flit along a tree. (R402) -/
  | cmcst (g : Guard) (a : Src) (b : Src) (c : Src)
  /-- Waits for and takes a multicast delivery of a group. (R403) -/
  | crcvMc (g : Guard) (d : Reg) (a : Src) (b : Reg)
  /-- Waits for and takes the root's combined result of a round. (R403) -/
  | crcvRed (g : Guard) (d : Reg) (a : Src) (b : Reg)
  /-- Takes the next n input bits of the scarab item. (R293) -/
  | bsget (g : Guard) (d : Reg) (n : Opd)
  /-- Reads the next n input bits without advancing. (R293) -/
  | bspeek (g : Guard) (d : Reg) (n : Opd)
  /-- Appends n bits to the output. (R293) -/
  | bsput (g : Guard) (a : Src) (n : Opd)
  /-- Aligns the input or output position to 2^k bits. (R293) -/
  | bsaln (g : Guard) (out : Bool) (k : BitVec 3)
  /-- Waits until every output bit is written. (R293) -/
  | bsfls (g : Guard)
  /-- Waits until the codec work queue is occupied. (R293) -/
  | qwait (g : Guard)
  /-- Takes the head codec item and returns INFO. (R293) -/
  | qtake (g : Guard) (d : Reg)
  /-- Flushes the output and completes the item's command with a code and flags. (R293) -/
  | qdone (g : Guard) (a : Src)
  /-- Releases domain scope and sends a syscall block to the service pair. (R465) -/
  | sysc (g : Guard) (d : Reg) (a : Src) (b : Src)
  /-- Waits until a call's STATUS is full, then acquires domain scope and writes STATUS. (R467) -/
  | sysw (g : Guard) (d : Reg) (a : Src)
  /-- Raises a SOFT trap carrying a code. (R417) -/
  | trap (g : Guard) (code : BitVec 8)
  /-- Returns from a handler to TPC, or to TPC + 8 with .n, and clears INH. (R418) -/
  | rett (g : Guard) (n : Bool)
  /-- Reads a special register. (R419) -/
  | sprd (g : Guard) (d : Reg) (r : Spr)
  /-- Writes a special register that has no row of its own. (R415) -/
  | spwr (g : Guard) (r : Spr) (a : Src)
  /-- Writes TYPEBASE for every thread of the context on every core before completing. (R65) -/
  | spwrTypebase (g : Guard) (a : Src)
  /-- Writes XLBASE to every cluster's copy before completing. (R250) -/
  | spwrXlbase (g : Guard) (a : Src)
  /-- Checks a pool boundary write and queues it until no line is pinned and no engine is busy. (R241) -/
  | spwrBnd (g : Guard) (n : BitVec 2) (a : Src)
  /-- Applies a boundary change, zeroing bytes that leave the scratchpad and writing back cache lines that leave the cache region. (R241) -/
  | bndWriteApply (cluster : Nat)
  /-- Reads the domain time base in ns. (R419) -/
  | time (g : Guard) (d : Reg)
  /-- Releases domain scope and sends a launch packet to the launch unit. (R156) -/
  | launch (g : Guard) (d : Reg) (a : Src)
  /-- Reads a launch queue register. (R159) -/
  | qctl (g : Guard) (d : Reg) (a : Src)
  /-- Writes a launch queue register and returns its old value. (R159) -/
  | qctlWr (g : Guard) (d : Reg) (a : Src) (b : Src)
  /-- Resets TORN and QSTAT of a queue. (R159) -/
  | qctlRst (g : Guard) (d : Reg) (a : Src)
  /-- Applies a queue write between two packets, flushing or refusing packets as its side effects require. (R160) -/
  | qctlWriteApply (pkg : Nat)
  /-- Issues a new incarnation and sends a kill marker wave over a range. (R440) -/
  | kill (g : Guard) (d : Reg) (a : Src) (b : Src)
  /-- Sends a kill wave that leaves the context not live over the range. (R440) -/
  | killZ (g : Guard) (d : Reg) (a : Src) (b : Src)
  /-- Runs reclaim marker waves until no stale traffic of the context remains. (R442) -/
  | rclf (g : Guard) (d : Reg) (a : Src) (b : Src)
  /-- Checks a gang block and arms every cluster of the rectangle for a switch. (R422) -/
  | gang (g : Guard) (d : Reg) (a : Src)
  /-- Removes PLB entries over a rectangle. (R264) -/
  | plbinv (g : Guard) (d : Reg) (va : Option Src) (b : Src)
  /-- Removes translations, PLB entries and cached lines of a page over a rectangle, and waits for acknowledgements. (R264) -/
  | xlinv (g : Guard) (d : Reg) (va : Option Src) (b : Src)
  /-- Couples an even core with its odd neighbour for twin span. (R428) -/
  | pair (g : Guard) (d : Reg) (a : Src)
  /-- Forces an exchange and uncouples a paired core pair. (R434) -/
  | pairOff (g : Guard) (d : Reg) (a : Src)
  /-- Forces a fingerprint exchange in the executing slot. (R434) -/
  | fpck (g : Guard) (d : Reg)
  /-- Fences, answers, writes back and resets a cofferdam, and renews incarnations inside it. (R445) -/
  | coff (g : Guard) (d : Reg) (a : Src)
  /-- Defines a cofferdam by writing CDAM in the clusters of a rectangle. (R444) -/
  | coffDef (g : Guard) (d : Reg) (a : Src)
  /-- Lifts a cofferdam's fence. (R446) -/
  | coffLift (g : Guard) (d : Reg) (a : Src)
  /-- Waits until every earlier LAUNCH of the thread is answered. (R158) -/
  | lsync (g : Guard)
  /-- Zeroes and verifies memory line by line, setting tags full. (R452) -/
  | wipe (g : Guard) (d : Reg) (a : Src) (b : Src)
  /-- Freezes the thread and reports a code to the service pair. (R469) -/
  | halt (g : Guard) (code : BitVec 8)
  /-- Returns the slot's extension list mask. (R150) -/
  | extl (g : Guard) (d : Reg)
  /-- Reads an entry of the die's thermal ranking table. (R161) -/
  | thrm (g : Guard) (d : Reg) (a : Src)
  /-- Writes an entry of the thermal ranking table. (R161) -/
  | thrmSet (g : Guard) (a : Src) (b : Src)
  /-- Starts a replay of a running replayable launch. (R450) -/
  | repl (g : Guard) (d : Reg) (a : Src)
  /-- Reads the replay count and state of a launch. (R450) -/
  | replQ (g : Guard) (d : Reg) (a : Src)
  /-- Each core cycle chooses the slot that issues and updates the wait counters. (R142) -/
  | barrelSelect (core : Nat)
  /-- A placed context ends its four loading cycles and becomes eligible. (R140) -/
  | slotLoadDone (tid : Nat)
  /-- A free slot is filled with the oldest compatible run-queue entry. (R145) -/
  | slotFill (core : Nat) (slot : Nat)
  /-- A thread image arrives, is checked, and enters a slot or the run queue, or is dropped. (R82) -/
  | imageArrival (msg : Nat)
  /-- The resting state is read from the trap frame before an arrived thread becomes ready. (R83) -/
  | restingStateReload (tid : Nat)
  /-- Every millisecond the port cluster rewrites the unpinned thermal ranking entries. (R147) -/
  | thermalRankRewrite (die : Nat) (temps : List Nat)
  /-- Every 10,000 ns above the hot threshold, one slot is disabled. (R148) -/
  | slotDisable (core : Nat)
  /-- Every 100,000 ns below the cool threshold, one slot is re-enabled. (R148) -/
  | slotReenable (core : Nat)
  /-- A thread in a slot marked for disabling is sent at an instruction boundary to the coolest eligible cluster. (R149) -/
  | thermalDisplacement (tid : Nat)
  /-- A wait passes WLIM, is cancelled at its home if it has not been served, and traps WAITLIM. (R343) -/
  | waitlimExpiry (tid : Nat)
  /-- An MWAIT's timeout passes and it returns TIMEOUT. (R348) -/
  | mwaitTimeout (tid : Nat)
  /-- A write at the home of an armed line sets TRIG and wakes the thread. (R345) -/
  | monitorTrigger (tid : Nat)
  /-- The home acknowledges a watch, and the cluster discards its candidate of the line. (R345) -/
  | watchRegistrationAck (msg : Nat)
  /-- A response fills a waiting register, or is dropped as an orphan and counted. (R438) -/
  | responseArrival (msg : Nat)
  /-- A sent store is acknowledged, releasing loads of that word held behind it. (R246) -/
  | storeAck (msg : Nat)
  /-- A read or write request is performed at a home's ordering point. (R321) -/
  | homeReadWrite (msg : Nat)
  /-- An LDF, STF or FESET request arrives at the home and is served or queued. (R333) -/
  | tagRequestAtHome (msg : Nat)
  /-- A proxy continuation placed at the home executes the atomic and returns the old value. (R337) -/
  | proxyContinuation (msg : Nat)
  /-- The bank passes a released reservation to the next waiting atomic. (R337) -/
  | atomicReservationGrant (addr : Nat)
  /-- The port carries a host-memory atomic as a PCI Express AtomicOp or an agent request. (R340) -/
  | hostAtomic (msg : Nat) (answer : HostAnswer)
  /-- An AGENTREQ unanswered within 100 ms traps HOSTERR. (R459) -/
  | agentTimeout (req : Nat)
  /-- A wake message re-enqueues or readies the faulting context, which reissues its instruction. (R256) -/
  | wake (w0 : BitVec 64) (w1 : BitVec 64)
  /-- A unit acknowledges XLINV once the requests under the old translation are ordered. (R265) -/
  | xlinvUnitAck (inv : Nat) (cluster : Nat)
  /-- The launch unit reads and checks a packet and queues it, or refuses it. (R100) -/
  | launchPacketAccept (pkg : Nat) (req : Nat)
  /-- A LAUNCH held in the reservation list is placed when its queue has room. (R157) -/
  | launchReservationPlace (pkg : Nat)
  /-- An eligible head packet starts and its threads are built. (R97) -/
  | launchStart (pkg : Nat) (q : Nat)
  /-- A held-aside multi-package packet whose GEN equals QGEN moves to the queue head. (R106) -/
  | multiPackageHoldRelease (pkg : Nat) (q : Nat)
  /-- The issuing launch unit receives a package's arrival and multicasts START once all have arrived. (R107) -/
  | launchArrival (launch : Nat) (pkg : Nat)
  /-- A package receives START with TS. (R107) -/
  | launchStartMessage (launch : Nat) (pkg : Nat)
  /-- At TS the package releases its built threads as arrivals. (R107) -/
  | startTimeRelease (launch : Nat) (pkg : Nat)
  /-- A cancellation discards the built threads and copies of a launch and reports STARTFAIL. (R108) -/
  | startBarrierCancel (launch : Nat)
  /-- When all threads have ended, the unit waits for their writes, writes the record and signals. (R103) -/
  | launchRetire (launch : Nat)
  /-- A strike tears down a non-replayable launch's queues or starts a replay. (R447) -/
  | launchStrike (launch : Nat)
  /-- A replay ends the threads, discards shadows, restores ARGS and restarts the launch. (R449) -/
  | launchReplay (launch : Nat)
  /-- A message on a routing channel starts a task, is parked, or is dropped. (R114) -/
  | channelMessageArrival (msg : Nat)
  /-- The service pair swaps a spare unit in by rewriting the placement table. (R90) -/
  | placementSwap (die : Nat) (entry : PlaceEntry)
  /-- The service pair writes each core's extension directory. (R131) -/
  | extensionDirectoryWrite (core : Nat) (ext : Nat) (v : Bool) (pos : BitVec 18)
  /-- A copy command at its queue head starts once its wait clause is met. (R268) -/
  | cpyCommandStart (core : Nat) (q : Nat)
  /-- A copy command completes, writes QSTS and applies its signal. (R268) -/
  | cpyCommandComplete (core : Nat) (q : Nat)
  /-- A CUST command at its queue head joins the scarab work queue. (R292) -/
  | custItemEnqueue (core : Nat) (q : Nat)
  /-- The ACB home places a message as a record and advances TAIL. (R284) -/
  | arenaPlacement (core : Nat) (q : Nat)
  /-- A SENDM message is placed into a posted receive buffer, writing STATUS. (R370) -/
  | bulkMessagePlacement (msg : Nat)
  /-- Each storage block is checked against its extent capability before it moves. (R288) -/
  | storageBlockCheck (core : Nat) (q : Nat)
  /-- An NVMe block command completes. (R470) -/
  | storageBlockComplete (core : Nat) (q : Nat) (block : Nat)
  /-- The engine starts the earliest-accepted eligible command on its array. (R222) -/
  | mxCommandStart (core : Nat)
  /-- A matrix command completes, writes its status and ENGST, and signals. (R224) -/
  | mxCommandComplete (core : Nat)
  /-- A remote matrix command is checked against the capability and queued or rejected. (R226) -/
  | remoteCommandArrival (msg : Nat)
  /-- The engine clears a tile in 16 cycles once its earlier operations are done. (R232) -/
  | tazPerform (core : Nat)
  /-- The engine takes a full receive row, adds it, and sends once the send words are empty. (R235) -/
  | taccRow (core : Nat)
  /-- The cluster graph engine takes the next walk in issue order. (R296) -/
  | graphWalkStart (cluster : Nat)
  /-- The walk reads a 128-byte line at its home and watches it. (R306) -/
  | graphLineRead (cluster : Nat)
  /-- At completion the engine sends sweep markers and waits for the homes to acknowledge. (R307) -/
  | graphSweep (cluster : Nat)
  /-- A walk completes, writes gd and sets MUT when it was mutated. (R310) -/
  | graphWalkComplete (cluster : Nat)
  /-- A PUSH or POP arriving at the home executes or joins the waiter list. (R360) -/
  | channelOpAtHome (msg : Nat)
  /-- A router matches opposite .pr flits and answers both. (R362) -/
  | pairMatch (held : Nat) (msg : Nat)
  /-- An unmatched held .pr flit's hold of W cycles ends and it continues to the home. (R362) -/
  | pairHoldExpiry (msg : Nat)
  /-- Each cycle a router ranks its flits and assigns outputs, ejection and injection. (R378) -/
  | routerCycle (pos : Nat)
  /-- After 128 cycles of waiting injection, a router makes its neighbours pause. (R379) -/
  | injectionStarvation (pos : Nat)
  /-- A flit that cannot be accepted is returned and parked at its sender. (R365) -/
  | flitNack (msg : Nat) (fenced : Bool)
  /-- A parked flit is re-sent after its back-off delay. (R365) -/
  | parkedFlitResend (msg : Nat)
  /-- A link receiver checks a packet and accepts and injects it, or discards it. (R388) -/
  | linkPacketReceive (link : Nat) (crcOk : Bool)
  /-- After 512 cycles without an acknowledgement the transmitter resends from the oldest packet. (R388) -/
  | linkReplayTimeout (link : Nat)
  /-- A negative acknowledgement makes the transmitter resend. (R388) -/
  | linkNegativeAck (link : Nat)
  /-- A link changes width between packets, on a lane failure or on request. (R389) -/
  | linkWidthChange (link : Nat) (width : BitVec 2)
  /-- A link that cannot hold x4 is marked failed and its unacknowledged packets are returned. (R390) -/
  | linkFail (link : Nat)
  /-- A tree node's router delivers a multicast copy and injects copies for its children. (R392) -/
  | mcastNode (msg : Nat)
  /-- A multicast delivery fills a slot, or is refused. (R393) -/
  | mcastDelivery (core : Nat) (msg : Nat)
  /-- A SETUP flit installs a trestle entry. (R400) -/
  | setupArrival (msg : Nat)
  /-- A child contribution arrives at a trestle and is held or bounced. (R396) -/
  | contribArrival (msg : Nat)
  /-- A trestle that holds a whole round combines it and sends or places the result. (R396) -/
  | trestleCombine (cluster : Nat) (group : Nat)
  /-- At TIME each core of the rectangle stops and saves its contexts. (R423) -/
  | gangStop (gang : Nat) (cluster : Nat)
  /-- A flit for a switched-out context falls out into the park region. (R425) -/
  | gangFallOut (msg : Nat)
  /-- A cluster whose save is complete restores its INSA block and reports. (R427) -/
  | gangRestore (gang : Nat) (cluster : Nat)
  /-- Restored cores begin issue at TS, fall-outs are re-injected and the status is written. (R427) -/
  | gangStart (gang : Nat)
  /-- Paired slots compare fingerprints and, on agreement, perform gated stores. (R430) -/
  | fingerprintExchange (core : Nat) (slot : Nat) (agree : Bool)
  /-- A kill wave sets an endpoint's entry and ends the older incarnation's state there. (R441) -/
  | killMarkerPass (wave : Nat) (cluster : Nat)
  /-- A reclaim wave discards queued stale work and collects SEEN and BUSY. (R442) -/
  | rclfWave (fence : Nat)
  /-- An undeliverable uncorrectable error fences and resets the cofferdam that contains it. (R445) -/
  | uncorrectableError (cluster : Nat)
  /-- A host write to H2DTAIL makes the device take the new ring entries. (R458) -/
  | h2dDoorbell (pkg : Nat) (tail : BitVec 8)
  /-- A host LAUNCH entry is launched in its queue's context and answered. (R458) -/
  | mbLaunch (pkg : Nat)
  /-- Reads, verifies and loads an extent capability into the table. (R472) -/
  | capload (pkg : Nat)
  /-- Drops an extent-capability table entry. (R458) -/
  | capdrop (pkg : Nat)
  /-- Registers or removes the host atomic agent. (R458) -/
  | agentreg (pkg : Nat)
  /-- The agent's answer completes a host atomic or traps HOSTERR. (R459) -/
  | agentrsp (pkg : Nat)
  /-- A signed life-cycle request advances the state, wipes memory and resets, or is refused. (R474) -/
  | lcreq (pkg : Nat)
  /-- An entry of unknown type is answered 0xFF. (R458) -/
  | unknownEntry (pkg : Nat)
  /-- A host read through BAR2 is checked and performed at the home. (R460) -/
  | hostApertureRead (pkg : Nat) (off : Nat) (size : Size)
  /-- A host write through BAR2 is checked and performed at the home. (R460) -/
  | hostApertureWrite (pkg : Nat) (off : Nat) (size : Size) (val : BitVec 64)
  /-- A host AtomicOp through BAR2 is performed as an atomic at the home. (R460) -/
  | hostApertureAtomic (pkg : Nat) (off : Nat) (op : HostAop) (wide : Bool) (val : BitVec 64) (cmp : BitVec 64)
  /-- A host read stalled on an absent page for 4 ms completes with Completer Abort. (R460) -/
  | apertureReadTimeout (pkg : Nat) (req : Nat)
  /-- A host write to a BAR0 register with no row of its own stores the value. (R457) -/
  | registerWrite (pkg : Nat) (off : Nat) (val : BitVec 64)
  /-- Every millisecond each service pair sends a heartbeat. (R461) -/
  | heartbeatSend (die : Nat)
  /-- A leader's heartbeat expires, and the next die fences it, replays the journal and announces a new EGEN. (R461) -/
  | heartbeatTimeout (die : Nat)
  /-- A service pair accepts or rejects an announcement of a new leader. (R461) -/
  | leaderAnnouncement (die : Nat) (from_ : Nat) (egen : BitVec 32)
  /-- A service pair message resumes a frozen or halted thread. (R463) -/
  | threadResumeMessage (w0 : BitVec 64) (w1 : BitVec 64)
  /-- The service side executes an accepted call and writes its effects, RESULT and STATUS. (R466) -/
  | syscallExecute (call : Nat)
  /-- Every millisecond the core clock is lowered or raised by 100 MHz against TDP. (R477) -/
  | powerThrottle (pkg : Nat) (watts : Nat)
  /-- A sensor at 115 °C fences every cofferdam and resets the package. (R477) -/
  | thermalTrip (pkg : Nat)
  /-- The service pairs correct each die's time base toward the leader's. (R478) -/
  | timeBaseCorrection (die : Nat) (ns : Int)
  /-- A reset runs self-test, wipe, table set-up, link training and election, then sets READY. (R479) -/
  | packageReset (pkg : Nat)
  /-- A function-level reset of port 0 clears the ring registers and discards untaken entries. (R479) -/
  | functionLevelReset (pkg : Nat)
  /-- A core is marked marginal and held. (R480) -/
  | coreMarginal (core : Nat)
  /-- A marginal core is retested at the bins and readmitted or retired. (R481) -/
  | rebinning (core : Nat) (bin1 : Bool) (bin2 : Bool)
  /-- An SPDM request arrives through Data Object Exchange on port 0 and is answered with versions, capabilities, certificates, a challenge response or measurements, or with ERROR. (R474) -/
  | spdmRequest (pkg : Nat) (code : BitVec 8)
  /-- A wake sent by the service pair to a thread in MWAIT makes MWAIT return INTR. (R348) -/
  | servicePairIntrWake (tid : Nat)
  /-- A service pair writes device state through the management interfaces: TCM and scratchpad owners, deck grant table, hot and cool thresholds, storage target table, shadow reserve size, and ORPHAN clearing. (R248) -/
  | managementWrite (w : MgmtWrite)
  /-- A service pair makes a context live, taking the candidate NEXT + 1, setting NEXT and FLOOR and writing the incarnation into every endpoint's entry. (R439) -/
  | makeContextLive (dom : BitVec 12)
  /-- An uncorrectable data error in DRAM or deck marks the affected data poisoned, to be delivered as POISON at its next read. (R258) -/
  | dramDataError (addr : Nat)
deriving DecidableEq, Repr

end Sys2Proof
end

