-- ==== Sys2Proof/WellFormed.lean ====
section
/-! DEFINITION. Which terms of `Instr` are instructions that a word can hold: the register classes of R121, R122, R165,
R191 and the entries, the element types and limits of R124 to R127 and of each entry. An event has no word, so it is not
well formed in this sense. -/

namespace Sys2Proof

/-- A g register (R15). -/
def Reg.isG : Reg → Bool
  | .g _ => true
  | _ => false
/-- A v register (R15). -/
def Reg.isV : Reg → Bool
  | .v _ => true
  | _ => false
/-- An m register (R15). -/
def Reg.isM : Reg → Bool
  | .m _ => true
  | _ => false
/-- Register z (R15). -/
def Reg.isZ : Reg → Bool
  | .z => true
  | _ => false
/-- Register ip (R15). -/
def Reg.isIp : Reg → Bool
  | .ip => true
  | _ => false
/-- Register pw (R15). -/
def Reg.isPw : Reg → Bool
  | .pw => true
  | _ => false

/-- The take bit stands on g and v registers only (R121). -/
def Src.takeOk (s : Src) : Bool := !s.take || s.reg.isG || s.reg.isV
/-- A plain source: no take. -/
def Src.of (r : Reg) : Src := ⟨r, false⟩

/-- Destination classes g and z. -/
def gz (d : Reg) : Bool := d.isG || d.isZ
/-- Source class g, with take. -/
def gS (s : Src) : Bool := s.reg.isG
/-- Source classes g and z. -/
def gzS (s : Src) : Bool := s.takeOk && gz s.reg
/-- Source classes g and ip: the base of format M (R20). -/
def gipS (s : Src) : Bool := s.takeOk && (s.reg.isG || s.reg.isIp)
/-- Source classes g, z and ip (R165: JMP). -/
def gzipS (s : Src) : Bool := s.takeOk && (gz s.reg || s.reg.isIp)
/-- Source classes v and z. -/
def vzS (s : Src) : Bool := s.takeOk && (s.reg.isV || s.reg.isZ)
/-- Source classes v, g and z (R191). -/
def vgzS (s : Src) : Bool := s.takeOk && (s.reg.isV || gz s.reg)
/-- Destination classes m and z (R205). -/
def mz (d : Reg) : Bool := d.isM || d.isZ
/-- Source classes m and z (R205). -/
def mzS (s : Src) : Bool := s.takeOk && mz s.reg

/-- R165: destinations of the format A instructions 0x01 to 0x1D. -/
def aluD (d : Reg) : Bool := d.isG || d.isM || d.isZ
/-- R165: sources of the format A instructions 0x01 to 0x1D and CMP. -/
def aluS (s : Src) : Bool := s.takeOk && (s.reg.isG || s.reg.isM || s.reg.isZ || s.reg.isIp)
/-- R165: the second operand, a register or an immediate. -/
def opdS : Opd → Bool
  | .reg s => aluS s
  | .imm _ => true
/-- R165 for an instruction with two sources. -/
def aluOk (d : Reg) (a : Src) (b : Opd) : Bool := aluD d && aluS a && opdS b

/-- R122: the one shape of OR that names pw: 64 bits, register form, B = z. -/
def orPwOk (h : Bool) (d : Reg) (a : Src) (b : Opd) : Bool :=
  !h && b == .reg ⟨.z, false⟩ && (d.isPw || a.reg.isPw) && (d.isPw || aluD d) && (a == ⟨.pw, false⟩ || aluS a)

/-- R168: a divisor given as an immediate is not 0. -/
def immNonzero : Opd → Bool
  | .reg _ => true
  | .imm i => i != 0
/-- R168: a shift count given as an immediate lies in 0 to w - 1. -/
def immShift (h : Bool) : Opd → Bool
  | .reg _ => true
  | .imm i => i.toNat < (if h then 32 else 64)
/-- R169: the immediate control word of EXT: POS below w, LEN at most w, the other bits 0. -/
def extImm (h : Bool) : Opd → Bool
  | .reg _ => true
  | .imm i =>
    let w := if h then 32 else 64
    (i.extractLsb' 15 6 == 0) && (i.extractLsb' 6 2 == 0) && decide ((i.extractLsb' 0 6).toNat < w) &&
      decide ((i.extractLsb' 8 7).toNat ≤ w)

/-- R20: the base is g or ip, the index g or z. -/
def memOk (m : MemOp) : Bool := gipS m.base && gzS m.index

/-- A scope register is g or z (R335, R336). -/
def scopeOk : Scope → Bool
  | .reg s => gzS s
  | .sys => true
/-- R263: CORD's converting forms read a g register. -/
def cordOk : CordOp → Bool
  | .own | .ownL => true
  | .cl a | .lc a => a.reg.isG
/-- R366: SEND's payload lies within g0 to g15; without one its field is zero. -/
def sendOk (b : Src) (n : BitVec 3) : Bool :=
  match b.reg with
  | .g k => decide (n.toNat ≤ 4) && decide (k.val + n.toNat ≤ 16) && (n != 0 || (decide (k = 0) && !b.take))
  | _ => false

/-- Integer element types (R35, R36). -/
def ETyp.isInt : ETyp → Bool
  | .i8 | .i16 | .i32 | .i64 | .n8 | .n16 | .n32 | .n64 => true
  | .f32 | .f64 | .f16 | .e8m7 | .fna | .fnb => false
/-- Floating element types, the narrow ones included (R191, class F). -/
def ETyp.isFloat (t : ETyp) : Bool := !t.isInt
/-- The types that a format register describes. -/
def ETyp.isNarrow : ETyp → Bool
  | .fna | .fnb => true
  | _ => false
/-- R191, class Q. -/
def ETyp.isQ : ETyp → Bool
  | .f32 | .f16 | .e8m7 => true
  | _ => false
/-- Element count of a vector register (R185). -/
def ETyp.count : ETyp → Nat
  | .f64 | .i64 | .n64 => 16
  | _ => 32
/-- Width in bits of an integer or wide floating type (R36); a narrow type's width is in its format register. -/
def ETyp.fixedWidth : ETyp → Nat
  | .f64 | .i64 | .n64 => 64
  | .f32 | .i32 | .n32 => 32
  | .f16 | .e8m7 | .i16 | .n16 => 16
  | .i8 | .n8 => 8
  | .fna | .fnb => 8

/-- R199: the pair may round; RM is 0 for every other pair. -/
def canRound (st dt : ETyp) : Bool :=
  !(st == dt || (st.isInt && dt.isInt) || (st.isNarrow && (dt == .f32 || dt == .f64)) ||
    ((st == .f16 || st == .e8m7) && (dt == .f32 || dt == .f64)) || (st == .f32 && dt == .f64) ||
    ((st == .i8 || st == .n8) && (dt == .f16 || dt == .e8m7 || dt == .f32 || dt == .f64)) ||
    ((st == .i16 || st == .n16) && (dt == .f32 || dt == .f64)) || ((st == .i32 || st == .n32) && dt == .f64))

/-- R124: Z is 0 when MK is 0. -/
def VMask.ok (k : VMask) : Bool := !k.z || k.m != 0

/-- A register index or count is a g register; an immediate fits in its limit. -/
def shiftIdxOk (t : ETyp) : VIdx → Bool
  | .imm i => decide (i.toNat < t.fixedWidth)
  | .reg s => vgzS s
/-- R191: a lane index or rotation count. -/
def laneIdxOk (t : ETyp) : VIdx → Bool
  | .imm i => decide (i.toNat < t.count)
  | .reg s => s.reg.isG
/-- R126, R191: the conditions that VCMP accepts for a type. -/
def vcmpOk (cc : Cond) (t : ETyp) : Bool :=
  match cc with
  | .eq | .ne | .lt | .ge | .le | .gt => true
  | .ltn | .gen | .len | .gtn | .tst | .ntst => t.isInt
  | .un | .ord => t.isFloat
/-- R205: the second source of MOPS. -/
def mopsOk : MopsOp → Bool
  | .and b | .or b | .xor b | .andn b => mzS b
  | .not | .first | .below => true
/-- The row operand of TARD and TAWR. -/
def rowOk : RowSel → Bool
  | .imm _ => true
  | .reg s => s.reg.isG
/-- FMTLD reads a g register or z (R211). -/
def fmtldOk : FmtldOp → Bool
  | .a s | .b s => gS s
  | .fsh _ => true
/-- R294: a count of the bitstream instructions. -/
def bsnOk : Opd → Bool
  | .reg s => gzS s
  | .imm i => decide (1 ≤ i.toNat) && decide (i.toNat ≤ 64)
/-- An operand that a form may leave out. -/
def optGz : Option Src → Bool
  | none => true
  | some s => gzS s

/-- R415: SPWR may name the register. -/
def Spr.writable : Spr → Bool
  | .mode | .domid | .cinv | .thmeta => false
  | _ => true
/-- The registers that have a row of the opcode table of their own. -/
def Spr.isOwn : Spr → Bool
  | .typebase | .xlbase | .bnd0 | .bnd1 | .bnd2 => true
  | _ => false

/-- The operands of an instruction lie in the classes and limits its entry gives; `G = 0b1000` is never legal (R120).
An event has no word. (DEDUCED: log entries 63, 64) -/
def Instr.operandsOk : Instr → Bool
  | .add _ _ d a b => aluOk d a b
  | .sub _ _ d a b => aluOk d a b
  | .mul _ _ d a b => aluOk d a b
  | .mulh _ _ d a b => aluOk d a b
  | .mulhn _ _ d a b => aluOk d a b
  | .div _ _ d a b => aluOk d a b && immNonzero b
  | .divn _ _ d a b => aluOk d a b && immNonzero b
  | .rem _ _ d a b => aluOk d a b && immNonzero b
  | .remn _ _ d a b => aluOk d a b && immNonzero b
  | .and _ _ d a b => aluOk d a b
  | .or _ h d a b => (aluOk d a b || orPwOk h d a b)
  | .xor _ _ d a b => aluOk d a b
  | .andn _ _ d a b => aluOk d a b
  | .shl _ h d a b => aluOk d a b && immShift h b
  | .shr _ h d a b => aluOk d a b && immShift h b
  | .sar _ h d a b => aluOk d a b && immShift h b
  | .rot _ h d a b => aluOk d a b && immShift h b
  | .min _ _ d a b => aluOk d a b
  | .max _ _ d a b => aluOk d a b
  | .minn _ _ d a b => aluOk d a b
  | .maxn _ _ d a b => aluOk d a b
  | .clz _ _ d a => aluD d && aluS a
  | .ctz _ _ d a => aluD d && aluS a
  | .popc _ _ d a => aluD d && aluS a
  | .brev _ _ d a => aluD d && aluS a
  | .bswp _ _ d a => aluD d && aluS a
  | .ext _ h _ d a b => aluOk d a b && extImm h b
  | .dep _ _ d a b c => aluD d && aluS a && aluS b && aluS c
  | .sel _ _ _ _ d a b => aluOk d a b
  | .lea _ _ d m => gz d && memOk m && m.sp == 0
  | .movw _ d _ => gz d
  | .movh _ d _ => gz d
  | .cmp _ _ _ a b => aluS a && opdS b
  | .flop _ _ _ _ _ _ _ => true
  | .pwrd _ _ d => d.isG
  | .pwwr _ _ a => gzS a
  | .br _ _ => true
  | .brl _ d _ => gz d
  | .jmp _ a _ => gzipS a
  | .jmpl _ d a _ => gz d && gzipS a
  | .loop _ d _ => d.isG
  | .nop _ => true
  | .fadd _ _ _ d a b => gz d && gzS a && gzS b
  | .fsub _ _ _ d a b => gz d && gzS a && gzS b
  | .fmul _ _ _ d a b => gz d && gzS a && gzS b
  | .ffma _ _ _ d a b c => gz d && gzS a && gzS b && gzS c
  | .fdiv _ _ _ d a b => gz d && gzS a && gzS b
  | .fsqrt _ _ _ d a => gz d && gzS a
  | .fmin _ _ d a b => gz d && gzS a && gzS b
  | .fmax _ _ d a b => gz d && gzS a && gzS b
  | .fcmp _ _ _ _ a b => gzS a && gzS b
  | .fcvt _ rm dt ty d a => gz d && gzS a && !(dt.isInt && ty.isInt) && (canRound ty dt || rm == .rne)
  | .fsgn _ _ _ d a b => gz d && gzS a && gzS b
  | .fcls _ _ d a => gz d && gzS a
  | .ld _ z x d m => gz d && memOk m && m.sp != 3 && !(x && z == .w)
  | .st _ _ d m => gz d && memOk m && m.sp != 3
  | .ldf _ _ _ d m => gz d && memOk m && m.sp == 0
  | .stf _ _ _ d m => gz d && memOk m && m.sp == 0
  | .feset _ _ d m => gz d && memOk m && m.sp == 0
  | .feqry _ d m => gz d && memOk m && m.sp == 0
  | .lda _ _ d base _ sc => gz d && gipS base && scopeOk sc
  | .stl _ _ d base _ sc => gz d && gipS base && scopeOk sc
  | .fetch _ z x d m => d.isG && memOk m && m.sp != 3 && !(x && z == .w)
  | .pref _ m => memOk m && (m.sp == 0 || m.sp == 2)
  | .migr _ a => gzS a
  | .home _ d a => gz d && a.reg.isG
  | .cord _ d op => gz d && cordOk op
  | .spawn _ d a b c => gz d && gzS a && gzS b && gzS c
  | .exit _ => true
  | .yield _ => true
  | .yieldRq _ => true
  | .anch _ => true
  | .anchR _ => true
  | .marm _ m => memOk m && m.sp == 0
  | .marmClr _ => true
  | .mwait _ d a => gz d && gzS a
  | .binit _ a b c => a.reg.isG && b.reg.isG && c.reg.isG
  | .barv _ d a => gz d && a.reg.isG
  | .barvQ _ d a => gz d && a.reg.isG
  | .barw _ a b => a.reg.isG && b.reg.isG
  | .barwA _ a => a.reg.isG
  | .bdrop _ a => a.reg.isG
  | .semi _ _ b _ => gzS b
  | .sema _ _ b _ => gzS b
  | .semr _ d _ => gz d
  | .semw _ _ b _ => gzS b
  | .aadd _ _ d base _ b => gz d && gipS base && gzS b
  | .alog _ _ _ d base _ b => gz d && gipS base && gzS b
  | .amnx _ _ _ d base _ b => gz d && gipS base && gzS b
  | .axch _ _ d base _ b => gz d && gipS base && gzS b
  | .acas _ _ d base _ b => gz d && gipS base && gzS b
  | .afadd _ _ d base _ b => gz d && gipS base && gzS b
  | .fence _ _ sc => scopeOk sc
  | .push _ _ d m => gz d && memOk m && m.sp == 0
  | .pop _ _ d m => gz d && memOk m && m.sp == 0
  | .chinit _ d m => gz d && memOk m && m.sp == 0
  | .send _ d a b n => d.isG && gS a && sendOk b n
  | .sendm _ d a b c => d.isG && gS a && gS b && gS c
  | .recv _ a _ => gS a
  | .chbind _ a b _ => gS a && gzS b
  | .trdy _ _ _ d a => d.isG && gS a
  | .vadd _ sat t rm k d a b => d.isV && a.reg.isV && vgzS b && k.ok && (t.isInt || !sat) && (t.isFloat || rm == .rne)
  | .vsub _ sat t rm k d a b => d.isV && a.reg.isV && vgzS b && k.ok && (t.isInt || !sat) && (t.isFloat || rm == .rne)
  | .vmul _ sat t rm k d a b => d.isV && a.reg.isV && vgzS b && k.ok && (t.isInt || !sat) && (t.isFloat || rm == .rne)
  | .vfma _ t _ k d a b c => d.isV && a.reg.isV && vgzS b && vzS c && k.ok && t.isFloat
  | .vfms _ t _ k d a b c => d.isV && a.reg.isV && vgzS b && vzS c && k.ok && t.isFloat
  | .vfnma _ t _ k d a b c => d.isV && a.reg.isV && vgzS b && vzS c && k.ok && t.isFloat
  | .vmin _ _ k d a b => d.isV && a.reg.isV && vgzS b && k.ok
  | .vmax _ _ k d a b => d.isV && a.reg.isV && vgzS b && k.ok
  | .vabs _ sat t k d a => d.isV && a.reg.isV && k.ok && (t.isInt || !sat)
  | .vneg _ sat t k d a => d.isV && a.reg.isV && k.ok && (t.isInt || !sat)
  | .vdiv _ t _ k d a b => d.isV && a.reg.isV && vgzS b && k.ok && t.isFloat
  | .vsqrt _ t _ k d a => d.isV && a.reg.isV && k.ok && t.isFloat
  | .vrcp _ t _ k d a => d.isV && a.reg.isV && k.ok && t.isFloat
  | .vrsq _ t _ k d a => d.isV && a.reg.isV && k.ok && t.isFloat
  | .vexp2 _ t _ k d a => d.isV && a.reg.isV && k.ok && t.isFloat
  | .vlog2 _ t _ k d a => d.isV && a.reg.isV && k.ok && t.isFloat
  | .vand _ _ k d a b => d.isV && a.reg.isV && vgzS b && k.ok
  | .vor _ _ k d a b => d.isV && a.reg.isV && vgzS b && k.ok
  | .vxor _ _ k d a b => d.isV && a.reg.isV && vgzS b && k.ok
  | .vshl _ t k d a b => d.isV && a.reg.isV && k.ok && t.isInt && shiftIdxOk t b
  | .vshr _ t k d a b => d.isV && a.reg.isV && k.ok && t.isInt && shiftIdxOk t b
  | .vcmp _ cc t k d a b => d.isM && a.reg.isV && vgzS b && k.ok && vcmpOk cc t
  | .vsel _ _ k d a b c => d.isV && a.reg.isV && b.reg.isV && c.reg.isM && !c.take && k.ok
  | .vmov _ _ k d a => d.isV && a.reg.isV && k.ok
  | .vbcst _ _ k d a => d.isV && gzS a && k.ok
  | .vgetl _ t d a b => gz d && a.reg.isV && laneIdxOk t b
  | .vputl _ t d a b => d.isV && gzS a && laneIdxOk t b
  | .vperm _ _ k d a b => d.isV && a.reg.isV && b.reg.isV && k.ok
  | .vrot _ t k d a b => d.isV && a.reg.isV && k.ok && laneIdxOk t b
  | .vcvt _ hi dt ty rm k d a => d.isV && a.reg.isV && k.ok && (canRound ty dt || rm == .rne) && (!hi || dt.count != ty.count)
  | .vqnt _ _ t _ k d a => d.isV && a.reg.isV && k.ok && t.isQ && !k.z
  | .vdqnt _ _ t _ k d a => d.isV && a.reg.isV && k.ok && t.isQ
  | .vred _ op t rm k d a => gz d && !k.z && a.reg.isV && k.ok && ((op == .sum && t.isFloat) || rm == .rne)
  | .vscan _ op t rm k d a => d.isV && a.reg.isV && k.ok && ((op == .sum && t.isFloat) || rm == .rne)
  | .vld _ _ d m => d.isV && memOk m && m.sp != 3
  | .vst _ _ d m => d.isV && memOk m && m.sp != 3
  | .vlds _ t d m => d.isV && memOk m && m.sp != 3 && !t.isNarrow
  | .vsts _ t d m => d.isV && memOk m && m.sp != 3 && !t.isNarrow
  | .vgth _ t k _ d a b => d.isV && gipS a && b.reg.isV && k.ok && !t.isNarrow
  | .vsct _ t k _ d a b => d.isV && gipS a && b.reg.isV && k.ok && !t.isNarrow && !k.z
  | .mops _ op d a => mz d && mzS a && mopsOk op
  | .vidx _ t k _ d a => d.isV && gzS a && k.ok && t.isInt
  | .vdot _ t rm k d a b => gz d && a.reg.isV && b.reg.isV && k.ok && !k.z && (t.isFloat || rm == .rne)
  | .mxset _ a => gzS a
  | .mxrun _ _ => true
  | .mxsend _ a b _ => gzS a && gzS b
  | .tard _ t rm k d _ row => d.isV && rowOk row && k.ok && t.isQ && (t != .f32 || rm == .rne)
  | .tawr _ k a _ row => a.reg.isV && rowOk row && !k.z
  | .taz _ _ _ => true
  | .taq _ _ d => gz d
  | .fmtld _ op => fmtldOk op
  | .mxcap _ d a => gz d && gzS a
  | .tacc _ _ a b => gzS a && gzS b
  | .cpy _ _ dec cd a b _ => gzS a && gzS b && (cd != .none || !dec)
  | .cpyx _ a b _ => gzS a && gzS b
  | .strm _ _ _ a => a.reg.isG
  | .strcGet _ d _ => gz d
  | .strcPut _ _ a => gzS a
  | .strcEnd _ _ => true
  | .strcQ _ d _ => gz d
  | .cpq _ d q => gz d && decide (q.toNat ≤ 8)
  | .cpcan _ d q => gz d && decide (q.toNat ≤ 8)
  | .scout _ a _ => a.reg.isG
  | .stor _ _ _ a b _ => gzS a && gzS b
  | .gcopy _ d a b => gz d && a.reg.isG && gzS b
  | .gsend _ d a b => gz d && a.reg.isG && gzS b
  | .gcmp _ d a b => gz d && a.reg.isG && gzS b
  | .ghash _ d a b => gz d && a.reg.isG && gzS b
  | .gfree _ d a b => gz d && a.reg.isG && gzS b
  | .gtype _ d a p => gz d && a.reg.isG && optGz p
  | .gqry _ d a => gz d && a.reg.isG
  | .cjoin _ d a => gz d && a.reg.isG
  | .cjoinQ _ d a => gz d && a.reg.isG
  | .cjoinLv _ d a => gz d && a.reg.isG
  | .cred _ _ a b c => a.reg.isV && b.reg.isG && gzS c
  | .cmcst _ a b c => a.reg.isV && b.reg.isG && gzS c
  | .crcvMc _ d a b => d.isV && a.reg.isG && gz b
  | .crcvRed _ d a b => d.isV && a.reg.isG && gz b
  | .bsget _ d n => gz d && bsnOk n
  | .bspeek _ d n => gz d && bsnOk n
  | .bsput _ a n => gzS a && bsnOk n
  | .bsaln _ _ k => decide (k.toNat ≤ 6)
  | .bsfls _ => true
  | .qwait _ => true
  | .qtake _ d => gz d
  | .qdone _ a => gzS a
  | .sysc _ d a b => gz d && a.reg.isG && gzS b
  | .sysw _ d a => gz d && a.reg.isG
  | .trap _ _ => true
  | .rett _ _ => true
  | .sprd _ d _ => gz d
  | .spwr _ r a => gzS a && r.writable && !r.isOwn
  | .spwrTypebase _ a => gzS a
  | .spwrXlbase _ a => gzS a
  | .spwrBnd _ n a => gzS a && n != 3
  | .time _ d => gz d
  | .launch _ d a => gz d && gzS a
  | .qctl _ d a => gz d && gzS a
  | .qctlWr _ d a b => gz d && gzS a && gzS b
  | .qctlRst _ d a => gz d && gzS a
  | .kill _ d a b => gz d && gzS a && gzS b
  | .killZ _ d a b => gz d && gzS a && gzS b
  | .rclf _ d a b => gz d && gzS a && gzS b
  | .gang _ d a => d.isG && gS a
  | .plbinv _ d va b => gz d && optGz va && gzS b
  | .xlinv _ d va b => gz d && optGz va && gzS b
  | .pair _ d a => d.isG && gS a
  | .pairOff _ d a => d.isG && gS a
  | .fpck _ d => d.isG
  | .coff _ d a => gz d && gzS a
  | .coffDef _ d a => gz d && gzS a
  | .coffLift _ d a => gz d && gzS a
  | .lsync _ => true
  | .wipe _ d a b => gz d && gzS a && gzS b
  | .halt _ _ => true
  | .extl _ d => gz d
  | .thrm _ d a => gz d && gzS a
  | .thrmSet _ a b => gzS a && gzS b
  | .repl _ d a => gz d && gzS a
  | .replQ _ d a => gz d && gzS a
  | .bndWriteApply _ => false
  | .qctlWriteApply _ => false
  | .barrelSelect _ => false
  | .slotLoadDone _ => false
  | .slotFill _ _ => false
  | .imageArrival _ => false
  | .restingStateReload _ => false
  | .thermalRankRewrite _ _ => false
  | .slotDisable _ => false
  | .slotReenable _ => false
  | .thermalDisplacement _ => false
  | .waitlimExpiry _ => false
  | .mwaitTimeout _ => false
  | .monitorTrigger _ => false
  | .watchRegistrationAck _ => false
  | .responseArrival _ => false
  | .storeAck _ => false
  | .homeReadWrite _ => false
  | .tagRequestAtHome _ => false
  | .proxyContinuation _ => false
  | .atomicReservationGrant _ => false
  | .hostAtomic _ _ => false
  | .agentTimeout _ => false
  | .wake _ _ => false
  | .xlinvUnitAck _ _ => false
  | .launchPacketAccept _ _ => false
  | .launchReservationPlace _ => false
  | .launchStart _ _ => false
  | .multiPackageHoldRelease _ _ => false
  | .launchArrival _ _ => false
  | .launchStartMessage _ _ => false
  | .startTimeRelease _ _ => false
  | .startBarrierCancel _ => false
  | .launchRetire _ => false
  | .launchStrike _ => false
  | .launchReplay _ => false
  | .channelMessageArrival _ => false
  | .placementSwap _ _ => false
  | .extensionDirectoryWrite _ _ _ _ => false
  | .cpyCommandStart _ _ => false
  | .cpyCommandComplete _ _ => false
  | .custItemEnqueue _ _ => false
  | .arenaPlacement _ _ => false
  | .bulkMessagePlacement _ => false
  | .storageBlockCheck _ _ => false
  | .storageBlockComplete _ _ _ => false
  | .mxCommandStart _ => false
  | .mxCommandComplete _ => false
  | .remoteCommandArrival _ => false
  | .tazPerform _ => false
  | .taccRow _ => false
  | .graphWalkStart _ => false
  | .graphLineRead _ => false
  | .graphSweep _ => false
  | .graphWalkComplete _ => false
  | .channelOpAtHome _ => false
  | .pairMatch _ _ => false
  | .pairHoldExpiry _ => false
  | .routerCycle _ => false
  | .injectionStarvation _ => false
  | .flitNack _ _ => false
  | .parkedFlitResend _ => false
  | .linkPacketReceive _ _ => false
  | .linkReplayTimeout _ => false
  | .linkNegativeAck _ => false
  | .linkWidthChange _ _ => false
  | .linkFail _ => false
  | .mcastNode _ => false
  | .mcastDelivery _ _ => false
  | .setupArrival _ => false
  | .contribArrival _ => false
  | .trestleCombine _ _ => false
  | .gangStop _ _ => false
  | .gangFallOut _ => false
  | .gangRestore _ _ => false
  | .gangStart _ => false
  | .fingerprintExchange _ _ _ => false
  | .killMarkerPass _ _ => false
  | .rclfWave _ => false
  | .uncorrectableError _ => false
  | .h2dDoorbell _ _ => false
  | .mbLaunch _ => false
  | .capload _ => false
  | .capdrop _ => false
  | .agentreg _ => false
  | .agentrsp _ => false
  | .lcreq _ => false
  | .unknownEntry _ => false
  | .hostApertureRead _ _ _ => false
  | .hostApertureWrite _ _ _ _ => false
  | .hostApertureAtomic _ _ _ _ _ _ => false
  | .apertureReadTimeout _ _ => false
  | .registerWrite _ _ _ => false
  | .heartbeatSend _ => false
  | .heartbeatTimeout _ => false
  | .leaderAnnouncement _ _ _ => false
  | .threadResumeMessage _ _ => false
  | .syscallExecute _ => false
  | .powerThrottle _ _ => false
  | .thermalTrip _ => false
  | .timeBaseCorrection _ _ => false
  | .packageReset _ => false
  | .functionLevelReset _ => false
  | .coreMarginal _ => false
  | .rebinning _ _ _ => false
  | .spdmRequest _ _ => false
  | .servicePairIntrWake _ => false
  | .managementWrite _ => false
  | .makeContextLive _ => false
  | .dramDataError _ => false

/-- The guard of an instruction; an event has none. -/
def Instr.guard : Instr → Guard
  | .add g _ _ _ _ => g
  | .sub g _ _ _ _ => g
  | .mul g _ _ _ _ => g
  | .mulh g _ _ _ _ => g
  | .mulhn g _ _ _ _ => g
  | .div g _ _ _ _ => g
  | .divn g _ _ _ _ => g
  | .rem g _ _ _ _ => g
  | .remn g _ _ _ _ => g
  | .and g _ _ _ _ => g
  | .or g _ _ _ _ => g
  | .xor g _ _ _ _ => g
  | .andn g _ _ _ _ => g
  | .shl g _ _ _ _ => g
  | .shr g _ _ _ _ => g
  | .sar g _ _ _ _ => g
  | .rot g _ _ _ _ => g
  | .min g _ _ _ _ => g
  | .max g _ _ _ _ => g
  | .minn g _ _ _ _ => g
  | .maxn g _ _ _ _ => g
  | .clz g _ _ _ => g
  | .ctz g _ _ _ => g
  | .popc g _ _ _ => g
  | .brev g _ _ _ => g
  | .bswp g _ _ _ => g
  | .ext g _ _ _ _ _ => g
  | .dep g _ _ _ _ _ => g
  | .sel g _ _ _ _ _ _ => g
  | .lea g _ _ _ => g
  | .movw g _ _ => g
  | .movh g _ _ => g
  | .cmp g _ _ _ _ => g
  | .flop g _ _ _ _ _ _ => g
  | .pwrd g _ _ => g
  | .pwwr g _ _ => g
  | .br g _ => g
  | .brl g _ _ => g
  | .jmp g _ _ => g
  | .jmpl g _ _ _ => g
  | .loop g _ _ => g
  | .nop g => g
  | .fadd g _ _ _ _ _ => g
  | .fsub g _ _ _ _ _ => g
  | .fmul g _ _ _ _ _ => g
  | .ffma g _ _ _ _ _ _ => g
  | .fdiv g _ _ _ _ _ => g
  | .fsqrt g _ _ _ _ => g
  | .fmin g _ _ _ _ => g
  | .fmax g _ _ _ _ => g
  | .fcmp g _ _ _ _ _ => g
  | .fcvt g _ _ _ _ _ => g
  | .fsgn g _ _ _ _ _ => g
  | .fcls g _ _ _ => g
  | .ld g _ _ _ _ => g
  | .st g _ _ _ => g
  | .ldf g _ _ _ _ => g
  | .stf g _ _ _ _ => g
  | .feset g _ _ _ => g
  | .feqry g _ _ => g
  | .lda g _ _ _ _ _ => g
  | .stl g _ _ _ _ _ => g
  | .fetch g _ _ _ _ => g
  | .pref g _ => g
  | .migr g _ => g
  | .home g _ _ => g
  | .cord g _ _ => g
  | .spawn g _ _ _ _ => g
  | .exit g => g
  | .yield g => g
  | .yieldRq g => g
  | .anch g => g
  | .anchR g => g
  | .marm g _ => g
  | .marmClr g => g
  | .mwait g _ _ => g
  | .binit g _ _ _ => g
  | .barv g _ _ => g
  | .barvQ g _ _ => g
  | .barw g _ _ => g
  | .barwA g _ => g
  | .bdrop g _ => g
  | .semi g _ _ _ => g
  | .sema g _ _ _ => g
  | .semr g _ _ => g
  | .semw g _ _ _ => g
  | .aadd g _ _ _ _ _ => g
  | .alog g _ _ _ _ _ _ => g
  | .amnx g _ _ _ _ _ _ => g
  | .axch g _ _ _ _ _ => g
  | .acas g _ _ _ _ _ => g
  | .afadd g _ _ _ _ _ => g
  | .fence g _ _ => g
  | .push g _ _ _ => g
  | .pop g _ _ _ => g
  | .chinit g _ _ => g
  | .send g _ _ _ _ => g
  | .sendm g _ _ _ _ => g
  | .recv g _ _ => g
  | .chbind g _ _ _ => g
  | .trdy g _ _ _ _ => g
  | .vadd g _ _ _ _ _ _ _ => g
  | .vsub g _ _ _ _ _ _ _ => g
  | .vmul g _ _ _ _ _ _ _ => g
  | .vfma g _ _ _ _ _ _ _ => g
  | .vfms g _ _ _ _ _ _ _ => g
  | .vfnma g _ _ _ _ _ _ _ => g
  | .vmin g _ _ _ _ _ => g
  | .vmax g _ _ _ _ _ => g
  | .vabs g _ _ _ _ _ => g
  | .vneg g _ _ _ _ _ => g
  | .vdiv g _ _ _ _ _ _ => g
  | .vsqrt g _ _ _ _ _ => g
  | .vrcp g _ _ _ _ _ => g
  | .vrsq g _ _ _ _ _ => g
  | .vexp2 g _ _ _ _ _ => g
  | .vlog2 g _ _ _ _ _ => g
  | .vand g _ _ _ _ _ => g
  | .vor g _ _ _ _ _ => g
  | .vxor g _ _ _ _ _ => g
  | .vshl g _ _ _ _ _ => g
  | .vshr g _ _ _ _ _ => g
  | .vcmp g _ _ _ _ _ _ => g
  | .vsel g _ _ _ _ _ _ => g
  | .vmov g _ _ _ _ => g
  | .vbcst g _ _ _ _ => g
  | .vgetl g _ _ _ _ => g
  | .vputl g _ _ _ _ => g
  | .vperm g _ _ _ _ _ => g
  | .vrot g _ _ _ _ _ => g
  | .vcvt g _ _ _ _ _ _ _ => g
  | .vqnt g _ _ _ _ _ _ => g
  | .vdqnt g _ _ _ _ _ _ => g
  | .vred g _ _ _ _ _ _ => g
  | .vscan g _ _ _ _ _ _ => g
  | .vld g _ _ _ => g
  | .vst g _ _ _ => g
  | .vlds g _ _ _ => g
  | .vsts g _ _ _ => g
  | .vgth g _ _ _ _ _ _ => g
  | .vsct g _ _ _ _ _ _ => g
  | .mops g _ _ _ => g
  | .vidx g _ _ _ _ _ => g
  | .vdot g _ _ _ _ _ _ => g
  | .mxset g _ => g
  | .mxrun g _ => g
  | .mxsend g _ _ _ => g
  | .tard g _ _ _ _ _ _ => g
  | .tawr g _ _ _ _ => g
  | .taz g _ _ => g
  | .taq g _ _ => g
  | .fmtld g _ => g
  | .mxcap g _ _ => g
  | .tacc g _ _ _ => g
  | .cpy g _ _ _ _ _ _ => g
  | .cpyx g _ _ _ => g
  | .strm g _ _ _ => g
  | .strcGet g _ _ => g
  | .strcPut g _ _ => g
  | .strcEnd g _ => g
  | .strcQ g _ _ => g
  | .cpq g _ _ => g
  | .cpcan g _ _ => g
  | .scout g _ _ => g
  | .stor g _ _ _ _ _ => g
  | .gcopy g _ _ _ => g
  | .gsend g _ _ _ => g
  | .gcmp g _ _ _ => g
  | .ghash g _ _ _ => g
  | .gfree g _ _ _ => g
  | .gtype g _ _ _ => g
  | .gqry g _ _ => g
  | .cjoin g _ _ => g
  | .cjoinQ g _ _ => g
  | .cjoinLv g _ _ => g
  | .cred g _ _ _ _ => g
  | .cmcst g _ _ _ => g
  | .crcvMc g _ _ _ => g
  | .crcvRed g _ _ _ => g
  | .bsget g _ _ => g
  | .bspeek g _ _ => g
  | .bsput g _ _ => g
  | .bsaln g _ _ => g
  | .bsfls g => g
  | .qwait g => g
  | .qtake g _ => g
  | .qdone g _ => g
  | .sysc g _ _ _ => g
  | .sysw g _ _ => g
  | .trap g _ => g
  | .rett g _ => g
  | .sprd g _ _ => g
  | .spwr g _ _ => g
  | .spwrTypebase g _ => g
  | .spwrXlbase g _ => g
  | .spwrBnd g _ _ => g
  | .time g _ => g
  | .launch g _ _ => g
  | .qctl g _ _ => g
  | .qctlWr g _ _ _ => g
  | .qctlRst g _ _ => g
  | .kill g _ _ _ => g
  | .killZ g _ _ _ => g
  | .rclf g _ _ _ => g
  | .gang g _ _ => g
  | .plbinv g _ _ _ => g
  | .xlinv g _ _ _ => g
  | .pair g _ _ => g
  | .pairOff g _ _ => g
  | .fpck g _ => g
  | .coff g _ _ => g
  | .coffDef g _ _ => g
  | .coffLift g _ _ => g
  | .lsync g => g
  | .wipe g _ _ _ => g
  | .halt g _ => g
  | .extl g _ => g
  | .thrm g _ _ => g
  | .thrmSet g _ _ => g
  | .repl g _ _ => g
  | .replQ g _ _ => g
  | .bndWriteApply _ => 0
  | .qctlWriteApply _ => 0
  | .barrelSelect _ => 0
  | .slotLoadDone _ => 0
  | .slotFill _ _ => 0
  | .imageArrival _ => 0
  | .restingStateReload _ => 0
  | .thermalRankRewrite _ _ => 0
  | .slotDisable _ => 0
  | .slotReenable _ => 0
  | .thermalDisplacement _ => 0
  | .waitlimExpiry _ => 0
  | .mwaitTimeout _ => 0
  | .monitorTrigger _ => 0
  | .watchRegistrationAck _ => 0
  | .responseArrival _ => 0
  | .storeAck _ => 0
  | .homeReadWrite _ => 0
  | .tagRequestAtHome _ => 0
  | .proxyContinuation _ => 0
  | .atomicReservationGrant _ => 0
  | .hostAtomic _ _ => 0
  | .agentTimeout _ => 0
  | .wake _ _ => 0
  | .xlinvUnitAck _ _ => 0
  | .launchPacketAccept _ _ => 0
  | .launchReservationPlace _ => 0
  | .launchStart _ _ => 0
  | .multiPackageHoldRelease _ _ => 0
  | .launchArrival _ _ => 0
  | .launchStartMessage _ _ => 0
  | .startTimeRelease _ _ => 0
  | .startBarrierCancel _ => 0
  | .launchRetire _ => 0
  | .launchStrike _ => 0
  | .launchReplay _ => 0
  | .channelMessageArrival _ => 0
  | .placementSwap _ _ => 0
  | .extensionDirectoryWrite _ _ _ _ => 0
  | .cpyCommandStart _ _ => 0
  | .cpyCommandComplete _ _ => 0
  | .custItemEnqueue _ _ => 0
  | .arenaPlacement _ _ => 0
  | .bulkMessagePlacement _ => 0
  | .storageBlockCheck _ _ => 0
  | .storageBlockComplete _ _ _ => 0
  | .mxCommandStart _ => 0
  | .mxCommandComplete _ => 0
  | .remoteCommandArrival _ => 0
  | .tazPerform _ => 0
  | .taccRow _ => 0
  | .graphWalkStart _ => 0
  | .graphLineRead _ => 0
  | .graphSweep _ => 0
  | .graphWalkComplete _ => 0
  | .channelOpAtHome _ => 0
  | .pairMatch _ _ => 0
  | .pairHoldExpiry _ => 0
  | .routerCycle _ => 0
  | .injectionStarvation _ => 0
  | .flitNack _ _ => 0
  | .parkedFlitResend _ => 0
  | .linkPacketReceive _ _ => 0
  | .linkReplayTimeout _ => 0
  | .linkNegativeAck _ => 0
  | .linkWidthChange _ _ => 0
  | .linkFail _ => 0
  | .mcastNode _ => 0
  | .mcastDelivery _ _ => 0
  | .setupArrival _ => 0
  | .contribArrival _ => 0
  | .trestleCombine _ _ => 0
  | .gangStop _ _ => 0
  | .gangFallOut _ => 0
  | .gangRestore _ _ => 0
  | .gangStart _ => 0
  | .fingerprintExchange _ _ _ => 0
  | .killMarkerPass _ _ => 0
  | .rclfWave _ => 0
  | .uncorrectableError _ => 0
  | .h2dDoorbell _ _ => 0
  | .mbLaunch _ => 0
  | .capload _ => 0
  | .capdrop _ => 0
  | .agentreg _ => 0
  | .agentrsp _ => 0
  | .lcreq _ => 0
  | .unknownEntry _ => 0
  | .hostApertureRead _ _ _ => 0
  | .hostApertureWrite _ _ _ _ => 0
  | .hostApertureAtomic _ _ _ _ _ _ => 0
  | .apertureReadTimeout _ _ => 0
  | .registerWrite _ _ _ => 0
  | .heartbeatSend _ => 0
  | .heartbeatTimeout _ => 0
  | .leaderAnnouncement _ _ _ => 0
  | .threadResumeMessage _ _ => 0
  | .syscallExecute _ => 0
  | .powerThrottle _ _ => 0
  | .thermalTrip _ => 0
  | .timeBaseCorrection _ _ => 0
  | .packageReset _ => 0
  | .functionLevelReset _ => 0
  | .coreMarginal _ => 0
  | .rebinning _ _ _ => 0
  | .spdmRequest _ _ => 0
  | .servicePairIntrWake _ => 0
  | .managementWrite _ => 0
  | .makeContextLive _ => 0
  | .dramDataError _ => 0

/-- A well-formed instruction: legal operands and a guard other than 0b1000 (R120, R135). -/
def Instr.wf (i : Instr) : Bool := i.operandsOk && i.guard != 8

/-- The events, which no word encodes: the steps of 95 that the device takes without an instruction. -/
def Instr.isEvent : Instr → Bool
  | .add .. => false
  | .sub .. => false
  | .mul .. => false
  | .mulh .. => false
  | .mulhn .. => false
  | .div .. => false
  | .divn .. => false
  | .rem .. => false
  | .remn .. => false
  | .and .. => false
  | .or .. => false
  | .xor .. => false
  | .andn .. => false
  | .shl .. => false
  | .shr .. => false
  | .sar .. => false
  | .rot .. => false
  | .min .. => false
  | .max .. => false
  | .minn .. => false
  | .maxn .. => false
  | .clz .. => false
  | .ctz .. => false
  | .popc .. => false
  | .brev .. => false
  | .bswp .. => false
  | .ext .. => false
  | .dep .. => false
  | .sel .. => false
  | .lea .. => false
  | .movw .. => false
  | .movh .. => false
  | .cmp .. => false
  | .flop .. => false
  | .pwrd .. => false
  | .pwwr .. => false
  | .br .. => false
  | .brl .. => false
  | .jmp .. => false
  | .jmpl .. => false
  | .loop .. => false
  | .nop .. => false
  | .fadd .. => false
  | .fsub .. => false
  | .fmul .. => false
  | .ffma .. => false
  | .fdiv .. => false
  | .fsqrt .. => false
  | .fmin .. => false
  | .fmax .. => false
  | .fcmp .. => false
  | .fcvt .. => false
  | .fsgn .. => false
  | .fcls .. => false
  | .ld .. => false
  | .st .. => false
  | .ldf .. => false
  | .stf .. => false
  | .feset .. => false
  | .feqry .. => false
  | .lda .. => false
  | .stl .. => false
  | .fetch .. => false
  | .pref .. => false
  | .migr .. => false
  | .home .. => false
  | .cord .. => false
  | .spawn .. => false
  | .exit .. => false
  | .yield .. => false
  | .yieldRq .. => false
  | .anch .. => false
  | .anchR .. => false
  | .marm .. => false
  | .marmClr .. => false
  | .mwait .. => false
  | .binit .. => false
  | .barv .. => false
  | .barvQ .. => false
  | .barw .. => false
  | .barwA .. => false
  | .bdrop .. => false
  | .semi .. => false
  | .sema .. => false
  | .semr .. => false
  | .semw .. => false
  | .aadd .. => false
  | .alog .. => false
  | .amnx .. => false
  | .axch .. => false
  | .acas .. => false
  | .afadd .. => false
  | .fence .. => false
  | .push .. => false
  | .pop .. => false
  | .chinit .. => false
  | .send .. => false
  | .sendm .. => false
  | .recv .. => false
  | .chbind .. => false
  | .trdy .. => false
  | .vadd .. => false
  | .vsub .. => false
  | .vmul .. => false
  | .vfma .. => false
  | .vfms .. => false
  | .vfnma .. => false
  | .vmin .. => false
  | .vmax .. => false
  | .vabs .. => false
  | .vneg .. => false
  | .vdiv .. => false
  | .vsqrt .. => false
  | .vrcp .. => false
  | .vrsq .. => false
  | .vexp2 .. => false
  | .vlog2 .. => false
  | .vand .. => false
  | .vor .. => false
  | .vxor .. => false
  | .vshl .. => false
  | .vshr .. => false
  | .vcmp .. => false
  | .vsel .. => false
  | .vmov .. => false
  | .vbcst .. => false
  | .vgetl .. => false
  | .vputl .. => false
  | .vperm .. => false
  | .vrot .. => false
  | .vcvt .. => false
  | .vqnt .. => false
  | .vdqnt .. => false
  | .vred .. => false
  | .vscan .. => false
  | .vld .. => false
  | .vst .. => false
  | .vlds .. => false
  | .vsts .. => false
  | .vgth .. => false
  | .vsct .. => false
  | .mops .. => false
  | .vidx .. => false
  | .vdot .. => false
  | .mxset .. => false
  | .mxrun .. => false
  | .mxsend .. => false
  | .tard .. => false
  | .tawr .. => false
  | .taz .. => false
  | .taq .. => false
  | .fmtld .. => false
  | .mxcap .. => false
  | .tacc .. => false
  | .cpy .. => false
  | .cpyx .. => false
  | .strm .. => false
  | .strcGet .. => false
  | .strcPut .. => false
  | .strcEnd .. => false
  | .strcQ .. => false
  | .cpq .. => false
  | .cpcan .. => false
  | .scout .. => false
  | .stor .. => false
  | .gcopy .. => false
  | .gsend .. => false
  | .gcmp .. => false
  | .ghash .. => false
  | .gfree .. => false
  | .gtype .. => false
  | .gqry .. => false
  | .cjoin .. => false
  | .cjoinQ .. => false
  | .cjoinLv .. => false
  | .cred .. => false
  | .cmcst .. => false
  | .crcvMc .. => false
  | .crcvRed .. => false
  | .bsget .. => false
  | .bspeek .. => false
  | .bsput .. => false
  | .bsaln .. => false
  | .bsfls .. => false
  | .qwait .. => false
  | .qtake .. => false
  | .qdone .. => false
  | .sysc .. => false
  | .sysw .. => false
  | .trap .. => false
  | .rett .. => false
  | .sprd .. => false
  | .spwr .. => false
  | .spwrTypebase .. => false
  | .spwrXlbase .. => false
  | .spwrBnd .. => false
  | .time .. => false
  | .launch .. => false
  | .qctl .. => false
  | .qctlWr .. => false
  | .qctlRst .. => false
  | .kill .. => false
  | .killZ .. => false
  | .rclf .. => false
  | .gang .. => false
  | .plbinv .. => false
  | .xlinv .. => false
  | .pair .. => false
  | .pairOff .. => false
  | .fpck .. => false
  | .coff .. => false
  | .coffDef .. => false
  | .coffLift .. => false
  | .lsync .. => false
  | .wipe .. => false
  | .halt .. => false
  | .extl .. => false
  | .thrm .. => false
  | .thrmSet .. => false
  | .repl .. => false
  | .replQ .. => false
  | .bndWriteApply .. => true
  | .qctlWriteApply .. => true
  | .barrelSelect .. => true
  | .slotLoadDone .. => true
  | .slotFill .. => true
  | .imageArrival .. => true
  | .restingStateReload .. => true
  | .thermalRankRewrite .. => true
  | .slotDisable .. => true
  | .slotReenable .. => true
  | .thermalDisplacement .. => true
  | .waitlimExpiry .. => true
  | .mwaitTimeout .. => true
  | .monitorTrigger .. => true
  | .watchRegistrationAck .. => true
  | .responseArrival .. => true
  | .storeAck .. => true
  | .homeReadWrite .. => true
  | .tagRequestAtHome .. => true
  | .proxyContinuation .. => true
  | .atomicReservationGrant .. => true
  | .hostAtomic .. => true
  | .agentTimeout .. => true
  | .wake .. => true
  | .xlinvUnitAck .. => true
  | .launchPacketAccept .. => true
  | .launchReservationPlace .. => true
  | .launchStart .. => true
  | .multiPackageHoldRelease .. => true
  | .launchArrival .. => true
  | .launchStartMessage .. => true
  | .startTimeRelease .. => true
  | .startBarrierCancel .. => true
  | .launchRetire .. => true
  | .launchStrike .. => true
  | .launchReplay .. => true
  | .channelMessageArrival .. => true
  | .placementSwap .. => true
  | .extensionDirectoryWrite .. => true
  | .cpyCommandStart .. => true
  | .cpyCommandComplete .. => true
  | .custItemEnqueue .. => true
  | .arenaPlacement .. => true
  | .bulkMessagePlacement .. => true
  | .storageBlockCheck .. => true
  | .storageBlockComplete .. => true
  | .mxCommandStart .. => true
  | .mxCommandComplete .. => true
  | .remoteCommandArrival .. => true
  | .tazPerform .. => true
  | .taccRow .. => true
  | .graphWalkStart .. => true
  | .graphLineRead .. => true
  | .graphSweep .. => true
  | .graphWalkComplete .. => true
  | .channelOpAtHome .. => true
  | .pairMatch .. => true
  | .pairHoldExpiry .. => true
  | .routerCycle .. => true
  | .injectionStarvation .. => true
  | .flitNack .. => true
  | .parkedFlitResend .. => true
  | .linkPacketReceive .. => true
  | .linkReplayTimeout .. => true
  | .linkNegativeAck .. => true
  | .linkWidthChange .. => true
  | .linkFail .. => true
  | .mcastNode .. => true
  | .mcastDelivery .. => true
  | .setupArrival .. => true
  | .contribArrival .. => true
  | .trestleCombine .. => true
  | .gangStop .. => true
  | .gangFallOut .. => true
  | .gangRestore .. => true
  | .gangStart .. => true
  | .fingerprintExchange .. => true
  | .killMarkerPass .. => true
  | .rclfWave .. => true
  | .uncorrectableError .. => true
  | .h2dDoorbell .. => true
  | .mbLaunch .. => true
  | .capload .. => true
  | .capdrop .. => true
  | .agentreg .. => true
  | .agentrsp .. => true
  | .lcreq .. => true
  | .unknownEntry .. => true
  | .hostApertureRead .. => true
  | .hostApertureWrite .. => true
  | .hostApertureAtomic .. => true
  | .apertureReadTimeout .. => true
  | .registerWrite .. => true
  | .heartbeatSend .. => true
  | .heartbeatTimeout .. => true
  | .leaderAnnouncement .. => true
  | .threadResumeMessage .. => true
  | .syscallExecute .. => true
  | .powerThrottle .. => true
  | .thermalTrip .. => true
  | .timeBaseCorrection .. => true
  | .packageReset .. => true
  | .functionLevelReset .. => true
  | .coreMarginal .. => true
  | .rebinning .. => true
  | .spdmRequest .. => true
  | .servicePairIntrWake .. => true
  | .managementWrite .. => true
  | .makeContextLive .. => true
  | .dramDataError .. => true

end Sys2Proof
end

