-- ==== Sys2Proof/Decode.lean ====
section
/-! DEFINITION. The codes of every field (R15, R36, R48, R121 to R127 and the entries), the encoder `encode`, and the
decoder `decode`, total on any 64-bit word. The decoder extracts fields, builds the instruction, checks its operands
(`Instr.wf`) and accepts the word only when it is exactly the encoding of that instruction, so that every field the form
does not use is zero (R125). -/

namespace Sys2Proof

/-! ### Codes -/

/-- R15: the number of a register. -/
def Reg.code : Reg → BitVec 6
  | .g n => BitVec.ofNat 6 n.val
  | .v n => BitVec.ofNat 6 (16 + n.val)
  | .m n => BitVec.ofNat 6 (48 + n.val)
  | .sm n => BitVec.ofNat 6 (56 + n.val)
  | .z => 60
  | .pw => 61
  | .ip => 62
/-- R15: the register of a number. -/
def Reg.ofNat (n : Nat) : Option Reg :=
  if h : n < 16 then some (.g ⟨n, h⟩)
  else if h : n < 48 then some (.v ⟨n - 16, by omega⟩)
  else if h : n < 56 then some (.m ⟨n - 48, by omega⟩)
  else if h : n < 60 then some (.sm ⟨n - 56, by omega⟩)
  else if n = 60 then some .z
  else if n = 61 then some .pw
  else if n = 62 then some .ip
  else none
/-- R121: a source field. -/
def Src.code (s : Src) : BitVec 7 := BitVec.ofBool s.take ++ s.reg.code
/-- An operand that a form may leave out: zero when absent. -/
def optCode : Option Src → BitVec 7
  | none => 0
  | some s => s.code

/-- R36. -/
def ETyp.code : ETyp → BitVec 4
  | .f32 => 0 | .f64 => 1 | .f16 => 2 | .e8m7 => 3 | .i8 => 4 | .i16 => 5 | .i32 => 6 | .i64 => 7
  | .n8 => 8 | .n16 => 9 | .n32 => 10 | .n64 => 11 | .fna => 12 | .fnb => 13
/-- R36. -/
def ETyp.ofCode (c : BitVec 4) : Option ETyp :=
  match c.toNat with
  | 0 => some .f32 | 1 => some .f64 | 2 => some .f16 | 3 => some .e8m7 | 4 => some .i8 | 5 => some .i16
  | 6 => some .i32 | 7 => some .i64 | 8 => some .n8 | 9 => some .n16 | 10 => some .n32 | 11 => some .n64
  | 12 => some .fna | 13 => some .fnb | _ => none
/-- R48. -/
def RM.code : RM → BitVec 3
  | .rne => 0 | .rtz => 1 | .rdn => 2 | .rup => 3 | .rna => 4 | .sr => 5 | .dyn => 6
/-- R48. -/
def RM.ofCode (c : BitVec 3) : Option RM :=
  match c.toNat with
  | 0 => some .rne | 1 => some .rtz | 2 => some .rdn | 3 => some .rup | 4 => some .rna | 5 => some .sr
  | 6 => some .dyn | _ => none
/-- R127: sizes in SUB[1:0]. -/
def Size.code : Size → BitVec 4
  | .b => 0 | .q => 1 | .h => 2 | .w => 3
/-- R127. -/
def Size.ofCode (c : BitVec 2) : Size :=
  match c.toNat with
  | 0 => .b | 1 => .q | 2 => .h | _ => .w
/-- R126. -/
def Cond.code : Cond → BitVec 4
  | .eq => 0 | .ne => 1 | .lt => 2 | .ge => 3 | .le => 4 | .gt => 5 | .ltn => 6 | .gen => 7 | .len => 8 | .gtn => 9
  | .tst => 10 | .ntst => 11 | .un => 12 | .ord => 13
/-- R126. -/
def Cond.ofCode (c : BitVec 4) : Option Cond :=
  match c.toNat with
  | 0 => some .eq | 1 => some .ne | 2 => some .lt | 3 => some .ge | 4 => some .le | 5 => some .gt | 6 => some .ltn
  | 7 => some .gen | 8 => some .len | 9 => some .gtn | 10 => some .tst | 11 => some .ntst | 12 => some .un
  | 13 => some .ord | _ => none
/-- R126: CMP's conditions among all. -/
def ICond.toCond : ICond → Cond
  | .eq => .eq | .ne => .ne | .lt => .lt | .ge => .ge | .le => .le | .gt => .gt | .ltn => .ltn | .gen => .gen
  | .len => .len | .gtn => .gtn | .tst => .tst | .ntst => .ntst
/-- R126. -/
def ICond.code (c : ICond) : BitVec 4 := c.toCond.code
/-- R126. -/
def ICond.ofCode (c : BitVec 4) : Option ICond :=
  match c.toNat with
  | 0 => some .eq | 1 => some .ne | 2 => some .lt | 3 => some .ge | 4 => some .le | 5 => some .gt | 6 => some .ltn
  | 7 => some .gen | 8 => some .len | 9 => some .gtn | 10 => some .tst | 11 => some .ntst | _ => none
/-- R126: FCMP's conditions among all. -/
def FCond.toCond : FCond → Cond
  | .eq => .eq | .ne => .ne | .lt => .lt | .ge => .ge | .le => .le | .gt => .gt | .un => .un | .ord => .ord
/-- R126. -/
def FCond.code (c : FCond) : BitVec 4 := c.toCond.code
/-- R126. -/
def FCond.ofCode (c : BitVec 4) : Option FCond :=
  match c.toNat with
  | 0 => some .eq | 1 => some .ne | 2 => some .lt | 3 => some .ge | 4 => some .le | 5 => some .gt
  | 12 => some .un | 13 => some .ord | _ => none
/-- R174. -/
def FlopOp.code : FlopOp → BitVec 4
  | .and => 0 | .or => 1 | .xor => 2
/-- R174. -/
def FlopOp.ofCode (c : BitVec 4) : Option FlopOp :=
  match c.toNat with
  | 0 => some .and | 1 => some .or | 2 => some .xor | _ => none
/-- R175. -/
def PwField.code : PwField → BitVec 4
  | .flags => 0 | .st => 1 | .fpf => 2 | .rm => 3 | .all => 4
/-- R175. -/
def PwField.ofCode (c : BitVec 4) : Option PwField :=
  match c.toNat with
  | 0 => some .flags | 1 => some .st | 2 => some .fpf | 3 => some .rm | 4 => some .all | _ => none
/-- R181. -/
def SgnOp.code : SgnOp → BitVec 2
  | .j => 0 | .jn => 1 | .jx => 2
/-- R181. -/
def SgnOp.ofCode (c : BitVec 2) : Option SgnOp :=
  match c.toNat with
  | 0 => some .j | 1 => some .jn | 2 => some .jx | _ => none
/-- R336. -/
def FenceKind.code : FenceKind → BitVec 2
  | .acq => 1 | .rel => 2 | .ar => 3
/-- R336. -/
def FenceKind.ofCode (c : BitVec 2) : Option FenceKind :=
  match c.toNat with
  | 1 => some .acq | 2 => some .rel | 3 => some .ar | _ => none
/-- R337. -/
def LogOp.code : LogOp → BitVec 2
  | .and => 0 | .or => 1 | .xor => 2 | .andn => 3
/-- R337. -/
def LogOp.ofCode (c : BitVec 2) : Option LogOp :=
  match c.toNat with
  | 0 => some .and | 1 => some .or | 2 => some .xor | _ => some .andn
/-- R337. -/
def MnxOp.code : MnxOp → BitVec 2
  | .min => 0 | .max => 1 | .minn => 2 | .maxn => 3
/-- R337. -/
def MnxOp.ofCode (c : BitVec 2) : Option MnxOp :=
  match c.toNat with
  | 0 => some .min | 1 => some .max | 2 => some .minn | _ => some .maxn
/-- R366. -/
def Ksc.code : Ksc → BitVec 2
  | .keep => 0 | .set => 1 | .clear => 2
/-- R366. -/
def Ksc.ofCode (c : BitVec 2) : Option Ksc :=
  match c.toNat with
  | 0 => some .keep | 1 => some .set | 2 => some .clear | _ => none
/-- R200. -/
def VCodec.code : VCodec → BitVec 4
  | .bs4 => 0 | .bsa => 1 | .bsb => 2
/-- R200. -/
def VCodec.ofCode (c : BitVec 4) : Option VCodec :=
  match c.toNat with
  | 0 => some .bs4 | 1 => some .bsa | 2 => some .bsb | _ => none
/-- R191. -/
def RedOp.code : RedOp → BitVec 4
  | .sum => 0 | .max => 1 | .min => 2 | .and => 3 | .or => 4 | .xor => 5
/-- R191. -/
def RedOp.ofCode (c : BitVec 4) : Option RedOp :=
  match c.toNat with
  | 0 => some .sum | 1 => some .max | 2 => some .min | 3 => some .and | 4 => some .or | 5 => some .xor | _ => none
/-- R394. -/
def CollOp.code : CollOp → BitVec 4
  | .sumf => 0 | .maxf => 1 | .minf => 2 | .sumi => 3 | .and => 4 | .or => 5 | .rscl => 6
/-- R394. -/
def CollOp.ofCode (c : BitVec 4) : Option CollOp :=
  match c.toNat with
  | 0 => some .sumf | 1 => some .maxf | 2 => some .minf | 3 => some .sumi | 4 => some .and | 5 => some .or
  | 6 => some .rscl | _ => none
/-- R271. -/
def CodecSel.code : CodecSel → BitVec 4
  | .none => 0 | .zb => 1 | .sb1 => 2 | .bs4 => 3 | .bsn => 4 | .cust => 5 | .fsh n => 6 + n.setWidth 4
/-- R271. -/
def CodecSel.ofCode (c : BitVec 4) : Option CodecSel :=
  match c.toNat with
  | 0 => some .none | 1 => some .zb | 2 => some .sb1 | 3 => some .bs4 | 4 => some .bsn | 5 => some .cust
  | 6 => some (.fsh 0) | 7 => some (.fsh 1) | 8 => some (.fsh 2) | 9 => some (.fsh 3) | _ => none
/-- R415. -/
def Spr.code : Spr → BitVec 8
  | .tcause => 0x00 | .taddr => 0x01 | .tpc => 0x02 | .tvec => 0x03 | .tframe => 0x04 | .wlim => 0x05
  | .rndseed => 0x06 | .mode => 0x07 | .domid => 0x08 | .cinv => 0x09 | .thmeta => 0x0A | .cycle => 0x0B
  | .retired => 0x0C | .typebase => 0x0D | .pwin => 0x10 | .fpint => 0x11 | .xlbase => 0x12 | .bnd0 => 0x13
  | .bnd1 => 0x14 | .bnd2 => 0x15
/-- R415. -/
def Spr.ofCode (c : BitVec 8) : Option Spr :=
  match c.toNat with
  | 0x00 => some .tcause | 0x01 => some .taddr | 0x02 => some .tpc | 0x03 => some .tvec | 0x04 => some .tframe
  | 0x05 => some .wlim | 0x06 => some .rndseed | 0x07 => some .mode | 0x08 => some .domid | 0x09 => some .cinv
  | 0x0A => some .thmeta | 0x0B => some .cycle | 0x0C => some .retired | 0x0D => some .typebase | 0x10 => some .pwin
  | 0x11 => some .fpint | 0x12 => some .xlbase | 0x13 => some .bnd0 | 0x14 => some .bnd1 | 0x15 => some .bnd2
  | _ => none
/-- R415: the number of a BND register within its group. -/
def bndOf (c : BitVec 8) : Option (BitVec 2) :=
  match c.toNat with
  | 0x13 => some 0 | 0x14 => some 1 | 0x15 => some 2 | _ => none
/-- R290: the number of a stream register. -/
def smCode (n : BitVec 2) : BitVec 6 := 56 + n.setWidth 6
/-- R290: a stream register. -/
def smOf : Reg → Option (BitVec 2)
  | .sm n => some (BitVec.ofNat 2 n.val)
  | _ => none

/-! ### Parts of encodings -/

/-- Clauses that are absent (R21). -/
def Clauses.zero : Clauses := ⟨0, 0, 0, 0⟩
/-- The immediate form is chosen. -/
def Opd.isImm : Opd → Bool
  | .imm _ => true
  | .reg _ => false
/-- Field B of a second operand. -/
def Opd.bcode : Opd → BitVec 7
  | .reg s => s.code
  | .imm _ => 0
/-- Field I21 of a second operand. -/
def Opd.icode : Opd → BitVec 21
  | .reg _ => 0
  | .imm i => i
/-- The immediate form is chosen. -/
def VIdx.isImm : VIdx → Bool
  | .imm _ => true
  | .reg _ => false
/-- Field B of a lane index or count. -/
def VIdx.bcode : VIdx → BitVec 7
  | .reg s => s.code
  | .imm _ => 0
/-- Field I10 of a lane index or count. -/
def VIdx.icode : VIdx → BitVec 10
  | .reg _ => 0
  | .imm i => i
/-- System scope is chosen. -/
def Scope.isSys : Scope → Bool
  | .sys => true
  | .reg _ => false
/-- The scope register's field; zero for system scope. -/
def Scope.code : Scope → BitVec 7
  | .sys => 0
  | .reg s => s.code
/-- SUB of MOPS (R205). -/
def MopsOp.sub : MopsOp → BitVec 4
  | .and _ => 0 | .or _ => 1 | .xor _ => 2 | .andn _ => 3 | .not => 4 | .first => 5 | .below => 6
/-- Field B of MOPS. -/
def MopsOp.bcode : MopsOp → BitVec 7
  | .and b | .or b | .xor b | .andn b => b.code
  | .not | .first | .below => 0
/-- SUB of TARD and TAWR. -/
def RowSel.sub : RowSel → BitVec 4
  | .imm _ => 0
  | .reg _ => 1
/-- Field B of TARD and TAWR. -/
def RowSel.bcode : RowSel → BitVec 7
  | .imm _ => 0
  | .reg s => s.code
/-- Field I10 of TARD and TAWR: the tile in [9:8], an immediate row in [5:0]. -/
def RowSel.i10 (r : RowSel) (tile : BitVec 2) : BitVec 10 :=
  match r with
  | .imm i => tile ++ (0 : BitVec 2) ++ i
  | .reg _ => tile ++ (0 : BitVec 8)
/-- SUB of FMTLD (R211). -/
def FmtldOp.sub : FmtldOp → BitVec 4
  | .a _ => 0 | .b _ => 1 | .fsh _ => 2
/-- Field A of FMTLD. -/
def FmtldOp.acode : FmtldOp → BitVec 7
  | .a s | .b s => s.code
  | .fsh _ => 0
/-- Field I21 of FMTLD. -/
def FmtldOp.icode : FmtldOp → BitVec 21
  | .a _ | .b _ => 0
  | .fsh n => n.setWidth 21
/-- SUB of CORD (R263). -/
def CordOp.sub : CordOp → BitVec 4
  | .own => 0 | .ownL => 1 | .cl _ => 2 | .lc _ => 3
/-- Field A of CORD. -/
def CordOp.acode : CordOp → BitVec 7
  | .own | .ownL => 0
  | .cl a | .lc a => a.code

/-- SUB[1] of the 32-bit forms (R127). -/
def subH (h : Bool) : BitVec 4 := if h then 2 else 0
/-- SUB of 0x01 to 0x1D: immediate form, 32-bit form and the entry's own bits (R127). -/
def subAlu (h : Bool) (b : Opd) (x : BitVec 4) : BitVec 4 :=
  x ||| subH h ||| (if b.isImm then 1 else 0)
/-- SUB[0] alone: f32, options of one bit. -/
def subF (s : Bool) : BitVec 4 := if s then 1 else 0
/-- SUB of FSGN (R181). -/
def subSgn (s : Bool) (o : SgnOp) : BitVec 4 := (0 : BitVec 1) ++ o.code ++ BitVec.ofBool s
/-- SUB of loads: size and SUB[2]. -/
def subLd (z : Size) (x : Bool) : BitVec 4 := z.code ||| (if x then 4 else 0)
/-- SUB of the atomics: 2 or 3 in [1:0], the operator in [3:2] (R337). -/
def subAtom (x : Bool) (op : BitVec 2) : BitVec 4 := op ++ (1 : BitVec 1) ++ BitVec.ofBool x
/-- SUB of FENCE (R336). -/
def subFence (k : FenceKind) (sc : Scope) : BitVec 4 := (0 : BitVec 1) ++ BitVec.ofBool sc.isSys ++ k.code
/-- SUB[0] of a form that may take an immediate. -/
def subImm (n : Opd) : BitVec 4 := if n.isImm then 1 else 0
/-- SUB[0] set when the optional operand is present (GTYPE). -/
def subOpt (p : Option Src) : BitVec 4 := if p.isSome then 1 else 0
/-- SUB[0] set when the optional operand is absent (PLBINV.all, XLINV.all). -/
def subOptN (p : Option Src) : BitVec 4 := if p.isSome then 0 else 1
/-- Field C of SEL (R170). -/
def selC (neg : Bool) (fl : BitVec 3) : BitVec 7 := (0 : BitVec 3) ++ BitVec.ofBool neg ++ fl
/-- Field D of CMP (R126). -/
def cmpD (fd : BitVec 3) (b : Opd) : BitVec 6 := (0 : BitVec 2) ++ BitVec.ofBool b.isImm ++ fd
/-- Field D of FCMP (R126). -/
def fcmpD (fd : BitVec 3) (s : Bool) : BitVec 6 := (0 : BitVec 2) ++ BitVec.ofBool s ++ fd
/-- Field I21 of FLOP (R174). -/
def flopI (nx : Bool) (fx : BitVec 3) (ny : Bool) (fy : BitVec 3) : BitVec 21 :=
  (0 : BitVec 13) ++ BitVec.ofBool ny ++ fy ++ BitVec.ofBool nx ++ fx
/-- Field I21 of FCVT (R180). -/
def cvtI (dt ty : ETyp) (rm : RM) : BitVec 21 := (0 : BitVec 10) ++ dt.code ++ ty.code ++ rm.code
/-- Field I21 of a scalar float instruction that rounds (R178). -/
def rmI (rm : RM) : BitVec 21 := rm.code.setWidth 21

/-! ### Formats (R123) -/

/-- Format A. -/
def encA (op : BitVec 8) (sub : BitVec 4) (g : Guard) (d : BitVec 6) (a b c : BitVec 7) (i : BitVec 21) : Word :=
  op ++ sub ++ g ++ d ++ a ++ b ++ c ++ i
/-- Format I. -/
def encI (op : BitVec 8) (sub : BitVec 4) (g : Guard) (d : BitVec 6) (a : BitVec 7) (i : BitVec 35) : Word :=
  op ++ sub ++ g ++ d ++ a ++ i
/-- Format W. -/
def encW (op : BitVec 8) (sub : BitVec 4) (g : Guard) (d : BitVec 6) (i : BitVec 42) : Word :=
  op ++ sub ++ g ++ d ++ i
/-- Format M with its fields as numbers. -/
def encMf (op : BitVec 8) (sub : BitVec 4) (g : Guard) (d : BitVec 6) (a b : BitVec 7) (sc sp : BitVec 2)
    (i : BitVec 24) : Word :=
  op ++ sub ++ g ++ d ++ a ++ b ++ sc ++ sp ++ i
/-- Format M with a memory operand (R20). -/
def encM (op : BitVec 8) (sub : BitVec 4) (g : Guard) (d : BitVec 6) (m : MemOp) : Word :=
  encMf op sub g d m.base.code m.index.code m.sc m.sp m.disp
/-- Format M whose B field is a source of its own. -/
def encMr (op : BitVec 8) (sub : BitVec 4) (g : Guard) (d : BitVec 6) (a b : BitVec 7) (i : BitVec 24) : Word :=
  encMf op sub g d a b 0 0 i
/-- Format C. -/
def encC (op : BitVec 8) (sub : BitVec 4) (g : Guard) (a b : BitVec 7) (cl : Clauses) (ct : BitVec 8) : Word :=
  op ++ sub ++ g ++ a ++ b ++ cl.ws ++ cl.wt ++ cl.ss ++ cl.si ++ ct
/-- Format V. -/
def encV (op : BitVec 8) (sub : BitVec 4) (g : Guard) (d : BitVec 6) (a b c : BitVec 7) (k : VMask) (t : ETyp) (rm : RM)
    (i : BitVec 10) : Word :=
  op ++ sub ++ g ++ d ++ a ++ b ++ c ++ k.m ++ BitVec.ofBool k.z ++ t.code ++ rm.code ++ i

/-! ### Field extraction -/

/-- SUB. -/
def fSub (w : Word) : BitVec 4 := w.extractLsb' 52 4
/-- The register of a source field whose lowest bit is `lo`. -/
def fSrc (lo : Nat) (w : Word) : Option Src :=
  (Reg.ofNat (w.extractLsb' lo 6).toNat).map fun r => ⟨r, bit w (lo + 6)⟩
/-- D. -/
def fD (w : Word) : Option Reg := Reg.ofNat (w.extractLsb' 42 6).toNat
/-- A of formats A, I, M, V. -/
def fA (w : Word) : Option Src := fSrc 35 w
/-- B of formats A, M, V. -/
def fB (w : Word) : Option Src := fSrc 28 w
/-- C of formats A, V. -/
def fC (w : Word) : Option Src := fSrc 21 w
/-- A of format C. -/
def fCA (w : Word) : Option Src := fSrc 41 w
/-- B of format C. -/
def fCB (w : Word) : Option Src := fSrc 34 w
/-- I21. -/
def fI21 (w : Word) : BitVec 21 := w.extractLsb' 0 21
/-- A second operand chosen by SUB[0]. -/
def fOpd (w : Word) : Option Opd := if bit w 52 then some (.imm (fI21 w)) else (fB w).map .reg
/-- A second operand chosen by D[45] (CMP). -/
def fOpdD (w : Word) : Option Opd := if bit w 45 then some (.imm (fI21 w)) else (fB w).map .reg
/-- The memory operand of format M. -/
def fMem (w : Word) : Option MemOp := do
  some ⟨← fA w, ← fB w, w.extractLsb' 26 2, w.extractLsb' 24 2, w.extractLsb' 0 24⟩
/-- SUB[1:0] as a size. -/
def fSize (w : Word) : Size := Size.ofCode (w.extractLsb' 52 2)
/-- T of format V. -/
def fT (w : Word) : Option ETyp := ETyp.ofCode (w.extractLsb' 13 4)
/-- RM of format V. -/
def fRm (w : Word) : Option RM := RM.ofCode (w.extractLsb' 10 3)
/-- RM in I21[2:0]. -/
def fRmI (w : Word) : Option RM := RM.ofCode (w.extractLsb' 0 3)
/-- MK and Z. -/
def fMk (w : Word) : VMask := ⟨w.extractLsb' 18 3, bit w 17⟩
/-- The clauses of format C. -/
def fCl (w : Word) : Clauses := ⟨w.extractLsb' 26 8, w.extractLsb' 20 6, w.extractLsb' 12 8, w.extractLsb' 8 4⟩
/-- The scope in field A (FENCE). -/
def fScopeA (w : Word) : Option Scope := if bit w 54 then some .sys else (fA w).map .reg
/-- The scope in field B (LDA, STL). -/
def fScopeB (w : Word) : Option Scope := if bit w 54 then some .sys else (fB w).map .reg
/-- A lane index: SUB[0] chooses the register. -/
def fVIdx (w : Word) : Option VIdx := if bit w 52 then (fB w).map .reg else some (.imm (w.extractLsb' 0 10))
/-- A shift count: SUB[0] chooses the immediate. -/
def fVIdxI (w : Word) : Option VIdx := if bit w 52 then some (.imm (w.extractLsb' 0 10)) else (fB w).map .reg
/-- A row of a tile. -/
def fRow (w : Word) : Option RowSel := if bit w 52 then (fB w).map .reg else some (.imm (w.extractLsb' 0 6))
/-- The operator of MOPS. -/
def fMops (w : Word) : Option MopsOp :=
  match (fSub w).toNat with
  | 0 => (fB w).map .and | 1 => (fB w).map .or | 2 => (fB w).map .xor | 3 => (fB w).map .andn
  | 4 => some .not | 5 => some .first | 6 => some .below | _ => none
/-- The form of FMTLD. -/
def fFmtld (w : Word) : Option FmtldOp :=
  match (fSub w).toNat with
  | 0 => (fA w).map .a | 1 => (fA w).map .b | 2 => some (.fsh (w.extractLsb' 0 2)) | _ => none
/-- The form of CORD. -/
def fCord (w : Word) : Option CordOp :=
  match (fSub w).toNat with
  | 0 => some .own | 1 => some .ownL | 2 => (fA w).map .cl | 3 => (fA w).map .lc | _ => none
/-- The address of PLBINV and XLINV; absent in `.all`. -/
def fOptA (w : Word) : Option (Option Src) := if bit w 52 then some none else (fA w).map some
/-- The optional operand of GTYPE. -/
def fOptB (w : Word) : Option (Option Src) := if bit w 52 then (fB w).map some else some none

/-! ### The encoder -/

/-- The word of an instruction (R123 and the entries); an event has none. -/
def encode : Instr → Word
  | .add g h d a b => encA 1 (subAlu h b 0) g d.code a.code b.bcode 0 b.icode
  | .sub g h d a b => encA 2 (subAlu h b 0) g d.code a.code b.bcode 0 b.icode
  | .mul g h d a b => encA 3 (subAlu h b 0) g d.code a.code b.bcode 0 b.icode
  | .mulh g h d a b => encA 4 (subAlu h b 0) g d.code a.code b.bcode 0 b.icode
  | .mulhn g h d a b => encA 5 (subAlu h b 0) g d.code a.code b.bcode 0 b.icode
  | .div g h d a b => encA 6 (subAlu h b 0) g d.code a.code b.bcode 0 b.icode
  | .divn g h d a b => encA 7 (subAlu h b 0) g d.code a.code b.bcode 0 b.icode
  | .rem g h d a b => encA 8 (subAlu h b 0) g d.code a.code b.bcode 0 b.icode
  | .remn g h d a b => encA 9 (subAlu h b 0) g d.code a.code b.bcode 0 b.icode
  | .and g h d a b => encA 10 (subAlu h b 0) g d.code a.code b.bcode 0 b.icode
  | .or g h d a b => encA 11 (subAlu h b 0) g d.code a.code b.bcode 0 b.icode
  | .xor g h d a b => encA 12 (subAlu h b 0) g d.code a.code b.bcode 0 b.icode
  | .andn g h d a b => encA 13 (subAlu h b 0) g d.code a.code b.bcode 0 b.icode
  | .shl g h d a b => encA 14 (subAlu h b 0) g d.code a.code b.bcode 0 b.icode
  | .shr g h d a b => encA 15 (subAlu h b 0) g d.code a.code b.bcode 0 b.icode
  | .sar g h d a b => encA 16 (subAlu h b 0) g d.code a.code b.bcode 0 b.icode
  | .rot g h d a b => encA 17 (subAlu h b 0) g d.code a.code b.bcode 0 b.icode
  | .min g h d a b => encA 18 (subAlu h b 0) g d.code a.code b.bcode 0 b.icode
  | .max g h d a b => encA 19 (subAlu h b 0) g d.code a.code b.bcode 0 b.icode
  | .minn g h d a b => encA 20 (subAlu h b 0) g d.code a.code b.bcode 0 b.icode
  | .maxn g h d a b => encA 21 (subAlu h b 0) g d.code a.code b.bcode 0 b.icode
  | .clz g h d a => encA 22 (subH h) g d.code a.code 0 0 0
  | .ctz g h d a => encA 23 (subH h) g d.code a.code 0 0 0
  | .popc g h d a => encA 24 (subH h) g d.code a.code 0 0 0
  | .brev g h d a => encA 25 (subH h) g d.code a.code 0 0 0
  | .bswp g h d a => encA 26 (subH h) g d.code a.code 0 0 0
  | .ext g h s d a b => encA 0x1B (subAlu h b (if s then 4 else 0)) g d.code a.code b.bcode 0 b.icode
  | .dep g h d a b c => encA 0x1C (subH h) g d.code a.code b.code c.code 0
  | .sel g h neg fl d a b => encA 0x1D (subAlu h b 0) g d.code a.code b.bcode (selC neg fl) b.icode
  | .lea g h d m => encM 0x1E (subH h) g d.code m
  | .movw g d i => encW 0x1F 0 g d.code i
  | .movh g d i => encW 0x20 0 g d.code (i.setWidth 42)
  | .cmp g cc fd a b => encA 0x21 cc.code g (cmpD fd b) a.code b.bcode 0 b.icode
  | .flop g op fd nx fx ny fy => encA 0x22 op.code g (fd.setWidth 6) 0 0 0 (flopI nx fx ny fy)
  | .pwrd g f d => encA 0x23 f.code g d.code 0 0 0 0
  | .pwwr g f a => encA 0x24 f.code g 0 a.code 0 0 0
  | .br g i => encI 0x25 0 g 0 0 i
  | .brl g d i => encI 0x26 0 g d.code 0 i
  | .jmp g a i => encA 0x27 0 g 0 a.code 0 0 i
  | .jmpl g d a i => encA 0x28 0 g d.code a.code 0 0 i
  | .loop g d i => encI 0x29 0 g d.code 0 i
  | .nop g => encA 0x2A 0 g 0 0 0 0 0
  | .fadd g s rm d a b => encA 48 (subF s) g d.code a.code b.code 0 (rmI rm)
  | .fsub g s rm d a b => encA 49 (subF s) g d.code a.code b.code 0 (rmI rm)
  | .fmul g s rm d a b => encA 50 (subF s) g d.code a.code b.code 0 (rmI rm)
  | .ffma g s rm d a b c => encA 0x33 (subF s) g d.code a.code b.code c.code (rmI rm)
  | .fdiv g s rm d a b => encA 0x34 (subF s) g d.code a.code b.code 0 (rmI rm)
  | .fsqrt g s rm d a => encA 0x35 (subF s) g d.code a.code 0 0 (rmI rm)
  | .fmin g s d a b => encA 54 (subF s) g d.code a.code b.code 0 0
  | .fmax g s d a b => encA 55 (subF s) g d.code a.code b.code 0 0
  | .fcmp g cc s fd a b => encA 0x38 cc.code g (fcmpD fd s) a.code b.code 0 0
  | .fcvt g rm dt ty d a => encA 0x39 0 g d.code a.code 0 0 (cvtI dt ty rm)
  | .fsgn g s op d a b => encA 0x3A (subSgn s op) g d.code a.code b.code 0 0
  | .fcls g s d a => encA 0x3B (subF s) g d.code a.code 0 0 0
  | .ld g z x d m => encM 0x40 (subLd z x) g d.code m
  | .st g z d m => encM 0x41 z.code g d.code m
  | .ldf g z e d m => encM 0x42 (subLd z e) g d.code m
  | .stf g z e d m => encM 0x43 (subLd z e) g d.code m
  | .feset g full d m => encM 0x44 (if full then 7 else 3) g d.code m
  | .feqry g d m => encM 0x45 3 g d.code m
  | .lda g z d base disp sc => encMr 70 (subLd z sc.isSys) g d.code base.code sc.code disp
  | .stl g z d base disp sc => encMr 71 (subLd z sc.isSys) g d.code base.code sc.code disp
  | .fetch g z x d m => encM 0x48 (subLd z x) g d.code m
  | .pref g m => encM 0x49 0 g 0 m
  | .migr g a => encA 0x50 0 g 0 a.code 0 0 0
  | .home g d a => encA 0x51 0 g d.code a.code 0 0 0
  | .cord g d op => encA 0x52 op.sub g d.code op.acode 0 0 0
  | .spawn g d a b c => encA 0x53 0 g d.code a.code b.code c.code 0
  | .exit g => encA 0x54 0 g 0 0 0 0 0
  | .yield g => encA 0x55 0 g 0 0 0 0 0
  | .yieldRq g => encA 0x55 1 g 0 0 0 0 0
  | .anch g => encA 0x56 0 g 0 0 0 0 0
  | .anchR g => encA 0x56 1 g 0 0 0 0 0
  | .marm g m => encM 0x58 0 g 0 m
  | .marmClr g => encA 0x58 1 g 0 0 0 0 0
  | .mwait g d a => encA 0x59 0 g d.code a.code 0 0 0
  | .binit g a b c => encA 0x5A 0 g 0 a.code b.code c.code 0
  | .barv g d a => encA 0x5B 0 g d.code a.code 0 0 0
  | .barvQ g d a => encA 0x5B 1 g d.code a.code 0 0 0
  | .barw g a b => encA 0x5C 0 g 0 a.code b.code 0 0
  | .barwA g a => encA 0x5C 1 g 0 a.code 0 0 0
  | .bdrop g a => encA 0x5D 0 g 0 a.code 0 0 0
  | .semi g n b v => encA 0x5E 0 g 0 0 b.code 0 (v ++ n)
  | .sema g n b v => encA 0x5E 1 g 0 0 b.code 0 (v ++ n)
  | .semr g d n => encA 0x5E 2 g d.code 0 0 0 (n.setWidth 21)
  | .semw g n b v => encA 0x5F 0 g 0 0 b.code 0 (v ++ n)
  | .aadd g x d base disp b => encMr 96 (subAtom x 0) g d.code base.code b.code disp
  | .alog g op x d base disp b => encMr 97 (subAtom x op.code) g d.code base.code b.code disp
  | .amnx g op x d base disp b => encMr 98 (subAtom x op.code) g d.code base.code b.code disp
  | .axch g x d base disp b => encMr 99 (subAtom x 0) g d.code base.code b.code disp
  | .acas g x d base disp b => encMr 100 (subAtom x 0) g d.code base.code b.code disp
  | .afadd g x d base disp b => encMr 101 (subAtom x 0) g d.code base.code b.code disp
  | .fence g k sc => encA 0x66 (subFence k sc) g 0 sc.code 0 0 0
  | .push g pr d m => encM 0x68 (subF pr) g d.code m
  | .pop g pr d m => encM 0x69 (subF pr) g d.code m
  | .chinit g d m => encM 0x6A 0 g d.code m
  | .send g d a b n => encA 0x6B 0 g d.code a.code b.code 0 (n.setWidth 21)
  | .sendm g d a b c => encA 0x6C 0 g d.code a.code b.code c.code 0
  | .recv g a ch => encA 0x6D 0 g 0 a.code 0 0 (ch.setWidth 21)
  | .chbind g a b ch => encA 0x6E 0 g 0 a.code b.code 0 (ch.setWidth 21)
  | .trdy g r h d a => encA 0x6F (h.code ++ r.code) g d.code a.code 0 0 0
  | .vadd g sat t rm k d a b => encV 112 (subF sat) g d.code a.code b.code 0 k t rm 0
  | .vsub g sat t rm k d a b => encV 113 (subF sat) g d.code a.code b.code 0 k t rm 0
  | .vmul g sat t rm k d a b => encV 114 (subF sat) g d.code a.code b.code 0 k t rm 0
  | .vfma g t rm k d a b c => encV 115 0 g d.code a.code b.code c.code k t rm 0
  | .vfms g t rm k d a b c => encV 116 0 g d.code a.code b.code c.code k t rm 0
  | .vfnma g t rm k d a b c => encV 117 0 g d.code a.code b.code c.code k t rm 0
  | .vmin g t k d a b => encV 118 0 g d.code a.code b.code 0 k t .rne 0
  | .vmax g t k d a b => encV 119 0 g d.code a.code b.code 0 k t .rne 0
  | .vabs g sat t k d a => encV 120 (subF sat) g d.code a.code 0 0 k t .rne 0
  | .vneg g sat t k d a => encV 121 (subF sat) g d.code a.code 0 0 k t .rne 0
  | .vdiv g t rm k d a b => encV 0x7A 0 g d.code a.code b.code 0 k t rm 0
  | .vsqrt g t rm k d a => encV 123 0 g d.code a.code 0 0 k t rm 0
  | .vrcp g t rm k d a => encV 124 0 g d.code a.code 0 0 k t rm 0
  | .vrsq g t rm k d a => encV 125 0 g d.code a.code 0 0 k t rm 0
  | .vexp2 g t rm k d a => encV 126 0 g d.code a.code 0 0 k t rm 0
  | .vlog2 g t rm k d a => encV 127 0 g d.code a.code 0 0 k t rm 0
  | .vand g t k d a b => encV 128 0 g d.code a.code b.code 0 k t .rne 0
  | .vor g t k d a b => encV 129 0 g d.code a.code b.code 0 k t .rne 0
  | .vxor g t k d a b => encV 130 0 g d.code a.code b.code 0 k t .rne 0
  | .vshl g t k d a b => encV 131 (if b.isImm then 1 else 0) g d.code a.code b.bcode 0 k t .rne b.icode
  | .vshr g t k d a b => encV 132 (if b.isImm then 1 else 0) g d.code a.code b.bcode 0 k t .rne b.icode
  | .vcmp g cc t k d a b => encV 0x85 cc.code g d.code a.code b.code 0 k t .rne 0
  | .vsel g t k d a b c => encV 0x86 0 g d.code a.code b.code c.code k t .rne 0
  | .vmov g t k d a => encV 0x87 0 g d.code a.code 0 0 k t .rne 0
  | .vbcst g t k d a => encV 0x88 0 g d.code a.code 0 0 k t .rne 0
  | .vgetl g t d a b => encV 0x89 (if b.isImm then 0 else 1) g d.code a.code b.bcode 0 ⟨0, false⟩ t .rne b.icode
  | .vputl g t d a b => encV 0x8A (if b.isImm then 0 else 1) g d.code a.code b.bcode 0 ⟨0, false⟩ t .rne b.icode
  | .vperm g t k d a b => encV 0x8B 0 g d.code a.code b.code 0 k t .rne 0
  | .vrot g t k d a b => encV 0x8C (if b.isImm then 0 else 1) g d.code a.code b.bcode 0 k t .rne b.icode
  | .vcvt g hi dt ty rm k d a => encV 0x8D (subF hi) g d.code a.code 0 0 k dt rm (ty.code.setWidth 10)
  | .vqnt g cd t rm k d a => encV 142 cd.code g d.code a.code 0 0 k t rm 0
  | .vdqnt g cd t rm k d a => encV 143 cd.code g d.code a.code 0 0 k t rm 0
  | .vred g op t rm k d a => encV 144 op.code g d.code a.code 0 0 k t rm 0
  | .vscan g op t rm k d a => encV 145 op.code g d.code a.code 0 0 k t rm 0
  | .vld g t d m => encM 146 t.code g d.code m
  | .vst g t d m => encM 147 t.code g d.code m
  | .vlds g t d m => encM 148 t.code g d.code m
  | .vsts g t d m => encM 149 t.code g d.code m
  | .vgth g t k sc d a b => encV 150 0 g d.code a.code b.code 0 k t .rne (sc.setWidth 10)
  | .vsct g t k sc d a b => encV 151 0 g d.code a.code b.code 0 k t .rne (sc.setWidth 10)
  | .mops g op d a => encV 0x98 op.sub g d.code a.code op.bcode 0 ⟨0, false⟩ .f32 .rne 0
  | .vidx g t k step d a => encV 0x99 0 g d.code a.code 0 0 k t .rne step
  | .vdot g t rm k d a b => encV 0x9A 0 g d.code a.code b.code 0 k t rm 0
  | .mxset g a => encC 0xA0 0 g a.code 0 Clauses.zero 0
  | .mxrun g cl => encC 0xA1 0 g 0 0 cl 0
  | .mxsend g a b cl => encC 0xA2 0 g a.code b.code cl 0
  | .tard g t rm k d tile row => encV 0xA3 row.sub g d.code 0 row.bcode 0 k t rm (row.i10 tile)
  | .tawr g k a tile row => encV 0xA4 row.sub g 0 a.code row.bcode 0 k .f32 .rne (row.i10 tile)
  | .taz g tile cl => encC 0xA5 0 g 0 0 cl (tile.setWidth 8)
  | .taq g wt d => encA 0xA6 (subF wt) g d.code 0 0 0 0
  | .fmtld g op => encA 0xA7 op.sub g 0 op.acode 0 0 op.icode
  | .mxcap g d a => encA 0xA8 0 g d.code a.code 0 0 0
  | .tacc g tile a b => encV 0xA9 0 g 0 a.code b.code 0 ⟨0, false⟩ .f32 .rne (tile ++ (0 : BitVec 8))
  | .cpy g q dec cd a b cl => encC 0xB0 0 g a.code b.code cl (q ++ BitVec.ofBool dec ++ cd.code)
  | .cpyx g a b cl => encC 0xB1 0 g a.code b.code cl 0
  | .strm g wr sm a => encA 0xB2 (subF wr) g (smCode sm) a.code 0 0 0
  | .strcGet g d sm => encA 0xB3 0 g d.code ((smCode sm).setWidth 7) 0 0 0
  | .strcPut g sm a => encA 0xB3 1 g (smCode sm) a.code 0 0 0
  | .strcEnd g sm => encA 0xB3 2 g 0 ((smCode sm).setWidth 7) 0 0 0
  | .strcQ g d sm => encA 0xB3 3 g d.code ((smCode sm).setWidth 7) 0 0 0
  | .cpq g d q => encA 0xB4 0 g d.code 0 0 0 (q.setWidth 21)
  | .cpcan g d q => encA 0xB5 0 g d.code 0 0 0 (q.setWidth 21)
  | .scout g a q => encA 0xB6 0 g 0 a.code 0 0 (q.setWidth 21)
  | .stor g wr q a b cl => encC 0xB7 (subF wr) g a.code b.code cl (q ++ (0 : BitVec 5))
  | .gcopy g d a b => encA 184 0 g d.code a.code b.code 0 0
  | .gsend g d a b => encA 185 0 g d.code a.code b.code 0 0
  | .gcmp g d a b => encA 186 0 g d.code a.code b.code 0 0
  | .ghash g d a b => encA 187 0 g d.code a.code b.code 0 0
  | .gfree g d a b => encA 188 0 g d.code a.code b.code 0 0
  | .gtype g d a p => encA 0xBD (subOpt p) g d.code a.code (optCode p) 0 0
  | .gqry g d a => encA 0xBE 0 g d.code a.code 0 0 0
  | .cjoin g d a => encA 0xC0 0 g d.code a.code 0 0 0
  | .cjoinQ g d a => encA 0xC0 1 g d.code a.code 0 0 0
  | .cjoinLv g d a => encA 0xC0 2 g d.code a.code 0 0 0
  | .cred g op a b c => encV 0xC1 op.code g 0 a.code b.code c.code ⟨0, false⟩ .f32 .rne 0
  | .cmcst g a b c => encV 0xC2 0 g 0 a.code b.code c.code ⟨0, false⟩ .f32 .rne 0
  | .crcvMc g d a b => encV 0xC3 0 g d.code a.code (b.code.setWidth 7) 0 ⟨0, false⟩ .f32 .rne 0
  | .crcvRed g d a b => encV 0xC3 1 g d.code a.code (b.code.setWidth 7) 0 ⟨0, false⟩ .f32 .rne 0
  | .bsget g d n => encA 200 (subImm n) g d.code 0 n.bcode 0 n.icode
  | .bspeek g d n => encA 201 (subImm n) g d.code 0 n.bcode 0 n.icode
  | .bsput g a n => encA 0xCA (subImm n) g 0 a.code n.bcode 0 n.icode
  | .bsaln g out k => encA 0xCB (subF out) g 0 0 0 0 (k.setWidth 21)
  | .bsfls g => encA 0xCC 0 g 0 0 0 0 0
  | .qwait g => encA 0xCD 0 g 0 0 0 0 0
  | .qtake g d => encA 0xCE 0 g d.code 0 0 0 0
  | .qdone g a => encA 0xCF 0 g 0 a.code 0 0 0
  | .sysc g d a b => encA 0xD0 0 g d.code a.code b.code 0 0
  | .sysw g d a => encA 0xD1 0 g d.code a.code 0 0 0
  | .trap g code => encA 0xD2 0 g 0 0 0 0 (code.setWidth 21)
  | .rett g n => encA 0xD3 (subF n) g 0 0 0 0 0
  | .sprd g d r => encA 0xD4 0 g d.code 0 0 0 (r.code.setWidth 21)
  | .spwr g r a => encA 0xD5 0 g 0 a.code 0 0 (r.code.setWidth 21)
  | .spwrTypebase g a => encA 0xD5 0 g 0 a.code 0 0 0x0D
  | .spwrXlbase g a => encA 0xD5 0 g 0 a.code 0 0 0x12
  | .spwrBnd g n a => encA 0xD5 0 g 0 a.code 0 0 (0x13 + n.setWidth 21)
  | .time g d => encA 0xD6 0 g d.code 0 0 0 0
  | .launch g d a => encA 0xD7 0 g d.code a.code 0 0 0
  | .qctl g d a => encA 0xD8 0 g d.code a.code 0 0 0
  | .qctlWr g d a b => encA 0xD8 1 g d.code a.code b.code 0 0
  | .qctlRst g d a => encA 0xD8 2 g d.code a.code 0 0 0
  | .kill g d a b => encA 0xD9 0 g d.code a.code b.code 0 0
  | .killZ g d a b => encA 0xD9 1 g d.code a.code b.code 0 0
  | .rclf g d a b => encA 0xDA 0 g d.code a.code b.code 0 0
  | .gang g d a => encA 0xDB 0 g d.code a.code 0 0 0
  | .plbinv g d va b => encA 220 (subOptN va) g d.code (optCode va) b.code 0 0
  | .xlinv g d va b => encA 221 (subOptN va) g d.code (optCode va) b.code 0 0
  | .pair g d a => encA 0xDE 0 g d.code a.code 0 0 0
  | .pairOff g d a => encA 0xDE 1 g d.code a.code 0 0 0
  | .fpck g d => encA 0xDF 0 g d.code 0 0 0 0
  | .coff g d a => encA 0xE0 0 g d.code a.code 0 0 0
  | .coffDef g d a => encA 0xE0 1 g d.code a.code 0 0 0
  | .coffLift g d a => encA 0xE0 2 g d.code a.code 0 0 0
  | .lsync g => encA 0xE1 0 g 0 0 0 0 0
  | .wipe g d a b => encA 0xE2 0 g d.code a.code b.code 0 0
  | .halt g code => encA 0xE3 0 g 0 0 0 0 (code.setWidth 21)
  | .extl g d => encA 0xE4 0 g d.code 0 0 0 0
  | .thrm g d a => encA 0xE5 0 g d.code a.code 0 0 0
  | .thrmSet g a b => encA 0xE5 1 g 0 a.code b.code 0 0
  | .repl g d a => encA 0xE6 0 g d.code a.code 0 0 0
  | .replQ g d a => encA 0xE6 1 g d.code a.code 0 0 0
  | .bndWriteApply _ => 0
  | .qctlWriteApply _ => 0
  | .barrelSelect _ => 0
  | .slotLoadDone _ => 0
  | .slotFill _ _ => 0
  | .imageArrival _ => 0
  | .restingStateReload _ => 0
  | .thermalRankRewrite _ _ => 0
  | .slotDisable _ => 0
  | .slotReenable _ => 0
  | .thermalDisplacement _ => 0
  | .waitlimExpiry _ => 0
  | .mwaitTimeout _ => 0
  | .monitorTrigger _ => 0
  | .watchRegistrationAck _ => 0
  | .responseArrival _ => 0
  | .storeAck _ => 0
  | .homeReadWrite _ => 0
  | .tagRequestAtHome _ => 0
  | .proxyContinuation _ => 0
  | .atomicReservationGrant _ => 0
  | .hostAtomic _ _ => 0
  | .agentTimeout _ => 0
  | .wake _ _ => 0
  | .xlinvUnitAck _ _ => 0
  | .launchPacketAccept _ _ => 0
  | .launchReservationPlace _ => 0
  | .launchStart _ _ => 0
  | .multiPackageHoldRelease _ _ => 0
  | .launchArrival _ _ => 0
  | .launchStartMessage _ _ => 0
  | .startTimeRelease _ _ => 0
  | .startBarrierCancel _ => 0
  | .launchRetire _ => 0
  | .launchStrike _ => 0
  | .launchReplay _ => 0
  | .channelMessageArrival _ => 0
  | .placementSwap _ _ => 0
  | .extensionDirectoryWrite _ _ _ _ => 0
  | .cpyCommandStart _ _ => 0
  | .cpyCommandComplete _ _ => 0
  | .custItemEnqueue _ _ => 0
  | .arenaPlacement _ _ => 0
  | .bulkMessagePlacement _ => 0
  | .storageBlockCheck _ _ => 0
  | .storageBlockComplete _ _ _ => 0
  | .mxCommandStart _ => 0
  | .mxCommandComplete _ => 0
  | .remoteCommandArrival _ => 0
  | .tazPerform _ => 0
  | .taccRow _ => 0
  | .graphWalkStart _ => 0
  | .graphLineRead _ => 0
  | .graphSweep _ => 0
  | .graphWalkComplete _ => 0
  | .channelOpAtHome _ => 0
  | .pairMatch _ _ => 0
  | .pairHoldExpiry _ => 0
  | .routerCycle _ => 0
  | .injectionStarvation _ => 0
  | .flitNack _ _ => 0
  | .parkedFlitResend _ => 0
  | .linkPacketReceive _ _ => 0
  | .linkReplayTimeout _ => 0
  | .linkNegativeAck _ => 0
  | .linkWidthChange _ _ => 0
  | .linkFail _ => 0
  | .mcastNode _ => 0
  | .mcastDelivery _ _ => 0
  | .setupArrival _ => 0
  | .contribArrival _ => 0
  | .trestleCombine _ _ => 0
  | .gangStop _ _ => 0
  | .gangFallOut _ => 0
  | .gangRestore _ _ => 0
  | .gangStart _ => 0
  | .fingerprintExchange _ _ _ => 0
  | .killMarkerPass _ _ => 0
  | .rclfWave _ => 0
  | .uncorrectableError _ => 0
  | .h2dDoorbell _ _ => 0
  | .mbLaunch _ => 0
  | .capload _ => 0
  | .capdrop _ => 0
  | .agentreg _ => 0
  | .agentrsp _ => 0
  | .lcreq _ => 0
  | .unknownEntry _ => 0
  | .hostApertureRead _ _ _ => 0
  | .hostApertureWrite _ _ _ _ => 0
  | .hostApertureAtomic _ _ _ _ _ _ => 0
  | .apertureReadTimeout _ _ => 0
  | .registerWrite _ _ _ => 0
  | .heartbeatSend _ => 0
  | .heartbeatTimeout _ => 0
  | .leaderAnnouncement _ _ _ => 0
  | .threadResumeMessage _ _ => 0
  | .syscallExecute _ => 0
  | .powerThrottle _ _ => 0
  | .thermalTrip _ => 0
  | .timeBaseCorrection _ _ => 0
  | .packageReset _ => 0
  | .functionLevelReset _ => 0
  | .coreMarginal _ => 0
  | .rebinning _ _ _ => 0
  | .spdmRequest _ _ => 0
  | .servicePairIntrWake _ => 0
  | .managementWrite _ => 0
  | .makeContextLive _ => 0
  | .dramDataError _ => 0

/-! ### The decoder -/

/-- The opcodes 0x00 to 0x0F (R128). -/
def raw0 (lo : Nat) (w : Word) (g : Guard) : Option Instr :=
  match lo with
  | 1 => do some (.add g (bit w 53) (← fD w) (← fA w) (← fOpd w))
  | 2 => do some (.sub g (bit w 53) (← fD w) (← fA w) (← fOpd w))
  | 3 => do some (.mul g (bit w 53) (← fD w) (← fA w) (← fOpd w))
  | 4 => do some (.mulh g (bit w 53) (← fD w) (← fA w) (← fOpd w))
  | 5 => do some (.mulhn g (bit w 53) (← fD w) (← fA w) (← fOpd w))
  | 6 => do some (.div g (bit w 53) (← fD w) (← fA w) (← fOpd w))
  | 7 => do some (.divn g (bit w 53) (← fD w) (← fA w) (← fOpd w))
  | 8 => do some (.rem g (bit w 53) (← fD w) (← fA w) (← fOpd w))
  | 9 => do some (.remn g (bit w 53) (← fD w) (← fA w) (← fOpd w))
  | 10 => do some (.and g (bit w 53) (← fD w) (← fA w) (← fOpd w))
  | 11 => do some (.or g (bit w 53) (← fD w) (← fA w) (← fOpd w))
  | 12 => do some (.xor g (bit w 53) (← fD w) (← fA w) (← fOpd w))
  | 13 => do some (.andn g (bit w 53) (← fD w) (← fA w) (← fOpd w))
  | 14 => do some (.shl g (bit w 53) (← fD w) (← fA w) (← fOpd w))
  | 15 => do some (.shr g (bit w 53) (← fD w) (← fA w) (← fOpd w))
  | _ => none

/-- The opcodes 0x10 to 0x1F (R128). -/
def raw1 (lo : Nat) (w : Word) (g : Guard) : Option Instr :=
  match lo with
  | 0 => do some (.sar g (bit w 53) (← fD w) (← fA w) (← fOpd w))
  | 1 => do some (.rot g (bit w 53) (← fD w) (← fA w) (← fOpd w))
  | 2 => do some (.min g (bit w 53) (← fD w) (← fA w) (← fOpd w))
  | 3 => do some (.max g (bit w 53) (← fD w) (← fA w) (← fOpd w))
  | 4 => do some (.minn g (bit w 53) (← fD w) (← fA w) (← fOpd w))
  | 5 => do some (.maxn g (bit w 53) (← fD w) (← fA w) (← fOpd w))
  | 6 => do some (.clz g (bit w 53) (← fD w) (← fA w))
  | 7 => do some (.ctz g (bit w 53) (← fD w) (← fA w))
  | 8 => do some (.popc g (bit w 53) (← fD w) (← fA w))
  | 9 => do some (.brev g (bit w 53) (← fD w) (← fA w))
  | 10 => do some (.bswp g (bit w 53) (← fD w) (← fA w))
  | 11 => do some (.ext g (bit w 53) (bit w 54) (← fD w) (← fA w) (← fOpd w))
  | 12 => do some (.dep g (bit w 53) (← fD w) (← fA w) (← fB w) (← fC w))
  | 13 => do some (.sel g (bit w 53) (bit w 24) (w.extractLsb' 21 3) (← fD w) (← fA w) (← fOpd w))
  | 14 => do some (.lea g (bit w 53) (← fD w) (← fMem w))
  | 15 => do some (.movw g (← fD w) (w.extractLsb' 0 42))
  | _ => none

/-- The opcodes 0x20 to 0x2F (R128). -/
def raw2 (lo : Nat) (w : Word) (g : Guard) : Option Instr :=
  match lo with
  | 0 => do some (.movh g (← fD w) (w.extractLsb' 0 22))
  | 1 => do some (.cmp g (← ICond.ofCode (fSub w)) (w.extractLsb' 42 3) (← fA w) (← fOpdD w))
  | 2 => do some (.flop g (← FlopOp.ofCode (fSub w)) (w.extractLsb' 42 3) (bit w 3) (w.extractLsb' 0 3) (bit w 7) (w.extractLsb' 4 3))
  | 3 => do some (.pwrd g (← PwField.ofCode (fSub w)) (← fD w))
  | 4 => do some (.pwwr g (← PwField.ofCode (fSub w)) (← fA w))
  | 5 => some (.br g (w.extractLsb' 0 35))
  | 6 => do some (.brl g (← fD w) (w.extractLsb' 0 35))
  | 7 => do some (.jmp g (← fA w) (fI21 w))
  | 8 => do some (.jmpl g (← fD w) (← fA w) (fI21 w))
  | 9 => do some (.loop g (← fD w) (w.extractLsb' 0 35))
  | 10 => some (.nop g)
  | _ => none

/-- The opcodes 0x30 to 0x3F (R128). -/
def raw3 (lo : Nat) (w : Word) (g : Guard) : Option Instr :=
  match lo with
  | 0 => do some (.fadd g (bit w 52) (← fRmI w) (← fD w) (← fA w) (← fB w))
  | 1 => do some (.fsub g (bit w 52) (← fRmI w) (← fD w) (← fA w) (← fB w))
  | 2 => do some (.fmul g (bit w 52) (← fRmI w) (← fD w) (← fA w) (← fB w))
  | 3 => do some (.ffma g (bit w 52) (← fRmI w) (← fD w) (← fA w) (← fB w) (← fC w))
  | 4 => do some (.fdiv g (bit w 52) (← fRmI w) (← fD w) (← fA w) (← fB w))
  | 5 => do some (.fsqrt g (bit w 52) (← fRmI w) (← fD w) (← fA w))
  | 6 => do some (.fmin g (bit w 52) (← fD w) (← fA w) (← fB w))
  | 7 => do some (.fmax g (bit w 52) (← fD w) (← fA w) (← fB w))
  | 8 => do some (.fcmp g (← FCond.ofCode (fSub w)) (bit w 45) (w.extractLsb' 42 3) (← fA w) (← fB w))
  | 9 => do some (.fcvt g (← fRmI w) (← ETyp.ofCode (w.extractLsb' 7 4)) (← ETyp.ofCode (w.extractLsb' 3 4)) (← fD w) (← fA w))
  | 10 => do some (.fsgn g (bit w 52) (← SgnOp.ofCode (w.extractLsb' 53 2)) (← fD w) (← fA w) (← fB w))
  | 11 => do some (.fcls g (bit w 52) (← fD w) (← fA w))
  | _ => none

/-- The opcodes 0x40 to 0x4F (R128). -/
def raw4 (lo : Nat) (w : Word) (g : Guard) : Option Instr :=
  match lo with
  | 0 => do some (.ld g (fSize w) (bit w 54) (← fD w) (← fMem w))
  | 1 => do some (.st g (fSize w) (← fD w) (← fMem w))
  | 2 => do some (.ldf g (fSize w) (bit w 54) (← fD w) (← fMem w))
  | 3 => do some (.stf g (fSize w) (bit w 54) (← fD w) (← fMem w))
  | 4 => do some (.feset g (bit w 54) (← fD w) (← fMem w))
  | 5 => do some (.feqry g (← fD w) (← fMem w))
  | 6 => do some (.lda g (fSize w) (← fD w) (← fA w) (w.extractLsb' 0 24) (← fScopeB w))
  | 7 => do some (.stl g (fSize w) (← fD w) (← fA w) (w.extractLsb' 0 24) (← fScopeB w))
  | 8 => do some (.fetch g (fSize w) (bit w 54) (← fD w) (← fMem w))
  | 9 => do some (.pref g (← fMem w))
  | _ => none

/-- The opcodes 0x50 to 0x5F (R128). -/
def raw5 (lo : Nat) (w : Word) (g : Guard) : Option Instr :=
  match lo with
  | 0 => do some (.migr g (← fA w))
  | 1 => do some (.home g (← fD w) (← fA w))
  | 2 => do some (.cord g (← fD w) (← fCord w))
  | 3 => do some (.spawn g (← fD w) (← fA w) (← fB w) (← fC w))
  | 4 => some (.exit g)
  | 5 =>
    (if fSub w = 0 then some (.yield g) else none) <|>
    (if fSub w = 1 then some (.yieldRq g) else none)
  | 6 =>
    (if fSub w = 0 then some (.anch g) else none) <|>
    (if fSub w = 1 then some (.anchR g) else none)
  | 8 =>
    (if fSub w = 0 then do some (.marm g (← fMem w)) else none) <|>
    (if fSub w = 1 then some (.marmClr g) else none)
  | 9 => do some (.mwait g (← fD w) (← fA w))
  | 10 => do some (.binit g (← fA w) (← fB w) (← fC w))
  | 11 =>
    (if fSub w = 0 then do some (.barv g (← fD w) (← fA w)) else none) <|>
    (if fSub w = 1 then do some (.barvQ g (← fD w) (← fA w)) else none)
  | 12 =>
    (if fSub w = 0 then do some (.barw g (← fA w) (← fB w)) else none) <|>
    (if fSub w = 1 then do some (.barwA g (← fA w)) else none)
  | 13 => do some (.bdrop g (← fA w))
  | 14 =>
    (if fSub w = 0 then do some (.semi g (w.extractLsb' 0 8) (← fB w) (w.extractLsb' 8 13)) else none) <|>
    (if fSub w = 1 then do some (.sema g (w.extractLsb' 0 8) (← fB w) (w.extractLsb' 8 13)) else none) <|>
    (if fSub w = 2 then do some (.semr g (← fD w) (w.extractLsb' 0 8)) else none)
  | 15 => do some (.semw g (w.extractLsb' 0 8) (← fB w) (w.extractLsb' 8 13))
  | _ => none

/-- The opcodes 0x60 to 0x6F (R128). -/
def raw6 (lo : Nat) (w : Word) (g : Guard) : Option Instr :=
  match lo with
  | 0 => do some (.aadd g (bit w 52) (← fD w) (← fA w) (w.extractLsb' 0 24) (← fB w))
  | 1 => do some (.alog g (← LogOp.ofCode (w.extractLsb' 54 2)) (bit w 52) (← fD w) (← fA w) (w.extractLsb' 0 24) (← fB w))
  | 2 => do some (.amnx g (← MnxOp.ofCode (w.extractLsb' 54 2)) (bit w 52) (← fD w) (← fA w) (w.extractLsb' 0 24) (← fB w))
  | 3 => do some (.axch g (bit w 52) (← fD w) (← fA w) (w.extractLsb' 0 24) (← fB w))
  | 4 => do some (.acas g (bit w 52) (← fD w) (← fA w) (w.extractLsb' 0 24) (← fB w))
  | 5 => do some (.afadd g (bit w 52) (← fD w) (← fA w) (w.extractLsb' 0 24) (← fB w))
  | 6 => do some (.fence g (← FenceKind.ofCode (w.extractLsb' 52 2)) (← fScopeA w))
  | 8 => do some (.push g (bit w 52) (← fD w) (← fMem w))
  | 9 => do some (.pop g (bit w 52) (← fD w) (← fMem w))
  | 10 => do some (.chinit g (← fD w) (← fMem w))
  | 11 => do some (.send g (← fD w) (← fA w) (← fB w) (w.extractLsb' 0 3))
  | 12 => do some (.sendm g (← fD w) (← fA w) (← fB w) (← fC w))
  | 13 => do some (.recv g (← fA w) (w.extractLsb' 0 6))
  | 14 => do some (.chbind g (← fA w) (← fB w) (w.extractLsb' 0 6))
  | 15 => do some (.trdy g (← Ksc.ofCode (w.extractLsb' 52 2)) (← Ksc.ofCode (w.extractLsb' 54 2)) (← fD w) (← fA w))
  | _ => none

/-- The opcodes 0x70 to 0x7F (R128). -/
def raw7 (lo : Nat) (w : Word) (g : Guard) : Option Instr :=
  match lo with
  | 0 => do some (.vadd g (bit w 52) (← fT w) (← fRm w) (fMk w) (← fD w) (← fA w) (← fB w))
  | 1 => do some (.vsub g (bit w 52) (← fT w) (← fRm w) (fMk w) (← fD w) (← fA w) (← fB w))
  | 2 => do some (.vmul g (bit w 52) (← fT w) (← fRm w) (fMk w) (← fD w) (← fA w) (← fB w))
  | 3 => do some (.vfma g (← fT w) (← fRm w) (fMk w) (← fD w) (← fA w) (← fB w) (← fC w))
  | 4 => do some (.vfms g (← fT w) (← fRm w) (fMk w) (← fD w) (← fA w) (← fB w) (← fC w))
  | 5 => do some (.vfnma g (← fT w) (← fRm w) (fMk w) (← fD w) (← fA w) (← fB w) (← fC w))
  | 6 => do some (.vmin g (← fT w) (fMk w) (← fD w) (← fA w) (← fB w))
  | 7 => do some (.vmax g (← fT w) (fMk w) (← fD w) (← fA w) (← fB w))
  | 8 => do some (.vabs g (bit w 52) (← fT w) (fMk w) (← fD w) (← fA w))
  | 9 => do some (.vneg g (bit w 52) (← fT w) (fMk w) (← fD w) (← fA w))
  | 10 => do some (.vdiv g (← fT w) (← fRm w) (fMk w) (← fD w) (← fA w) (← fB w))
  | 11 => do some (.vsqrt g (← fT w) (← fRm w) (fMk w) (← fD w) (← fA w))
  | 12 => do some (.vrcp g (← fT w) (← fRm w) (fMk w) (← fD w) (← fA w))
  | 13 => do some (.vrsq g (← fT w) (← fRm w) (fMk w) (← fD w) (← fA w))
  | 14 => do some (.vexp2 g (← fT w) (← fRm w) (fMk w) (← fD w) (← fA w))
  | 15 => do some (.vlog2 g (← fT w) (← fRm w) (fMk w) (← fD w) (← fA w))
  | _ => none

/-- The opcodes 0x80 to 0x8F (R128). -/
def raw8 (lo : Nat) (w : Word) (g : Guard) : Option Instr :=
  match lo with
  | 0 => do some (.vand g (← fT w) (fMk w) (← fD w) (← fA w) (← fB w))
  | 1 => do some (.vor g (← fT w) (fMk w) (← fD w) (← fA w) (← fB w))
  | 2 => do some (.vxor g (← fT w) (fMk w) (← fD w) (← fA w) (← fB w))
  | 3 => do some (.vshl g (← fT w) (fMk w) (← fD w) (← fA w) (← fVIdxI w))
  | 4 => do some (.vshr g (← fT w) (fMk w) (← fD w) (← fA w) (← fVIdxI w))
  | 5 => do some (.vcmp g (← Cond.ofCode (fSub w)) (← fT w) (fMk w) (← fD w) (← fA w) (← fB w))
  | 6 => do some (.vsel g (← fT w) (fMk w) (← fD w) (← fA w) (← fB w) (← fC w))
  | 7 => do some (.vmov g (← fT w) (fMk w) (← fD w) (← fA w))
  | 8 => do some (.vbcst g (← fT w) (fMk w) (← fD w) (← fA w))
  | 9 => do some (.vgetl g (← fT w) (← fD w) (← fA w) (← fVIdx w))
  | 10 => do some (.vputl g (← fT w) (← fD w) (← fA w) (← fVIdx w))
  | 11 => do some (.vperm g (← fT w) (fMk w) (← fD w) (← fA w) (← fB w))
  | 12 => do some (.vrot g (← fT w) (fMk w) (← fD w) (← fA w) (← fVIdx w))
  | 13 => do some (.vcvt g (bit w 52) (← fT w) (← ETyp.ofCode (w.extractLsb' 0 4)) (← fRm w) (fMk w) (← fD w) (← fA w))
  | 14 => do some (.vqnt g (← VCodec.ofCode (fSub w)) (← fT w) (← fRm w) (fMk w) (← fD w) (← fA w))
  | 15 => do some (.vdqnt g (← VCodec.ofCode (fSub w)) (← fT w) (← fRm w) (fMk w) (← fD w) (← fA w))
  | _ => none

/-- The opcodes 0x90 to 0x9F (R128). -/
def raw9 (lo : Nat) (w : Word) (g : Guard) : Option Instr :=
  match lo with
  | 0 => do some (.vred g (← RedOp.ofCode (fSub w)) (← fT w) (← fRm w) (fMk w) (← fD w) (← fA w))
  | 1 => do some (.vscan g (← RedOp.ofCode (fSub w)) (← fT w) (← fRm w) (fMk w) (← fD w) (← fA w))
  | 2 => do some (.vld g (← ETyp.ofCode (fSub w)) (← fD w) (← fMem w))
  | 3 => do some (.vst g (← ETyp.ofCode (fSub w)) (← fD w) (← fMem w))
  | 4 => do some (.vlds g (← ETyp.ofCode (fSub w)) (← fD w) (← fMem w))
  | 5 => do some (.vsts g (← ETyp.ofCode (fSub w)) (← fD w) (← fMem w))
  | 6 => do some (.vgth g (← fT w) (fMk w) (w.extractLsb' 0 2) (← fD w) (← fA w) (← fB w))
  | 7 => do some (.vsct g (← fT w) (fMk w) (w.extractLsb' 0 2) (← fD w) (← fA w) (← fB w))
  | 8 => do some (.mops g (← fMops w) (← fD w) (← fA w))
  | 9 => do some (.vidx g (← fT w) (fMk w) (w.extractLsb' 0 10) (← fD w) (← fA w))
  | 10 => do some (.vdot g (← fT w) (← fRm w) (fMk w) (← fD w) (← fA w) (← fB w))
  | _ => none

/-- The opcodes 0xA0 to 0xAF (R128). -/
def rawA (lo : Nat) (w : Word) (g : Guard) : Option Instr :=
  match lo with
  | 0 => do some (.mxset g (← fCA w))
  | 1 => some (.mxrun g (fCl w))
  | 2 => do some (.mxsend g (← fCA w) (← fCB w) (fCl w))
  | 3 => do some (.tard g (← fT w) (← fRm w) (fMk w) (← fD w) (w.extractLsb' 8 2) (← fRow w))
  | 4 => do some (.tawr g (fMk w) (← fA w) (w.extractLsb' 8 2) (← fRow w))
  | 5 => some (.taz g (w.extractLsb' 0 2) (fCl w))
  | 6 => do some (.taq g (bit w 52) (← fD w))
  | 7 => do some (.fmtld g (← fFmtld w))
  | 8 => do some (.mxcap g (← fD w) (← fA w))
  | 9 => do some (.tacc g (w.extractLsb' 8 2) (← fA w) (← fB w))
  | _ => none

/-- The opcodes 0xB0 to 0xBF (R128). -/
def rawB (lo : Nat) (w : Word) (g : Guard) : Option Instr :=
  match lo with
  | 0 => do some (.cpy g (w.extractLsb' 5 3) (bit w 4) (← CodecSel.ofCode (w.extractLsb' 0 4)) (← fCA w) (← fCB w) (fCl w))
  | 1 => do some (.cpyx g (← fCA w) (← fCB w) (fCl w))
  | 2 => do some (.strm g (bit w 52) (← smOf (← fD w)) (← fA w))
  | 3 =>
    (if fSub w = 0 then do some (.strcGet g (← fD w) (← smOf (← fA w).reg)) else none) <|>
    (if fSub w = 1 then do some (.strcPut g (← smOf (← fD w)) (← fA w)) else none) <|>
    (if fSub w = 2 then do some (.strcEnd g (← smOf (← fA w).reg)) else none) <|>
    (if fSub w = 3 then do some (.strcQ g (← fD w) (← smOf (← fA w).reg)) else none)
  | 4 => do some (.cpq g (← fD w) (w.extractLsb' 0 4))
  | 5 => do some (.cpcan g (← fD w) (w.extractLsb' 0 4))
  | 6 => do some (.scout g (← fA w) (w.extractLsb' 0 3))
  | 7 => do some (.stor g (bit w 52) (w.extractLsb' 5 3) (← fCA w) (← fCB w) (fCl w))
  | 8 => do some (.gcopy g (← fD w) (← fA w) (← fB w))
  | 9 => do some (.gsend g (← fD w) (← fA w) (← fB w))
  | 10 => do some (.gcmp g (← fD w) (← fA w) (← fB w))
  | 11 => do some (.ghash g (← fD w) (← fA w) (← fB w))
  | 12 => do some (.gfree g (← fD w) (← fA w) (← fB w))
  | 13 => do some (.gtype g (← fD w) (← fA w) (← fOptB w))
  | 14 => do some (.gqry g (← fD w) (← fA w))
  | _ => none

/-- The opcodes 0xC0 to 0xCF (R128). -/
def rawC (lo : Nat) (w : Word) (g : Guard) : Option Instr :=
  match lo with
  | 0 =>
    (if fSub w = 0 then do some (.cjoin g (← fD w) (← fA w)) else none) <|>
    (if fSub w = 1 then do some (.cjoinQ g (← fD w) (← fA w)) else none) <|>
    (if fSub w = 2 then do some (.cjoinLv g (← fD w) (← fA w)) else none)
  | 1 => do some (.cred g (← CollOp.ofCode (fSub w)) (← fA w) (← fB w) (← fC w))
  | 2 => do some (.cmcst g (← fA w) (← fB w) (← fC w))
  | 3 =>
    (if fSub w = 0 then do some (.crcvMc g (← fD w) (← fA w) (← fB w).reg) else none) <|>
    (if fSub w = 1 then do some (.crcvRed g (← fD w) (← fA w) (← fB w).reg) else none)
  | 8 => do some (.bsget g (← fD w) (← fOpd w))
  | 9 => do some (.bspeek g (← fD w) (← fOpd w))
  | 10 => do some (.bsput g (← fA w) (← fOpd w))
  | 11 => some (.bsaln g (bit w 52) (w.extractLsb' 0 3))
  | 12 => some (.bsfls g)
  | 13 => some (.qwait g)
  | 14 => do some (.qtake g (← fD w))
  | 15 => do some (.qdone g (← fA w))
  | _ => none

/-- The opcodes 0xD0 to 0xDF (R128). -/
def rawD (lo : Nat) (w : Word) (g : Guard) : Option Instr :=
  match lo with
  | 0 => do some (.sysc g (← fD w) (← fA w) (← fB w))
  | 1 => do some (.sysw g (← fD w) (← fA w))
  | 2 => some (.trap g (w.extractLsb' 0 8))
  | 3 => some (.rett g (bit w 52))
  | 4 => do some (.sprd g (← fD w) (← Spr.ofCode (w.extractLsb' 0 8)))
  | 5 =>
    (do if (← Spr.ofCode (w.extractLsb' 0 8)).isOwn then none else some (.spwr g (← Spr.ofCode (w.extractLsb' 0 8)) (← fA w))) <|>
    (if w.extractLsb' 0 8 = 0x0D then do some (.spwrTypebase g (← fA w)) else none) <|>
    (if w.extractLsb' 0 8 = 0x12 then do some (.spwrXlbase g (← fA w)) else none) <|>
    (do some (.spwrBnd g (← bndOf (w.extractLsb' 0 8)) (← fA w)))
  | 6 => do some (.time g (← fD w))
  | 7 => do some (.launch g (← fD w) (← fA w))
  | 8 =>
    (if fSub w = 0 then do some (.qctl g (← fD w) (← fA w)) else none) <|>
    (if fSub w = 1 then do some (.qctlWr g (← fD w) (← fA w) (← fB w)) else none) <|>
    (if fSub w = 2 then do some (.qctlRst g (← fD w) (← fA w)) else none)
  | 9 =>
    (if fSub w = 0 then do some (.kill g (← fD w) (← fA w) (← fB w)) else none) <|>
    (if fSub w = 1 then do some (.killZ g (← fD w) (← fA w) (← fB w)) else none)
  | 10 => do some (.rclf g (← fD w) (← fA w) (← fB w))
  | 11 => do some (.gang g (← fD w) (← fA w))
  | 12 => do some (.plbinv g (← fD w) (← fOptA w) (← fB w))
  | 13 => do some (.xlinv g (← fD w) (← fOptA w) (← fB w))
  | 14 =>
    (if fSub w = 0 then do some (.pair g (← fD w) (← fA w)) else none) <|>
    (if fSub w = 1 then do some (.pairOff g (← fD w) (← fA w)) else none)
  | 15 => do some (.fpck g (← fD w))
  | _ => none

/-- The opcodes 0xE0 to 0xEF (R128). -/
def rawE (lo : Nat) (w : Word) (g : Guard) : Option Instr :=
  match lo with
  | 0 =>
    (if fSub w = 0 then do some (.coff g (← fD w) (← fA w)) else none) <|>
    (if fSub w = 1 then do some (.coffDef g (← fD w) (← fA w)) else none) <|>
    (if fSub w = 2 then do some (.coffLift g (← fD w) (← fA w)) else none)
  | 1 => some (.lsync g)
  | 2 => do some (.wipe g (← fD w) (← fA w) (← fB w))
  | 3 => some (.halt g (w.extractLsb' 0 8))
  | 4 => do some (.extl g (← fD w))
  | 5 =>
    (if fSub w = 0 then do some (.thrm g (← fD w) (← fA w)) else none) <|>
    (if fSub w = 1 then do some (.thrmSet g (← fA w) (← fB w)) else none)
  | 6 =>
    (if fSub w = 0 then do some (.repl g (← fD w) (← fA w)) else none) <|>
    (if fSub w = 1 then do some (.replQ g (← fD w) (← fA w)) else none)
  | _ => none

/-- The instruction whose fields a word holds, before any check of unused fields and operand classes. (DEDUCED: log entry 63) -/
def rawDecode (w : Word) : Option Instr :=
  let g : Guard := w.extractLsb' 48 4
  let lo := (w.extractLsb' 56 4).toNat
  match (w.extractLsb' 60 4).toNat with
  | 0 => raw0 lo w g
  | 1 => raw1 lo w g
  | 2 => raw2 lo w g
  | 3 => raw3 lo w g
  | 4 => raw4 lo w g
  | 5 => raw5 lo w g
  | 6 => raw6 lo w g
  | 7 => raw7 lo w g
  | 8 => raw8 lo w g
  | 9 => raw9 lo w g
  | 10 => rawA lo w g
  | 11 => rawB lo w g
  | 12 => rawC lo w g
  | 13 => rawD lo w g
  | 14 => rawE lo w g
  | _ => none

/-- Why a word is ILLEGAL (R129, R135). -/
inductive Illegal
  /-- No instruction, or a field that has no meaning. -/
  | noInstruction
  /-- G = 0b1000 (R120). -/
  | guardNever
  /-- A register of a class the entry does not accept, or an operand outside its limits. -/
  | badOperand
  /-- An unused field that is not zero (R125). -/
  | unusedField
deriving DecidableEq, Repr

/-- What a word is: an instruction, a word of the extension range with its identifier and guard (R129), or ILLEGAL. -/
inductive Decoded
  | instr (i : Instr)
  | extRange (id : Nat) (g : Guard)
  | illegal (why : Illegal)
deriving DecidableEq, Repr

/-- Steps 2 of R134: every check that the word alone decides. -/
def decode (w : Word) : Decoded :=
  let op := (w.extractLsb' 56 8).toNat
  if w.extractLsb' 48 4 = 8 then .illegal .guardNever
  else if 0xF0 ≤ op ∧ op ≤ 0xFE then .extRange (op - 0xF0 + 16) (w.extractLsb' 48 4)
  else
    match rawDecode w with
    | none => .illegal .noInstruction
    | some i =>
      if !i.wf then .illegal .badOperand
      else if encode i = w then .instr i
      else .illegal .unusedField

/-- The instruction of a word, if it is one. -/
def Decoded.toInstr : Decoded → Option Instr
  | .instr i => some i
  | .extRange _ _ => none
  | .illegal _ => none

/-- The decoder on the bits of an opcode-table row: every instruction is one 64-bit word (R119), and the bits above
`nbits` are zero. -/
def decodeTableWord (nbits w : Nat) : Option Instr :=
  (decode (BitVec.ofNat 64 (w % 2 ^ nbits))).toInstr

end Sys2Proof
end

