-- ==== Sys2Proof/Machine/State.lean ====
section
/-! DEFINITION. The state of a Broath B9 load-store domain as plain data, and its reset value. Every unit of the domain
is a record in a list keyed by its number; a unit whose record is not listed is as reset leaves it. Physical addresses are
natural numbers: a home address of DRAM below 2^46, the address itself for the deck, pool and TCM windows (bit 55 set),
and 2^60 plus the bus address for host memory. -/

namespace Sys2Proof.Machine

/-- A list of records by number: numbers strictly rising. -/
abbrev KMap (α : Type) := List (Nat × α)

/-! ### Threads -/

/-- Where a context is (R140, R144, R255, R413, R107, R424). -/
inductive Place
  /-- in a slot of a core -/
  | slot (core : Nat) (slot : Nat)
  /-- in a cluster's run queue, with its target core (none: any) and kind -/
  | runq (cluster : Nat) (target : Option Nat) (anchored : Bool)
  /-- in an image that travels in the named flit -/
  | flight (msg : Nat)
  /-- parked for an absent page at a cluster -/
  | parked (cluster : Nat)
  /-- frozen in its record cluster (R413) -/
  | frozen (cluster : Nat)
  /-- built for a multi-package launch and not released (R107): core and kind -/
  | built (core : Nat) (anchored : Bool)
  /-- saved by a gang switch, with the place it returns to -/
  | saved (core : Nat) (slot : Nat)
  /-- ended: EXIT, or discarded as stale -/
  | ended
deriving DecidableEq, Repr

/-- Why an occupied slot is not ready (R141), or why a request has not been answered. -/
inductive Why
  /-- registers that are empty or await a response (R134 step 6, R164) -/
  | reg (l : List Nat)
  /-- the instruction's request is on its way or queued at its home; its answer completes it -/
  | answer
  /-- in the waiters of a semaphore (R356) -/
  | sem (cluster n : Nat)
  /-- in the waiters of a barrier (R354); `barw.a` has arrived, and has made the thread a member (R351) -/
  | barrier (core idx : Nat) (arrived joined : Bool)
  /-- MWAIT, with the cycle of its timeout (R348) -/
  | mwait (deadline : Option Nat)
  /-- MARM with four lines held (R347) -/
  | trig
  /-- MARM, whose record cluster has no room in its park region (R347) -/
  | record (cluster : Nat)
  /-- a copy queue, 8 for the cross-core channel (R268) -/
  | queue (q : Nat)
  /-- a tile locked or with four operations held (R223) -/
  | tile (t : Nat)
  /-- the matrix engine belongs to another thread (R214) -/
  | mxOwner
  /-- MXSET or MXRUN waits for the shadow set (R221); its address -/
  | mxShadow
  /-- MXSEND waits for its wait clause, with the block that it has read (R230) -/
  | clause (cluster ws wt : Nat) (met : Bool) (blk : List Word)
  /-- taq.w (R233) -/
  | mxIdle
  /-- LSYNC (R158) -/
  | lsync
  /-- LAUNCH and QCTL requests unanswered before a migration (R157) -/
  | launches
  /-- awaited registers and sent stores before a migration, EXIT or anch.r (R245, R153, R155) -/
  | drain
  /-- a release: earlier reads and the writes to the scope (R325) -/
  | release (scope : Word)
  /-- a release of domain scope (R112, R152, R367) -/
  | domain
  /-- every sent store, before an engine reads for the thread (R75, R275) -/
  | stores
  /-- sent stores to one word (R246) -/
  | ownStore (pa : Nat)
  /-- an absent page, for an anchored thread (R255) -/
  | page
  /-- an absent page that the scarab's item has met, on a copy queue (R293) -/
  | item (q : Nat)
  /-- CRED (R401) and CRCV (R403) on a group -/
  | cred (gid : Nat)
  | crcvMc (gid : Nat)
  | crcvRed (gid : Nat)
  /-- SYSC with 16 calls outstanding (R465) -/
  | sysc
  /-- `anch` in the run queue (R155) -/
  | anch
  /-- YIELD until a cycle (R154) -/
  | yield (till : Nat)
  /-- the instruction's flit has not been injected (R402) -/
  | inject (msg : Nat)
  /-- the graph engine is taken (R296) -/
  | graph
  /-- the work queue of the scarab thread is empty (R293) -/
  | work
  /-- a stream register whose buffer has no room for some bits (R291); register 4 stands for all -/
  | strm (n room : Nat)
  /-- BND write in progress (R241) -/
  | bnd (cluster : Nat)
  /-- an exchange of fingerprints on a paired core (R430) -/
  | exchange
  /-- earlier reads before an acquire (R326) -/
  | reads
  /-- room in the list of tag waiters of a home (R333) -/
  | room (cluster : Nat)
  /-- room in the bank of a word, and in the run queue, of the thread's own cluster (R337) -/
  | bank (cluster pa : Nat)
  /-- a request that has fallen out at a cluster from which its context is switched out (R425) -/
  | away (cluster : Nat)
  /-- LDA has read its value, and its acquire waits for earlier reads (R326, R335) -/
  | acquire (v : Word)
deriving DecidableEq, Repr

/-- One element, or a part of one that crosses a word, in a word of memory: its bit in the v register, its bit in the word,
how many bits, the bits of its cell that they fill, and whether the last one is extended over them (R186, R206). -/
structure LanePart where
  dst : Nat
  src : Nat
  bits : Nat
  cell : Nat
  sx : Bool
deriving DecidableEq, Repr

/-- What a response does when it arrives (R438). -/
inductive Dest
  /-- write a g register, extended from `n` bytes (R259) -/
  | reg (r : Nat) (n : Nat) (sx : Bool)
  /-- write elements of a v register from one word (R209) -/
  | lane (v : Nat) (parts : List LanePart)
  /-- acknowledge a sent store (R246) -/
  | store
  /-- discard -/
  | none
deriving DecidableEq, Repr

/-- A register or store that awaits a response. -/
structure Await where
  tok : Nat
  dest : Dest
  /-- it is a read of memory (R325) -/
  read : Bool
  va : Word
  pa : Nat
deriving DecidableEq, Repr

/-- What the answer of a waiting instruction writes: a register, from `n` bytes; pw[8] from the value's bit 0; nothing, with a store through g14 (R412) or without. -/
inductive Fin
  | reg (r : Reg) (n : Nat) (sx : Bool)
  | brk
  | stack
  | nothing
  /-- a graph instruction: its destination, and the answer to a push or message of its second phase (R315, R316) -/
  | graph (r : Reg) (got : Option Word)
deriving DecidableEq, Repr

/-- How the answer of a waiting instruction completes it. -/
structure Pend where
  tok : Nat
  fin : Fin
  /-- an acquire to perform afterwards (LDA, R335) -/
  acquire : Option Word
  /-- the address that a trap reports -/
  addr : Word
  /-- the registers whose takes happen when the instruction completes (R134 step 6) -/
  takes : List Reg
  /-- answers that must come before the one that completes it (R334) -/
  more : Nat
  /-- WAITLIM has been reached and the request had not been served (R343, R360) -/
  cancelled : Bool := false
  /-- the line that the answer reads or writes at its home: older copies of it go when the answer arrives (R322, R323) -/
  line : Option Nat := none
deriving DecidableEq, Repr

/-- An error mark of a register that a failed fetch left empty (R258). -/
structure Mark where
  reg : Nat
  cause : BitVec 8
  addr : Word
deriving DecidableEq, Repr

/-- The monitor record (R344). -/
structure Monitor where
  lines : List Nat := []
  trig : Bool := false
deriving DecidableEq, Repr

/-- One barrier membership (R351): home core, index and generation; `dropped` after BDROP. -/
structure Member where
  core : Nat
  idx : Nat
  gen : Nat
  dropped : Bool
deriving DecidableEq, Repr

/-- A tensor descriptor read under R75. -/
structure Tensor where
  t : ETyp
  width : Nat
  rank : Nat
  base : Nat
  boff : Nat
  ext : List Nat
  stride : List Int
  fmt : BitVec 24
deriving DecidableEq, Repr

/-- Destination bits that a copy port has still to write: where, how many, their value, and whether QSTS.DONE counts them. -/
structure Put where
  at_ : Nat
  n : Nat
  v : Nat
  counts : Bool
deriving DecidableEq, Repr

/-- A stream binding of sm0 to sm3 (R290, R291). -/
structure Stream where
  wr : Bool
  ten : Tensor
  pos : Nat
  /-- the elements put and not written yet: the stream's buffer of 1 KiB, oldest first -/
  buf : List Put := []
deriving DecidableEq, Repr

/-- A store that a paired core holds until the next agreement (R429): address, bytes, value, whether its page has S = 1, and
whether it is a word of a trap record, written with its tag full (R411); and when it was translated (R265). -/
structure Gated where
  pa : Nat
  n : Nat
  v : Word
  shadow : Bool
  frame : Bool := false
  stamp : Nat := 0
deriving DecidableEq, Repr

/-- One thread: its registers, its special registers, and what it waits for. -/
structure Thread where
  g : Vector Word 16
  gFull : BitVec 16
  v : Vector (BitVec 1024) 32
  vFull : BitVec 32
  m : Vector (BitVec 32) 8
  mFull : BitVec 8
  sm : List (Option Stream)
  pw : BitVec 32
  pc : Word
  fa : BitVec 24
  fb : BitVec 24
  fsh : Vector Word 4
  domid : BitVec 12
  cin : BitVec 16
  tag : BitVec 16
  prio : BitVec 2
  anc : Bool
  sup : Bool
  rnd : BitVec 32
  wlim : Word
  tvec : Word
  tframe : Word
  tcause : Word
  taddr : Word
  tpc : Word
  inh : Bool
  /-- CYCLE: what had been counted when the cycle count stood at `cycAt` (R415) -/
  cyc : Word
  cycAt : Nat
  retired : Word
  place : Place
  /-- position in the order of arrivals of a run queue -/
  seq : Nat
  /-- WHY of the image that brought the thread: cause and the extension sought (R80, R132) -/
  whyCause : Nat
  whyExt : Nat
  /-- the resting state has not been read back yet (R83) -/
  resting : Bool
  wait : Option Why
  /-- the cycle in which the slot left the rotation for the present instruction (R343) -/
  since : Option Nat
  counted : Bool
  waitAddr : Word
  /-- the word of the instruction that the slot has not completed (IWORD of a trap, R409) -/
  iw : Word
  pend : Option Pend
  await : List Await
  marks : List Mark
  /-- LAUNCH (true) and QCTL (false) requests unanswered, by token (R157) -/
  asks : List (Nat × Bool)
  /-- calls outstanding and the next call number (R465) -/
  calls : List Nat
  callNo : Nat
  members : List Member
  mon : Monitor
  /-- a wake by the service pair or a gang switch that MWAIT reports as INTR (R348) -/
  intr : Bool
  /-- the wake of an absent page named a cause (R256) -/
  wakeCause : BitVec 8
  /-- the launch the thread belongs to (R103) -/
  launch : Option Nat
  /-- registers whose parity is bad (R414) -/
  bad : List Nat
  /-- twin span: fingerprint, RETIRED at the agreed point, gated stores, disagreements (R429 to R431) -/
  finger : Word
  agreed : Word
  gated : List Gated
  /-- when the thread last left a slot: lines read at their home earlier do not serve it (R323) -/
  seenFrom : Nat := 0
deriving DecidableEq, Repr

/-! ### Cores -/

/-- R113: one routing-channel entry. -/
structure ChanEntry where
  w0 : Word := 0
  tvec : Word := 0
  w2 : Word := 0
deriving DecidableEq, Repr

/-- A message of 0 to 4 words for a routing channel (R114). -/
structure ChanMsg where
  chan : Nat
  words : List Word
  sender : Nat
  domid : BitVec 12
  cin : BitVec 16
deriving DecidableEq, Repr

/-- R368: a posted receive block. -/
structure RecvBlock where
  addr : Word
  buf : Word
  len : Nat
  domid : BitVec 12
  cin : BitVec 16
  sup : Bool
deriving DecidableEq, Repr

/-- R350: one barrier. `waiters` holds the threads that wait on the present phase, in order of arrival. -/
structure Barrier where
  exp : Nat := 0
  live : Nat := 0
  arr : Nat := 0
  ph : BitVec 16 := 0
  rect : Word := 0
  domid : BitVec 12 := 0
  cin : BitVec 16 := 0
  gen : Nat := 0
  brkp : Bool := false
  /-- the last 16 phases, most recent first: broken or not -/
  history : List Bool := []
  waiters : List Nat := []
deriving DecidableEq, Repr

/-- Sticky flags of R52 and R46: NX, UF, OF, DZ, NV, and the status bit CLMP. -/
structure Fl where
  nx : Bool := false
  uf : Bool := false
  ofl : Bool := false
  dz : Bool := false
  nv : Bool := false
  clmp : Bool := false
deriving DecidableEq, Repr

/-- What a command of the copy port does, with its operands as latched at acceptance (R75, R272, R287). -/
inductive CopyOp
  /-- tensor to tensor, bits unchanged -/
  | plain (dst src : Tensor)
  /-- tensor to planes: codec of R76, 0 for the uncoded image; tensor, data plane, scale plane, auxiliary word, fa as latched -/
  | enc (codec : Nat) (src : Tensor) (data scale aux : Nat) (fa : BitVec 24)
  /-- planes to tensor -/
  | dec (codec : Nat) (dst : Tensor) (data scale aux : Nat) (fa : BitVec 24)
  /-- tensor into an arena (R282): control block, its BASE and SIZE, and source -/
  | arena (acb base size : Nat) (src : Tensor)
  /-- storage transfer (R287) -/
  | stor (wr : Bool) (target : Nat) (first count : Nat) (mem : Nat) (entry : Nat)
  /-- descriptors that an absent page has kept from being read (R75): of CPY and CPYX, with fa, fb and the FSH pointer as they
  stood; of STOR -/
  | unread (dec : Bool) (cd : CodecSel) (a b : Word) (fa fb : BitVec 24) (fsh : Word) (got : List Nat)
  | unreadStor (wr : Bool) (p : Word) (entry : Nat)
  /-- an operand was refused at acceptance with this code -/
  | refused (code : BitVec 8)
deriving DecidableEq, Repr

/-- An accepted copy command. -/
structure CopyCmd where
  op : CopyOp
  clauses : Clauses
  domid : BitVec 12
  cin : BitVec 16
  tag : BitVec 16
  sup : Bool
  tid : Nat
  launch : Option Nat
  /-- the wait clause has been met (R356) -/
  met : Bool
  started : Bool
  /-- the movement has finished with this code; the command still has to complete -/
  finished : Option (BitVec 8)
  /-- elements, blocks, lines or storage blocks moved: where a stalled command goes on -/
  moved : Nat
  /-- position in the coded plane (R277) -/
  pos : Nat
  /-- destination bits written -/
  bits : Nat
  fl : Fl
  /-- storage blocks issued and not complete, and the code that ends the command once they are (R470, R288) -/
  out : List Nat
  stop : BitVec 8
  /-- the writes left of the unit that has been read, and the storage block that they belong to (R280) -/
  puts : List Put := []
  part : Nat := 0
  /-- the arena that the command's message has reached, and the number of its arrival (R284, R314) -/
  ticket : Option (Nat × Nat) := none
deriving DecidableEq, Repr

/-- One copy queue, or the cross-core channel (R267, R269). -/
structure CopyQueue where
  cmds : List CopyCmd := []
  code : BitVec 8 := 0
  nx : Bool := false
  uf : Bool := false
  of : Bool := false
  nv : Bool := false
  clmp : Bool := false
  /-- the absent page that the head command waits for (R280) -/
  stall : Option Word := none
  /-- the core's cycle at which it has stalled, and the pages that the scout has reported for the head command (R280) -/
  stallAt : Nat := 0
  told : List Nat := []
  /-- destination bytes of the last command (R269) -/
  bytes : Nat := 0
  scout : Nat := 0
deriving DecidableEq, Repr

/-- The item that the scarab thread has taken (R293, R294). -/
structure WorkItem where
  queue : Nat
  dir : Bool
  n : Nat
  t : ETyp
  count : Nat
  /-- the length of the input in bits; a coded plane has no stated end -/
  inBits : Option Nat
  outBits : Nat
  inPos : Nat
  outPos : Nat
  dead : Bool
deriving DecidableEq, Repr

/-- A matrix command block with its latched formats (R216, R228). -/
structure MxBlock where
  words : List Word
  fa : BitVec 24
  fb : BitVec 24
deriving DecidableEq, Repr

/-- A matrix command: its block, clauses, acceptance number, context, the core of the thread that committed or sent it, and
whether it is a remote command (R224). -/
structure MxCmd where
  blk : MxBlock
  clauses : Clauses
  acc : Nat
  /-- the cycle of acceptance, doubled, and 1 more for a remote command: a local one goes first (R222) -/
  when_ : Nat := 0
  domid : BitVec 12
  cin : BitVec 16
  tag : BitVec 16
  sup : Bool
  tid : Nat
  core : Nat
  remote : Bool
  met : Bool
deriving DecidableEq, Repr

/-- The state of the shadow set (R221). -/
inductive Shadow
  | empty
  | loaded (b : MxBlock)
  | pending (c : MxCmd)
deriving DecidableEq, Repr

/-- The progress of a TACC (R235): receive and send buffers, 0 for none, the row, its words received so far, and once the row has
been added how many of its words have been sent. -/
structure Chain where
  src : Nat
  dst : Nat
  row : Nat := 0
  got : List Word := []
  sent : Option Nat := none
deriving DecidableEq, Repr

/-- TAZ (no chain) or TACC held by the engine (R222, R232, R235). -/
structure TileOp where
  tile : Nat
  acc : Nat
  /-- as for a command -/
  when_ : Nat := 0
  chain : Option Chain
  /-- flags of the rows of TACC so far -/
  fl : Fl
  /-- the absent page that it waits for -/
  stall : Option Word
  clauses : Clauses
  domid : BitVec 12
  cin : BitVec 16
  sup : Bool
  tid : Nat
  met : Bool
deriving DecidableEq, Repr

/-- The identity of the thread that owns a matrix engine (R214). -/
structure MxOwner where
  slot : Nat
  domid : BitVec 12
  cin : BitVec 16
  tag : BitVec 16
deriving DecidableEq, Repr

/-- The matrix engine of a core (R213, R215, R225). Tiles are lists of (element number, bits), elements numbered
2048 t + 32 i + j, rising, +0 when unlisted. -/
structure Matrix where
  owner : Option MxOwner := none
  last : Option (BitVec 12 × BitVec 16) := none
  tiles : List (Nat × BitVec 32) := []
  shadow : Shadow := .empty
  active : Option MxCmd := none
  /-- the command on the array: K indices summed, flags NX, NV, OF so far, and its code once summing has ended -/
  done : Nat := 0
  nx : Bool := false
  nv : Bool := false
  ofl : Bool := false
  result : Option (BitVec 8) := none
  /-- the absent page that the command on the array waits for (R224) -/
  stall : Option Word := none
  /-- operand lines in the staging region: address, bytes, and the offsets of their poisoned words (R220) -/
  pinned : KMap (Nat × List Nat) := []
  /-- on a paired core, the target tile as it was when the command started (R432) -/
  copy : List (Nat × BitVec 32) := []
  /-- rejected commands whose status word has not been written, with their codes and whether they stood at this engine; and a page
  is asked for on their behalf (R224, R226) -/
  rejects : List (MxCmd × BitVec 8 × Bool) := []
  asked : Bool := false
  remote : List MxCmd := []
  ops : List TileOp := []
  accNo : Nat := 0
  lnx : Bool := false
  lnv : Bool := false
  lof : Bool := false
  lastCode : BitVec 8 := 0
  capv : Bool := false
  capReg : Word := 0
deriving DecidableEq, Repr

/-- R393: a multicast delivery in a slot of a core, in order of arrival. -/
structure Delivery where
  data : BitVec 1024
  scalar : Word
  gid : BitVec 16
  domid : BitVec 12
  cin : BitVec 16
deriving DecidableEq, Repr

/-- R414: one entry of the operand log. -/
structure LogEntry where
  slot : Nat
  reg : Nat
  value : BitVec 1024
deriving DecidableEq, Repr

/-- R247: one PLB entry: page base and size, and the leaf. -/
structure PlbEntry where
  va : Nat
  size : Nat
  leaf : Word
deriving DecidableEq, Repr

/-- One Numbelet core. -/
structure Core where
  /-- cycles until which each slot loads (R140); slots that thermal control has disabled, last one first (R148) -/
  loading : List (Nat × Nat) := []
  disabled : List Nat := []
  /-- a slot marked for displacement (R148) -/
  marked : Option Nat := none
  /-- the cycle in which a slot was freed: it receives a context in a later one (R145) -/
  freed : List (Nat × Nat) := []
  /-- WCTR of each slot, 0 when unlisted (R142) -/
  wctr : List (Nat × Nat) := []
  /-- the class pointers and the promotion pointer (R142) -/
  classPtr : List Nat
  promPtr : Nat
  /-- the cycle of the core in which the barrel last chose, and what its choice had found: that cycle, the wait counters and the
  pointers, to which it returns when the chosen slot proves not ready (R140, R142) -/
  selAt : Option Nat := none
  before : Option (Option Nat × List (Nat × Nat) × List Nat × Nat) := none
  chans : KMap ChanEntry := []
  parkedMsgs : List ChanMsg := []
  posted : KMap RecvBlock := []
  barriers : KMap Barrier := []
  queues : KMap CopyQueue := []
  /-- codec work queue: queues whose head is a CUST command, in order of arrival (R292) -/
  work : List Nat := []
  item : Option WorkItem := none
  mx : Matrix := {}
  /-- extension directory: the entries written since boot by identifier, a position where V = 1 (R131) -/
  extDir : KMap (Option Nat) := []
  plb : List PlbEntry := []
  /-- lines of 128 bytes that the instruction cache holds, by physical address, as numbers (R138, R322) -/
  icache : KMap Nat := []
  log : List LogEntry := []
  mcast : List Delivery := []
  tcmOwner : Option (BitVec 12) := none
  marginal : Bool := false
  bin : BitVec 2 := 0
  /-- twin span: the partner's coordinate form, and whether this is the even core (R428) -/
  pair : Option (Nat × Bool) := none
  disagreements : List Nat := []
  ckpts : KMap Thread := []
  fpint : Word := 4096
  fpintNext : Option Word := none
  /-- thermal state: above hot since, below cool since (R148, R477) -/
  hotAt : Option Nat := none
  coolAt : Option Nat := none
  temp : Nat := 25
deriving DecidableEq, Repr

/-! ### Clusters -/

/-- R355: one semaphore; `waiters` are threads with their values, in order of arrival. -/
structure Sema where
  count : BitVec 16 := 0
  ovf : Bool := false
  waiters : List (Nat × Nat) := []
deriving DecidableEq, Repr

/-- The five walking instructions. -/
inductive GOp | gcopy | gsend | gcmp | ghash | gfree
deriving DecidableEq, Repr

/-- A graph instruction that waits for the engine or runs on it: thread, the token of its wait, the address of its walk
state block and its limit, 0 for none (R296, R303). -/
structure WalkReq where
  op : GOp
  tid : Nat
  tok : Nat
  wsb : Nat
  limit : Nat
deriving DecidableEq, Repr

/-- An arena that a walk has reserved, as read then (R314): its control block's physical address, BASE, SIZE, TAIL, and free
space f. -/
structure Arena where
  acb : Nat
  base : Nat
  size : Nat
  tail : Nat
  free : Nat
deriving DecidableEq, Repr

/-- R296 to R308: the walk that the engine runs. What a resumed walk needs is kept in the walk state block. -/
structure Walk where
  req : WalkReq
  wid : Nat
  /-- TYPEBASE as latched (R65) -/
  typebase : Word
  /-- objects that this execution has discovered (R303) -/
  found : Nat
  /-- the digest, once the graph has been serialised (R312) -/
  digest : Nat
  arena : Option Arena
  /-- how the walk ended, when scanning is over -/
  code : Option (BitVec 8)
  /-- the mutation flag when the sweep had passed (R307) -/
  swept : Option Bool
  /-- GFREE releases objects; GSEND has published its record (R315, R316) -/
  second : Bool
  /-- a push or message of the second phase is unanswered -/
  asked : Bool
  /-- the arena whose home the walk has reached, and the number of its arrival there (R314) -/
  ticket : Option (Nat × Nat) := none
deriving DecidableEq, Repr

/-- R307, R308: the watch of one walk: the physical address of its walk state block, its context, the lines that it covers
one by one, each with the part that belongs to the type table (from, to), the 64 KiB pages, and the mutation flag. -/
structure Watch where
  wid : Nat
  wsb : Nat
  domid : BitVec 12
  cin : BitVec 16
  lines : List (Nat × Nat × Nat)
  pages : List Nat
  mutd : Bool
deriving DecidableEq, Repr

/-- R395: one trestle entry. Round buffers hold contributions: round, child (0: own, k + 1: child k), data, scalar. -/
structure Trestle where
  domid : BitVec 12
  cin : BitVec 16
  gid : BitVec 16
  pos : Nat
  op : CollOp
  parent : Option Nat
  children : List Nat
  dlv : Bool
  own : Nat
  done : Nat
  read : Nat
  contribs : List (Nat × Nat × BitVec 1024 × Word)
  results : List (Nat × BitVec 1024 × Word)
  nx : Bool
  ofl : Bool
  nv : Bool
  /-- the priority class of the latest contribution (R384) -/
  pri : BitVec 2 := 0
deriving DecidableEq, Repr

/-- What an atomic computes (R337). -/
inductive AtomOp
  | add | log (o : LogOp) | mnx (o : MnxOp) | xchg | cas | fadd
deriving DecidableEq, Repr

/-- A request for a tag instruction (R331, R334). -/
inductive TagOp
  | ldf (empty : Bool)
  | stf (wait : Bool) (d : Word)
  | feset (full : Bool)
deriving DecidableEq, Repr

/-- Who asked: the answer goes to this thread's token, if its domain, incarnation and tag still match (R438). -/
structure Asker where
  tid : Nat
  tok : Nat
  domid : BitVec 12
  cin : BitVec 16
  tag : BitVec 16
  /-- the core to which the answer goes -/
  core : Nat
  sup : Bool
  /-- the page has S = 1 (R448) -/
  shadow : Bool
  /-- the priority class of the thread (R384) -/
  pri : BitVec 2 := 0
deriving DecidableEq, Repr

/-- A waiting LDF or STF.e request at its home (R333). -/
structure TagWaiter where
  who : Asker
  op : TagOp
  pa : Nat
  n : Nat
deriving DecidableEq, Repr

/-- A request for an atomic (R337). -/
structure AtomReq where
  who : Asker
  op : AtomOp
  pa : Nat
  n : Nat
  b : Word
  c : Word
deriving DecidableEq, Repr

/-- A channel-object operation (R358). -/
inductive ChanOp | push (v : Word) | pop | init (ctl : Word)
deriving DecidableEq, Repr

/-- A waiting PUSH or POP (R360). -/
structure ChanWaiter where
  who : Asker
  op : ChanOp
  pa : Nat
  /-- the request carried `.pr` (R358) -/
  pr : Bool
deriving DecidableEq, Repr

/-- One cluster: the state its 16 cores share, and the homes of its vault and pool. -/
structure Cluster where
  sems : KMap Sema := []
  bnd0 : BitVec 8 := 0x10
  bnd1 : BitVec 8 := 0x40
  bnd2 : BitVec 8 := 0x70
  /-- an accepted BND write that has not taken effect: register, value, thread (R241) -/
  bndWrite : Option (Nat × BitVec 8 × Nat) := none
  spOwner : Option (BitVec 12) := none
  xlCache : List PlbEntry := []
  /-- candidate lines by virtual address: physical line, when its home was read, and its bytes as a number (R254, R322) -/
  cands : KMap (Nat × Nat × Nat) := []
  /-- data read at a home before this stamp is not kept as a candidate: no read goes back in home order (R246, R322) -/
  candFloor : Nat := 0
  /-- live incarnation of each context at this cluster's endpoints, 0 when unlisted (R436) -/
  live : KMap (BitVec 16) := []
  walk : Option Walk := none
  /-- graph instructions that wait for the engine, in order of issue (R296) -/
  walks : List WalkReq := []
  watches : List Watch := []
  nextWid : Nat := 0
  trestles : List Trestle := []
  tagWait : List TagWaiter := []
  /-- proxy continuations in the run queue (R337), and requests in the queues of the banks -/
  proxies : KMap AtomReq := []
  atoms : List AtomReq := []
  chanWait : List ChanWaiter := []
  /-- monitor watches registered at this home: line and thread (R345) -/
  watchers : List (Nat × Nat) := []
  /-- those whose record has gone: line and record cluster (R348) -/
  lapsed : List (Nat × Nat) := []
  orphan : BitVec 32 := 0
  /-- CDAM's rectangle (R444), none: the cluster's own; FEN -/
  cdam : Option Word := none
  fen : Bool := false
  /-- an armed gang switch (R422), stopped, saved contexts' identities (R425) -/
  armed : Option Nat := none
  saved : List (BitVec 12 × BitVec 16) := []
  /-- router SEEN bits by context (R442) -/
  seen : List Nat := []
  shadowReserve : Nat := 0
deriving DecidableEq, Repr

/-! ### Dies and packages -/

/-- A message of kind SVC (R256, R413, R461, R465, R469): sender's words. -/
structure SvcMsg where
  kind : Nat
  w0 : Word
  w1 : Word
  extra : List Word
deriving DecidableEq, Repr

/-- R89: a placement-table entry: valid, physical die, and CMAP entries that are not the identity by logical cluster
(valid, position). -/
structure PlaceRow where
  valid : Bool
  pdie : Nat
  cmap : KMap (Bool × Nat)
deriving DecidableEq, Repr

/-- One die. -/
structure Die where
  /-- thermal ranking table, 0 when unlisted (R147) -/
  rank : KMap Word := []
  /-- the port cluster's copy of the placement table: entries that are not the identity, by logical die (R89) -/
  table : KMap PlaceRow := []
  deckOwner : KMap (BitVec 12) := []
  hot : Nat := 95
  cool : Nat := 85
  egen : BitVec 32 := 0
  leader : Nat := 0
  /-- last heartbeat from each die (R461) -/
  beats : KMap Nat := []
  svc : List SvcMsg := []
  /-- correction of the time base of this die, ns (R478) -/
  skew : Int := 0
  /-- when the last heartbeat was sent (R461) and the ranking table last rewritten (R147) -/
  sent : Nat := 0
  ranked : Nat := 0
deriving DecidableEq, Repr

/-- R96: the registers of a launch queue, and its packets. -/
structure LQueue where
  qcfg : Word := 0
  qtvec : Word := 0
  qwlim : Word := 0
  qstat : Word := 0
  /-- launches accepted and not started, in order -/
  ready : List Nat := []
  /-- multi-package launches held aside (R106) -/
  held : List Nat := []
deriving DecidableEq, Repr

/-- A launch request at a launch unit (R156, R157). -/
structure LaunchReq where
  id : Nat
  packet : Word
  /-- the requesting thread and token, or the mailbox entry's SEQ for the host (R458) -/
  who : Option Asker
  seq : BitVec 16
  cluster : Nat
  /-- how often a full reservation list has bounced it; it is parked in its issuer's cluster until a cycle (R157, R365) -/
  bounces : Nat := 0
  till : Option Nat := none
  /-- the full queue for which a reserved request waits (R157) -/
  goal : Option Nat := none
deriving DecidableEq, Repr

/-- A QCTL request at a launch unit (R159). -/
structure QctlReq where
  who : Asker
  form : Nat
  sel : Word
  val : Word
deriving DecidableEq, Repr

/-- R288, R471: a loaded extent capability. -/
structure Extent where
  domid : BitVec 12
  target : BitVec 16
  first : Nat
  count : Nat
  w : Bool
  r : Bool
  expiry : Nat
deriving DecidableEq, Repr

/-- One package. -/
structure Package where
  /-- 0 B9-X4, 1 B9-X2, 2 B9-X4L (R2) -/
  variant : Nat := 0
  queues : KMap LQueue := []
  reqs : List LaunchReq := []
  /-- the reservation list of requests to full queues, in order (R157) -/
  resv : List LaunchReq := []
  qctl : List QctlReq := []
  /-- by service class: the queue served last (R97) -/
  rr : List Nat := [63, 63, 63, 63]
  ready : Bool := true
  h2dBase : Word := 0
  h2dTail : BitVec 8 := 0
  h2dHead : BitVec 8 := 0
  /-- entries that a performed doorbell covers (R458) -/
  h2dSeen : BitVec 8 := 0
  d2hBase : Word := 0
  d2hTail : BitVec 8 := 0
  d2hHead : BitVec 8 := 0
  aper : KMap Word := []
  agent : Bool := false
  /-- outstanding agent requests: number, asker, address, time (R459) -/
  agentReqs : List (Nat × AtomReq × Nat) := []
  /-- device messages that a full ring holds back (R458) -/
  d2hHeldBack : List (List Word) := []
  /-- MSI-X signals of vector 0 so far -/
  msix : Nat := 0
  /-- stalled host accesses: number, offset, size, value of a write, time (R460) -/
  stalled : List (Nat × Nat × Nat × Option Word × Nat) := []
  /-- answers given to the host's accesses, newest first: kind (0 data, 1 Completer Abort, 2 Unsupported Request), value -/
  answers : List (Nat × Word) := []
  extents : KMap Extent := []
  targets : KMap Nat := []
  /-- storage blocks by device number and block, as 4,096-byte numbers; zero when unlisted -/
  storage : KMap Nat := []
  lcs : BitVec 8 := 3
  nonce : Option Word := none
  ownerKey : Option (List Byte) := none
  hostKeys : KMap (List Byte) := []
  meas : List (BitVec 512)
  clock : Nat := 2700
  /-- when the clock was last set by the power control (R477) -/
  throttled : Nat := 0
  spdm : List (BitVec 8) := []
deriving DecidableEq, Repr

/-! ### Launches, kills, flits -/

/-- The state of a launch (R103 to R108, R447 to R450). -/
inductive LaunchState
  | accepted | built | running | replaying | committing | over
deriving DecidableEq, Repr

/-- One launch. -/
structure Launch where
  pkg : Nat
  cluster : Nat
  addr : Word
  words : List Word
  stages : List Word
  domid : BitVec 12
  cin : BitVec 16
  sup : Bool
  host : Bool
  seq : BitVec 16
  state : LaunchState
  /-- every thread that has belonged to it -/
  members : List Nat
  /-- threads alive, built and killed -/
  alive : Nat
  threads : Nat
  killed : Nat
  replays : Nat
  late : Nat
  start : Nat
  ts : Option Nat
  /-- packages whose arrival the issuing unit holds, with the time of the last (R107) -/
  arrived : List Nat
  lastArrival : Nat
  /-- packages that hold a copy, that built threads, and that released them -/
  placed : List Nat
  builtOn : List Nat
  released : List Nat
  /-- packages that START has reached (R107) -/
  told : List Nat
  /-- packages whose copy a full list aside has bounced: how often, and until which cycle it is parked (R106, R365) -/
  resend : List (Nat × Nat × Nat) := []
  cancelled : Bool
  struck : Bool
  /-- the wait clause has been met (R102) -/
  met : Bool
  status : BitVec 8
deriving DecidableEq, Repr

/-- A shadow of a granule (R448): the granule's home address, its launch, and where its frame lies in the vault's reserve. -/
structure ShadowGranule where
  base : Nat
  launch : Nat
  frame : Nat
deriving DecidableEq, Repr

/-- A kill in progress (R440): clusters that its marker wave has not passed. -/
structure KillWave where
  id : Nat
  domid : BitVec 12
  cin : BitVec 16
  left : List Nat
  who : Asker
deriving DecidableEq, Repr

/-- A reclaim fence in progress (R442). -/
structure Fence where
  id : Nat
  domid : BitVec 12
  range : Word
  waves : Nat
  /-- live entries that the first wave found -/
  found : List (BitVec 16)
  skipped : Bool
  who : Asker
deriving DecidableEq, Repr

/-- An XLINV in progress (R264, R265): clusters that have not acknowledged. -/
structure XlInv where
  id : Nat
  va : Option Word
  left : List Nat
  skipped : Bool
  who : Asker
deriving DecidableEq, Repr

/-- A gang switch (R420 to R427), kept until the partition that it saved has been restored. -/
structure Gang where
  id : Nat
  rect : Word
  time : Nat
  /-- addresses of the save areas and of the status word, and for whom they are accessed -/
  outsa : Nat
  insa : Option Nat
  status : Nat
  who : Asker
  /-- physical address of the header of OUTSA -/
  header : Nat
  clusters : List Nat
  stopped : List Nat
  restored : List Nat
  late : Nat
  /-- when the last cluster reported its restore, and the start time -/
  lastReport : Nat
  ts : Option Nat
  done : Bool
  /-- the saved partition (R424): its threads with the places that they held, its contexts by cluster, the granules of its
  TCMs and scratchpads with their images and owners (R426), and what was saved of its cores and clusters -/
  threads : List (Nat × Place)
  pairs : List (Nat × BitVec 12 × BitVec 16)
  images : List (Nat × Nat × BitVec 12)
  cores : KMap Core
  parts : KMap Cluster
  /-- the saved words whose tags are empty, by the addresses that they have when restored: the words of the images are full (R330) -/
  empties : List Nat := []
deriving DecidableEq, Repr

/-- A call that the service side has accepted and not executed (R465, R466). -/
structure Call where
  id : Nat
  who : Asker
  block : Word
  pa : Nat
  token : Word
deriving DecidableEq, Repr

/-- The result that an answer carries. -/
inductive Ans
  | value (v : Word)
  | ok
  /-- a value of a fetched line: the line, its bytes, when it was read at the home, and whether it may be kept (R322) -/
  | line (v : Word) (la data stamp : Nat) (keep : Bool)
  /-- the request failed with this cause: the waiting instruction traps -/
  | fail (cause : BitVec 8)
  /-- a popped value, with the object it comes from (R363) -/
  | popr (v : Word) (pa : Nat)
deriving DecidableEq, Repr

/-- What a flit carries (R383). -/
inductive Body
  /-- IMAGE: the thread in flight; where it should be placed: core, kind, any core of the cluster -/
  | image (tid : Nat) (any : Bool) (tell : Option Asker)
  /-- READ of n bytes, from the home (`fresh`) or a candidate -/
  | read (who : Asker) (pa n : Nat) (keep : Bool)
  | feqry (who : Asker) (pa : Nat)
  | write (who : Asker) (pa n : Nat) (v : Word)
  /-- WRITE of several byte ranges of one word, as one access (R208) -/
  | writes (who : Asker) (pa : Nat) (l : List (Nat × Nat × Word))
  | proxy (r : AtomReq)
  | tagw (who : Asker) (op : TagOp) (pa n : Nat)
  | chan (who : Asker) (op : ChanOp) (pa : Nat) (pr : Bool)
  | msg (who : Option Asker) (m : ChanMsg)
  /-- BULK of `len` bytes; `data` ends where poison was read -/
  | bulk (who : Asker) (chan : Nat) (data : List Byte) (len : Nat)
  | engc (who : Asker) (cap : Word) (blk : MxBlock) (cl : Clauses) (cluster : Nat)
  | mcast (tree : List (BitVec 24)) (data : BitVec 1024) (scalar : Word) (gid : BitVec 16)
  | contrib (gid : BitVec 16) (node child round : Nat) (data : BitVec 1024) (scalar : Word)
  | setup (who : Asker) (op : CollOp) (gid : BitVec 16) (nodes : List (Nat × Option Nat × List Nat × Bool))
      (done : List Nat)
  | wtch (who : Asker) (line : Nat)
  /-- STAT: the signal clause of a completed remote command, for the sender's cluster (R224) -/
  | signal (cl : Clauses)
  | resp (who : Asker) (a : Ans)
deriving DecidableEq, Repr

/-- Where a flit is (R375 to R379, R388, R362, R365, R425). -/
inductive Loc
  /-- waits at the local port of a router (physical position) since a cycle -/
  | inject (pos : Nat) (since : Nat)
  /-- arrived at a router in a cycle by an input port: 0 N, 1 E, 2 S, 3 W; 4: in a pairing slot, its hold over -/
  | port (pos : Nat) (dir : Nat) (at_ : Nat)
  /-- held in a pairing slot until a cycle -/
  | held (pos : Nat) (till : Nat)
  /-- in the transmit interface of a link since a cycle: link, near position, far position and port -/
  | iface (l : Nat) (near far dir : Nat) (since : Nat)
  /-- in a link's replay buffer, and not accepted: link, near position, far position and port, LSEQ, the cycle of its last
  transmission, the width at which it was sent, and whether that transmission has been discarded -/
  | link (l : Nat) (near far dir : Nat) (lseq : Nat) (sent : Nat) (wid : BitVec 2) (lost : Bool)
  /-- in a receive entry of a link: link, far position and port, LSEQ -/
  | recv (l : Nat) (far dir : Nat) (lseq : Nat)
  /-- taken by the local port of its destination -/
  | ejected (pos : Nat)
  /-- parked at a cluster after its k-th bounce until a cycle (R365) -/
  | parked (cluster : Nat) (till : Nat)
  /-- fallen out at a switched-out cluster (R425) -/
  | fallen (cluster : Nat)
  /-- held for an absent page in the park region of the port cluster that places it, with the bytes that its buffer has received
  once all are written (R285) -/
  | stalled (cluster : Nat) (placed : Option Nat)
deriving DecidableEq, Repr

/-- A flit: its header (R382), what it carries and where it is. -/
structure Msg where
  kind : BitVec 6
  domid : BitVec 12
  cin : BitVec 16
  tag : BitVec 16
  pri : BitVec 2
  /-- the cycle of injection, from which AGE counts, and that in which the flit left the fabric (R380) -/
  injected : Nat
  out : Option Nat := none
  born : BitVec 32
  src : Nat
  ldest : Nat
  dest : Nat
  held : Bool
  nack : Bool
  fnc : Bool
  bounces : Nat
  /-- order of making, and the number in its flow (R385) -/
  sq : Nat
  seq : BitVec 16
  body : Body
  loc : Loc
deriving DecidableEq, Repr

/-- An off-package link by number (R386 to R390). -/
structure Link where
  width : BitVec 2 := 0
  failed : Bool := false
  /-- LSEQ of the next new packet, of the oldest unacknowledged one, and of the one that the receiver expects -/
  txSeq : Nat := 0
  acked : Nat := 0
  rxSeq : Nat := 0
  /-- a negative acknowledgement is on its way to the transmitter (R388) -/
  nak : Bool := false
deriving DecidableEq, Repr

/-- A router: the cycle after the last one in which it has moved its flits, and the cycle since which its neighbours pause for
its injection (R379). -/
structure Router where
  ran : Nat := 0
  starving : Option Nat := none
deriving DecidableEq, Repr

/-- A clock beside that of package 0's compute cores: its cycles since reset, those before the present core cycle, and the
remainder (R140, R143, R481). -/
structure CoreClock where
  now : Nat := 0
  last : Nat := 0
  tick : Nat := 0
deriving DecidableEq, Repr

/-! ### The domain -/

/-- A Broath B9 domain. The first fields are the model's own: the events still to happen, the thread whose instruction
issues next, the thread and word of the instruction in execution, and the counters of free values and fresh numbers. -/
structure State where
  agenda : List Instr
  issue : Option Nat
  cur : Nat
  iword : Word
  free : Nat
  nextId : Nat
  /-- core cycles since reset, and the domain time base in ns with its remainder (R7, R140, R419) -/
  cycle : Nat
  timeNs : Nat
  tick : Nat
  /-- the cycles of pylon cores, and of cores in bin 2 -/
  pylon : CoreClock
  slow : CoreClock
  threads : KMap Thread
  cores : KMap Core
  clusters : KMap Cluster
  dies : KMap Die
  packages : KMap Package
  launches : KMap Launch
  msgs : KMap Msg
  links : KMap Link
  routers : KMap Router
  mem : List Host.Cell
  empties : List Nat
  poison : List Nat
  shadows : List ShadowGranule
  kills : List KillWave
  fences : List Fence
  xlinvs : List XlInv
  gangs : List Gang
  calls : List Call
  /-- the numbers of flows: how many flits each has had, by source and destination (R385) -/
  flows : KMap (BitVec 16)
  /-- placement table entries that are not the identity, by logical die (R89) -/
  place : KMap PlaceRow
  /-- the shape of the domain: packages in X and Y, closed torus rings (R86, R376) -/
  pkgsX : Nat
  pkgsY : Nat
  ringX : Bool
  ringY : Bool
  xlbase : Word
  pwin : BitVec 6
  typebase : KMap Word
  nextCin : KMap (BitVec 16)
  floorCin : KMap (BitVec 16)
  /-- contexts whose incarnations an RCLF with SYS = 1 has covered since their last live entry was cleared (R439) -/
  reclaimed : List Nat
deriving DecidableEq, Repr

/-- Why the machine stops. -/
inductive Fault
  /-- Raised by `step` when no package of the domain may run a thread: every one is SCRAPPED (R474). Safe: the spec says
  that no thread runs. -/
  | scrapped
deriving DecidableEq, Repr

/-- Why the model declines. -/
inductive Refusal
  /-- Raised by an arm of `exec` whose instruction has no meaning yet. Safe: nothing is claimed. -/
  | notModelled (mnemonic : String)
deriving DecidableEq, Repr

/-! ### Reset -/

/-- A thread record with every register at its start value (R111); the start rules set the rest. -/
def Thread.blank : Thread where
  g := Vector.replicate 16 0
  gFull := BitVec.allOnes 16
  v := Vector.replicate 32 0
  vFull := BitVec.allOnes 32
  m := Vector.replicate 8 0
  mFull := BitVec.allOnes 8
  sm := []
  pw := 1
  pc := 0
  fa := 0
  fb := 0
  fsh := Vector.replicate 4 0
  domid := 0
  cin := 0
  tag := 0
  prio := 0
  anc := false
  sup := false
  rnd := 1
  wlim := 0
  tvec := 0
  tframe := 0
  tcause := 0
  taddr := 0
  tpc := 0
  inh := false
  cyc := 0
  cycAt := 0
  retired := 0
  place := .ended
  seq := 0
  whyCause := 0
  whyExt := 0
  resting := false
  wait := none
  since := none
  counted := false
  waitAddr := 0
  iw := 0
  pend := none
  await := []
  marks := []
  asks := []
  calls := []
  callNo := 0
  members := []
  mon := {}
  intr := false
  wakeCause := 0
  launch := none
  bad := []
  finger := 0
  agreed := 0
  gated := []

/-- A core's record after reset: slot 7 names first choice on a compute core, slot 3 on a pylon core (R142). (DESIGN CHOICE: log entry 3) -/
def Core.reset (pylon : Bool) : Core where
  classPtr := List.replicate 4 (if pylon then 3 else 7)
  promPtr := if pylon then 3 else 7

/-- R473: M1 to M8 after a boot in a life-cycle state. (DESIGN CHOICE: log entry 5) -/
def bootMeasurements (lcs : Nat) : List (BitVec 512) :=
  (List.range 8).map (fun i => Config.bootMeasurement (if i = 6 then 7 + 256 * lcs else i + 1))

/-- A package's record after reset (R96, R457, R473): DEPLOYED, with the keys that PROVISION has fused. (DESIGN CHOICE: log entries 3, 5) -/
def Package.reset : Package where
  meas := bootMeasurements 3
  ownerKey := some Config.ownerKey
  hostKeys := (List.range 4).filterMap (fun k => (Config.hostKey k).map (fun key => (k, key)))

/-- The domain after reset and boot: one B9-X4 package, every register at its reset value, memory all zero with every
word full (R452, R479), no event pending. (DESIGN CHOICE: log entries 1, 3, 8) -/
def State.reset : State where
  agenda := []
  issue := none
  cur := 0
  iword := 0
  free := 0
  nextId := 0
  cycle := 0
  timeNs := 0
  tick := 0
  pylon := {}
  slow := {}
  threads := []
  cores := []
  clusters := []
  dies := []
  packages := []
  launches := []
  msgs := []
  links := []
  routers := []
  mem := []
  empties := []
  poison := []
  shadows := []
  kills := []
  fences := []
  xlinvs := []
  gangs := []
  calls := []
  flows := []
  place := []
  pkgsX := 1
  pkgsY := 1
  ringX := false
  ringY := false
  xlbase := 0
  pwin := 0
  typebase := []
  nextCin := []
  floorCin := []
  reclaimed := []

end Sys2Proof.Machine
end

