-- ==== Sys2Proof/Machine/Place.lean ====
section
/-! DEFINITION. Lists of records by number, and where things are: coordinates and rectangles (R84 to R94), the units that
are present, the map of logical to physical positions (R88, R89), and the home of a physical address (R243). -/

namespace Sys2Proof.Machine

/-! ### Lists of records -/

/-- The record of number `k`, if listed. -/
def KMap.find {α : Type} : KMap α → Nat → Option α
  | [], _ => none
  | (i, a) :: r, k => if i = k then some a else KMap.find r k

/-- The record of number `k`, or `d`. -/
def KMap.getD {α : Type} (m : KMap α) (k : Nat) (d : α) : α := (KMap.find m k).getD d

/-- Sets the record of number `k`, keeping the numbers rising. -/
def KMap.set {α : Type} : KMap α → Nat → α → KMap α
  | [], k, a => [(k, a)]
  | (i, b) :: r, k, a => if k < i then (k, a) :: (i, b) :: r else if i = k then (k, a) :: r else (i, b) :: KMap.set r k a

/-- Removes the record of number `k`. -/
def KMap.erase {α : Type} (m : KMap α) (k : Nat) : KMap α := m.filter (fun p => decide (p.1 ≠ k))

/-- The canonical form: numbers strictly rising. -/
def KMap.sorted {α : Type} (m : KMap α) : Bool := decide ((m.map Prod.fst).Pairwise (· < ·))

/-! ### Coordinates -/

/-- X of a position in coordinate form (R85). -/
def posX (p : Nat) : Nat := p % 512
/-- Y of a position in coordinate form (R85). -/
def posY (p : Nat) : Nat := p / 512 % 512
/-- The position of (X, Y) in coordinate form (R85). -/
def posOf (x y : Nat) : Nat := y * 512 + x

/-- The die of a position (R84). -/
def dieOf (p : Nat) : Nat := 16 * (posY p / 24) + posX p / 24
/-- The cluster of a position within its die (R84). -/
def clusOf (p : Nat) : Nat := 6 * (posY p % 24 / 4) + posX p % 24 / 4
/-- The core number of a position within its cluster (R84). -/
def coreNoOf (p : Nat) : Nat := 4 * (posY p % 4) + posX p % 4
/-- The number of the cluster of a position in the domain: die and cluster. -/
def clusterOf (p : Nat) : Nat := dieOf p * 64 + clusOf p
/-- The package index of a die (R84). -/
def pkgOfDie (d : Nat) : Nat := 8 * (d / 16 / 2) + d % 16 / 2
/-- The package index of a position (R84). -/
def pkgOf (p : Nat) : Nat := pkgOfDie (dieOf p)
/-- The logical die 0 of a package: its lower-left die. -/
def die0 (pkg : Nat) : Nat := 16 * (2 * (pkg / 8)) + 2 * (pkg % 8)
/-- The position of a core from die, cluster and core number (R84). -/
def posAt (die c k : Nat) : Nat :=
  posOf (24 * (die % 16) + 4 * (c % 6) + k % 4) (24 * (die / 16) + 4 * (c / 6) + k / 4)
/-- Coordinate form to level form (R85). -/
def toLevel (p : Nat) : Nat := dieOf p * 1024 + clusOf p * 16 + coreNoOf p
/-- Level form to coordinate form (R85). -/
def ofLevel (l : Nat) : Nat := posAt (l / 1024) (l / 16 % 64) (l % 16)
/-- A coordinate form that names a position of R84. -/
def posValid (p : Nat) : Bool := decide (p < 262144) && decide (posX p < 384) && decide (posY p < 384)
/-- A level form that names a position of R84. -/
def levelValid (l : Nat) : Bool := decide (l < 262144) && decide (l / 16 % 64 < 36)
/-- The port cluster of a die (R86). -/
def portOf (die : Nat) : Nat := die * 64 + 33
/-- Core 0 of a cluster. -/
def clusterPos (cl : Nat) : Nat := posAt (cl / 64) (cl % 64) 0

/-! ### Rectangles (R93, R94) -/

/-- System scope. -/
def rectSys (r : Word) : Bool := bit r 63
def rectX0 (r : Word) : Nat := (r.extractLsb' 0 9).toNat
def rectY0 (r : Word) : Nat := (r.extractLsb' 9 9).toNat
def rectX1 (r : Word) : Nat := (r.extractLsb' 18 9).toNat
def rectY1 (r : Word) : Nat := (r.extractLsb' 27 9).toNat
/-- R94: a rectangle with SYS = 0 that is not valid. -/
def rectBad (r : Word) : Bool :=
  decide (rectX0 r > rectX1 r) || decide (rectY0 r > rectY1 r) || decide (rectX1 r > 383) || decide (rectY1 r > 383) ||
    decide (r.extractLsb' 36 27 ≠ 0)
/-- Valid as a scope or unit set: SYS, or valid under R94. (DEDUCED: log entry 69) -/
def rectOk (r : Word) : Bool := rectSys r || !rectBad r
/-- R93: the rectangle contains the position. -/
def rectHas (r : Word) (p : Nat) : Bool :=
  rectSys r || (decide (rectX0 r ≤ posX p) && decide (posX p ≤ rectX1 r) && decide (rectY0 r ≤ posY p) && decide (posY p ≤ rectY1 r))
/-- The rectangle contains at least one core position of the cluster (R324). -/
def rectMeets (r : Word) (cl : Nat) : Bool :=
  let x := posX (clusterPos cl)
  let y := posY (clusterPos cl)
  rectSys r || (decide (rectX0 r ≤ x + 3) && decide (x ≤ rectX1 r) && decide (rectY0 r ≤ y + 3) && decide (y ≤ rectY1 r))
/-- The rectangle value of four corners. -/
def rectMk (x0 y0 x1 y1 : Nat) : Word := BitVec.ofNat 64 (x0 + y0 * 512 + x1 * 262144 + y1 * 134217728)

/-! ### Units -/

/-- A package's record. -/
def State.pkg (s : State) (p : Nat) : Package := KMap.getD s.packages p Package.reset
def State.setPkg (s : State) (p : Nat) (r : Package) : State := { s with packages := KMap.set s.packages p r }
def State.modPkg (s : State) (p : Nat) (f : Package → Package) : State := s.setPkg p (f (s.pkg p))

/-- The package lies in the domain. (DESIGN CHOICE: log entry 8) -/
def State.pkgPresent (s : State) (p : Nat) : Bool := decide (p < 64) && decide (p % 8 < s.pkgsX) && decide (p / 8 < s.pkgsY)

/-- The die is there at boot (R2, R3). (DESIGN CHOICE: log entry 8) -/
def State.bootDie (s : State) (die : Nat) : Bool :=
  s.pkgPresent (pkgOfDie die) && (decide ((s.pkg (pkgOfDie die)).variant ≠ 1) || decide (die / 16 % 2 = 0))

/-- The placement-table entry of a logical die: at boot each present die maps to itself and CMAP is the identity (R89). -/
def State.placeRow (s : State) (die : Nat) : PlaceRow :=
  KMap.getD s.place die ⟨s.bootDie die, die, []⟩
/-- R86, R89: the logical die is present. -/
def State.diePresent (s : State) (die : Nat) : Bool := decide (die < 256) && (s.placeRow die).valid
/-- CMAP of a logical cluster (R89). Positions 33 to 35 are not mapped. -/
def State.cmap (s : State) (die c : Nat) : Bool × Nat :=
  if c < 33 then KMap.getD (s.placeRow die).cmap c (true, c) else (true, c)
/-- A logical cluster that holds cores (R86, R89): 0 to 31 compute, 32 pylon. -/
def State.clusterPresent (s : State) (cl : Nat) : Bool :=
  s.diePresent (cl / 64) && decide (cl % 64 < 33) && (s.cmap (cl / 64) (cl % 64)).1
/-- A cluster of 16 compute cores. -/
def isCompute (cl : Nat) : Bool := decide (cl % 64 < 32)
/-- A position of the pylon cluster (R86). -/
def isPylon (p : Nat) : Bool := decide (clusOf p = 32)
/-- The position holds a present Numbelet core (R86); one retired without a spare is absent (R481). -/
def State.corePresent (s : State) (p : Nat) : Bool :=
  posValid p && s.clusterPresent (clusterOf p) && (!isPylon p || decide (coreNoOf p ∈ [0, 2, 8, 10])) &&
    (KMap.find s.cores p).all (fun c => c.bin != 3)

/-- A position operand: bits [63:18] zero, and the name of a present Numbelet core. -/
def State.coreOperand (s : State) (w : Word) : Bool := decide (w.toNat < 262144) && s.corePresent w.toNat

/-- R88: the physical position of a logical one, by an entry of a placement table; none when it is not mapped. -/
def PlaceRow.phys (r : PlaceRow) (p : Nat) : Option Nat :=
  let c := clusOf p
  let m := if c < 33 then KMap.getD r.cmap c (true, c) else (true, c)
  if decide (dieOf p < 256) && r.valid && m.1 then some (posAt r.pdie m.2 (coreNoOf p)) else none
/-- R88: the physical position of a logical one, by the table that the service pairs hold. -/
def State.physOf (s : State) (p : Nat) : Option Nat := (s.placeRow (dieOf p)).phys p
/-- R88, R89: the physical position of a logical one, by the copy of the table that a die's port cluster keeps. -/
def State.physFrom (s : State) (die p : Nat) : Option Nat :=
  (KMap.getD (KMap.getD s.dies die {}).table (dieOf p) ⟨s.bootDie (dieOf p), dieOf p, []⟩).phys p
/-- The logical cluster that stands at a physical position, if any. (DEDUCED: log entry 88) -/
def State.logicalAt (s : State) (p : Nat) : Option Nat :=
  if s.place.isEmpty then some (clusterOf p)
  else (List.range 256).findSome? (fun d => (List.range 36).findSome? (fun c =>
    if s.physOf (posAt d c (coreNoOf p)) = some p then some (d * 64 + c) else none))

/-! ### Distances (R376) -/

/-- The extent of the domain in tiles. -/
def State.tilesX (s : State) : Nat := 48 * s.pkgsX
def State.tilesY (s : State) : Nat := 48 * s.pkgsY
/-- Distance along one dimension. -/
def ringDist (closed : Bool) (n a b : Nat) : Nat :=
  let d := if a ≤ b then b - a else a - b
  if closed then Nat.min d (n - d) else d
/-- R376: distance on the torus in X plus Y. -/
def State.dist (s : State) (p q : Nat) : Nat :=
  ringDist s.ringX s.tilesX (posX p) (posX q) + ringDist s.ringY s.tilesY (posY p) (posY q)

/-- Core numbers of a present cluster (R86). -/
def coresIn (cl : Nat) : List Nat :=
  if cl % 64 < 32 then List.range 16 else if cl % 64 = 32 then [0, 2, 8, 10] else []
/-- Positions of a cluster's cores. -/
def clusterCores (cl : Nat) : List Nat := (coresIn cl).map (posAt (cl / 64) (cl % 64))
/-- Logical dies of the domain, in ascending number. -/
def State.diesPresent (s : State) : List Nat := (List.range 256).filter s.diePresent
/-- Clusters of a die that hold cores. -/
def State.clustersOf (s : State) (die : Nat) : List Nat :=
  ((List.range 33).map (die * 64 + ·)).filter s.clusterPresent
/-- Clusters of a rectangle that hold cores. -/
def State.clustersIn (s : State) (r : Word) : List Nat := (s.diesPresent.flatMap s.clustersOf).filter (rectMeets r)
/-- Present cores of a rectangle. -/
def State.coresOf (s : State) (r : Word) : List Nat :=
  ((s.clustersIn r).flatMap clusterCores).filter (rectHas r)

/-! ### Homes -/

/-- Where host memory begins among physical addresses (`2^60` plus the bus address). -/
def hostBase : Nat := 1152921504606846976
/-- Where window addresses begin: bit 55. -/
def windowBase : Nat := 36028797018963968
def deckBase : Nat := 0x0080000000000000
def poolBase : Nat := 0x0081000000000000
def tcmBase : Nat := 0x0082000000000000

/-- The home of a physical address (R243). -/
inductive Home
  | tcm (core : Nat)
  | pool (cluster : Nat)
  | vault (cluster : Nat)
  /-- a deck line: its die and cluster position -/
  | deck (die position : Nat)
  | host
deriving DecidableEq, Repr

/-- R242, R243: the home of a physical address. -/
def homeOf (pa : Nat) : Home :=
  if hostBase ≤ pa then .host
  else if tcmBase ≤ pa then .tcm (ofLevel ((pa - tcmBase) / 262144))
  else if poolBase ≤ pa then .pool ((pa - poolBase) / 536870912 * 64 + (pa - poolBase) / 8388608 % 64)
  else if deckBase ≤ pa then .deck ((pa - deckBase) / 134217728) ((pa - deckBase) % 134217728 / 128 % 36)
  else .vault (pa / 274877906944 * 64 + pa / 8589934592 % 32)

/-- The logical position where a home stands: the TCM's core, core 0 of a cluster, the tile position of a deck line's
cluster, and for the host the port cluster of the asking package (R243, R262). -/
def homePos (pkg : Nat) : Home → Nat
  | .tcm k => k
  | .pool c | .vault c => clusterPos c
  | .deck d p => posAt d p 0
  | .host => posAt (die0 pkg) 33 0

/-- The cluster number of a home. -/
def homeCluster (pkg : Nat) (h : Home) : Nat := clusterOf (homePos pkg h)

/-- A home local to a core: its own TCM, its cluster's pool or vault (R243). -/
def homeLocal (core : Nat) : Home → Bool
  | .tcm k => decide (k = core)
  | .pool c | .vault c => decide (c = clusterOf core)
  | .deck _ _ | .host => false

/-- R324: a location with this home lies in the scope. -/
def homeIn (sc : Word) : Home → Bool
  | .tcm k => rectHas sc k
  | .pool c | .vault c => rectMeets sc c
  | .deck d p => rectMeets sc (d * 64 + p)
  | .host => rectSys sc

end Sys2Proof.Machine
end

