-- ==== Sys2Proof/Machine/Ops.lean ====
section
/-! DEFINITION. The named operations over the state: records of threads, cores and clusters; bytes, words, tags and poison
of memory; registers and their full bits; taking an exception (R411) and returning from one (R418); freezing (R413); and
`run`, the steps 3 to 7 of R134 that every instruction goes through. -/

namespace Sys2Proof.Machine

/-! ### Fresh numbers and free values -/

/-- A value that the spec does not state. (DESIGN CHOICE: log entry 2) -/
def State.freeWord (s : State) : Word := Config.freeWord s.free
/-- The state after a free value has been used. (DESIGN CHOICE: log entry 2) -/
def State.bumpFree (s : State) : State := { s with free := s.free + 1 }
/-- The state after a fresh number (`s.nextId`) has been used. -/
def State.bumpId (s : State) : State := { s with nextId := s.nextId + 1 }

/-- The first of `start + i` modulo `n` that is not in use: a fresh tag or frame, whose value is not architected (R110). -/
def freshIn (used : List Nat) (n start : Nat) : Nat :=
  ((List.range (used.length + 1)).map (fun i => (start + i) % n)).find? (fun x => !used.contains x) |>.getD (start % n)

/-! ### Records -/

/-- Threads of slot 7 have numbers from 2^40 plus the core's position. -/
def scarabBase : Nat := 1099511627776

/-- A core's record. -/
def State.core (s : State) (k : Nat) : Core := KMap.getD s.cores k (Core.reset (isPylon k))
def State.setCore (s : State) (k : Nat) (c : Core) : State := { s with cores := KMap.set s.cores k c }
def State.modCore (s : State) (k : Nat) (f : Core → Core) : State := s.setCore k (f (s.core k))

/-- A cluster's record. -/
def State.cluster (s : State) (k : Nat) : Cluster := KMap.getD s.clusters k {}
def State.setCluster (s : State) (k : Nat) (c : Cluster) : State := { s with clusters := KMap.set s.clusters k c }
def State.modCluster (s : State) (k : Nat) (f : Cluster → Cluster) : State := s.setCluster k (f (s.cluster k))

/-- A die's record. -/
def State.die (s : State) (k : Nat) : Die := KMap.getD s.dies k {}
def State.modDie (s : State) (k : Nat) (f : Die → Die) : State := { s with dies := KMap.set s.dies k (f (s.die k)) }

/-- R292: the scarab thread of a compute core as core reset leaves it: it starts, in supervisor mode, with WLIM 0, where Lovar OS has
placed its code, and with RNDSEED 1. It never migrates, so it follows the rules of anchored threads. (DESIGN CHOICE: log entry 16) -/
def Thread.scarab (core : Nat) : Thread :=
  { Thread.blank with
    place := .slot core 7, sup := true, anc := true, pc := Config.scarabEntry core
    tframe := BitVec.ofNat 64 (poolBase + dieOf core * 536870912 + clusOf core * 8388608 + coreNoOf core * 512) }

/-- A thread's record. -/
def State.thread (s : State) (tid : Nat) : Thread :=
  KMap.getD s.threads tid (if scarabBase ≤ tid then Thread.scarab (tid - scarabBase) else Thread.blank)
def State.setThread (s : State) (tid : Nat) (t : Thread) : State := { s with threads := KMap.set s.threads tid t }
def State.modThread (s : State) (tid : Nat) (f : Thread → Thread) : State := s.setThread tid (f (s.thread tid))
/-- Removes a thread that has ended. -/
def State.dropThread (s : State) (tid : Nat) : State := { s with threads := KMap.erase s.threads tid }

/-- The core of a thread that holds a slot, or is built for one; otherwise position 0. -/
def Thread.core (t : Thread) : Nat :=
  match t.place with
  | .slot c _ | .built c _ | .saved c _ => c
  | _ => 0
/-- The slot of a thread that holds one. -/
def Thread.slot (t : Thread) : Nat :=
  match t.place with
  | .slot _ n | .saved _ n => n
  | _ => 0
/-- The thread holds a slot. -/
def Thread.inSlot (t : Thread) : Bool :=
  match t.place with
  | .slot _ _ => true
  | _ => false
/-- The cluster in which a thread executes. -/
def Thread.cluster (t : Thread) : Nat := clusterOf t.core

/-- The record cluster of a thread: the cluster of its trap frame (R344). -/
def Thread.recordCluster (t : Thread) : Nat :=
  match homeOf t.tframe.toNat with
  | .pool c => c
  | h => homeCluster 0 h

/-- The thread in a slot of a core; slot 7 of a compute core holds its scarab thread unless that is listed elsewhere. -/
def State.occupant (s : State) (core slot : Nat) : Option Nat :=
  match s.threads.find? (fun p => decide (p.2.place = .slot core slot)) with
  | some p => some p.1
  | none =>
    if slot = 7 && !isPylon core && (KMap.find s.threads (scarabBase + core)).isNone then some (scarabBase + core) else none

/-- Slots of a core (R91). -/
def slotsOf (core : Nat) : List Nat := if isPylon core then List.range 4 else List.range 8

/-- R91, R143, R478, R481: the cycles of a core since reset: a pylon core counts at 3.2 GHz, a core in bin 2 at 2.4 GHz. (DESIGN CHOICE: log entry 71) -/
def State.now (s : State) (core : Nat) : Nat :=
  if isPylon core then s.pylon.now else if (s.core core).bin = 2 then s.slow.now else s.cycle
/-- The cycles of a thread's core: that of its slot, or the one that it targets from a run queue. -/
def State.nowOf (s : State) (t : Thread) : Nat :=
  match t.place with
  | .slot c _ | .built c _ | .saved c _ | .runq _ (some c) _ => s.now c
  | _ => s.cycle

/-- R341: a release in progress, which a gang switch lets complete. -/
def Why.finishing (w : Why) : Bool :=
  match w with
  | .release _ | .domain => true
  | _ => false

/-- Bits that a stream's buffer holds. -/
def Stream.buffered (x : Stream) : Nat := (x.buf.map Put.n).foldl (· + ·) 0
/-- R291: the 1 KiB buffer of a stream register has room; that of an unbound register is empty. Register 4 stands for all. -/
def Thread.strmRoom (t : Thread) (n room : Nat) : Bool :=
  (if n < 4 then [t.sm.getD n none] else t.sm).all (fun x => match x with
    | some x => decide (x.buffered + room ≤ 8192)
    | none => decide (room ≤ 8192))
/-- Nothing is left in the buffers of a thread's streams. -/
def Thread.strmDone (t : Thread) : Bool := t.strmRoom 4 8192

/-- A copy queue (R267). -/
def Core.queue (c : Core) (q : Nat) : CopyQueue := KMap.getD c.queues q {}
def State.queue (s : State) (core q : Nat) : CopyQueue := (s.core core).queue q

/-- The domain time base as a die reads it, in ns (R419, R478). (DESIGN CHOICE: log entries 43, 71) -/
def State.timeAt (s : State) (die : Nat) : Word := BitVec.ofInt 64 (s.timeNs + (s.die die).skew)

/-- R436: the live incarnation of a context at a cluster. -/
def State.liveCin (s : State) (cl : Nat) (dom : BitVec 12) : BitVec 16 := KMap.getD (s.cluster cl).live dom.toNat 0
/-- A context's incarnation is live at a cluster. -/
def State.isLive (s : State) (cl : Nat) (dom : BitVec 12) (cin : BitVec 16) : Bool := s.liveCin cl dom == cin

/-! ### Memory: bytes, words, tags and poison -/

/-- One byte of memory; a byte that nothing has written reads 0 (R452, R479). (DESIGN CHOICE: log entry 6) -/
def State.byte (s : State) (a : Nat) : Byte := KMap.getD s.mem a 0

/-- Memory with one byte written, in canonical form. (DESIGN CHOICE: log entry 6) -/
def memSet (m : List Host.Cell) (a : Nat) (b : Byte) : List Host.Cell := if b = 0 then KMap.erase m a else KMap.set m a b

/-- Canonical form: addresses strictly rising and no zero byte listed. -/
abbrev Memory.wf (m : List Host.Cell) : Prop := (m.map Prod.fst).Pairwise (· < ·) ∧ ∀ c ∈ m, c.2 ≠ 0

/-- Memory with the low `n` bytes of `v` written from `a` upwards, little-endian (R7). -/
def memWrite (m : List Host.Cell) (a : Nat) : Nat → Nat → List Host.Cell
  | 0, _ => m
  | n + 1, v => memWrite (memSet m a (BitVec.ofNat 8 v)) (a + 1) n (v / 256)

/-- Writes `n` bytes; tags and poison stay. -/
def State.poke (s : State) (a n v : Nat) : State := { s with mem := memWrite s.mem a n v }

/-- Reads `n` bytes from `a`, little-endian (R7). -/
def State.peek (s : State) (a : Nat) : Nat → Nat
  | 0 => 0
  | n + 1 => (s.byte a).toNat + 256 * State.peek s (a + 1) n

/-- A word of memory. -/
def State.peekW (s : State) (a : Nat) : Word := BitVec.ofNat 64 (s.peek a 8)

/-- The word that contains an address. -/
def wordOf (a : Nat) : Nat := a / 8 * 8
/-- The 128-byte line that contains an address. -/
def lineOf (a : Nat) : Nat := a / 128 * 128

/-- A sorted list without repeats, with `a` added. -/
def insertN : List Nat → Nat → List Nat
  | [], a => [a]
  | b :: r, a => if a < b then a :: b :: r else if a = b then b :: r else b :: insertN r a

/-- The tag of the word that contains an address: full unless listed (R330). (DESIGN CHOICE: log entry 6) -/
def State.tagFull (s : State) (a : Nat) : Bool := !s.empties.contains (wordOf a)
/-- Sets one word's tag; host memory has no tags (R330). -/
def State.setTag (s : State) (a : Nat) (full : Bool) : State :=
  if full then { s with empties := s.empties.filter (fun x => decide (x ≠ wordOf a)) }
  else if hostBase ≤ a then s else { s with empties := insertN s.empties (wordOf a) }
/-- Sets the tags of the words that `n` bytes from `a` touch. -/
def State.fillTags (s : State) (a n : Nat) : State :=
  { s with empties := s.empties.filter (fun x => decide (x + 8 ≤ a ∨ a + n ≤ x)) }
/-- Some byte of the range lies in a poisoned word (R258). -/
def State.poisoned (s : State) (a n : Nat) : Bool := s.poison.any (fun x => decide (x < a + n ∧ a < x + 8))
/-- A write of whole words clears their poison (R332, R339). -/
def State.clearPoison (s : State) (a n : Nat) : State :=
  { s with poison := s.poison.filter (fun x => decide (x < a ∨ a + n < x + 8)) }

/-! ### Registers -/

/-- The value of a register as a scalar source (R166): z reads 0, ip the PC, an m register its 32 bits. -/
def Thread.reg (t : Thread) : Reg → Word
  | .g n => t.g[n]
  | .m n => (t.m[n]).setWidth 64
  | .pw => t.pw.setWidth 64
  | .ip => t.pc
  | .z | .v _ | .sm _ => 0
/-- The value of a register as a vector source: z reads 0 (R191). -/
def Thread.vreg (t : Thread) : Reg → BitVec 1024
  | .v n => t.v[n]
  | _ => 0
/-- The value of a register as a mask source. -/
def Thread.mreg (t : Thread) : Reg → BitVec 32
  | .m n => t.m[n]
  | _ => 0
/-- A flag of pw; f0 reads 1 (R139). -/
def Thread.flag (t : Thread) (n : BitVec 3) : Bool := n == 0 || t.pw.getLsbD n.toNat

/-- Register numbers of R15. -/
def regNum (r : Reg) : Nat := r.code.toNat

/-- The full bit of a register; only g, v and m registers have one. -/
def Thread.full (t : Thread) : Reg → Bool
  | .g n => t.gFull.getLsbD n
  | .v n => t.vFull.getLsbD n
  | .m n => t.mFull.getLsbD n
  | .z | .pw | .ip | .sm _ => true

/-- Sets or clears the full bit of a register. -/
def Thread.setFull (t : Thread) (r : Reg) (b : Bool) : Thread :=
  match r with
  | .g n => { t with gFull := if b then t.gFull ||| (1#16 <<< n.val) else t.gFull &&& ~~~(1#16 <<< n.val) }
  | .v n => { t with vFull := if b then t.vFull ||| (1#32 <<< n.val) else t.vFull &&& ~~~(1#32 <<< n.val) }
  | .m n => { t with mFull := if b then t.mFull ||| (1#8 <<< n.val) else t.mFull &&& ~~~(1#8 <<< n.val) }
  | .z | .pw | .ip | .sm _ => t

/-- R122: the bits of pw that a write changes: f1 to f7, the status, the sticky flags and DYN. -/
def pwMask : BitVec 32 := 0x00FF07FE#32

/-- A thread with a register written and its full bit set; a write to z is discarded, pw keeps its fixed bits (R122), and
a write ends bad parity (R414) and an error mark (R258). -/
def Thread.put (t : Thread) (r : Reg) (x : Word) : Thread :=
  match r with
  | .g n => { (t.setFull r true) with g := t.g.set n x, bad := t.bad.filter (fun b => decide (b ≠ n.val)), marks := t.marks.filter (fun m => decide (m.reg ≠ n.val)) }
  | .m n => { (t.setFull r true) with m := t.m.set n (x.setWidth 32), bad := t.bad.filter (fun b => decide (b ≠ 48 + n.val)) }
  | .pw => { t with pw := (t.pw &&& ~~~pwMask) ||| (x.setWidth 32 &&& pwMask) }
  | .z | .ip | .v _ | .sm _ => t
/-- A thread with a v register written and its full bit set. -/
def Thread.putV (t : Thread) (r : Reg) (x : BitVec 1024) : Thread :=
  match r with
  | .v n => { (t.setFull r true) with v := t.v.set n x, bad := t.bad.filter (fun b => decide (b ≠ 16 + n.val)), marks := t.marks.filter (fun m => decide (m.reg ≠ 16 + n.val)) }
  | _ => t

/-- R430: CRC-64/ECMA-182 over one more byte. -/
def crcByte (c : Word) (b : Nat) : Word :=
  (List.range 8).foldl (fun c _ => if bit c 63 then (c <<< 1) ^^^ 0x42F0E1EBA9EA3693 else c <<< 1) (c ^^^ (BitVec.ofNat 64 (b % 256) <<< 56))
/-- CRC over `n` bytes of a value, lowest first. -/
def crcBytes (c : Word) (v : Nat) : Nat → Word
  | 0 => c
  | n + 1 => crcBytes (crcByte c v) (v / 256) n

/-- The slot is paired (R428). -/
def State.paired (s : State) (t : Thread) : Bool := t.inSlot && decide (t.slot < 7) && (s.core t.core).pair.isSome

/-- R414, R430: what a register write leaves beside the register: an entry of the core's operand log, the 8 latest kept. -/
def State.logWrite (s : State) (tid : Nat) (r : Nat) (x : BitVec 1024) : State :=
  let t := s.thread tid
  if t.inSlot then s.modCore t.core (fun c => { c with log := (⟨t.slot, r, x⟩ :: c.log).take 8 }) else s
/-- R430: a value fed to the fingerprint of a paired slot. -/
def State.feed (s : State) (tid : Nat) (v n : Nat) : State :=
  if s.paired (s.thread tid) then s.modThread tid (fun t => { t with finger := crcBytes t.finger v n }) else s

/-- `Write(d, x)` of R139 for g, m, pw and z. -/
def State.write (s : State) (tid : Nat) (r : Reg) (x : Word) : State :=
  match r with
  | .g _ => ((s.modThread tid (fun t => t.put r x)).logWrite tid (regNum r) (x.setWidth 1024)).feed tid x.toNat 8
  | .m _ => ((s.modThread tid (fun t => t.put r x)).logWrite tid (regNum r) ((x.setWidth 32).setWidth 1024)).feed tid (x.setWidth 32).toNat 8
  | .pw => s.modThread tid (fun t => t.put r x)
  | .z | .ip | .v _ | .sm _ => s
/-- `Write` of a v register. -/
def State.writeV (s : State) (tid : Nat) (r : Reg) (x : BitVec 1024) : State :=
  match r with
  | .v _ => ((s.modThread tid (fun t => t.putV r x)).logWrite tid (regNum r) x).feed tid x.toNat 128
  | _ => s

/-- R52: sticky flags ORed into pw: bits NX 16, UF 17, OF 18, DZ 19, NV 20, CLMP 10 and others of the given word. -/
def State.raise (s : State) (tid : Nat) (fl : BitVec 32) : State := s.modThread tid (fun t => { t with pw := t.pw ||| fl })
/-- Writes one flag; f0 stays 1 (R173). -/
def State.setFlag (s : State) (tid : Nat) (n : BitVec 3) (b : Bool) : State :=
  if n = 0 then s
  else s.modThread tid (fun t => { t with pw := if b then t.pw ||| (1#32 <<< n.toNat) else t.pw &&& ~~~(1#32 <<< n.toNat) })

/-! ### Special registers that are computed -/

/-- R415: CYCLE as it stands. (DEDUCED: log entry 39) -/
def State.cycleOf (s : State) (t : Thread) : Word :=
  if t.inSlot then t.cyc + BitVec.ofNat 64 (s.now t.core - t.cycAt) else t.cyc

/-- R416: MODE. -/
def State.mode (s : State) (t : Thread) : Word :=
  BitVec.ofNat 64 ((if t.sup then 1 else 0) + (if t.inh then 2 else 0) + (if t.anc then 4 else 0) + (if s.paired t then 8 else 0) +
    16 * (t.slot % 8) + (if isPylon t.core then 128 else 0))

/-! ### Departure from a slot, freezing and trap entry -/

/-- R307: a write of `n` bytes from `pa` meets a watch, unless it lies in the type table (R67). (DEDUCED: log entry 20) -/
def Watch.hit (w : Watch) (pa n : Nat) : Bool :=
  w.lines.any (fun l => decide (l.1 < pa + n ∧ pa < l.1 + 128) && !decide (l.1 + l.2.1 ≤ pa ∧ pa + n ≤ l.1 + l.2.2)) ||
    w.pages.any (fun p => decide (p < pa + n ∧ pa < p + 65536))

/-- An orphan is counted at a cluster (R436, R438). -/
def State.orphaned (s : State) (cl : Nat) : State :=
  s.modCluster cl (fun c => { c with orphan := if c.orphan = BitVec.allOnes 32 then c.orphan else c.orphan + 1 })

/-- R345, R307: what a performed write to `n` bytes from `pa` tells the watches of its lines: TRIG of the threads that armed
them, and the mutation flag of the walks that watch them. A wake whose record has gone is an orphan (R348). -/
def State.noteWrite (s : State) (pa n : Nat) : State :=
  let hit := fun (l : Nat × Nat) => decide (l.1 < pa + n ∧ pa < l.1 + 128)
  if s.clusters.any (fun p => p.2.watchers.any hit || p.2.lapsed.any hit || p.2.watches.any (fun w => w.hit pa n)) then
    let woken := s.clusters.flatMap (fun p => p.2.watchers.filter hit)
    let late := s.clusters.flatMap (fun p => p.2.lapsed.filter hit)
    let s1 := { s with clusters := s.clusters.map (fun p => (p.1, { p.2 with
      watchers := p.2.watchers.filter (fun w => !hit w)
      lapsed := p.2.lapsed.filter (fun w => !hit w)
      watches := p.2.watches.map (fun w => if w.hit pa n then { w with mutd := true } else w) })) }
    late.foldl (fun s w => s.orphaned w.2)
      (woken.foldl (fun s w => s.modThread w.2 (fun t => { t with mon := { t.mon with trig := true } })) s1)
  else s

/-- Words written from `a` upwards with their tags full: the trap record and the resting state (R83, R330, R411). -/
def State.putWords (s : State) (a : Nat) : List Word → State
  | [] => s
  | w :: r => State.putWords ((((s.poke a 8 w.toNat).setTag a true).clearPoison a 8).noteWrite a 8) (a + 8) r

/-- R83: writes the resting state of a thread into its trap frame. -/
def State.rest (s : State) (tid : Nat) : State :=
  let t := s.thread tid
  s.putWords (t.tframe.toNat + 256)
    [t.tcause, t.taddr, t.tpc, s.cycleOf t, t.retired, if t.inh then 1 else 0, 0, 0]

/-- A slot of a core becomes free in a cycle; one marked for displacement becomes disabled (R141, R148). -/
def Core.freeSlot (c : Core) (k now : Nat) : Core :=
  { c with
    freed := (k, now) :: c.freed.filter (fun p => decide (p.1 ≠ k))
    disabled := if c.marked = some k then k :: c.disabled else c.disabled
    marked := if c.marked = some k then none else c.marked }
/-- The slot that a thread holds becomes free in this cycle (R145). -/
def State.freeUp (s : State) (t : Thread) : State :=
  match t.place with
  | .slot c k => s.modCore c (fun x => x.freeSlot k (s.now c))
  | _ => s

/-- A thread leaves its slot, for any reason but EXIT and kill: its resting state is written, CYCLE stops, and its place
is the given one (R83). -/
def State.leave (s : State) (tid : Nat) (p : Place) : State :=
  ((s.freeUp (s.thread tid)).rest tid).modThread tid (fun t => { t with cyc := s.cycleOf t, place := p, seenFrom := s.nextId })

/-- A message of kind SVC reaches the service pair of a die (R256, R413). -/
def State.svc (s : State) (die : Nat) (m : SvcMsg) : State := s.modDie die (fun d => { d with svc := d.svc ++ [m] })

/-- The trap record of R409. (DESIGN CHOICE: log entry 90) -/
def State.trapRecord (s : State) (t : Thread) (cause addr tpc iword : Word) : List Word :=
  [cause, addr, tpc,
   (t.tag.setWidth 64 <<< 48) ||| (t.gFull.setWidth 64 <<< 32) ||| t.pw.setWidth 64,
   iword, s.timeAt (dieOf t.core), t.retired,
   BitVec.ofNat 64 ((if s.paired t then 1073741824 else 0) + (if t.anc then 536870912 else 0) + (if t.sup then 268435456 else 0) +
     65536 * t.domid.toNat + t.cin.toNat)]

/-- R413: freezes a thread in its record cluster and reports DBLFAULT with both records. -/
def State.freeze (s : State) (tid : Nat) (recs : List Word) : State :=
  let t := s.thread tid
  ((s.leave tid (.frozen t.recordCluster)).modThread tid (fun t => { t with wait := none, since := none })).svc
    (t.recordCluster / 64) ⟨0x15, BitVec.ofNat 64 tid, t.tframe, recs⟩

/-- R411, R429: writes a trap record, or gates it on a paired core. -/
def State.putRecord (s : State) (tid : Nat) (a : Nat) (ws : List Word) : State :=
  if s.paired (s.thread tid) then
    s.modThread tid (fun t => { t with gated := t.gated ++ (List.range ws.length).zipWith (fun i w => ⟨a + 8 * i, 8, w, false, true, 0⟩) ws })
  else s.putWords a ws

/-- The present instruction of a slot is over: nothing is left of its waits. -/
def Thread.settle (t : Thread) : Thread :=
  { t with wait := none, since := none, pend := none, wakeCause := 0, whyCause := 0 }

/-- R430: the slot's two copies have not agreed on the point where the thread stands. -/
def State.unagreed (s : State) (t : Thread) : Bool := s.paired t && (t.retired != t.agreed || !t.gated.isEmpty)
/-- R411, R412: a trap of the thread freezes it: a double fault, or a TVEC that is 0 or not a multiple of 8. -/
def Thread.freezes (t : Thread) : Bool := t.inh || t.tvec == 0 || t.tvec.extractLsb' 0 3 != 0
/-- R245: a thread may leave its core: no register awaits a response and no sent store is unacknowledged. -/
def Thread.drained (t : Thread) : Bool := t.await.isEmpty
/-- R81, R435: a freeze waits: on a paired core it is an external operation, before which the copies must have agreed, and a
roaming thread leaves its slot only once nothing is awaited. -/
def State.freezeWaits (s : State) (t : Thread) : Bool := t.freezes && (s.unagreed t || (!t.anc && !t.drained))

/-- R411: trap entry. The record is written at TFRAME, or at TFRAME + 64 on a double fault, which freezes the thread, as
does a TVEC that is 0 or not a multiple of 8. -/
def State.takeTrap (s : State) (tid : Nat) (cause addr tpc iword : Word) : State :=
  let t := s.thread tid
  let rec_ := s.trapRecord t cause addr tpc iword
  if s.freezeWaits t then
    s.modThread tid (fun t => { t with
      wait := some (if s.unagreed t then .exchange else .drain), counted := false, iw := iword
      since := if t.since.isSome then t.since else some (s.nowOf t) })
  else if t.inh then
    ((s.putWords (t.tframe.toNat + 64) rec_).modThread tid Thread.settle).freeze tid
      ((List.range 8).map (fun i => s.peekW (t.tframe.toNat + 8 * i)) ++ rec_)
  else if t.freezes then ((s.putWords t.tframe.toNat rec_).modThread tid Thread.settle).freeze tid (rec_ ++ List.replicate 8 0)
  else
    ((s.putRecord tid t.tframe.toNat rec_).modThread tid Thread.settle).modThread tid (fun t =>
      { t with tcause := cause, taddr := addr, tpc := tpc, inh := true, pc := t.tvec })

/-! ### The steps of an instruction -/

/-- How the effect of an instruction ends. -/
inductive Res
  /-- it retires and the PC advances by 8 -/
  | ok (s : State)
  /-- it retires and execution goes on at the given address -/
  | jump (s : State) (pc : Word)
  /-- it traps with a cause of R136 and TADDR, and has no effect -/
  | trap (cause : Nat) (addr : Word)
  /-- it cannot execute yet: no effect, and it issues again when the wait is over -/
  | wait (w : Why) (counted : Bool) (addr : Word)
  /-- its request is under way; the answer completes it (its thread holds `pend`) -/
  | pend (s : State)
  /-- its thread has left the slot, or a trap has been taken -/
  | gone (s : State)

/-- R134 step 7's end: the instruction retires. -/
def State.retire (s : State) (tid : Nat) (pc : Word) : State :=
  s.modThread tid (fun t => { t.settle with pc := pc, retired := t.retired + 1 })

/-- R141, R343: the slot of the thread leaves the rotation for the present instruction. -/
def State.block (s : State) (tid : Nat) (w : Why) (counted : Bool) (addr : Word) : State :=
  s.modThread tid (fun t => { t with
    wait := some w, counted := counted, waitAddr := addr, iw := s.iword
    since := if t.since.isSome then t.since else some (s.nowOf t) })

/-- The extensions of R130. -/
inductive Ext
  | base | fps | vec | mx | cpy | graph | coll | bsx | sys
deriving DecidableEq, Repr

/-- Extension identifiers are the bits of the mask (R130). -/
def Ext.id : Ext → Nat
  | .base => 0 | .fps => 1 | .vec => 2 | .mx => 3 | .cpy => 4 | .graph => 5 | .coll => 6 | .bsx => 7 | .sys => 8

/-- R130: the extension list of a slot. -/
def State.extList (s : State) (core slot : Nat) : Word :=
  let x4l := decide ((s.pkg (pkgOf core)).variant = 2)
  let base : Nat := if isPylon core then 0x123 else if slot = 7 then 0x1FF else 0x17F
  let base := if x4l then base - (if base / 32 % 2 = 1 then 32 else 0) else base
  let base := if x4l && decide (base / 128 % 2 = 1) then base - 128 else base
  BitVec.ofNat 64 base
/-- The executing slot lists the extension. -/
def State.listed (s : State) (t : Thread) (e : Ext) : Bool := bit (s.extList t.core t.slot) e.id

/-- The group number that a multicast flit carries in SEQ; it belongs to no flow (R385, R402). -/
def Body.group : Body → Option (BitVec 16)
  | .mcast _ _ _ gid => some gid
  | _ => none
/-- The number of the next flit of a flow (R385). -/
def flowOf (src dest : Nat) : Nat := src * 262144 + dest
def State.flowNo (s : State) (src dest : Nat) : BitVec 16 := KMap.getD s.flows (flowOf src dest) 0

/-- A flit is handed to the router of its sender's position (R378, R382, R385); the router that injects it fills DEST. -/
def State.sendFlit (s : State) (from_ : Nat) (dest : Nat) (kind : BitVec 6) (dom : BitVec 12) (cin tag : BitVec 16) (pri : BitVec 2)
    (body : Body) : State :=
  { s.bumpId with
    flows := if body.group.isSome then s.flows else KMap.set s.flows (flowOf from_ dest) (s.flowNo from_ dest + 1)
    msgs := KMap.set s.msgs s.nextId
      { kind := kind, domid := dom, cin := cin, tag := tag, pri := pri, injected := s.cycle, born := BitVec.ofNat 32 s.timeNs
        src := from_, ldest := dest, dest := (s.physOf dest).getD dest, held := false, nack := false, fnc := false
        bounces := 0, sq := s.nextId, seq := body.group.getD (s.flowNo from_ dest), body := body
        loc := .inject ((s.physOf from_).getD from_) s.cycle } }

/-- R80: META of an image. -/
def Thread.meta (t : Thread) : Word :=
  t.domid.setWidth 64 ||| (t.cin.setWidth 64 <<< 12) ||| (t.prio.setWidth 64 <<< 28) |||
    BitVec.ofNat 64 ((if t.anc then 1073741824 else 0) + (if t.sup then 2147483648 else 0)) ||| (t.rnd.setWidth 64 <<< 32)
/-- R80, R83: WHY of an image. -/
def Thread.why (t : Thread) : Word := BitVec.ofNat 64 (t.whyCause % 256 + 256 * (t.whyExt % 256) + (if t.inh then 65536 else 0))
/-- R80: the 28 words of a thread's image. -/
def Thread.image (t : Thread) : List Word :=
  t.g.toList ++ [t.pc, t.pw.setWidth 64 ||| (t.gFull.setWidth 64 <<< 32) ||| (t.tag.setWidth 64 <<< 48), t.meta, t.wlim, t.tvec, t.tframe,
    t.fa.setWidth 64 ||| (t.fb.setWidth 64 <<< 24)] ++ t.fsh.toList ++ [t.why]

/-- R157: no LAUNCH or QCTL request is unanswered. -/
def Thread.asked (t : Thread) : Bool := !t.asks.isEmpty

/-- The trap of a marked register (R258), TPC at the present instruction; a take clears the mark with the trap. -/
def State.trapMark (s : State) (tid : Nat) (m : Mark) (taken : Bool) : State :=
  (if taken && !s.freezeWaits (s.thread tid) then s.modThread tid (fun t => { t with marks := t.marks.filter (fun x => decide (x.reg ≠ m.reg)) }) else s).takeTrap tid
    (m.cause.setWidth 64) m.addr (s.thread tid).pc s.iword

/-- A roaming thread's image is sent to a position: it waits until it may leave (R245, R157), takes the trap of a marked
register first (R258), and otherwise leaves its slot with the given WHY. -/
def State.migrate (s : State) (tid : Nat) (dest : Nat) (any : Bool) (why ext : Nat) (pc : Word) : Res :=
  let t := s.thread tid
  match t.marks with
  | m :: _ => .gone (s.trapMark tid m false)
  | [] =>
    if s.unagreed t then .wait .exchange false 0
    else if !t.drained then .wait .drain false 0
    else if t.asked then .wait .launches false 0
    else
      let s1 := (s.leave tid (.flight s.nextId)).modThread tid (fun t =>
        { t.settle with pc := pc, whyCause := why, whyExt := ext, resting := true, iw := if why = 4 then 0 else s.iword })
      .gone (s1.sendFlit t.core dest 0x01 t.domid t.cin t.tag t.prio (.image tid any none))

/-- The first of two candidates of R131, each a distance and a position: nearer, then of lower Y, then of lower X. -/
def nearer2 (a b : Nat × Nat) : Nat × Nat := if a.1 < b.1 ∨ (a.1 = b.1 ∧ a.2 ≤ b.2) then a else b

/-- The compute cores of a package at boot. -/
def State.bootCores (s : State) (pkg : Nat) : List Nat :=
  ([0, 1, 16, 17].map (· + die0 pkg)).filter s.bootDie |>.flatMap (fun d => (List.range 32).flatMap (fun c => clusterCores (d * 64 + c)))
/-- R131: the nearest of all compute cores of the domain that list an extension at boot. -/
def State.bootSearch (s : State) (core e : Nat) : Option Nat :=
  (((List.range 64).filter (fun p => s.pkgPresent p && bit (s.extList (posAt (die0 p) 0 0) 0) e)).flatMap s.bootCores).foldl
    (fun (best : Option (Nat × Nat)) k => some (match best with
      | some b => nearer2 b (s.dist core k, k)
      | none => (s.dist core k, k))) none |>.map Prod.snd

/-- R131, R479: the entry of a core's extension directory that boot has written. A core whose slots list the extension is its
own nearest; for a core of a pylon, the nearest compute core is in its row to the left, in its column above, or below it in
the next die, on a closed ring that of row 0. Where the core's own package lacks the extension, another package's core is
sought. No slot that takes roaming threads lists BSX or an extension of the range. (DESIGN CHOICE: log entry 68) -/
def State.bootExt (s : State) (core e : Nat) : Option Nat :=
  let compute := posOf (posX core / 24 * 24) (posY core / 24 * 24)
  if 7 ≤ e ∧ e ≠ 8 then none
  else if bit (s.extList core 0) e then some core
  else if !isPylon core || !bit (s.extList compute 0) e then s.bootSearch core e
  else
    let i := posX core % 24 - 8
    let j := posY core % 24 - 20
    let left := (1 + i, posOf (posX core - 1 - i) (posY core))
    let above := (1 + j, posOf (posX core) (posY core - 1 - j))
    let row := posY core + 4 - j
    let below := (4 - j, posOf (posX core) (if s.ringY && decide (row = 48 * s.pkgsY) then 0 else row))
    let near := nearer2 above left
    some (if s.bootDie (dieOf below.2) && bit (s.extList below.2 0) e then nearer2 near below else near).2
/-- An entry of a core's extension directory: the position, where V = 1. (DESIGN CHOICE: log entry 68) -/
def State.extEntry (s : State) (core e : Nat) : Option Nat := (KMap.find (s.core core).extDir e).getD (s.bootExt core e)

/-- R132: what an instruction of an extension that the slot does not list does. -/
def State.extSearch (s : State) (tid : Nat) (e : Nat) : Res :=
  let t := s.thread tid
  if t.anc || (decide (t.whyCause = 3) && decide (t.whyExt = e)) then .trap 0x02 s.iword
  else match s.extEntry t.core e with
    | some pos => s.migrate tid pos false 3 e t.pc
    | none => .trap 0x02 s.iword

/-- The registers of sources. -/
def srcRegs (l : List Src) : List Reg := l.map (·.reg)
/-- The registers that an instruction takes (R19). -/
def takeRegs (l : List Src) : List Reg := (l.filter (·.take)).map (·.reg)
/-- A thread with registers taken. -/
def Thread.takeAll (t : Thread) (l : List Reg) : Thread := l.foldl (fun t r => t.setFull r false) t

/-- A register awaits a fetch or engine response (R164). (DEDUCED: log entry 76) -/
def Thread.awaited (t : Thread) (r : Reg) : Bool :=
  t.await.any (fun a => match a.dest, r with
    | .reg n _ _, .g m => decide (n = m.val)
    | .lane n _, .v m => decide (n = m.val)
    | _, _ => false)

/-- The error mark of a register (R258). -/
def Thread.markOf (t : Thread) (r : Reg) : Option Mark := t.marks.find? (fun m => decide (m.reg = regNum r))

/-- R414: the operand log's answer for a register with bad parity: its whole value, when the latest write to it is kept. (DESIGN CHOICE: log entry 74) -/
def State.logged (s : State) (t : Thread) (r : Reg) : Option (BitVec 1024) :=
  ((s.core t.core).log.find? (fun e => decide (e.slot = t.slot ∧ e.reg = regNum r))).map (·.value)

/-- R414: repairs from the log the bad registers among those read; the first that the log does not hold is returned. (DESIGN CHOICE: log entry 74) -/
def State.repair (s : State) (tid : Nat) : List Reg → State × Option Nat
  | [] => (s, none)
  | r :: l =>
    let t := s.thread tid
    if t.bad.contains (regNum r) then
      match s.logged t r with
      | some x => State.repair (s.modThread tid (fun t =>
          let f := t.full r
          match r with
          | .v _ => (t.putV r x).setFull r f
          | _ => (t.put r (x.setWidth 64)).setFull r f)) tid l
      | none => (s, some (regNum r))
    else State.repair s tid l

/-- What an instruction needs before it executes. -/
structure Need where
  ext : Ext
  /-- the form is privileged (R133) -/
  priv : Bool := false
  /-- it needs an anchored thread (R166, R188) -/
  anc : Bool := false
  /-- the sources that it waits on, with their takes (R134 step 6) -/
  srcs : List Src := []
  /-- registers read without a source field, such as store data -/
  reads : List Reg := []
  /-- destinations: a write waits for an outstanding response (R164) -/
  dests : List Reg := []
  /-- destinations that it writes, or empties, without such a wait -/
  fills : List Reg := []
  /-- an external operation on a paired core (R429) -/
  outside : Bool := false

/-- The registers that an instruction still waits on: sources that are empty, and destinations that await a response. (DEDUCED: log entry 76) -/
def Thread.lacking (t : Thread) (n : Need) : List Reg :=
  (srcRegs n.srcs ++ n.reads).filter (fun r => !t.full r) ++ n.dests.filter t.awaited
/-- The first register that an instruction still waits on: a source that is empty, or a destination that awaits a
response. (DEDUCED: log entry 76) -/
def Thread.notReady (t : Thread) (n : Need) : Option Reg :=
  ((srcRegs n.srcs ++ n.reads).find? (fun r => !t.full r)).or (n.dests.find? t.awaited)

/-- A trap of the executing thread at its own instruction. -/
def State.trapHere (s : State) (cause : Nat) (addr : Word) : State :=
  s.takeTrap s.cur (BitVec.ofNat 64 cause) addr (s.thread s.cur).pc s.iword

/-- R430: the point where the thread stands is agreed: the checkpoint is kept and the fingerprint starts anew. -/
def State.agree (s : State) (tid : Nat) : State :=
  let t := s.thread tid
  let s1 := s.modThread tid (fun t => { t with finger := 0, agreed := t.retired })
  s1.modCore t.core (fun c => { c with
    fpint := c.fpintNext.getD c.fpint, fpintNext := none, ckpts := KMap.set c.ckpts t.slot (s1.thread tid) })

/-- R429: an external operation of a paired slot is agreed without a further exchange. -/
def State.agreeAfter (s : State) (tid : Nat) (outside : Bool) : State :=
  if outside && s.paired (s.thread tid) then s.agree tid else s

/-- The instruction retires with its takes, and its slot then waits. -/
def State.retireWaiting (s : State) (takes : List Reg) (w : Why) (outside : Bool) : State :=
  (((s.modThread s.cur (fun t => t.takeAll takes)).retire s.cur ((s.thread s.cur).pc + 8)).agreeAfter s.cur outside).modThread s.cur
    (fun t => { t with wait := some w })

/-- The end of a result: `s` is the state before the effect. The takes happen with the instruction (R134 step 6), but a
destination that the instruction writes ends full (R19). -/
def State.finish (s : State) (takes : List Reg) (outside : Bool) : Res → State
  | .ok s1 => ((s1.modThread s.cur (fun t => t.takeAll takes)).retire s.cur ((s.thread s.cur).pc + 8)).agreeAfter s.cur outside
  | .jump s1 pc => (((s1.modThread s.cur (fun t => t.takeAll takes)).feed s.cur pc.toNat 8).retire s.cur pc).agreeAfter s.cur outside
  | .trap c a => s.trapHere c a
  | .wait w c a => s.block s.cur w c a
  | .pend s1 => s1.modThread s.cur (fun t => { t with iw := s.iword, pend := t.pend.map (fun p => { p with takes := takes }) })
  | .gone s1 => s1

/-- R430: the exchange that RETIRED's advance by FPINT calls for. (DEDUCED: log entry 31) -/
def State.exchangeDue (s : State) (t : Thread) : Bool :=
  s.paired t && decide ((s.core t.core).fpint.toNat ≤ (t.retired - t.agreed).toNat)

/-- R140, R142: the choice of the barrel is taken back: the slot that it found was not ready. -/
def Core.unselect (c : Core) : Core :=
  match c.before with
  | some (sel, wctr, cls, prom) => { c with selAt := sel, wctr := wctr, classPtr := cls, promPtr := prom, before := none }
  | none => c
/-- R134 step 6, R141: the slot is not ready until every register that its instruction lacks is full; it has not issued, so that
the barrel chooses again in this cycle. -/
def State.unready (s : State) (r : Reg) (l : List Reg) : State :=
  (s.block s.cur (.reg (l.map regNum)) true (BitVec.ofNat 64 (regNum r))).modCore (s.thread s.cur).core Core.unselect

/-- R134 steps 3 to 7 for the thread `s.cur`: guard, extension, privilege, operand waits, then the effect `f`. (DEDUCED: log entry 31) -/
def run (s : State) (g : Guard) (n : Need) (f : State → Thread → Res) : Host.Outcome State Fault Refusal :=
  let t := s.thread s.cur
  .next <|
    if s.exchangeDue t then s.block s.cur .exchange false 0
    else if t.wakeCause ≠ 0 then s.trapHere t.wakeCause.toNat t.waitAddr
    else if t.flag (g.extractLsb' 0 3) = g.getLsbD 3 then s.retire s.cur (t.pc + 8)
    else if !s.listed t n.ext then s.finish [] false (s.extSearch s.cur n.ext.id)
    else if n.priv && !t.sup then s.trapHere 0x03 s.iword
    else if n.anc && !t.anc then s.trapHere 0x02 s.iword
    else
      match t.notReady n with
      | some r =>
        match t.markOf r with
        | some m => s.trapMark s.cur m ((takeRegs n.srcs).contains r)
        | none => s.unready r (t.lacking n)
      | none =>
        let ends := n.dests ++ n.fills
        match s.repair s.cur (srcRegs n.srcs ++ n.reads) with
        | (_, some r) => s.trapHere 0x0B (BitVec.ofNat 64 r)
        | (s0, none) =>
          if n.outside && s0.unagreed t then s.block s.cur .exchange false 0
          else s0.finish ((takeRegs n.srcs).filter (fun r => !ends.contains r)) n.outside (f s0 (s0.thread s.cur))

/-! ### Return from a trap -/

/-- R418: where RETT continues. -/
def Thread.returnPc (t : Thread) (skip : Bool) : Word := if skip then t.tpc + 8 else t.tpc
/-- R418: RETT ends the handler window. -/
def State.returnTrap (s : State) (tid : Nat) : State := s.modThread tid (fun t => { t with inh := false })

end Sys2Proof.Machine
end

