-- ==== Sys2Proof/Machine/Access.lean ====
section
/-! DEFINITION. From a virtual address to its home: the map of R239, pool and ownership rules (R240, R248), the page table
(R250 to R253), rights (R247), the caches of both (R247, R254), absent pages (R255, R256), shadows (R448), and the
performance of reads and writes at a home (R321). -/

namespace Sys2Proof.Machine

/-- Codes of R136 that accesses give. -/
abbrev cAlign : Nat := 0x04
abbrev cProt : Nat := 0x05
abbrev cNomap : Nat := 0x06
abbrev cCmpr : Nat := 0x07
abbrev cPoison : Nat := 0x0A
abbrev cHosterr : Nat := 0x0D
abbrev cTarange : Nat := 0x18
abbrev cXlate : Nat := 0x1B
abbrev cDescbad : Nat := 0x1A

/-- What an access does (R247). -/
inductive Acc | load | store | fetch
deriving DecidableEq, Repr

/-- For whom an access is checked: the position from which it is made, its context and privilege, the trap frame that a
user may reach (R240), and whether an engine makes it. -/
structure Ctx where
  core : Nat
  domid : BitVec 12
  cin : BitVec 16
  tag : BitVec 16
  sup : Bool
  tframe : Nat
  engine : Bool
deriving DecidableEq, Repr

/-- The rights of a thread. -/
def Thread.ctx (t : Thread) : Ctx := ⟨t.core, t.domid, t.cin, t.tag, t.sup, t.tframe.toNat, false⟩

/-- How the check of an access ends (R249): its physical address and leaf, a failure, or an absent page. -/
inductive Rslt
  | at (pa : Nat) (leaf : Option Word)
  | fail (cause : Nat)
  | absent
deriving DecidableEq, Repr

/-! ### Windows (R239, R240, R248) -/

/-- R240, R248: whether a context may touch an offset of a pool. (DESIGN CHOICE: log entry 4) -/
def State.poolOk (s : State) (c : Ctx) (cl va : Nat) : Bool :=
  let k := s.cluster cl
  let gr := va % 8388608 / 65536
  if gr < k.bnd0.toNat then c.sup || (decide (c.tframe ≤ va) && decide (va < c.tframe + 512))
  else if gr < k.bnd1.toNat then c.sup || decide (k.spOwner = some c.domid)
  else false

/-- The outcome of an access to a window address. The TCM of the odd core of a pair is a copy of the even core's, which serves
it until the pair is uncoupled (R429). (DEDUCED: log entries 4, 30) -/
def State.window (s : State) (c : Ctx) (va : Nat) : Rslt :=
  if deckBase ≤ va ∧ va < deckBase + 34359738368 then
    let die := (va - deckBase) / 134217728
    if !s.diePresent die then .fail cNomap
    else if c.sup || decide (KMap.find (s.die die).deckOwner ((va - deckBase) % 134217728 / 1048576) = some c.domid) then .at va none
    else .fail cProt
  else if poolBase ≤ va ∧ va < poolBase + 137438953472 then
    let cl := (va - poolBase) / 536870912 * 64 + (va - poolBase) / 8388608 % 64
    if !s.clusterPresent cl then .fail cNomap else if s.poolOk c cl va then .at va none else .fail cProt
  else if tcmBase ≤ va ∧ va < tcmBase + 68719476736 then
    let l := (va - tcmBase) / 262144
    if !levelValid l || !s.corePresent (ofLevel l) || isPylon (ofLevel l) then .fail cNomap
    else match (s.core (ofLevel l)).pair with
      | some (even, false) =>
        if c.sup || decide ((s.core even).tcmOwner = some c.domid) then .at (tcmBase + toLevel even * 262144 + va % 262144) none else .fail cProt
      | _ => if c.sup || decide ((s.core (ofLevel l)).tcmOwner = some c.domid) then .at va none else .fail cProt
  else .fail cNomap

/-! ### The page table (R250 to R253) -/

/-- Fields of a page-table entry (R252). -/
def pteType (e : Word) : Nat := (e.extractLsb' 62 2).toNat
def pteDom (e : Word) : BitVec 12 := e.extractLsb' 50 12
def pteP (e : Word) : Bool := bit e 49
def pteW (e : Word) : Bool := bit e 48
def pteX (e : Word) : Bool := bit e 47
def pteE (e : Word) : Bool := bit e 46
def pteC (e : Word) : Bool := bit e 45
def pteR (e : Word) : Bool := bit e 44
def pteN (e : Word) : Bool := bit e 43
def pteS (e : Word) : Bool := bit e 42
def pteU (e : Word) : Bool := bit e 41
/-- The frame of a leaf as an address. -/
def pteFrame (e : Word) : Nat := (e.extractLsb' 10 30).toNat * 65536
/-- The next table of a table entry as an address. -/
def pteNext (e : Word) : Nat := (e.extractLsb' 2 38).toNat * 256
/-- A host leaf. -/
def pteHost (e : Word) : Bool := decide (pteType e = 3)

/-- A level of the walk: the lowest VA bit that it indexes, how many bits, and the size of its tables (R251). -/
structure Level where
  lo : Nat
  bits : Nat
  size : Nat
deriving DecidableEq, Repr

/-- R251. -/
def levels : List Level := [⟨46, 10, 8192⟩, ⟨36, 10, 8192⟩, ⟨30, 6, 512⟩, ⟨21, 9, 4096⟩, ⟨16, 5, 256⟩]

/-- What a walk finds: a leaf with its page size, NOMAP or XLATE. -/
inductive Walked
  | leaf (e : Word) (size : Nat)
  | fail (cause : Nat)
deriving DecidableEq, Repr

/-- R253: a DRAM address of a unit that is present. -/
def State.haOk (s : State) (ha : Nat) : Bool := s.diePresent (ha / 274877906944)

/-- R251 to R253: the walk from a table at `tbl`; `first` on level 1, where no leaf is allowed. -/
def State.walkFrom (s : State) (va : Nat) (first : Bool) (tbl : Nat) : List Level → Walked
  | [] => .fail cXlate
  | l :: rest =>
    let e := s.peekW (tbl + 8 * (va / 2 ^ l.lo % 2 ^ l.bits))
    if pteType e = 0 then .fail cNomap
    else if pteType e = 1 then
      match rest with
      | [] => .fail cXlate
      | nx :: _ =>
        if e.extractLsb' 40 22 != 0 || e.extractLsb' 0 2 != 0 || decide (pteNext e % nx.size ≠ 0) || !s.haOk (pteNext e) then .fail cXlate
        else State.walkFrom s va false (pteNext e) rest
    else if first || bit e 40 || decide (pteFrame e % 2 ^ l.lo ≠ 0) || (pteR e && pteW e) || (!pteHost e && !s.haOk (pteFrame e)) then
      .fail cXlate
    else .leaf e (2 ^ l.lo)

/-- Where the level-1 table lies (R250). -/
def State.root (s : State) : Nat := (s.xlbase.extractLsb' 8 38).toNat * 256
/-- R250, R251, R253: the walk of an address; a root on an absent die is no table. -/
def State.walk (s : State) (va : Nat) : Walked :=
  if !bit s.xlbase 0 then .fail cNomap else if !s.haOk s.root then .fail cXlate else s.walkFrom va true s.root levels

/-- An entry of a PLB or translation cache for an address, if one is held and is used again. (DESIGN CHOICE: log entry 12) -/
def heldFor (l : List PlbEntry) (va : Nat) (use : Bool) : Option PlbEntry :=
  l.find? (fun e => use && decide (e.va ≤ va ∧ va < e.va + e.size))

/-- An entry kept, the newest first. (DESIGN CHOICE: log entry 12) -/
def keepEntry (l : List PlbEntry) (e : PlbEntry) (room : Nat) : List PlbEntry :=
  (e :: l.filter (fun x => decide (¬(x.va = e.va ∧ x.size = e.size)))).take room

/-- R247: the rights of a leaf, in the order PROT, CMPRPAGE of R249; `plain` access meets CMPRPAGE. -/
def rightsFail (e : Word) (c : Ctx) (k : Acc) (allowC : Bool) : Option Nat :=
  if (pteDom e != 0 && pteDom e != c.domid) || !(pteU e || c.sup) || (k == .store && !pteW e) || (k == .fetch && !pteX e) ||
      (c.engine && !pteE e) then some cProt
  else if pteC e && !allowC then some cCmpr
  else none

/-- R249: the checks of an access to a paged address, in order, and the translation. Held entries of the cluster's
translation cache and of the core's PLB may be used again; new ones are kept. (DESIGN CHOICE: log entry 10) -/
def State.paged (s : State) (c : Ctx) (va : Nat) (k : Acc) (allowC : Bool) : State × Rslt :=
  if !bit s.xlbase 0 then (s, .fail cNomap) else
  let cl := clusterOf c.core
  let hx := heldFor (s.cluster cl).xlCache va (Config.useHeld s.free)
  let hp := heldFor (s.core c.core).plb va (Config.useHeld (s.free + 1))
  let s := { s with free := s.free + 2 }
  let found : Walked := match hx with
    | some e => .leaf e.leaf e.size
    | none => s.walk va
  match found with
  | .fail f => (s, .fail f)
  | .leaf e size =>
    let ent : PlbEntry := ⟨va / size * size, size, e⟩
    let s1 := if pteP e then
        (s.modCluster cl (fun x => { x with xlCache := keepEntry x.xlCache ent 4096 })).modCore c.core
          (fun x => { x with plb := keepEntry x.plb (hp.getD ent) 256 })
      else s
    let rights := match hp with
      | some p => p.leaf
      | none => e
    match rightsFail rights c k allowC with
    | some f => (s1, .fail f)
    | none =>
      if !pteP e then (s1, .absent)
      else if pteHost e then
        if Config.hostWindow ≤ pteFrame e + va % size then (s1, .fail cHosterr) else (s1, .at (hostBase + pteFrame e + va % size) (some e))
      else (s1, .at (pteFrame e + va % size) (some e))

/-- R239, R249: the checks of an access after its alignment. -/
def State.resolve (s : State) (c : Ctx) (va : Word) (k : Acc) (allowC : Bool := false) : State × Rslt :=
  if va.extractLsb' 56 8 != 0 then (s, .fail cNomap)
  else if bit va 55 then (s, s.window c va.toNat)
  else s.paged c va.toNat k allowC

/-- An engine's or unit's outcome: XLATE is reported as NOMAP (R253). -/
def engineCause (f : Nat) : Nat := if f = cXlate then cNomap else f

/-! ### Absent pages (R255, R256) -/

/-- R256: the two words of a fault message. -/
def faultWords (c : Ctx) (access : Nat) (va : Word) : SvcMsg :=
  ⟨1, (c.domid.setWidth 64 <<< 52) ||| (c.cin.setWidth 64 <<< 36) ||| (c.tag.setWidth 64 <<< 20) ||| (BitVec.ofNat 64 c.core <<< 2) |||
    BitVec.ofNat 64 (access % 4), va, []⟩

/-- R255: a thread meets an absent page: a roaming context is parked at the cluster and its slot becomes free, once nothing is
awaited (R81); an anchored one waits in its slot; the fault message goes to the service pair of the die. -/
def State.pageFault (s : State) (tid : Nat) (va : Word) (access : Nat) : State :=
  let t := s.thread tid
  let tell := fun (s1 : State) => s1.svc (dieOf t.core) (faultWords t.ctx access va)
  if t.anc then tell (s.block tid .page false va)
  else if !t.drained then s.block tid .drain false va
  else tell ((s.leave tid (.parked t.cluster)).modThread tid (fun x =>
    { x with wait := some .page, since := none, counted := false, waitAddr := va, iw := s.iword, whyCause := 5, resting := true }))

/-! ### Shadows (R448) -/

/-- Where shadow frames lie: outside every other physical address. (DEDUCED: log entry 70) -/
def shadowBase : Nat := 288230376151711744

/-- The replayable launch that runs for a context, if any. -/
def State.replayable (s : State) (dom : BitVec 12) : Option Nat :=
  (s.launches.find? (fun p => p.2.domid == dom && bit (p.2.words.getD 8 0) 50 &&
    (p.2.state == .running || p.2.state == .replaying || p.2.state == .built))).map Prod.fst

/-- The address at which a context's access to a home address is performed: the shadow of its granule, if there is one. (DEDUCED: log entry 70) -/
def State.viewOf (s : State) (dom : BitVec 12) (shadow : Bool) (pa : Nat) : Nat :=
  if shadow then
    match s.replayable dom with
    | none => pa
    | some l =>
      match s.shadows.find? (fun g => decide (g.base = pa / 65536 * 65536 ∧ g.launch = l)) with
      | some g => g.frame + pa % 65536
      | none => pa
  else pa

/-- Copies bytes, tags and poison of a granule to another place. (DEDUCED: log entry 70) -/
def State.copyGranule (s : State) (src dst : Nat) : State :=
  let inside := fun (a : Nat) => decide (src ≤ a ∧ a < src + 65536)
  let clear := fun (l : List Nat) => l.filter (fun a => decide (a < dst ∨ dst + 65536 ≤ a))
  let mem1 := s.mem.filter (fun c => decide (c.1 < dst ∨ dst + 65536 ≤ c.1))
  { s with
    mem := (s.mem.filter (fun c => inside c.1)).foldl (fun m c => memSet m (dst + (c.1 - src)) c.2) mem1
    empties := (s.empties.filter inside).foldl (fun l a => insertN l (dst + (a - src))) (clear s.empties)
    poison := clear s.poison ++ ((s.poison.filter inside).map (fun a => dst + (a - src))) }

/-- Shadow frames in use at a cluster's vault. -/
def State.shadowsAt (s : State) (cl : Nat) : Nat :=
  (s.shadows.filter (fun g => decide (homeOf g.base = .vault cl))).length

/-- R448: the first write of a shadowed context to a granule copies it into a shadow frame; none when the reserve of its
vault is empty. -/
def State.shadowFor (s : State) (dom : BitVec 12) (shadow : Bool) (pa : Nat) : Option State :=
  if shadow then
    match s.replayable dom with
    | none => some s
    | some l =>
      let base := pa / 65536 * 65536
      if s.shadows.any (fun g => decide (g.base = base ∧ g.launch = l)) then some s
      else
        let cl := match homeOf pa with
          | .vault c => c
          | _ => 0
        if s.shadowsAt cl < (s.cluster cl).shadowReserve then
          let f := shadowBase + s.nextId * 65536
          some { (s.copyGranule base f).bumpId with shadows := s.shadows ++ [⟨base, l, f⟩] }
        else none
  else some s

/-- A leaf asks for shadowing (S = 1 of a DRAM leaf). -/
def leafShadow (leaf : Option Word) : Bool :=
  match leaf with
  | some e => pteS e && !pteHost e
  | none => false

/-! ### Performing writes (R321, R345, R307) -/

/-- A write performed at its home: `n` bytes, tags set full or kept; a write of a whole word clears its poison. -/
def State.perform (s : State) (pa n v : Nat) (full : Bool) : State :=
  let s1 := (s.poke pa n v).clearPoison pa n
  (if full then s1.fillTags pa n else s1).noteWrite pa n

/-- A write for a context: to the shadow of its granule where there is one (R448). -/
def State.performFor (s : State) (dom : BitVec 12) (shadow : Bool) (pa n v : Nat) (full : Bool) : State :=
  match s.shadowFor dom shadow pa with
  | some s1 =>
    let q := s1.viewOf dom shadow pa
    if q = pa then s1.perform pa n v full else (s1.perform q n v full).noteWrite pa n
  | none => s.perform pa n v full

end Sys2Proof.Machine
end

