-- ==== Sys2Proof/Machine/Serve.lean ====
section
/-! DEFINITION. Requests and their answers: what a thread awaits, how an answer fills a register or completes a waiting
instruction (R438, R258), candidates (R322), releases and acquires (R325, R326), and reads and stores by threads. -/

namespace Sys2Proof.Machine

/-! ### Flit kinds (R383) -/

abbrev kImage : BitVec 6 := 0x01
abbrev kRead : BitVec 6 := 0x02
abbrev kData : BitVec 6 := 0x03
abbrev kWrite : BitVec 6 := 0x04
abbrev kAck : BitVec 6 := 0x05
abbrev kProxy : BitVec 6 := 0x06
abbrev kTagw : BitVec 6 := 0x07
abbrev kPush : BitVec 6 := 0x08
abbrev kPop : BitVec 6 := 0x09
abbrev kPopr : BitVec 6 := 0x0A
abbrev kPusha : BitVec 6 := 0x0B
abbrev kMsg : BitVec 6 := 0x0C
abbrev kBulk : BitVec 6 := 0x0D
abbrev kEngc : BitVec 6 := 0x0E
abbrev kStat : BitVec 6 := 0x0F
abbrev kMcast : BitVec 6 := 0x10
abbrev kContrib : BitVec 6 := 0x11
abbrev kSetup : BitVec 6 := 0x13
abbrev kWtch : BitVec 6 := 0x17

/-- Who asks: the thread, with the token of its request. -/
def Thread.asker (t : Thread) (tid tok : Nat) (shadow : Bool) : Asker := ⟨tid, tok, t.domid, t.cin, t.tag, t.core, t.sup, shadow, t.prio⟩

/-- A flit that a thread sends to a logical position. -/
def State.request (s : State) (t : Thread) (dest : Nat) (kind : BitVec 6) (body : Body) : State :=
  s.sendFlit t.core dest kind t.domid t.cin t.tag t.prio body

/-! ### What a thread awaits -/

/-- The low `n` bytes of a value, sign- or zero-extended (R259). -/
def extend (v : Word) (n : Nat) (sx : Bool) : Word :=
  match n, sx with
  | 1, true => (v.setWidth 8).signExtend 64
  | 1, false => (v.setWidth 8).setWidth 64
  | 2, true => (v.setWidth 16).signExtend 64
  | 2, false => (v.setWidth 16).setWidth 64
  | 4, true => (v.setWidth 32).signExtend 64
  | 4, false => (v.setWidth 32).setWidth 64
  | _, _ => v

/-- A register emptied for an answer to come; an error mark of an earlier fetch ends (R258). -/
def Thread.empty (t : Thread) (d : Reg) : Thread :=
  { t.setFull d false with marks := t.marks.filter (fun m => decide (m.reg ≠ regNum d)) }

/-- The destination of an answer: a g register, or none for z. -/
def destOf (d : Reg) (n : Nat) (sx : Bool) : Dest :=
  match d with
  | .g r => .reg r n sx
  | _ => .none

/-- The state in which a thread awaits the answer with token `s.nextId` (which the caller uses): gd is empty until then. -/
def State.awaitReg (s : State) (tid : Nat) (d : Reg) (n : Nat) (sx read : Bool) (va : Word) (pa : Nat) : State :=
  (s.modThread tid (fun t => { t.empty d with await := t.await ++ [⟨s.nextId, destOf d n sx, read, va, pa⟩] })).bumpId

/-- The thread's instruction waits for the answer with token `s.nextId`. -/
def State.pendOn (s : State) (tid : Nat) (w : Why) (counted : Bool) (fin : Fin) (acquire : Option Word) (addr : Word) : State :=
  ((s.block tid w counted addr).modThread tid (fun t => { t with pend := some ⟨s.nextId, fin, acquire, addr, [], 0, false, none⟩ })).bumpId

/-- The answer that the thread waits for comes from a line's home: no later read of the line is older (R322, R323). -/
def State.pendLine (s : State) (tid pa : Nat) : State :=
  s.modThread tid (fun t => { t with pend := t.pend.map (fun p => { p with line := some (lineOf pa) }) })

/-! ### Candidates, releases and acquires -/

/-- Candidates without those of a physical line. -/
def otherLines (l : KMap (Nat × Nat × Nat)) (la : Nat) : KMap (Nat × Nat × Nat) := l.filter (fun p => decide (p.2.1 ≠ la))
/-- The candidates of a line in a cluster's cache region are dropped, and no older data of any line is kept afterwards. (DESIGN CHOICE: log entry 11) -/
def State.dropCand (s : State) (cl la : Nat) : State :=
  { (s.modCluster cl (fun c => { c with cands := otherLines c.cands la, candFloor := s.nextId })) with nextId := s.nextId + 1 }

/-- R254, R322: a fetched line becomes a candidate under its virtual address, unless newer data has been read there. (DESIGN CHOICE: log entry 11) -/
def State.fillCand (s : State) (cl va la data stamp : Nat) (keep : Bool) : State :=
  s.modCluster cl (fun c =>
    if c.candFloor ≤ stamp then
      { c with cands := if keep then KMap.set (otherLines c.cands la) va (la, stamp, data) else otherLines c.cands la, candFloor := stamp }
    else c)

/-- R326: an acquire discards the candidates of the scope in the cluster's cache region and the core's instruction cache. -/
def State.acquire (s : State) (core : Nat) (sc : Word) : State :=
  let s1 := s.modCluster (clusterOf core) (fun c =>
    { c with cands := c.cands.filter (fun p => !homeIn sc (homeOf p.2.1)), candFloor := s.nextId })
  (s1.modCore core (fun c => { c with icache := c.icache.filter (fun p => !homeIn sc (homeOf p.1)) })).bumpId

/-- System scope, which contains every location (R324). -/
abbrev sysScope : Word := 0x8000000000000000

/-- R325: a release of the scope need not wait: every earlier read has returned and every earlier write to the scope has
been performed. -/
def Thread.released (t : Thread) (sc : Word) : Bool :=
  t.await.all (fun a => match a.dest with
    | .store => !homeIn sc (homeOf a.pa)
    | _ => !a.read)
/-- R112: a release of domain scope, which holds every location of the domain and none of the host's (R324). -/
def Thread.domReleased (t : Thread) : Bool :=
  t.await.all (fun a => match a.dest with
    | .store => decide (hostBase ≤ a.pa)
    | _ => !a.read)
/-- R326: every earlier read has returned. -/
def Thread.readsDone (t : Thread) : Bool := t.await.all (fun a => !a.read)

/-! ### Answers (R438) -/

/-- The asker is still the thread of its slot: domain, incarnation and tag agree (R438). -/
def State.asks (s : State) (who : Asker) : Bool :=
  let t := s.thread who.tid
  (KMap.find s.threads who.tid).isSome && t.domid == who.domid && t.cin == who.cin && t.tag == who.tag

/-- `n`'s low `w` bits in a cell of `c` bits, sign- or zero-extended (R186). -/
def cellOf (c w : Nat) (sx : Bool) (n : Nat) : Nat :=
  let m := n % 2 ^ w
  if sx && m.testBit (w - 1) then m + (2 ^ c - 2 ^ w) else m
/-- Parts of elements that a word holds, as bits of a v register; the elements' cells are zero beforehand. -/
def laneBits (parts : List LanePart) (v : Word) : BitVec 1024 :=
  BitVec.ofNat 1024 (parts.foldl (fun n p => n + cellOf p.cell p.bits p.sx (v.toNat / 2 ^ p.src) * 2 ^ p.dst) 0)

/-- The completion of a waiting instruction by its answer (R134 step 7). The answer to a graph instruction goes to its walk; the
acquire of an LDA waits for earlier reads (R326, R335). (DEDUCED: log entry 77) -/
def State.complete (s : State) (tid : Nat) (p : Pend) (v : Word) : State :=
  let t := s.thread tid
  match p.fin with
  | .graph r _ => s.modThread tid (fun t => { t with pend := some { p with fin := .graph r (some v) } })
  | _ =>
  let seen := fun (s : State) => match p.line with
    | some la => s.dropCand t.cluster la
    | none => s
  if p.acquire.isSome && !t.readsDone then (seen s).modThread tid (fun t => { t with pend := none, wait := some (.acquire v) }) else
  let s1 := s.modThread tid (fun t => t.takeAll p.takes)
  let s2 := match p.fin with
    | .reg r n sx => s1.write tid r (extend v n sx)
    | .brk => s1.modThread tid (fun t => { t with pw := (t.pw &&& ~~~0x100#32) ||| (if bit v 0 then 0x100#32 else 0) })
    | .stack => s1.modThread tid (fun t => { t with inh := false })
    | .nothing | .graph _ _ => s1
  let s3 := match p.acquire with
    | some sc => s2.acquire t.core sc
    | none => s2
  ((seen s3).retire tid (t.pc + 8)).agreeAfter tid true

/-- The fill of an awaited destination; a LAUNCH or QCTL request is then no longer unanswered (R157). -/
def State.fill (s : State) (tid : Nat) (a : Await) (v : Word) : State :=
  let s1 := s.modThread tid (fun t => { t with
    await := t.await.filter (fun x => decide (x.tok ≠ a.tok)), asks := t.asks.filter (fun x => decide (x.1 ≠ a.tok)) })
  match a.dest with
  | .reg r n sx => if h : r < 16 then s1.write tid (.g ⟨r, h⟩) (extend v n sx) else s1
  | .lane r parts =>
    if h : r < 32 then
      let t := s1.thread tid
      let x := t.v[r] ||| laneBits parts v
      if t.marks.any (fun m => decide (m.reg = 16 + r)) || t.await.any (fun y => match y.dest with
        | .lane r2 _ => decide (r2 = r)
        | _ => false) then s1.modThread tid (fun t => { t with v := t.v.set r x })
      else s1.writeV tid (.v ⟨r, h⟩) x
    else s1
  | .store => (s1.dropCand (s.thread tid).cluster (lineOf a.pa))
  | .none => s1

/-- R431: what an answer does to the checkpoint of a paired slot that was taken while it was awaited, so that a rollback keeps
it: `f` fills or marks the register there. -/
def State.keepInCkpt (s : State) (tid tok : Nat) (f : Thread → Thread) : State :=
  let t := s.thread tid
  if s.paired t then
    s.modCore t.core (fun c => match KMap.find c.ckpts t.slot with
      | some k => if k.await.any (fun a => decide (a.tok = tok)) then
          { c with ckpts := KMap.set c.ckpts t.slot { f k with await := k.await.filter (fun a => decide (a.tok ≠ tok)) } }
        else c
      | none => c)
  else s
/-- The fill of an awaited destination in a checkpoint. -/
def Thread.filled (t : Thread) (d : Dest) (v : Word) : Thread :=
  match d with
  | .reg r n sx => if h : r < 16 then t.put (.g ⟨r, h⟩) (extend v n sx) else t
  | .lane r parts => if h : r < 32 then t.putV (.v ⟨r, h⟩) (t.v[r] ||| laneBits parts v) else t
  | .store | .none => t
/-- R258: a fetch that failed leaves its register empty with an error mark. -/
def State.markReg (s : State) (tid : Nat) (a : Await) (cause : BitVec 8) : State :=
  s.modThread tid (fun t => { t with
    await := t.await.filter (fun x => decide (x.tok ≠ a.tok))
    asks := t.asks.filter (fun x => decide (x.1 ≠ a.tok))
    marks := match a.dest with
      | .reg r _ _ => t.marks ++ [⟨r, cause, a.va⟩]
      | .lane r _ => if t.marks.any (fun m => decide (m.reg = 16 + r)) then t.marks else t.marks ++ [⟨16 + r, cause, a.va⟩]
      | _ => t.marks })

/-- R363, R438: an answer that finds no asker: a popped value returns to its object as a push, anything else is counted. -/
def State.stray (s : State) (who : Asker) (a : Ans) : State :=
  match a with
  | .popr v pa => s.sendFlit who.core (homePos (pkgOf who.core) (homeOf pa)) kPush who.domid who.cin who.tag who.pri (.chan who (.push v) pa false)
  | _ => s.orphaned (clusterOf who.core)

/-- An answer reaches its asker (R438, R258). -/
def State.answer (s : State) (who : Asker) (a : Ans) : State :=
  if !s.asks who then s.stray who a
  else
    let t := s.thread who.tid
    let aw := t.await.find? (fun x => decide (x.tok = who.tok))
    let s0 := match a with
      | .line _ la data stamp keep => s.fillCand t.cluster (lineOf ((aw.map (fun (x : Await) => x.va.toNat)).getD la)) la data stamp (keep && aw.isSome)
      | _ => s
    let v : Word := match a with
      | .value v | .popr v _ | .line v _ _ _ _ => v
      | .ok | .fail _ => 0
    match aw with
    | some aw =>
      match a with
      | .fail c => s0.markReg who.tid aw c
      | _ => (s0.fill who.tid aw v).keepInCkpt who.tid aw.tok (fun t => t.filled aw.dest v)
    | none =>
      match t.pend with
      | some p =>
        if p.tok = who.tok then
          match a with
          | .fail c => s0.takeTrap who.tid (c.setWidth 64) p.addr t.pc t.iw
          | _ =>
            if p.more = 0 then s0.complete who.tid p v
            else s0.modThread who.tid (fun t => { t with pend := some { p with more := p.more - 1 } })
        else s0.stray who a
      | none => s0.stray who a

/-- The class of an answer: WTCH carries that of its thread, the other kinds 0 (R384). -/
def replyPri (kind : BitVec 6) (who : Asker) : BitVec 2 := if kind = kWtch then who.pri else 0
/-- A home answers: at once when the asker stands in the home's cluster, otherwise by a flit. -/
def State.reply (s : State) (who : Asker) (pos : Nat) (kind : BitVec 6) (a : Ans) : State :=
  if clusterOf who.core = clusterOf pos then s.answer who a
  else s.sendFlit pos who.core kind who.domid who.cin who.tag (replyPri kind who) (.resp who a)

/-! ### Reads and stores by threads -/

/-- What a thread reads at a home: memory, seen through its context's shadows, with its own gated stores over it (R429). -/
def State.view (s : State) (t : Thread) (shadow : Bool) (pa : Nat) : Nat → Nat
  | 0 => 0
  | n + 1 =>
    (match t.gated.reverse.find? (fun g => decide (g.pa ≤ pa ∧ pa < g.pa + g.n)) with
      | some g => g.v.toNat / 256 ^ (pa - g.pa) % 256
      | none => (s.byte (s.viewOf t.domid shadow pa)).toNat) + 256 * State.view s t shadow (pa + 1) n

/-- R246: a sent store of the thread to a word of the range is not acknowledged. (DEDUCED: log entry 77) -/
def Thread.storing (t : Thread) (pa n : Nat) : Bool :=
  t.await.any (fun a => (match a.dest with
    | .store => true
    | _ => false) && decide (wordOf a.pa < pa + n ∧ pa < wordOf a.pa + 8))

/-- R244: how an access of a thread to a home that is not local is served: it migrates there, or its request is sent. -/
def migrates (t : Thread) (h : Home) (leaf : Option Word) (load : Bool) : Bool :=
  if t.anc then false
  else match h with
    | .tcm _ | .pool _ => true
    | .vault _ => match leaf with
      | some e => !(pteN e || (load && pteR e))
      | none => true
    | .deck _ _ | .host => false

/-- A roaming thread migrates to a home: to the core of a TCM, to any core of a cluster. (DEDUCED: log entry 52) -/
def State.goHome (s : State) (tid : Nat) (h : Home) (why : Nat) : Res :=
  let t := s.thread tid
  match h with
  | .tcm k => s.migrate tid k false why 0 t.pc
  | h => s.migrate tid (homePos (pkgOf t.core) h) true why 0 t.pc

/-- The check of an access by a thread, with its outcomes: `k` goes on with the translated address. -/
def State.access (s : State) (tid : Nat) (a : Word) (n : Nat) (kind : Acc) (k : State → Nat → Option Word → Res) : Res :=
  if a.toNat % n ≠ 0 then .trap cAlign a
  else match s.resolve (s.thread tid).ctx a kind with
    | (_, .fail c) => .trap c a
    | (s1, .absent) => .gone (s1.pageFault tid a (if kind = .store then 1 else 0))
    | (s1, .at pa leaf) => k s1 pa leaf

/-- R412: the handler's first store through g14 ends the window. -/
def State.stackStore (s : State) (tid : Nat) (base : Reg) : State :=
  if base = .g 14 then s.modThread tid (fun t => { t with inh := false }) else s

/-- R429: a store of a paired slot is gated; a full buffer asks for an exchange first. (DESIGN CHOICE: log entry 90) -/
def gateFull (t : Thread) : Bool := decide (64 ≤ t.gated.length)

/-- A store of a thread to an address whose home is local, or sent to its home (R244, R246). (DEDUCED: log entry 77) -/
def State.store (s : State) (tid : Nat) (pa n : Nat) (shadow : Bool) (v : Word) : State :=
  let t := s.thread tid
  let h := homeOf pa
  if homeLocal t.core h then s.performFor t.domid shadow pa n v.toNat false
  else
    let s1 := (s.modThread tid (fun t => { t with await := t.await ++ [⟨s.nextId, .store, false, 0, pa⟩] })).bumpId
    (s1.dropCand t.cluster (lineOf pa)).request t (homePos (pkgOf t.core) h) kWrite
      (.write (t.asker tid s.nextId shadow) pa n v)

/-- A store of a thread to byte ranges (address, bytes, value) of one word, as one access (R208). -/
def State.storeWord (s : State) (tid : Nat) (shadow : Bool) (l : List (Nat × Nat × Word)) : State :=
  match l with
  | [] => s
  | [(pa, n, v)] => s.store tid pa n shadow v
  | (pa, _, _) :: _ =>
    let t := s.thread tid
    if homeLocal t.core (homeOf pa) then l.foldl (fun s e => s.performFor t.domid shadow e.1 e.2.1 e.2.2.toNat false) s
    else
      let s1 := (s.modThread tid (fun t => { t with await := t.await ++ [⟨s.nextId, .store, false, 0, pa⟩] })).bumpId
      (s1.dropCand t.cluster (lineOf pa)).request t (homePos (pkgOf t.core) (homeOf pa)) kWrite (.writes (t.asker tid s.nextId shadow) pa l)

/-- A store of a thread, gated on a paired core (R429). -/
def State.storeOrGate (s : State) (tid : Nat) (pa n : Nat) (shadow : Bool) (v : Word) : State :=
  let t := s.thread tid
  if s.paired t then
    ((s.modThread tid (fun t => { t with gated := t.gated ++ [⟨pa, n, v, shadow, false, s.nextId⟩] })).feed tid pa 8).feed tid v.toNat 8
  else s.store tid pa n shadow v

/-- A read that is sent to its home, or served from a candidate line (R244, R246, R322). -/
def State.sendRead (s : State) (tid : Nat) (d : Dest) (va : Word) (pa n : Nat) (shadow keep : Bool) : State :=
  let t := s.thread tid
  let s1 := (s.modThread tid (fun t => { t with await := t.await ++ [⟨s.nextId, d, true, va, pa⟩] })).bumpId
  s1.request t (homePos (pkgOf t.core) (homeOf pa)) kRead (.read (t.asker tid s.nextId shadow) pa n keep)

/-- A candidate of the cluster serves the read under its virtual address (R254), where one is held and the model's free choice uses it (R246, R322). (DESIGN CHOICE: log entry 11) -/
def State.candidate (s : State) (t : Thread) (va : Word) (n : Nat) : Option Nat :=
  if Config.useCandidate s.free then
    ((KMap.find (s.cluster t.cluster).cands (lineOf va.toNat)).filter (fun x => decide (t.seenFrom ≤ x.2.1))).map (fun x =>
      x.2.2 / 256 ^ (va.toNat - lineOf va.toNat) % 256 ^ n)
  else none

/-! ### The park region of a cluster (R144, R365) -/

/-- R365: the delay after the k-th bounce. -/
def backOff (k : Nat) : Nat := Nat.min 65536 (256 * 2 ^ k)
/-- Images and flits that a cluster's park region holds. -/
def State.parkUsed (s : State) (cl : Nat) : Nat :=
  (s.threads.filter (fun p => match p.2.place with
    | .runq c _ _ | .parked c | .frozen c => decide (c = cl)
    | .built c _ => decide (clusterOf c = cl)
    | _ => false)).length +
  (s.msgs.filter (fun p => match p.2.loc with
    | .parked c _ | .fallen c | .stalled c _ => decide (c = cl)
    | _ => false)).length + (s.cluster cl).proxies.length +
  (s.packages.flatMap (fun p => p.2.reqs.filter (fun r => r.till.isSome && r.who.any (fun w => decide (clusterOf w.core = cl))))).length +
  (s.launches.filter (fun p => decide (p.2.pkg = pkgOfDie (cl / 64)) && decide (cl % 64 = 33))).foldl (fun n p => n + p.2.resend.length) 0 +
  (s.cores.filter (fun p => decide (clusterOf p.1 = cl))).foldl (fun n p => n + p.2.parkedMsgs.length) 0
/-- The park region has no room for a further entry. (DESIGN CHOICE: log entry 9) -/
def State.parkFull (s : State) (cl : Nat) : Bool := decide (Config.parkRoom (s.cluster cl).bnd0.toNat ≤ s.parkUsed cl)
/-- R366: a flit that a core sends could not be parked if it were refused: the park region of its cluster is exhausted. (DEDUCED: log entry 59) -/
def State.sendOverflow (s : State) (core : Nat) : Bool := s.parkFull (clusterOf core)
/-- R366: a request of a thread that its home in another cluster may refuse: SENDOVF while it could not be parked. -/
def State.requestOr (s : State) (t : Thread) (pos : Nat) (r : Res) : Res :=
  if decide (clusterOf pos ≠ t.cluster) && s.sendOverflow t.core then .trap 0x0F (BitVec.ofNat 64 pos) else r

end Sys2Proof.Machine
end

