-- ==== Sys2Proof/Machine/Operands.lean ====
section
/-! DEFINITION. Operand forms: the second operand of register and immediate forms (R127, R168), memory operands (R20), and
scopes (R324). -/

namespace Sys2Proof.Machine

/-- The sources that the second operand reads. -/
def Opd.srcs : Opd → List Src
  | .reg s => [s]
  | .imm _ => []
/-- The value of the second operand: a register, or sext(I21). -/
def Opd.val (t : Thread) : Opd → Word
  | .reg s => t.reg s.reg
  | .imm i => i.signExtend 64

/-- The sources of a memory operand. -/
def MemOp.srcs (m : MemOp) : List Src := [m.base, m.index]
/-- R20: base + (index << SC) + sext(I24), modulo 2^64. -/
def MemOp.ea (t : Thread) (m : MemOp) : Word := t.reg m.base.reg + (t.reg m.index.reg <<< m.sc.toNat) + m.disp.signExtend 64

/-- The address of an operand that is a base and a displacement (R335, R337). -/
def baseDisp (t : Thread) (base : Src) (disp : BitVec 24) : Word := t.reg base.reg + disp.signExtend 64

/-- The source that names a scope. -/
def Scope.srcs : Scope → List Src
  | .reg s => [s]
  | .sys => []
/-- The rectangle of a scope; `.sys` is system scope. -/
def Scope.val (t : Thread) : Scope → Word
  | .reg s => t.reg s.reg
  | .sys => 0x8000000000000000

/-- Bytes of an access size (R127). -/
def Size.bytes : Size → Nat
  | .b => 1
  | .q => 2
  | .h => 4
  | .w => 8

/-- The value of an index or count operand (R191): the immediate I10 or a register. -/
def VIdx.val (t : Thread) : VIdx → Word
  | .imm i => i.setWidth 64
  | .reg s => t.reg s.reg
def VIdx.srcs : VIdx → List Src
  | .imm _ => []
  | .reg s => [s]

end Sys2Proof.Machine
end

