-- ==== Sys2Proof/Machine/Flags.lean ====
section
/-! DEFINITION. Flag computations: the integer conditions of R126, flag logic (R174) and the fields of pw (R175). -/

namespace Sys2Proof.Machine

/-- R126: the integer condition of two values of one width. -/
def ICond.holds {w : Nat} (c : ICond) (a b : BitVec w) : Bool :=
  match c with
  | .eq => a == b
  | .ne => a != b
  | .lt => a.slt b
  | .ge => !a.slt b
  | .le => !b.slt a
  | .gt => b.slt a
  | .ltn => a.ult b
  | .gen => !a.ult b
  | .len => !b.ult a
  | .gtn => b.ult a
  | .tst => a &&& b != 0
  | .ntst => a &&& b == 0

/-- R174: the three operators of FLOP. -/
def FlopOp.app (o : FlopOp) (x y : Bool) : Bool :=
  match o with
  | .and => x && y
  | .or => x || y
  | .xor => x != y

/-- R175: a field of pw, right-aligned. -/
def PwField.get (f : PwField) (pw : BitVec 32) : Word :=
  match f with
  | .flags => (pw.extractLsb' 0 8).setWidth 64
  | .st => (pw.extractLsb' 8 3).setWidth 64
  | .fpf => (pw.extractLsb' 16 5).setWidth 64
  | .rm => (pw.extractLsb' 21 3).setWidth 64
  | .all => pw.setWidth 64
/-- R175: pw with one field written; bits that are fixed stay. -/
def PwField.put (f : PwField) (pw : BitVec 32) (x : Word) : BitVec 32 :=
  let m : BitVec 32 := match f with
    | .flags => 0xFE
    | .st => 0x700
    | .fpf => 0x1F0000
    | .rm => 0xE00000
    | .all => pwMask
  let sh : Nat := match f with
    | .flags | .all => 0
    | .st => 8
    | .fpf => 16
    | .rm => 21
  (pw &&& ~~~m) ||| ((x.setWidth 32 <<< sh) &&& m)

/-- Flags of two roundings together. -/
def Fl.or (a b : Fl) : Fl :=
  ⟨a.nx || b.nx, a.uf || b.uf, a.ofl || b.ofl, a.dz || b.dz, a.nv || b.nv, a.clmp || b.clmp⟩

/-- The flags as bits of pw (R52, R122). -/
def Fl.bits (f : Fl) : BitVec 32 :=
  BitVec.ofNat 32 ((if f.nx then 65536 else 0) + (if f.uf then 131072 else 0) + (if f.ofl then 262144 else 0) +
    (if f.dz then 524288 else 0) + (if f.nv then 1048576 else 0) + (if f.clmp then 1024 else 0))

end Sys2Proof.Machine
end

