-- ==== Sys2Proof/Machine/Num.lean ====
section
/-! DEFINITION. Number formats and arithmetic (02: R32 to R59): the values of codes, rounding with its modes and flags, the
generator of stochastic rounding, exact arithmetic and its special cases, conversions, block scales. -/

namespace Sys2Proof

/-- R49: the mode in force: DYN reads pw[23:21], and 6 and 7 there act as RNE. -/
def RM.eff (rm : RM) (pw : BitVec 32) : RM :=
  match rm with
  | .dyn =>
    match (pw.extractLsb' 21 3).toNat with
    | 1 => .rtz
    | 2 => .rdn
    | 3 => .rup
    | 4 => .rna
    | 5 => .sr
    | _ => .rne
  | r => r

end Sys2Proof

namespace Sys2Proof.Machine

/-! ### Formats -/

/-- A floating or narrow format (R32, R37): sign bit, exponent and fraction bits, bias, special-value mode; the wide formats
have mode 2 and their own canonical NaN. -/
structure Fmt where
  sg : Bool
  e : Nat
  m : Nat
  bias : Nat
  spm : Nat
  wide : Bool
deriving DecidableEq, Repr

def f64Fmt : Fmt := ⟨true, 11, 52, 1023, 2, true⟩
def f32Fmt : Fmt := ⟨true, 8, 23, 127, 2, true⟩
def f16Fmt : Fmt := ⟨true, 5, 10, 15, 2, true⟩
def e8m7Fmt : Fmt := ⟨true, 8, 7, 127, 2, true⟩
/-- The element format of BS4 (R41). -/
def bs4Fmt : Fmt := ⟨true, 2, 1, 1, 0, false⟩

/-- Bits of the magnitude. -/
def Fmt.mag (f : Fmt) : Nat := f.e + f.m
/-- Width of a code. -/
def Fmt.width (f : Fmt) : Nat := f.mag + (if f.sg then 1 else 0)

/-- R37: the format that a format register describes. -/
def fmtOf (r : BitVec 24) : Fmt :=
  ⟨r.getLsbD 21, (r.extractLsb' 18 3).toNat, (r.extractLsb' 15 3).toNat, (r.extractLsb' 8 7).toNat, (r.extractLsb' 22 2).toNat, false⟩

/-- R38: a format register value is valid. -/
def fmtValid (r : BitVec 24) : Bool :=
  let f := fmtOf r
  decide (f.spm ≠ 3) && decide (2 ≤ f.width) && decide (f.width ≤ 8) && r.extractLsb' 0 8 == 0 &&
    (decide (f.spm ≠ 1) || decide (2 ≤ f.mag)) && (decide (f.spm ≠ 2) || (decide (2 ≤ f.e) && decide (1 ≤ f.m)))

/-- R40: the magnitude code of MAXF. -/
def Fmt.maxCode (f : Fmt) : Nat :=
  if f.spm = 0 then 2 ^ f.mag - 1 else if f.spm = 1 then 2 ^ f.mag - 2 else (2 ^ f.e - 1) * 2 ^ f.m - 1
/-- The magnitude code of infinity, for mode 2. -/
def Fmt.infCode (f : Fmt) : Nat := (2 ^ f.e - 1) * 2 ^ f.m
/-- R34, R40: the NaN that the hardware writes. -/
def Fmt.nanCode (f : Fmt) : Nat := if f.wide then f.infCode + 2 ^ (f.m - 1) else 2 ^ f.width - 1
/-- The sign bit in a code. -/
def Fmt.signBit (f : Fmt) (neg : Bool) : Nat := if f.sg && neg then 2 ^ f.mag else 0

/-! ### Numbers -/

/-- A finite number: (-1)^neg (man + r) 2^exp, where r is 0, or with `sticky` lies strictly between 0 and 1. -/
structure Ex where
  neg : Bool
  man : Nat
  exp : Int
  sticky : Bool := false
deriving DecidableEq, Repr

/-- A value: NaN (signalling or quiet), infinity, or a finite number. -/
inductive Num
  | nan (sig : Bool)
  | inf (neg : Bool)
  | fin (x : Ex)
deriving DecidableEq, Repr

/-- A finite number without a remainder. -/
def Num.of (neg : Bool) (man : Nat) (exp : Int) : Num := .fin ⟨neg, man, exp, false⟩
/-- An integer as a number. -/
def Num.ofInt (i : Int) : Num := .of (decide (i < 0)) i.natAbs 0

/-- R32, R39, R40: the value of a code. -/
def Fmt.value (f : Fmt) (code : Nat) : Num :=
  let c := code % 2 ^ f.width
  let neg := f.sg && c.testBit f.mag
  let mg := c % 2 ^ f.mag
  let ef := mg / 2 ^ f.m
  let mf := mg % 2 ^ f.m
  if f.spm = 1 && decide (mg = 2 ^ f.mag - 1) then .nan false
  else if f.spm = 2 && decide (ef = 2 ^ f.e - 1) then
    if mf = 0 then .inf neg else .nan (!mf.testBit (f.m - 1))
  else if f.e = 0 then .of neg mf (-(f.bias : Int))
  else if ef = 0 then .of neg mf (1 - (f.bias : Int) - f.m)
  else .of neg (2 ^ f.m + mf) ((ef : Int) - f.bias - f.m)

/-! ### Rounding (R42 to R50) -/

/-- R51: one step of the generator; the new state is the value used. -/
def rndStep (s : BitVec 32) : BitVec 32 :=
  let s := if s = 0 then 0x13579BDF else s
  let s := s ^^^ (s <<< 13)
  let s := s ^^^ (s >>> 17)
  s ^^^ (s <<< 5)

/-- R48, R50: whether the larger magnitude is chosen. `rem / 2^d` is the fraction between the neighbours, with `sticky` more;
`odd` says that the smaller one's code is odd; `r` is the generator's value. -/
def roundUp (rm : RM) (r : BitVec 32) (neg odd : Bool) (rem d : Nat) (sticky : Bool) : Bool :=
  let inexact := decide (rem ≠ 0) || sticky
  match rm with
  | .rtz => false
  | .rdn => neg && inexact
  | .rup => !neg && inexact
  | .rna => decide (2 ^ d ≤ 2 * rem)
  | .sr => decide (2 ^ 32 ≤ rem * 2 ^ 32 / 2 ^ d + r.toNat)
  | .rne | .dyn => decide (2 ^ d < 2 * rem) || (decide (2 ^ d = 2 * rem) && (sticky || odd))

/-- R43: overflow gives infinity or MAXF. -/
def Fmt.over (f : Fmt) (rm : RM) (neg : Bool) : Nat :=
  f.signBit neg +
    (if f.spm ≠ 2 then f.maxCode
     else match rm with
      | .rtz => f.maxCode
      | .rup => if neg then f.maxCode else f.infCode
      | .rdn => if neg then f.infCode else f.maxCode
      | .rne | .rna | .sr | .dyn => f.infCode)

/-- R42 to R44, R46: an exact finite number rounded into a format: its code and flags. -/
def Fmt.round (f : Fmt) (rm : RM) (r : BitVec 32) (x : Ex) : Nat × Fl :=
  if x.man = 0 && !x.sticky then (f.signBit x.neg, {})
  else if !f.sg && x.neg then (0, { nv := true })
  else
    let top : Int := x.exp + x.man.log2
    let low : Int := if f.e = 0 then -(f.bias : Int) else 1 - (f.bias : Int) - f.m
    let q : Int := if f.e = 0 then low else max (top - f.m) low
    let d := (q - x.exp).toNat
    let n := if q ≤ x.exp then x.man * 2 ^ (x.exp - q).toNat else x.man / 2 ^ d
    let rem := if q ≤ x.exp then 0 else x.man % 2 ^ d
    let c0 := if f.e = 0 || decide (n < 2 ^ f.m) then n else ((q - low).toNat + 1) * 2 ^ f.m + (n - 2 ^ f.m)
    let c := if roundUp rm r x.neg (decide (c0 % 2 = 1)) rem d x.sticky then c0 + 1 else c0
    let inexact := decide (rem ≠ 0) || x.sticky
    let tiny := decide (top < if f.e = 0 then -(f.bias : Int) else 1 - (f.bias : Int))
    if f.maxCode < c then (f.over rm x.neg, { ofl := true, nx := true })
    else (f.signBit x.neg + c, { nx := inexact, uf := tiny && inexact })

/-- R45, R46: a value written into a format. -/
def Fmt.put (f : Fmt) (rm : RM) (r : BitVec 32) (x : Num) : Nat × Fl :=
  match x with
  | .nan sig => if f.spm = 0 then (0, { nv := true }) else (f.nanCode, { nv := sig })
  | .inf neg =>
    if !f.sg && neg then (0, { nv := true })
    else if f.spm = 2 then (f.signBit neg + f.infCode, {})
    else (f.signBit neg + f.maxCode, { ofl := true, nx := true })
  | .fin x => f.round rm r x

/-- R47: a value rounded to an integer of a width: the result and its flags. -/
def toInteger (lo hi : Int) (rm : RM) (r : BitVec 32) (x : Num) : Int × Fl :=
  match x with
  | .nan _ => (0, { nv := true })
  | .inf neg => (if neg then lo else hi, { nv := true })
  | .fin x =>
    let d := (-x.exp).toNat
    let n := if 0 ≤ x.exp then x.man * 2 ^ x.exp.toNat else x.man / 2 ^ d
    let rem := if 0 ≤ x.exp then 0 else x.man % 2 ^ d
    let n := if roundUp rm r x.neg (decide (n % 2 = 1)) rem d x.sticky then n + 1 else n
    let i : Int := if x.neg then -(n : Int) else n
    if i < lo then (lo, { nv := true })
    else if hi < i then (hi, { nv := true })
    else (i, { nx := decide (rem ≠ 0) || x.sticky })

/-! ### Exact arithmetic -/

/-- A result before rounding, with the invalid and divide-by-zero flags it raises. -/
structure Raw where
  num : Num
  nv : Bool := false
  dz : Bool := false
deriving DecidableEq, Repr

/-- A NaN operand among the operands gives NaN, invalid when one is signalling (R34). -/
def nanOf (l : List Num) : Option Raw :=
  if l.any (fun x => match x with
    | .nan _ => true
    | _ => false) then
    some ⟨.nan false, l.any (fun x => match x with
      | .nan s => s
      | _ => false), false⟩
  else none

/-- The negated value. -/
def Num.neg : Num → Num
  | .nan s => .nan s
  | .inf n => .inf (!n)
  | .fin x => .fin { x with neg := !x.neg }
/-- The magnitude. -/
def Num.abs : Num → Num
  | .nan s => .nan s
  | .inf _ => .inf false
  | .fin x => .fin { x with neg := false }

/-- The signed integer of a finite number at a lower exponent. -/
def Ex.at (x : Ex) (e : Int) : Int := (if x.neg then -1 else 1) * (x.man * 2 ^ (x.exp - e).toNat : Nat)

/-- R42: the exact sum of two finite numbers; an exact zero from operands of opposite sign is +0, or -0 under RDN. -/
def addEx (rm : RM) (a b : Ex) : Ex :=
  if a.man = 0 && b.man = 0 then
    ⟨if a.neg = b.neg then a.neg else rm == .rdn, 0, 0, false⟩
  else
    let e := min a.exp b.exp
    let v := a.at e + b.at e
    ⟨if v = 0 then rm == .rdn else decide (v < 0), v.natAbs, e, false⟩

/-- The exact product. -/
def mulEx (a b : Ex) : Ex := ⟨a.neg != b.neg, a.man * b.man, a.exp + b.exp, false⟩

/-- a + b (R179). -/
def addNum (rm : RM) (a b : Num) : Raw :=
  match nanOf [a, b] with
  | some r => r
  | none =>
    match a, b with
    | .inf x, .inf y => if x = y then ⟨.inf x, false, false⟩ else ⟨.nan false, true, false⟩
    | .inf x, _ => ⟨.inf x, false, false⟩
    | _, .inf y => ⟨.inf y, false, false⟩
    | .fin x, .fin y => ⟨.fin (addEx rm x y), false, false⟩
    | _, _ => ⟨.nan false, false, false⟩

/-- a · b (R179). -/
def mulNum (a b : Num) : Raw :=
  match nanOf [a, b] with
  | some r => r
  | none =>
    match a, b with
    | .inf x, .inf y => ⟨.inf (x != y), false, false⟩
    | .inf x, .fin y | .fin y, .inf x => if y.man = 0 then ⟨.nan false, true, false⟩ else ⟨.inf (x != y.neg), false, false⟩
    | .fin x, .fin y => ⟨.fin (mulEx x y), false, false⟩
    | _, _ => ⟨.nan false, false, false⟩

/-- 0 · ∞. -/
def zeroTimesInf (a b : Num) : Bool :=
  match a, b with
  | .inf _, .fin y => decide (y.man = 0)
  | .fin x, .inf _ => decide (x.man = 0)
  | _, _ => false

/-- a · b + c (R179): 0 · ∞ is invalid even when c is a quiet NaN. -/
def fmaNum (rm : RM) (a b c : Num) : Raw :=
  match nanOf [a, b, c] with
  | some r => { r with nv := r.nv || zeroTimesInf a b }
  | none =>
    let p := mulNum a b
    match p.num with
    | .nan _ => p
    | x => addNum rm x c

/-- Bits of quotients and roots beyond which only a remainder is kept. -/
def divBits : Nat := 160

/-- a / b (R179). -/
def divNum (a b : Num) : Raw :=
  match nanOf [a, b] with
  | some r => r
  | none =>
    match a, b with
    | .inf _, .inf _ => ⟨.nan false, true, false⟩
    | .inf x, .fin y => ⟨.inf (x != y.neg), false, false⟩
    | .fin x, .inf y => ⟨.of (x.neg != y) 0 0, false, false⟩
    | .fin x, .fin y =>
      if y.man = 0 then
        if x.man = 0 then ⟨.nan false, true, false⟩ else ⟨.inf (x.neg != y.neg), false, true⟩
      else
        let n := x.man * 2 ^ (divBits + y.man.log2)
        ⟨.fin ⟨x.neg != y.neg, n / y.man, x.exp - y.exp - (divBits + y.man.log2 : Nat), decide (n % y.man ≠ 0)⟩, false, false⟩
    | _, _ => ⟨.nan false, false, false⟩

/-- The integer square root, bit by bit from bit `k` down. -/
def isqrt (n : Nat) : Nat → Nat → Nat
  | 0, r => if (r + 1) * (r + 1) ≤ n then r + 1 else r
  | k + 1, r => isqrt n k (if (r + 2 ^ (k + 1)) * (r + 2 ^ (k + 1)) ≤ n then r + 2 ^ (k + 1) else r)

/-- The square root of a positive finite number. -/
def sqrtEx (x : Ex) : Ex :=
  let k : Nat := 2 * divBits + (if x.exp % 2 = 0 then 0 else 1)
  let n := x.man * 2 ^ k
  let r := isqrt n (n.log2 / 2 + 1) 0
  ⟨false, r, (x.exp - k) / 2, decide (r * r ≠ n)⟩

/-- √a (R179). -/
def sqrtNum (a : Num) : Raw :=
  match a with
  | .nan s => ⟨.nan false, s, false⟩
  | .inf neg => if neg then ⟨.nan false, true, false⟩ else ⟨.inf false, false, false⟩
  | .fin x => if x.man = 0 then ⟨.fin x, false, false⟩ else if x.neg then ⟨.nan false, true, false⟩ else ⟨.fin (sqrtEx x), false, false⟩

/-- 1 / √a: a zero gives an infinity of its sign and divide by zero (R194). -/
def rsqrtNum (a : Num) : Raw :=
  match a with
  | .nan s => ⟨.nan false, s, false⟩
  | .inf neg => if neg then ⟨.nan false, true, false⟩ else ⟨.of false 0 0, false, false⟩
  | .fin x =>
    if x.man = 0 then ⟨.inf x.neg, false, true⟩
    else if x.neg then ⟨.nan false, true, false⟩
    else
      -- 1 / sqrt(man 2^exp) = sqrt(2^(2k) / man) 2^(-k) 2^(-exp/2), with exp made even
      let man := if x.exp % 2 = 0 then x.man else x.man * 2
      let e := if x.exp % 2 = 0 then x.exp else x.exp - 1
      let k := divBits + man.log2
      let n := 2 ^ (2 * k) / man
      let r := isqrt n (n.log2 / 2 + 1) 0
      ⟨.fin ⟨false, r, -(k : Int) - e / 2, decide (r * r * man ≠ 2 ^ (2 * k))⟩, false, false⟩

/-- floor(ln 2 · 2^320). -/
def ln2Fix : Nat := 0xb17217f7d1cf79abc9e3b39803f2f6af40f343267298b62d8a0d175b8baafa2be7b876206debac98

/-- Fixed-point bits of the exponential. -/
def expBits : Nat := 320

/-- The sum of the terms u^k / k! from term `t` on, in fixed point. -/
def expSum (u : Nat) : Nat → Nat → Nat → Nat
  | 0, _, _ => 0
  | n + 1, k, t => t + expSum u n (k + 1) (t * u / (2 ^ expBits * (k + 1)))

/-- 2^x for a finite x ≠ 0: exact for an integer, otherwise its leading 193 bits and a remainder. (DEDUCED: log entry 65) -/
def exp2Ex (x : Ex) : Ex :=
  let top : Int := x.exp + x.man.log2
  if top < -256 then
    if x.neg then ⟨false, 2 ^ 193 - 1, -193, true⟩ else ⟨false, 2 ^ 192, -192, true⟩
  else
    let v : Int := x.at (-(expBits : Int) - 1024)
    let one : Int := 2 ^ (expBits + 1024)
    let k : Int := v / one
    let f : Nat := (v % one).toNat
    if f = 0 then ⟨false, 1, k, false⟩
    else
      let u := f / 2 ^ 1024 * ln2Fix / 2 ^ expBits
      ⟨false, expSum u 75 0 (2 ^ expBits) / 2 ^ 128, k - 192, true⟩

/-- 2^a: the limits at the infinities, 1 at zero; a magnitude beyond every format stays a power of two beyond it. (DEDUCED: log entry 65) -/
def exp2Num (a : Num) : Raw :=
  match a with
  | .nan s => ⟨.nan false, s, false⟩
  | .inf neg => if neg then ⟨.of false 0 0, false, false⟩ else ⟨.inf false, false, false⟩
  | .fin x =>
    if x.man = 0 then ⟨.of false 1 0, false, false⟩
    else if 12 < x.exp + x.man.log2 then
      ⟨.fin ⟨false, 1, if x.neg then -8192 else 8192, true⟩, false, false⟩
    else ⟨.fin (exp2Ex x), false, false⟩

/-- Fixed-point bits of the logarithm's argument. -/
def logBits : Nat := 640

/-- Binary digits of log2 m by repeated squaring: `m` in fixed point, in 1 to 2. -/
def logDigits : Nat → Nat → Nat → Nat
  | 0, _, r => r
  | n + 1, m, r =>
    let m2 := m * m / 2 ^ logBits
    if 2 ^ (logBits + 1) ≤ m2 then logDigits n (m2 / 2) (2 * r + 1) else logDigits n m2 (2 * r)

/-- log2 x for a finite positive x: exact for a power of two, otherwise 256 fraction bits and a remainder. (DEDUCED: log entry 65) -/
def log2Ex (x : Ex) : Ex :=
  let k : Int := x.exp + x.man.log2
  if x.man = 2 ^ x.man.log2 then ⟨decide (k < 0), k.natAbs, 0, false⟩
  else
    let m := x.man * 2 ^ logBits / 2 ^ x.man.log2
    let y : Int := k * 2 ^ 256 + logDigits 256 m 0
    if y < 0 then ⟨true, y.natAbs - 1, -256, true⟩ else ⟨false, y.natAbs, -256, true⟩

/-- log2 a. (DEDUCED: log entry 65) -/
def log2Num (a : Num) : Raw :=
  match a with
  | .nan s => ⟨.nan false, s, false⟩
  | .inf neg => if neg then ⟨.nan false, true, false⟩ else ⟨.inf false, false, false⟩
  | .fin x => if x.man = 0 then ⟨.inf true, false, true⟩ else if x.neg then ⟨.nan false, true, false⟩ else ⟨.fin (log2Ex x), false, false⟩

/-- A result rounded into a format, with every flag. -/
def Fmt.finish (f : Fmt) (rm : RM) (r : BitVec 32) (x : Raw) : Nat × Fl :=
  let p := f.put rm r x.num
  (p.1, { p.2 with nv := p.2.nv || x.nv, dz := p.2.dz || x.dz })

/-! ### Comparison -/

/-- The order of two values that are not NaN. -/
def Num.cmp (a b : Num) : Ordering :=
  match a, b with
  | .inf x, .inf y => if x = y then .eq else if x then .lt else .gt
  | .inf x, _ => if x then .lt else .gt
  | _, .inf y => if y then .gt else .lt
  | .fin x, .fin y =>
    let e := min x.exp y.exp
    compare (x.at e) (y.at e)
  | _, _ => .eq
/-- NaN. -/
def Num.isNan : Num → Bool
  | .nan _ => true
  | _ => false
/-- A signalling NaN. -/
def Num.isSig : Num → Bool
  | .nan s => s
  | _ => false
/-- A zero. -/
def Num.isZero : Num → Bool
  | .fin x => decide (x.man = 0) && !x.sticky
  | _ => false
/-- The sign of a value that is not NaN. -/
def Num.sign : Num → Bool
  | .nan _ => false
  | .inf n => n
  | .fin x => x.neg

/-- R126, R182: a floating condition and whether it raises NV. -/
def fcondHolds (c : FCond) (a b : Num) : Bool × Bool :=
  let un := a.isNan || b.isNan
  let sig := a.isSig || b.isSig
  let o := a.cmp b
  match c with
  | .eq => (!un && o == .eq, sig)
  | .ne => (un || o != .eq, sig)
  | .lt => (!un && o == .lt, un)
  | .ge => (!un && o != .lt, un)
  | .le => (!un && o != .gt, un)
  | .gt => (!un && o == .gt, un)
  | .un => (un, sig)
  | .ord => (!un, sig)

/-- R179: the smaller (or with `max` the larger) of two values, -0 below +0; one NaN gives the other operand. -/
def minMaxNum (max : Bool) (a b : Num) : Raw :=
  let sig := a.isSig || b.isSig
  if a.isNan && b.isNan then ⟨.nan false, sig, false⟩
  else if a.isNan then ⟨b, sig, false⟩
  else if b.isNan then ⟨a, sig, false⟩
  else
    let aFirst := match a.cmp b with
      | .lt => true
      | .gt => false
      | .eq => a.sign || !b.sign
    ⟨if aFirst != max then a else b, false, false⟩

end Sys2Proof.Machine
end

