-- ==== Sys2Proof/Machine/Home.lean ====
section
/-! DEFINITION. What a home does with the requests that reach it: reads and writes (R321, R323), tag requests and their
waiters (R332 to R334), atomics under their reservations (R337 to R340), channel objects (R70 to R72, R358 to R360), and
the arrival of answers at their askers (R438, R246). -/

namespace Sys2Proof.Machine

/-! ### Flits at their destination -/

/-- Kinds of request whose flow is performed in the order of SEQ (R385). -/
def ordered (k : BitVec 6) : Bool := [kRead, kWrite, kProxy, kTagw, kPush, kPop, kMsg, kBulk, kWtch].contains k

/-- The channel of a flit (R114, R365). -/
def Body.chanNo : Body → Option Nat
  | .msg _ x => some x.chan
  | .bulk _ c _ _ => some c
  | _ => none
/-- The two flits have one destination, and one channel there where they are messages (R365). -/
def Msg.sameGoal (a b : Msg) : Bool := decide (a.ldest = b.ldest) && decide (a.kind = b.kind) && decide (a.body.chanNo = b.body.chanNo)
/-- The first flit is an earlier one of the second's flow: numbers are compared modulo 2^16 (R382, R385). -/
def Msg.precedes (a b : Msg) : Bool :=
  ordered a.kind && decide (a.src = b.src) && decide (a.ldest = b.ldest) && a.seq != b.seq && decide ((b.seq - a.seq).toNat < 32768)
/-- The first flit has been parked before the second, from the same cluster, and goes first to the same core and channel (R365). -/
def Msg.parkedBefore (a b : Msg) : Bool :=
  decide (0 < a.bounces) && decide (clusterOf a.src = clusterOf b.src) && a.sameGoal b && decide (a.sq < b.sq)
/-- No earlier flit of the same flow, or parked before it, is still on its way (R323, R365, R385). -/
def State.inOrder (s : State) (m : Msg) : Bool := s.msgs.all (fun p => !(p.2.precedes m || p.2.parkedBefore m))

/-- A flit is taken out of the fabric. -/
def State.dropMsg (s : State) (id : Nat) : State := { s with msgs := KMap.erase s.msgs id }

/-- The address that a request names, for requests that read or write one. -/
def Body.target : Body → Option Nat
  | .read _ pa _ _ | .feqry _ pa | .write _ pa _ _ | .writes _ pa _ | .tagw _ _ pa _ | .chan _ _ pa _ => some pa
  | .proxy r => some r.pa
  | .image _ _ _ | .msg _ _ | .bulk _ _ _ _ | .engc _ _ _ _ _ | .mcast _ _ _ _ | .contrib _ _ _ _ _ _ | .setup _ _ _ _ _
  | .wtch _ _ | .signal _ | .resp _ _ => none
/-- A gang switch has saved the context at the cluster (R425). -/
def State.switchedFrom (s : State) (cl : Nat) (dom : BitVec 12) (cin : BitVec 16) : Bool := s.gangs.any (fun g => g.pairs.contains (cl, dom, cin))
/-- The flit is for a context that a gang switch has saved at its destination. -/
def State.switchedFlit (s : State) (m : Msg) : Bool := s.switchedFrom (clusterOf m.ldest) m.domid m.cin
/-- R425: the flit is for a context that a gang switch has saved at its destination, or a request of the owner of a TCM or
scratchpad that is saved. -/
def State.fallsOut (s : State) (m : Msg) : Bool :=
  s.isLive (clusterOf m.ldest) m.domid m.cin && (s.switchedFlit m ||
    (match m.body.target with
      | some pa => (s.gangs.flatMap Gang.images).any (fun i => decide (i.1 = pa / 65536 * 65536) && i.2.2 == m.domid)
      | none => false))

/-- The flit stands at its destination and may be taken: it is no NACK, its cluster is not fenced, it does not fall out
(R425), and its flow's earlier flits have been taken. -/
def State.arrived (s : State) (id : Nat) : Option Msg :=
  match KMap.find s.msgs id with
  | none => none
  | some m => match m.loc with
    | .ejected _ => if m.nack || (s.cluster (clusterOf m.ldest)).fen || s.fallsOut m || !(ordered m.kind → s.inOrder m) then none else some m
    | _ => none

/-- A request is taken at its home: a stale one is dropped (R436); otherwise `f` acts on it, or leaves it waiting. -/
def State.atHome (s : State) (id : Nat) (f : State → Msg → Option State) : State :=
  match s.arrived id with
  | none => s
  | some m =>
    if !s.isLive (clusterOf m.ldest) m.domid m.cin then s.dropMsg id
    else (f (s.dropMsg id) m).getD s

/-! ### Reads and writes (R321) -/

/-- The value of a fetch with its line, as a home answers it; poisoned data fails, and a line that holds some is not kept (R258). -/
def State.lineAns (s : State) (who : Asker) (pa n : Nat) (keep : Bool) : Ans :=
  let v := s.viewOf who.domid who.shadow pa
  if s.poisoned v n then .fail 0x0A
  else .line (BitVec.ofNat 64 (s.peek v n)) (lineOf pa) (s.peek (lineOf pa) 128) s.nextId (keep && !who.shadow && !s.poisoned (lineOf pa) 128)

/-- A READ, FEQRY or WRITE request at its home. -/
def State.serveAccess (s : State) (m : Msg) : Option State :=
  match m.body with
  | .read who pa n keep =>
    if homeOf pa = .host then
      some (s.bumpFree.bumpId.reply who m.ldest kData (if Config.hostFails s.free then .fail 0x0D else s.lineAns who pa n keep))
    else some (s.bumpId.reply who m.ldest kData (s.lineAns who pa n keep))
  | .feqry who pa =>
    let v := s.viewOf who.domid who.shadow pa
    some (s.reply who m.ldest kData (.value (BitVec.ofNat 64 ((if s.tagFull v then 1 else 0) + (if s.poisoned v 8 then 2 else 0)))))
  | .write who pa n v =>
    if (s.shadowFor who.domid who.shadow pa).isNone then none
    else some ((s.performFor who.domid who.shadow pa n v.toNat false).reply who m.ldest kAck .ok)
  | .writes who pa l =>
    if (s.shadowFor who.domid who.shadow pa).isNone then none
    else some ((l.foldl (fun s e => s.performFor who.domid who.shadow e.1 e.2.1 e.2.2.toNat false) s).reply who m.ldest kAck .ok)
  | _ => none

/-- R321, R323: a read or write request is performed at its home. -/
def execHomeReadWrite (msg : Nat) (s : State) : Host.Outcome State Fault Refusal := .next (s.atHome msg State.serveAccess)

/-! ### Cancelled requests (R343, R360) -/

/-- The asker's wait has passed its limit while the request was on its way. (DEDUCED: log entry 80) -/
def State.cancelled (s : State) (who : Asker) : Bool :=
  s.asks who && (match (s.thread who.tid).pend with
    | some p => decide (p.tok = who.tok) && p.cancelled
    | none => false)
/-- The asker traps WAITLIM: its request has been removed without effect. (DEDUCED: log entry 80) -/
def State.waitlim (s : State) (tid : Nat) : State :=
  let t := s.thread tid
  s.takeTrap tid 0x09 t.waitAddr t.pc t.iw
/-- A request that cannot execute at once joins a list of waiters while it has room, unless it has been cancelled. -/
def State.orWait (s : State) (who : Asker) (room : Bool) (join : State) : Option State :=
  if s.cancelled who then some (s.waitlim who.tid) else if room then some join else none

/-! ### Tags (R332 to R334) -/

/-- Where a request's word stands: the address at which its context's access is performed. -/
def TagWaiter.loc (s : State) (w : TagWaiter) : Nat := wordOf (s.viewOf w.who.domid w.who.shadow w.pa)
/-- The waiter waits for a full word. -/
def TagWaiter.isLdf (w : TagWaiter) : Bool :=
  match w.op with
  | .ldf _ => true
  | .stf _ _ | .feset _ => false

/-- The request writes its word or its tag, so that it needs a shadow frame of its granule (R448). -/
def TagWaiter.writes (w : TagWaiter) : Bool :=
  match w.op with
  | .ldf e => e
  | .stf _ _ | .feset _ => true
/-- R448: no shadow frame is wanting for the request. -/
def TagWaiter.roomy (s : State) (w : TagWaiter) : Bool := !w.writes || (s.shadowFor w.who.domid w.who.shadow w.pa).isSome

/-- LDF served on a full word: the answer, and the word emptied with .e; poison fails and changes nothing. -/
def State.ldfServe (s : State) (w : TagWaiter) (empty : Bool) (pos : Nat) : State :=
  let v := s.viewOf w.who.domid w.who.shadow w.pa
  if s.poisoned v w.n then s.reply w.who pos kData (.fail 0x0A)
  else
    let s0 := (s.shadowFor w.who.domid w.who.shadow w.pa).getD s
    let s1 := if empty then s0.setTag (s0.viewOf w.who.domid w.who.shadow w.pa) false else s
    s1.reply w.who pos kData (.value (BitVec.ofNat 64 (s.peek v w.n)))

/-- STF performed: the data written and the tag full. -/
def State.stfServe (s : State) (w : TagWaiter) (d : Word) (pos : Nat) : State :=
  (s.performFor w.who.domid w.who.shadow w.pa w.n d.toNat true).reply w.who pos kAck .ok

/-- A waiter is removed from the list of its home. -/
def State.dropTagWaiter (s : State) (cl : Nat) (w : TagWaiter) : State :=
  s.modCluster cl (fun c => { c with tagWait := c.tagWait.erase w })

/-- R333: the home of a word serves its waiters: on a full word the LDF waiters in list order until one empties it, on an
empty word the first STF.e waiter. A stale waiter is discarded when it would be served. `fuel` bounds the list. -/
def State.serveTags (s : State) (cl : Nat) (word : Nat) (pos : Nat) : Nat → State
  | 0 => s
  | fuel + 1 =>
    let full := s.tagFull word
    match (s.cluster cl).tagWait.find? (fun w => decide (w.loc s = word) && (w.isLdf == full) && w.roomy s) with
    | none => s
    | some w =>
      let s1 := s.dropTagWaiter cl w
      let s2 :=
        if !s.isLive cl w.who.domid w.who.cin then s1
        else match w.op with
          | .ldf e => s1.ldfServe w e pos
          | .stf _ d => s1.stfServe w d pos
          | .feset _ => s1
      State.serveTags s2 cl word pos fuel

/-- After a change of a word's tag, its waiters are served. -/
def State.tagChanged (s : State) (cl word pos : Nat) : State := s.serveTags cl word pos (s.cluster cl).tagWait.length

/-- R330, R333: waiters that can be served after writes of the core itself have set tags: of its trap records and resting
states. -/
def State.settleTags (s : State) (cl : Nat) : State :=
  match (s.cluster cl).tagWait.find? (fun w => (w.isLdf == s.tagFull (w.loc s)) && w.roomy s) with
  | none => s
  | some w => s.tagChanged cl (w.loc s) (homePos (pkgOf w.who.core) (homeOf w.pa))

/-- FESET: the tags of `n` words from `pa` upwards, in ascending order, each with its waiters served (R334). -/
def State.setTags (s : State) (cl : Nat) (who : Asker) (full : Bool) (pos pa : Nat) : Nat → State
  | 0 => s
  | n + 1 =>
    let s1 := (s.shadowFor who.domid who.shadow pa).getD s
    let v := s1.viewOf who.domid who.shadow pa
    State.setTags ((s1.setTag v full).tagChanged cl v pos) cl who full pos (pa + 8) n

/-- What becomes of a tag request that reaches its home: served, or kept as a waiter, or neither for want of room (R333) or
of a shadow frame (R448). -/
def State.tagRequest (s : State) (cl pos : Nat) (w : TagWaiter) : Option State :=
  let v := w.loc s
  let join := s.orWait w.who (decide ((s.cluster cl).tagWait.length < 64)) (s.modCluster cl (fun c => { c with tagWait := c.tagWait ++ [w] }))
  match w.op with
  | .ldf e =>
    if !s.tagFull v then join
    else if !w.roomy s then none
    else
      let s1 := s.ldfServe w e pos
      some (s1.tagChanged cl (w.loc s1) pos)
  | .stf wait d =>
    if (s.shadowFor w.who.domid w.who.shadow w.pa).isNone then none
    else if wait && s.tagFull v then join
    else
      let s1 := s.stfServe w d pos
      some (s1.tagChanged cl (w.loc s1) pos)
  | .feset full =>
    if (s.shadowFor w.who.domid w.who.shadow w.pa).isNone then none
    else some ((s.setTags cl w.who full pos w.pa w.n).reply w.who pos kAck .ok)

/-- R333: an LDF, STF or FESET request arrives at its home. -/
def execTagRequestAtHome (msg : Nat) (s : State) : Host.Outcome State Fault Refusal :=
  .next (s.atHome msg fun s m => match m.body with
    | .tagw who op pa n => s.tagRequest (clusterOf m.ldest) m.ldest ⟨who, op, pa, n⟩
    | _ => none)

/-! ### Atomics (R337 to R340) -/

/-- The signed reading of the low `n` bytes. -/
def sgn (x : Word) (n : Nat) : Int := (extend x n true).toInt

/-- R337: the new value that an atomic computes from the old one; none: no write. -/
def AtomOp.app (o : AtomOp) (n : Nat) (old b c : Word) : Option Word :=
  match o with
  | .add => some (lowOf (old + b))
  | .log .and => some (old &&& b)
  | .log .or => some (old ||| b)
  | .log .xor => some (old ^^^ b)
  | .log .andn => some (lowOf (old &&& ~~~b))
  | .mnx .min => some (if sgn old n ≤ sgn b n then old else b)
  | .mnx .max => some (if sgn b n ≤ sgn old n then old else b)
  | .mnx .minn => some (if old.ule b then old else b)
  | .mnx .maxn => some (if b.ule old then old else b)
  | .xchg => some b
  | .cas => if old = c then some b else none
  | .fadd =>
    let f := if n = 4 then f32Fmt else f64Fmt
    some (BitVec.ofNat 64 (f.finish .rne 0 (addNum .rne (f.value old.toNat) (f.value b.toNat))).1)
where
  /-- The low `n` bytes of a result. -/
  lowOf (x : Word) : Word := extend x n false

/-- R338, R339: an atomic executes at its home and its answer leaves; none while its shadow frame is wanting (R448). -/
def State.atomic (s : State) (r : AtomReq) (pos : Nat) : Option State :=
  match s.shadowFor r.who.domid r.who.shadow r.pa with
  | none => none
  | some s1 =>
    let v := s1.viewOf r.who.domid r.who.shadow r.pa
    if s1.poisoned v r.n then some (s.reply r.who pos kData (.fail 0x0A))
    else
      let old := BitVec.ofNat 64 (s1.peek v r.n)
      let s2 := match r.op.app r.n old r.b r.c with
        | some x => s1.perform v r.n x.toNat false
        | none => s1
      some (s2.reply r.who pos kData (.value old))

/-- Requests that a bank holds. (DESIGN CHOICE: log entry 13) -/
def State.bankLoad (s : State) (cl pa : Nat) : Nat :=
  (((s.cluster cl).atoms ++ (s.cluster cl).proxies.map Prod.snd).filter (fun r => decide (Config.bankOf r.pa = Config.bankOf pa))).length
/-- R337: a bank takes up to 32 pending reservations. (DESIGN CHOICE: log entry 13) -/
def State.bankRoom (s : State) (cl pa : Nat) : Bool := decide (s.bankLoad cl pa < 32)
/-- R144, R337: a proxy continuation enters the run queue of its home; none when its bank or the park region is full. A deck
position without cores has no run queue: there the request goes to its bank. (DESIGN CHOICE: log entry 13) -/
def State.enterProxy (s : State) (cl : Nat) (r : AtomReq) : Option State :=
  if !s.bankRoom cl r.pa then none
  else if (clusterCores cl).isEmpty then some (s.modCluster cl (fun c => { c with atoms := c.atoms ++ [r] }))
  else if s.parkFull cl then none
  else some (s.modCluster cl (fun c => { c with proxies := c.proxies ++ [(s.nextId, r)] })).bumpId
/-- A request joins the queue of its bank. -/
def State.reserve (s : State) (cl : Nat) (r : AtomReq) : State := s.modCluster cl (fun c => { c with atoms := c.atoms ++ [r] })

/-- R337: a proxy continuation enters the run queue of its home; a full bank bounces it. -/
def execProxyContinuation (msg : Nat) (s : State) : Host.Outcome State Fault Refusal :=
  .next (s.atHome msg fun s m => match m.body with
    | .proxy r => match homeOf r.pa with
      | .host => none
      | _ => s.enterProxy (clusterOf m.ldest) r
    | _ => none)

/-- R337: the bank that holds a word grants the reservation to the first request for the word, which executes. -/
def State.grant (s : State) (addr : Nat) : State :=
  match s.clusters.find? (fun p => p.2.atoms.any (fun r => decide (wordOf r.pa = wordOf addr))) with
  | none => s
  | some (cl, c) =>
    match c.atoms.find? (fun r => decide (wordOf r.pa = wordOf addr)) with
    | none => s
    | some r =>
      let s1 := s.modCluster cl (fun c => { c with atoms := c.atoms.erase r })
      if !s.isLive cl r.who.domid r.who.cin then s1
      else (s1.atomic r (homePos (pkgOf r.who.core) (homeOf r.pa))).getD s
/-- R337, R338. -/
def execAtomicReservationGrant (addr : Nat) (s : State) : Host.Outcome State Fault Refusal := .next (s.grant addr)

/-! ### Atomics on host memory (R340, R458, R459) -/

/-- A 64-byte ring entry of the device, word 0 of which holds the type, a sequence number and an argument (R458). -/
def ringWord (ty : Nat) (seq : Nat) (arg : Nat) : Word := BitVec.ofNat 64 (ty * 72057594037927936 + seq % 65536 * 4294967296 + arg % 4294967296)

/-- R458: a device-to-host ring is full when its tail is one entry behind its head. -/
def Package.d2hFull (p : Package) : Bool := p.d2hTail + 1 == p.d2hHead

/-- R458: an entry is written into the device-to-host ring, then D2HTAIL, and vector 0 is signalled; a full ring holds the
message back. -/
def State.toHost (s : State) (pkg : Nat) (ws : List Word) : State :=
  let p := s.pkg pkg
  if p.d2hFull || !p.d2hHeldBack.isEmpty then s.setPkg pkg { p with d2hHeldBack := p.d2hHeldBack ++ [ws] }
  else
    let a := hostBase + p.d2hBase.toNat + 64 * p.d2hTail.toNat
    let s1 := (List.range 8).foldl (fun s i => s.perform (a + 8 * i) 8 (ws.getD i 0).toNat false) s
    s1.setPkg pkg { p with d2hTail := p.d2hTail + 1, msix := p.msix + 1 }

/-- The agent's number of an operation (R458). -/
def AtomOp.agentCode : AtomOp → Nat
  | .add => 0
  | .xchg => 1
  | .cas => 2
  | .log .and => 3
  | .log .or => 4
  | .log .xor => 5
  | .log .andn => 6
  | .mnx .min => 7
  | .mnx .max => 8
  | .mnx .minn => 9
  | .mnx .maxn => 10
  | .fadd => 11

/-- Operations that become PCI Express AtomicOps (R340). -/
def AtomOp.pcie : AtomOp → Bool
  | .add | .xchg | .cas => true
  | .log _ | .mnx _ | .fadd => false

/-- R340: the port passes an operation to the registered agent, or the requester traps HOSTATOM. -/
def State.toAgent (s : State) (pos : Nat) (r : AtomReq) : State :=
  let p := pkgOf pos
  if !(s.pkg p).agent then s.reply r.who pos kData (.fail 0x0C)
  else
    let id := s.nextId
    (s.bumpId.modPkg p (fun x => { x with agentReqs := x.agentReqs ++ [(id, r, s.timeNs)] })).toHost p
      [ringWord 5 id (r.op.agentCode + (if r.n = 8 then 256 else 0)), BitVec.ofNat 64 (r.pa - hostBase), r.b, r.c]

/-- R340: an atomic on host memory at the port cluster. The completer's answer is the host's: the old value (which the
completer has replaced by the new one), Unsupported Request, or an abort. -/
def execHostAtomic (msg : Nat) (answer : HostAnswer) (s : State) : Host.Outcome State Fault Refusal :=
  .next (s.atHome msg fun s m => match m.body with
    | .proxy r => match homeOf r.pa with
      | .host =>
        some (if !r.op.pcie then s.toAgent m.ldest r
          else match answer with
            | .unsupported => s.toAgent m.ldest r
            | .abort => s.reply r.who m.ldest kData (.fail 0x0D)
            | .value old =>
              let o := extend old r.n false
              let s1 := match r.op.app r.n o r.b r.c with
                | some x => s.perform r.pa r.n x.toNat false
                | none => s.poke r.pa r.n o.toNat
              s1.reply r.who m.ldest kData (.value o))
      | _ => none
    | _ => none)

/-- R459: the agent has not answered within 100 ms: HOSTERR at the requesting instruction. -/
def execAgentTimeout (req : Nat) (s : State) : Host.Outcome State Fault Refusal :=
  .next <| match s.packages.find? (fun p => p.2.agentReqs.any (fun q => decide (q.1 = req))) with
    | none => s
    | some (k, p) =>
      match p.agentReqs.find? (fun q => decide (q.1 = req)) with
      | none => s
      | some (_, r, t0) =>
        if t0 + 100000000 ≤ s.timeNs then
          (s.setPkg k { p with agentReqs := p.agentReqs.filter (fun q => decide (q.1 ≠ req)) }).reply r.who
            (homePos k .host) kData (.fail 0x0D)
        else s

/-! ### Channel objects (R70 to R72, R358 to R360, R454) -/

/-- The three kinds of channel object. -/
inductive ChanKind | stack | bag | queue
deriving DecidableEq, Repr

/-- R64: the TYPE of a kind. -/
def ChanKind.typ : ChanKind → Nat
  | .stack => 0xFFFF0
  | .bag => 0xFFFF1
  | .queue => 0xFFFF2

/-- The kind and capacity of a channel object's header (R70); none when it is not one, or its capacity is below 1. -/
def chanOf (hdr : Word) : Option (ChanKind × Nat) :=
  let ty := (hdr.extractLsb' 44 20).toNat
  let size := (hdr.extractLsb' 20 24).toNat
  ([ChanKind.stack, .bag, .queue].find? (fun k => decide (k.typ = ty))).bind (fun k => if 3 ≤ size then some (k, size - 2) else none)

/-- How an operation on a channel object ends at the home: it executes, it fails, or it cannot execute yet. -/
inductive ChanRes
  | done (s : State) (a : Ans)
  | fail (cause : BitVec 8)
  | blocked

/-- The word of an object that a request's context sees. -/
def State.objWord (s : State) (who : Asker) (pa : Nat) : Word := s.peekW (s.viewOf who.domid who.shadow pa)
/-- The word is poisoned. -/
def State.objBad (s : State) (who : Asker) (pa : Nat) : Bool := s.poisoned (s.viewOf who.domid who.shadow pa) 8
/-- A word of an object is written; tags stay (R454). -/
def State.objSet (s : State) (who : Asker) (pa : Nat) (x : Nat) : State := s.performFor who.domid who.shadow pa 8 x false

/-- CHINIT's control word (R359): kind and capacity. -/
def chinitOf (ctl : Word) : Option (ChanKind × Nat) :=
  let cap := (ctl.extractLsb' 0 24).toNat
  if ctl.extractLsb' 26 38 != 0 || decide (cap < 1) || decide (16777213 < cap) then none
  else match (ctl.extractLsb' 24 2).toNat with
    | 0 => some (.stack, cap)
    | 1 => some (.bag, cap)
    | 2 => some (.queue, cap)
    | _ => none

/-- R454: a PUSH of `x` onto an object that holds `count` of `cap` values. -/
def State.pushObj (s : State) (w : ChanWaiter) (k : ChanKind) (cap count head : Nat) (x : Word) : ChanRes :=
  let slot := match k with
    | .queue => (head % cap + count) % cap
    | .stack | .bag => count
  let a := w.pa + 24 + 8 * slot
  if cap ≤ count then .blocked
  else if s.objBad w.who a then .fail 0x0A
  else .done ((s.objSet w.who a x.toNat).objSet w.who (w.pa + 8) (count + 1)) .ok

/-- R454: a POP. The slot that a BAG gives is a free choice among the held ones (R71). -/
def State.popObj (s : State) (w : ChanWaiter) (k : ChanKind) (cap count head : Nat) : ChanRes :=
  if count = 0 then .blocked
  else
    let slot := match k with
      | .stack => count - 1
      | .bag => Config.freeNat s.free % count
      | .queue => head % cap
    let a := w.pa + 24 + 8 * slot
    let last := w.pa + 24 + 8 * (count - 1)
    if s.objBad w.who a || (decide (k = .bag) && s.objBad w.who last) then .fail 0x0A
    else
      let v := s.objWord w.who a
      let s1 := match k with
        | .stack => s.objSet w.who (w.pa + 8) (count - 1)
        | .bag => (if slot = count - 1 then s.bumpFree else s.bumpFree.objSet w.who a (s.objWord w.who last).toNat).objSet w.who
            (w.pa + 8) (count - 1)
        | .queue => (s.objSet w.who (w.pa + 8) (count - 1)).objSet w.who (w.pa + 16) ((head % cap + 1) % cap)
      .done s1 (.popr v w.pa)

/-- R358 to R360, R72: an operation executes at the home of the header, if it can. A poisoned COUNT, or HEAD of a QUEUE, ends it
like a poisoned header; HEAD is the whole word, taken modulo CAP. (DESIGN CHOICE: log entry 93) -/
def State.chanDo (s : State) (w : ChanWaiter) : ChanRes :=
  if (s.shadowFor w.who.domid w.who.shadow w.pa).isNone then .blocked
  else match w.op with
    | .init ctl =>
      match chinitOf ctl with
      | none => .blocked
      | some (k, cap) =>
        .done (s.performFor w.who.domid w.who.shadow w.pa 24 (k.typ * 17592186044416 + (cap + 2) * 1048576) true) .ok
    | op =>
      if s.objBad w.who w.pa then .fail 0x0A
      else match chanOf (s.objWord w.who w.pa) with
      | none => .fail 0x1A
      | some (k, cap) =>
        if w.pr && decide (k = .queue) then .fail 0x1A
        else if s.objBad w.who (w.pa + 8) || (decide (k = .queue) && s.objBad w.who (w.pa + 16)) then .fail 0x0A
        else
          let count := Nat.min (s.objWord w.who (w.pa + 8)).toNat cap
          let head := (s.objWord w.who (w.pa + 16)).toNat
          match op with
          | .push x => s.pushObj w k cap count head x
          | _ => s.popObj w k cap count head

/-- The kind of the answer to an operation (R383). -/
def ChanOp.ackKind : ChanOp → BitVec 6
  | .push _ => kPusha
  | .pop => kPopr
  | .init _ => kAck

/-- R360: after an operation the home serves the object's waiters in arrival order for as long as the first of them can
execute; a stale waiter is discarded when it would be served. -/
def State.serveChan (s : State) (cl pos obj : Nat) : Nat → State
  | 0 => s
  | fuel + 1 =>
    match (s.cluster cl).chanWait.find? (fun w => decide (s.viewOf w.who.domid w.who.shadow w.pa = obj)) with
    | none => s
    | some w =>
      let s1 := s.modCluster cl (fun c => { c with chanWait := c.chanWait.erase w })
      if !s.isLive cl w.who.domid w.who.cin then
        match s.chanDo w with
        | .blocked => s
        | _ => State.serveChan s1 cl pos obj fuel
      else match s.chanDo w with
        | .blocked => s
        | .fail c => State.serveChan (s1.reply w.who pos w.op.ackKind (.fail c)) cl pos obj fuel
        | .done _ _ =>
          match s1.chanDo w with
          | .done s2 a => State.serveChan (s2.reply w.who pos w.op.ackKind a) cl pos obj fuel
          | _ => s

/-- An operation reaches the home: it executes and the waiters are served, those of the words that CHINIT makes full among them
(R333, R359), or it joins the waiters, of which a cluster holds up to 64 (R360). -/
def State.chanRequest (s : State) (cl pos : Nat) (w : ChanWaiter) : Option State :=
  let waits := (s.cluster cl).chanWait
  let join := s.orWait w.who (decide (waits.length < 64)) (s.modCluster cl (fun c => { c with chanWait := c.chanWait ++ [w] }))
  match s.chanDo w with
  | .fail c => some (s.reply w.who pos w.op.ackKind (.fail c))
  | .blocked => match w.op with
    | .init _ => none
    | _ => join
  | .done s1 a =>
    let obj := s1.viewOf w.who.domid w.who.shadow w.pa
    let s2 := match w.op with
      | .init _ => [0, 8, 16].foldl (fun (s : State) k => s.tagChanged cl (wordOf (obj + k)) pos) s1
      | .push _ | .pop => s1
    some ((s2.reply w.who pos w.op.ackKind a).serveChan cl pos obj waits.length)

/-- R360: a PUSH, POP or CHINIT arrives at the home of its object. A push returned under R363 has an asker without a token
that anyone awaits; its answer is an orphan. -/
def execChannelOpAtHome (msg : Nat) (s : State) : Host.Outcome State Fault Refusal :=
  .next (s.atHome msg fun s m => match m.body with
    | .chan who op pa pr => s.chanRequest (clusterOf m.ldest) m.ldest ⟨who, op, pa, pr⟩
    | _ => none)

/-! ### Answers arrive (R438, R246) -/

/-- Two destinations are one register. -/
def sameReg (a b : Dest) : Bool :=
  match a, b with
  | .reg m _ _, .reg n _ _ => decide (m = n)
  | _, _ => false

/-- Fetches into one register fill it in issue order (R259): an earlier one is still outstanding. -/
def Thread.fillsLater (t : Thread) (tok : Nat) : Bool :=
  match t.await.find? (fun a => decide (a.tok = tok)) with
  | none => false
  | some a => (t.await.takeWhile (fun x => decide (x.tok ≠ tok))).any (fun x => sameReg x.dest a.dest)

/-- The thread that an answer seeks cannot take it now: an earlier fetch into the same register, or a saved context
(R425). -/
def State.holdsBack (s : State) (who : Asker) : Bool :=
  s.asks who && ((s.thread who.tid).fillsLater who.tok || (match (s.thread who.tid).place with
    | .saved _ _ => true
    | _ => false))

/-- An answer that has reached its core is taken. -/
def State.takeAnswer (s : State) (id : Nat) (ack : Bool) : State :=
  match s.arrived id with
  | none => s
  | some m => match m.body with
    | .resp who a => if decide (m.kind = kAck) != ack || s.holdsBack who then s else (s.dropMsg id).answer who a
    | _ => s

/-- R246: the acknowledgement of a store. -/
def execStoreAck (msg : Nat) (s : State) : Host.Outcome State Fault Refusal := .next (s.takeAnswer msg true)

/-! ### Watches (R345) -/

/-- R345: the home registers a watch and acknowledges it, and the asking cluster discards its candidate of the line. -/
def State.registerWatch (s : State) (who : Asker) (line pos : Nat) : State :=
  ((s.modCluster (clusterOf pos) (fun c => { c with watchers := c.watchers ++ [(line, who.tid)] })).dropCand (clusterOf who.core)
    line).reply who pos kWtch .ok
/-- R345. -/
def execWatchRegistrationAck (msg : Nat) (s : State) : Host.Outcome State Fault Refusal :=
  .next (s.atHome msg fun s m => match m.body with
    | .wtch who line => some (s.registerWatch who line m.ldest)
    | _ => none)

end Sys2Proof.Machine
end

