-- ==== Sys2Proof/Machine/Memory.lean ====
section
/-! DEFINITION. LD, ST, FETCH, PREF, MIGR, HOME and CORD (10: R259 to R263). -/

namespace Sys2Proof.Machine

/-! ### Loads -/

/-- A fetched access (R244, R246, R259): served by a candidate line, or sent to the home; gd is empty until it arrives. -/
def State.fetchAt (s : State) (tid : Nat) (d : Reg) (a : Word) (pa n : Nat) (x : Bool) (leaf : Option Word) (keep : Bool) : Res :=
  let t := s.thread tid
  if t.storing pa n then .wait (.ownStore pa) false a
  else if s.paired t && t.gated.any (fun g => decide (g.pa < pa + n ∧ pa < g.pa + g.n)) then .wait .exchange false 0
  else match if leafShadow leaf || t.awaited d then none else s.candidate t a n with
    | some v => .ok ({ s with free := s.free + 1 }.write tid d (extend (BitVec.ofNat 64 v) n x))
    | none =>
      .ok (({ s with free := s.free + 1 }.sendRead tid (destOf d n x) a pa n (leafShadow leaf) keep).modThread tid
        (fun t => t.empty d))

/-- A load performed at its home by a thread that stands there (R259): a register that awaits a response is waited for
(R164). -/
def State.loadLocal (s : State) (tid : Nat) (d : Reg) (a : Word) (pa n : Nat) (x : Bool) (leaf : Option Word) : Res :=
  let t := s.thread tid
  if t.awaited d then .wait (.reg [regNum d]) true (BitVec.ofNat 64 (regNum d))
  else if s.poisoned (s.viewOf t.domid (leafShadow leaf) pa) n then .trap cPoison a
  else .ok (s.write tid d (extend (BitVec.ofNat 64 (s.view t (leafShadow leaf) pa n)) n x))

/-- A LD after its checks (R244). -/
def State.loadAt (s : State) (tid : Nat) (d : Reg) (a : Word) (pa n : Nat) (x : Bool) (leaf : Option Word) (keep : Bool) : Res :=
  let t := s.thread tid
  if homeLocal t.core (homeOf pa) then s.loadLocal tid d a pa n x leaf
  else if migrates t (homeOf pa) leaf true then s.goHome tid (homeOf pa) 0
  else s.fetchAt tid d a pa n x leaf keep

/-- What a memory instruction needs. -/
def memNeed (srcs : List Src) (reads dests : List Reg) (outside : Bool) : Need :=
  { ext := .base, srcs := srcs, reads := reads, dests := dests, outside := outside }

/-- R259. -/
def execLd (g : Guard) (z : Size) (x : Bool) (d : Reg) (m : MemOp) (s : State) : Host.Outcome State Fault Refusal :=
  run s g { memNeed (MemOp.srcs m) [] [] false with fills := [d] } fun s t =>
    s.access s.cur (MemOp.ea t m) (Size.bytes z) .load fun s1 pa leaf =>
      s1.loadAt s.cur d (MemOp.ea t m) pa (Size.bytes z) x leaf (m.sp != 1)

/-- R259: FETCH never migrates; a local address is filled at once, with an error mark when it is poisoned (R258). -/
def execFetch (g : Guard) (z : Size) (x : Bool) (d : Reg) (m : MemOp) (s : State) : Host.Outcome State Fault Refusal :=
  run s g { memNeed (MemOp.srcs m) [] [] false with fills := [d] } fun s t =>
    s.access s.cur (MemOp.ea t m) (Size.bytes z) .load fun s1 pa leaf =>
      let n := Size.bytes z
      if homeLocal t.core (homeOf pa) then
        if t.awaited d then .wait (.reg [regNum d]) true (BitVec.ofNat 64 (regNum d))
        else if s1.poisoned (s1.viewOf t.domid (leafShadow leaf) pa) n then
          .ok (s1.modThread s.cur (fun t => { t.empty d with marks := (t.empty d).marks ++ [⟨regNum d, 0x0A, MemOp.ea t m⟩] }))
        else .ok (s1.write s.cur d (extend (BitVec.ofNat 64 (s1.view t (leafShadow leaf) pa n)) n x))
      else s1.fetchAt s.cur d (MemOp.ea t m) pa n x leaf (m.sp != 1)

/-- R260: the line may be held as a candidate; nothing else happens, and no fault. -/
def execPref (g : Guard) (m : MemOp) (s : State) : Host.Outcome State Fault Refusal :=
  run s g (memNeed (MemOp.srcs m) [] [] false) fun s t =>
    match s.resolve t.ctx (MemOp.ea t m) .load with
    | (s1, .at pa leaf) =>
      if !homeLocal t.core (homeOf pa) && !leafShadow leaf && Config.useCandidate s1.free then
        .ok ({ s1 with free := s1.free + 1, nextId := s1.nextId + 1 }.fillCand t.cluster (lineOf (MemOp.ea t m).toNat) (lineOf pa)
          (s1.peek (lineOf pa) 128) s1.nextId (!s1.poisoned (lineOf pa) 128))
      else .ok { s1 with free := s1.free + 1 }
    | (_, .fail _) => .ok s
    | (_, .absent) => .ok s

/-! ### Stores -/

/-- A ST after its checks (R244): performed or sent to the home, or the thread migrates; an empty shadow reserve stalls the
writer (R448), a full gated buffer asks for an exchange (R430). -/
def State.storeAt (s : State) (tid : Nat) (a : Word) (pa n : Nat) (leaf : Option Word) (v : Word) (base : Reg) : Res :=
  let t := s.thread tid
  if !homeLocal t.core (homeOf pa) && migrates t (homeOf pa) leaf false then s.goHome tid (homeOf pa) 0
  else if (s.shadowFor t.domid (leafShadow leaf) pa).isNone then .gone (s.pageFault tid a 1)
  else if s.paired t && gateFull t then .wait .exchange false 0
  else .ok ((s.storeOrGate tid pa n (leafShadow leaf) v).stackStore tid base)

/-- The store of STL, which a paired core performs at once after its exchange (R335, R429). -/
def State.storeNow (s : State) (tid : Nat) (a : Word) (pa n : Nat) (leaf : Option Word) (v : Word) (base : Reg) : Res :=
  let t := s.thread tid
  if !homeLocal t.core (homeOf pa) && migrates t (homeOf pa) leaf false then s.goHome tid (homeOf pa) 0
  else if (s.shadowFor t.domid (leafShadow leaf) pa).isNone then .gone (s.pageFault tid a 1)
  else .ok ((s.store tid pa n (leafShadow leaf) v).stackStore tid base)

/-- The low `n` bytes of a word. -/
def lowBytes (v : Word) (n : Nat) : Word := extend v n false

/-- R259: the data register is read without take. -/
def execSt (g : Guard) (z : Size) (d : Reg) (m : MemOp) (s : State) : Host.Outcome State Fault Refusal :=
  run s g (memNeed (MemOp.srcs m) [d] [] false) fun s t =>
    s.access s.cur (MemOp.ea t m) (Size.bytes z) .store fun s1 pa leaf =>
      s1.storeAt s.cur (MemOp.ea t m) pa (Size.bytes z) leaf (lowBytes (t.reg d) (Size.bytes z)) m.base.reg

/-! ### MIGR, HOME, CORD -/

/-- R261. -/
def execMigr (g : Guard) (a : Src) (s : State) : Host.Outcome State Fault Refusal :=
  run s g { ext := .base, srcs := [a] } fun s t =>
    let p := t.reg a.reg
    if t.anc then .trap 0x02 s.iword
    else if a.reg.isZ then .ok s
    else if !s.coreOperand p then .trap cDescbad p
    else if p.toNat = t.core then .ok s
    else if (s.cluster (clusterOf p.toNat)).fen then .trap 0x0E p
    else if s.sendOverflow t.core then .trap 0x0F p
    else
      match s.migrate s.cur p.toNat false 2 0 (t.pc + 8) with
      | .gone s1 =>
        if (s1.thread s.cur).inSlot then .gone s1
        else .gone ((s1.modThread s.cur (fun x => { (if a.take then x.setFull a.reg false else x) with retired := x.retired + 1 })).rest s.cur)
      | r => r

/-- The physical address that a virtual one names, whatever the rights (R262). -/
def State.locate (s : State) (c : Ctx) (va : Word) : Option Nat :=
  if va.extractLsb' 56 8 != 0 then none
  else if bit va 55 then
    match s.window { c with sup := true, tframe := 0 } va.toNat with
    | .fail f => if f = cNomap then none else some va.toNat
    | _ => some va.toNat
  else match s.walk va.toNat with
    | .leaf e size => some ((if pteHost e then hostBase else 0) + pteFrame e + va.toNat % size)
    | .fail _ => none

/-- R262: the value of HOME. -/
def State.homeWord (s : State) (t : Thread) (va : Word) : Word :=
  let r := (s.resolve t.ctx va .load).2
  let why : Nat := match r with
    | .at _ _ => 0
    | .absent => 3
    | .fail c => if c = cNomap then 1 else if c = cProt then 2 else if c = cXlate then 4 else if c = cCmpr then 5 else 0
  let leaf := match r with
    | .at _ l => l
    | _ => none
  let pa := match r with
    | .at p _ => some p
    | _ => s.locate t.ctx va
  let how : Nat :=
    if why ≠ 0 then 3
    else match pa with
      | some p => if homeLocal t.core (homeOf p) then 0 else if migrates t (homeOf p) leaf true then 1 else 2
      | none => 2
  let pos : Nat := if why = 1 ∨ why = 4 then 0 else match pa with
    | some p => homePos (pkgOf t.core) (homeOf p)
    | none => 0
  BitVec.ofNat 64 (why * 1048576 + how * 262144 + pos)

/-- R262: HOME accesses nothing and never faults. -/
def execHome (g : Guard) (d : Reg) (a : Src) (s : State) : Host.Outcome State Fault Refusal :=
  run s g { ext := .base, srcs := [a], dests := [d] } fun s t =>
    .ok ({ s with free := s.free + 2 }.write s.cur d (s.homeWord t (t.reg a.reg)))

/-- R263: own position with slot and core kind. -/
def ownCord (t : Thread) (level : Bool) : Word :=
  BitVec.ofNat 64 ((if level then toLevel t.core else t.core) + t.slot * 262144 + (if isPylon t.core then 2097152 else 0))

/-- R263. -/
def execCord (g : Guard) (d : Reg) (op : CordOp) (s : State) : Host.Outcome State Fault Refusal :=
  run s g { ext := .base, dests := [d], srcs := match op with
      | .own | .ownL => []
      | .cl a | .lc a => [a] } fun s t =>
    match op with
    | .own => .ok (s.write s.cur d (ownCord t false))
    | .ownL => .ok (s.write s.cur d (ownCord t true))
    | .cl a =>
      let p := t.reg a.reg
      if posValid p.toNat then .ok (s.write s.cur d (BitVec.ofNat 64 (toLevel p.toNat))) else .trap cDescbad p
    | .lc a =>
      let p := t.reg a.reg
      if levelValid p.toNat then .ok (s.write s.cur d (BitVec.ofNat 64 (ofLevel p.toNat))) else .trap cDescbad p

end Sys2Proof.Machine
end

