-- ==== Sys2Proof/Machine/Arrive.lean ====
section
/-! DEFINITION. Contexts arriving in slots and leaving them: compatible slots and the run queue (R91, R144, R145), fresh
tags and trap frames (R110, R408), the release of what a thread holds when it ends (R103, R153, R344, R352, R214), and
phases of barriers (R352). -/

namespace Sys2Proof.Machine

/-! ### Slots (R91, R145) -/

/-- The slot takes contexts of a kind: anchored ones in slots 0 to 3 of a compute core, roaming ones in slots 0 to 6 of a
compute core or 0 to 3 of a pylon core. -/
def slotTakes (core slot : Nat) (anchored : Bool) : Bool :=
  if isPylon core then !anchored && decide (slot < 4) else if anchored then decide (slot < 4) else decide (slot < 7)

/-- The odd core of a pair runs the even core's contexts and takes none of its own (R428, R429). -/
def Core.oddOfPair (c : Core) : Bool := c.pair.any (fun p => !p.2)
/-- The cluster is stopped by a gang switch that has not ended (R423). -/
def State.stopped (s : State) (cl : Nat) : Bool := s.gangs.any (fun g => !g.done && g.stopped.contains cl)

/-- R423: the cluster is armed for a gang switch whose time has come. -/
def State.stopping (s : State) (cl : Nat) : Bool :=
  match (s.cluster cl).armed with
  | some id => s.gangs.any (fun g => decide (g.id = id ∧ g.time ≤ (s.timeAt (cl / 64)).toNat))
  | none => false

/-- The slot is free and may receive a context in this cycle. -/
def State.slotOpen (s : State) (core slot : Nat) : Bool :=
  let c := s.core core
  (s.occupant core slot).isNone && !c.disabled.contains slot && decide (c.marked ≠ some slot) && !c.freed.contains (slot, s.now core)

/-- The slots of a core in the order in which a kind takes them: anchored from the lowest, roaming from the highest. -/
def slotOrder (core : Nat) (anchored : Bool) : List Nat :=
  let l := (slotsOf core).filter (fun k => slotTakes core k anchored)
  if anchored then l else l.reverse

/-- R145: the slot that an arrival on a core would get. A marginal core receives none (R480). (DEDUCED: log entry 85) -/
def State.freeSlot (s : State) (core : Nat) (anchored : Bool) : Option Nat :=
  if (s.core core).marginal || (s.core core).oddOfPair || s.stopped (clusterOf core) then none else (slotOrder core anchored).find? (s.slotOpen core)

/-- The earlier of two run-queue entries: by class, then by arrival (R144, R145). -/
def earlier (a b : Nat × Thread) : Nat × Thread :=
  if a.2.prio.toNat < b.2.prio.toNat ∨ (a.2.prio = b.2.prio ∧ a.2.seq ≤ b.2.seq) then a else b

/-- A run-queue entry is of the anchored kind (R144). -/
def Thread.queuedAnchored (t : Thread) : Bool :=
  match t.place with
  | .runq _ _ a => a
  | _ => false

/-- R145: the entry that a slot of a core takes next: the oldest of the lowest class that targets the core, or any, and
whose kind the slot accepts. -/
def State.bestEntry (s : State) (core slot : Nat) : Option (Nat × Thread) :=
  match s.threads.filter (fun p => match p.2.place with
    | .runq cl target anchored =>
      decide (cl = clusterOf core) && (decide (target = none) || decide (target = some core)) && slotTakes core slot anchored
    | _ => false) with
  | [] => none
  | a :: r => some (r.foldl earlier a)

/-- A slot marked for displacement keeps its thread: one that is anchored is never disabled (R148). -/
def Core.keepSlot (c : Core) (k : Nat) : Core := if c.marked = some k then { c with marked := none } else c

/-- A context enters a slot and loads for four cycles (R140); a thread that waited to be anchored is (R155). -/
def State.enterSlot (s : State) (tid core slot : Nat) : State :=
  let s1 := s.modThread tid (fun t =>
    let t1 := { t with place := .slot core slot, cycAt := s.now core }
    if t.wait = some .anch then
      { t1 with anc := true, v := Vector.replicate 32 0, m := Vector.replicate 8 0, vFull := BitVec.allOnes 32, mFull := BitVec.allOnes 8 }
    else t1)
  s1.modCore core (fun c => { c with loading := (slot, s.now core + 4) :: c.loading.filter (fun p => decide (p.1 ≠ slot)) })

/-- R144, R145: the first proxy continuation of a cluster's run queue: by class, then by arrival. -/
def State.firstProxy (s : State) (cl : Nat) : Option (Nat × AtomReq) :=
  match (s.cluster cl).proxies with
  | [] => none
  | p :: r => some (r.foldl (fun a b => if b.2.who.pri.toNat < a.2.who.pri.toNat then b else a) p)
/-- R337: a proxy continuation is placed in a free slot of the home, where it asks for its reservation; it gives the slot up
with its answer. A thread of the run queue that stands before it takes the slot first. (DESIGN CHOICE: log entry 13) -/
def State.placeProxy (s : State) (cl : Nat) : State :=
  match s.firstProxy cl with
  | none => s
  | some (n, r) =>
    match (clusterCores cl).findSome? (fun k => match s.freeSlot k false with
      | some slot => match s.bestEntry k slot with
        | some e => if r.who.pri.toNat < e.2.prio.toNat ∨ (r.who.pri = e.2.prio ∧ n < e.2.seq) then some (k, slot) else none
        | none => some (k, slot)
      | none => none) with
    | none => s
    | some (k, slot) =>
      (s.modCluster cl (fun c => { c with proxies := KMap.erase c.proxies n, atoms := c.atoms ++ [r] })).modCore k
        (fun c => c.freeSlot slot (s.now k))

/-- A context joins the run queue of a cluster behind the entries of its class; none when the park region is full. -/
def State.joinQueue (s : State) (tid cl : Nat) (target : Option Nat) (anchored : Bool) : Option State :=
  if s.parkFull cl then none
  else some (s.modThread tid (fun t => { t with place := .runq cl target anchored, seq := s.nextId })).bumpId

/-- R145: a context arrives at a cluster: into a free compatible slot when no compatible entry waits, otherwise into the run
queue; none when the arrival is refused (R144). Which core of the cluster receives it is a free choice. (DEDUCED: log entry 85) -/
def State.arrive (s : State) (tid cl : Nat) (target : Option Nat) (anchored : Bool) : Option State :=
  let direct := (match target with
    | some c => [c]
    | none => clusterCores cl).filterMap (fun c => match s.freeSlot c anchored with
      | some k => if (s.bestEntry c k).isNone then some (c, k) else none
      | none => none)
  match direct with
  | [] => s.joinQueue tid cl target anchored
  | d :: _ =>
    let pick := direct.getD (Config.freeNat s.free % direct.length) d
    some (s.bumpFree.enterSlot tid pick.1 pick.2)

/-! ### Fresh tags and frames (R110, R408, R438) -/

/-- Tags of a domain and incarnation that are in use: by its threads, and by answers and requests still on their way. -/
def State.tagsUsed (s : State) (dom : BitVec 12) (cin : BitVec 16) : List Nat :=
  (s.threads.filter (fun p => p.2.domid == dom && p.2.cin == cin && decide (p.2.place ≠ .ended))).map (fun p => p.2.tag.toNat) ++
    (s.msgs.filter (fun p => p.2.domid == dom && p.2.cin == cin)).map (fun p => p.2.tag.toNat)

/-- A fresh thread tag; which one is not architected. (DEDUCED: log entry 85) -/
def State.freshTag (s : State) (dom : BitVec 12) (cin : BitVec 16) : BitVec 16 :=
  BitVec.ofNat 16 (freshIn (s.tagsUsed dom cin) 65536 (Config.freeNat s.free % 65536))

/-- Where the pool window of a cluster begins. -/
def poolOf (cl : Nat) : Nat := poolBase + cl / 64 * 536870912 + cl % 64 * 8388608

/-- Trap frames of a cluster's park region that are in use. The first 16 are those of the scarab threads. -/
def State.framesUsed (s : State) (cl : Nat) : List Nat :=
  List.range 16 ++ (s.threads.filter (fun p => decide (p.2.place ≠ .ended) && decide (poolOf cl ≤ p.2.tframe.toNat ∧
    p.2.tframe.toNat < poolOf cl + 8388608))).map (fun p => (p.2.tframe.toNat - poolOf cl) / 512)

/-- The park region holds a free trap frame. -/
def State.frameFree (s : State) (cl : Nat) : Bool := decide ((s.framesUsed cl).dedup.length < (s.cluster cl).bnd0.toNat * 128)
/-- A fresh trap frame; which one is not architected. (DEDUCED: log entry 85) -/
def State.freshFrame (s : State) (cl : Nat) : Word :=
  BitVec.ofNat 64 (poolOf cl + 512 * freshIn (s.framesUsed cl) ((s.cluster cl).bnd0.toNat * 128)
    (Config.freeNat (s.free + 1) % ((s.cluster cl).bnd0.toNat * 128)))

/-- A new thread gets its tag and frame in a cluster. -/
def State.equip (s : State) (tid cl : Nat) : State :=
  { (s.modThread tid (fun t => { t with tag := s.freshTag t.domid t.cin, tframe := s.freshFrame cl })) with free := s.free + 2 }

/-! ### Barriers: phases (R352) -/

/-- A barrier's record. -/
def State.barrier (s : State) (core idx : Nat) : Barrier := KMap.getD (s.core core).barriers idx {}
def State.setBarrier (s : State) (core idx : Nat) (b : Barrier) : State :=
  s.modCore core (fun c => { c with barriers := KMap.set c.barriers idx b })

/-- The waiters of a barrier are released with BRK (R354); each acquires the member rectangle's scope before it resumes
(R353). The answer to a context that a gang switch has saved travels as a flit and falls out (R424, R425). (DEDUCED: log entry 79) -/
def State.releaseWaiters (s : State) (tids : List Nat) (brk : Bool) : State :=
  tids.foldl (fun s tid =>
    let t := s.thread tid
    match t.pend, t.place, t.wait with
    | some p, .saved _ _, some (.barrier core _ _ _) =>
      s.sendFlit core t.core kStat t.domid t.cin t.tag 0 (.resp (t.asker tid p.tok false) (.value (if brk then 1 else 0)))
    | some p, _, _ => s.complete tid p (if brk then 1 else 0)
    | none, _, _ => s) s

/-- R352: after an arrival, exit, kill or drop, the phase completes when ARR ≥ min(EXP, LIVE). -/
def State.phaseCheck (s : State) (core idx : Nat) : State :=
  let b := s.barrier core idx
  if b.exp ≠ 0 ∧ Nat.min b.exp b.live ≤ b.arr then
    (s.setBarrier core idx { b with
      history := (b.brkp :: b.history).take 16, brkp := false, arr := 0, ph := b.ph + 1, waiters := [] }).releaseWaiters b.waiters b.brkp
  else s

/-- R352: a member has exited, or been killed, which sets BRKP. -/
def State.memberEnds (s : State) (killed : Bool) (m : Member) : State :=
  let b := s.barrier m.core m.idx
  if b.exp ≠ 0 && decide (b.gen = m.gen) && !m.dropped then
    (s.setBarrier m.core m.idx { b with live := b.live - 1, brkp := b.brkp || killed }).phaseCheck m.core m.idx
  else s

/-! ### The matrix engine's owner (R214) -/

/-- The thread owns the engine. -/
def Thread.owns (t : Thread) (o : MxOwner) : Bool := decide (o.slot = t.slot) && o.domid == t.domid && o.cin == t.cin && o.tag == t.tag
/-- Operations that a thread committed to an engine are incomplete. -/
def Matrix.busyFor (m : Matrix) (tid : Nat) : Bool :=
  (match m.active with
    | some c => !c.remote && decide (c.tid = tid)
    | none => false) ||
  (match m.shadow with
    | .pending c => decide (c.tid = tid)
    | _ => false) || m.ops.any (fun o => decide (o.tid = tid))
/-- Ownership ends: the previous owner is remembered and CAPV is cleared. -/
def Matrix.release (m : Matrix) : Matrix :=
  match m.owner with
  | some o => { m with owner := none, last := some (o.domid, o.cin), capv := false }
  | none => m

/-- The engine's owner has exited and no command or TACC that it committed is incomplete: ownership ends (R214). An owner that
is frozen has not exited. -/
def State.ownerGone (s : State) (core : Nat) : State :=
  let m := (s.core core).mx
  match m.owner with
  | none => s
  | some o =>
    let here := (match s.occupant core o.slot with
      | some tid => (s.thread tid).owns o
      | none => false) || s.threads.any (fun p => match p.2.place with
        | .frozen _ => p.2.domid == o.domid && p.2.cin == o.cin && p.2.tag == o.tag
        | _ => false)
    let busy := (match m.active with
        | some c => !c.remote
        | none => false) || (match m.shadow with
        | .pending _ => true
        | _ => false) || m.ops.any (fun x => x.chain.isSome)
    if here || busy then s else s.modCore core (fun c => { c with mx := m.release })

/-! ### The end of a thread -/

/-- R344, R153: the monitor record is released; a watch that stands at a home finds no record any more (R348). -/
def State.disarm (s : State) (tid : Nat) : State :=
  let s1 := s.modThread tid (fun t => { t with mon := {} })
  if (s.thread tid).mon.lines.isEmpty then s1
  else
    let mine := fun (w : Nat × Nat) => decide (w.2 = tid)
    { s1 with clusters := s1.clusters.map (fun p => (p.1, { p.2 with
        watchers := p.2.watchers.filter (fun w => !mine w)
        lapsed := p.2.lapsed ++ (p.2.watchers.filter mine).map (fun w => (w.1, (s.thread tid).recordCluster)) })) }

/-- R103: a thread of a launch has ended. -/
def State.launchEnd (s : State) (l : Option Nat) (killed : Bool) : State :=
  match l with
  | none => s
  | some id =>
    match KMap.find s.launches id with
    | none => s
    | some x =>
      let x1 := { x with alive := x.alive - 1, killed := if killed then x.killed + 1 else x.killed }
      { s with launches := KMap.set s.launches id x1 }

/-- R151: a thread that a fenced target has refused never started: its launch does not count it. -/
def State.launchUnjoin (s : State) (l : Option Nat) (tid : Nat) : State :=
  match l with
  | none => s
  | some id =>
    match KMap.find s.launches id with
    | none => s
    | some x => { s with launches := KMap.set s.launches id { x with alive := x.alive - 1, members := x.members.filter (fun m => decide (m ≠ tid)) } }

/-- R153, R441: a thread ends, by EXIT or by a kill, as one step. -/
def State.endThread (s : State) (tid : Nat) (killed : Bool) : State :=
  let t := s.thread tid
  let s1 := (t.members.foldl (fun s m => s.memberEnds killed m) (s.disarm tid)).launchEnd t.launch killed
  let s2 := s1.freeUp t
  let s3 := if scarabBase ≤ tid then s2.modThread tid (fun t => { t with place := .ended }) else s2.dropThread tid
  if t.inSlot then s3.ownerGone t.core else s3

/-! ### Leaving for the run queue (R146, R154, R155) -/

/-- A thread leaves its slot for the run queue of its cluster, with its own core as target (WHY cause 5), or any core when it is
displaced (WHY cause 4, R149); it waits first until it may leave (R81, R157). -/
def State.toQueue (s : State) (tid : Nat) (anchored : Bool) (pc : Word) (retires : Bool) (displaced : Bool := false) : Res :=
  let t := s.thread tid
  match t.marks with
  | m :: _ => .gone (s.trapMark tid m false)
  | [] =>
    if s.unagreed t then .wait .exchange false 0
    else if !t.drained then .wait .drain false 0
    else if t.asked then .wait .launches false 0
    else
      let s0 := s.modThread tid (fun t => if retires then { t.settle with pc := pc, retired := t.retired + 1 } else t)
      .gone ((s0.leave tid (.runq t.cluster (if displaced then none else some t.core) anchored)).modThread tid (fun t =>
        { t with seq := s.nextId, whyCause := if displaced then 4 else 5, resting := true })).bumpId

end Sys2Proof.Machine
end

