-- ==== Sys2Proof/Machine/Sema.lean ====
section
/-! DEFINITION. Cluster semaphores (15: R355, R356) and the clauses of engines, launches and MXSEND that watch them (R21,
R102, R230, R268). -/

namespace Sys2Proof.Machine

/-- A semaphore's record. -/
def State.sema (s : State) (cl n : Nat) : Sema := KMap.getD (s.cluster cl).sems n {}
/-- Sets a semaphore's record. -/
def State.setSema (s : State) (cl n : Nat) (x : Sema) : State := s.modCluster cl (fun c => { c with sems := KMap.set c.sems n x })

/-- The wait clause is met by the present count (R21): a threshold of 0 always is. -/
def clauseMet (c : Clauses) (count : Nat) : Bool := decide (c.wt.toNat ≤ count)
/-- A clause whose test is due at the present count of a cluster's semaphores. -/
def State.clauseHolds (s : State) (cl : Nat) (c : Clauses) : Bool := clauseMet c (s.sema cl c.ws.toNat).count.toNat

/-- The clauses of word 11 of a launch packet (R102). -/
def launchClauses (w : Word) : Clauses := ⟨w.extractLsb' 0 8, w.extractLsb' 8 6, w.extractLsb' 14 8, w.extractLsb' 22 4⟩

/-- The launch is the head of a queue of its issuing package, or of a package that it names, where its clause is tested. -/
def State.atHead (s : State) (id : Nat) : Bool :=
  s.packages.any (fun p => p.2.queues.any (fun q => decide (q.2.ready.head? = some id)))

/-- R356: at a change of COUNT every clause that waits on the semaphore is tested against the value just written; one that is
met stays met. -/
def State.testClauses (s : State) (cl n count : Nat) : State :=
  let meets := fun (c : Clauses) => decide (c.ws.toNat = n) && clauseMet c count
  let here := s.cores.map (fun p =>
    if clusterOf p.1 ≠ cl then p
    else (p.1, { p.2 with
      queues := p.2.queues.map (fun q => (q.1, { q.2 with cmds := match q.2.cmds with
        | c :: r => (if meets c.clauses then { c with met := true } else c) :: r
        | [] => [] }))
      mx := { p.2.mx with
        shadow := match p.2.mx.shadow with
          | .pending c => .pending (if meets c.clauses then { c with met := true } else c)
          | x => x
        ops := p.2.mx.ops.map (fun o => if meets o.clauses then { o with met := true } else o) } }))
  let ths := s.threads.map (fun p => match p.2.wait with
    | some (.clause k ws wt false b) =>
      if k = cl ∧ ws = n ∧ wt ≤ count then (p.1, { p.2 with wait := some (.clause k ws wt true b) }) else p
    | _ => p)
  let ls := s.launches.map (fun p =>
    if decide (p.2.cluster = cl) && s.atHead p.1 && meets (launchClauses (p.2.words.getD 11 0)) then (p.1, { p.2 with met := true }) else p)
  { s with cores := here, threads := ths, launches := ls }

/-- R356: the waiters of a semaphore are served in arrival order for as long as the head's value is reached; a stale waiter
is discarded when it would be served. -/
def State.serveSema (s : State) (cl n : Nat) : Nat → State
  | 0 => s
  | fuel + 1 =>
    let x := s.sema cl n
    match x.waiters with
    | [] => s
    | (tid, v) :: r =>
      if v ≤ x.count.toNat then
        let t := s.thread tid
        if !s.isLive cl t.domid t.cin then State.serveSema (s.setSema cl n { x with waiters := r }) cl n fuel
        else
          let s1 := (s.setSema cl n { x with count := x.count - BitVec.ofNat 16 v, waiters := r }).testClauses cl n (x.count.toNat - v)
          State.serveSema (match t.pend with
            | some p => s1.complete tid p 0
            | none => s1) cl n fuel
      else s

/-- A change of COUNT: clauses are tested, then the waiters are served (R356). -/
def State.semaChange (s : State) (cl n : Nat) (count : BitVec 16) (ovf : Bool) : State :=
  let x := s.sema cl n
  ((s.setSema cl n { x with count := count, ovf := ovf }).testClauses cl n count.toNat).serveSema cl n (x.waiters.length + 1)

/-- R21, R356: an addition saturates at 0xFFFF and then sets OVF. -/
def State.semaAdd (s : State) (cl n : Nat) (v : Nat) : State :=
  let x := s.sema cl n
  let sum := x.count.toNat + v
  s.semaChange cl n (BitVec.ofNat 16 (Nat.min sum 65535)) (x.ovf || decide (65535 < sum))

/-- R21: the signal clause of a completed command; SI = 0 changes nothing. -/
def State.signal (s : State) (cl : Nat) (c : Clauses) : State := if c.si = 0 then s else s.semaAdd cl c.ss.toNat c.si.toNat

/-- R438, R258, R224: an answer, or the signal of a remote command, reaches its core. -/
def execResponseArrival (msg : Nat) (s : State) : Host.Outcome State Fault Refusal :=
  .next <| match s.arrived msg with
    | none => s
    | some m => match m.body with
      | .signal c =>
        if s.isLive (clusterOf m.ldest) m.domid m.cin then (s.dropMsg msg).signal (clusterOf m.ldest) c else s.dropMsg msg
      | _ => s.takeAnswer msg false

/-- R355: the thread's context owns the cluster's semaphores. -/
def State.semaRight (s : State) (t : Thread) : Bool := t.sup || decide ((s.cluster t.cluster).spOwner = some t.domid)
/-- R355: the value of a semaphore instruction, which is not bounded (R139). -/
def semaValue (t : Thread) (b : Src) (v : BitVec 13) : Nat := (t.reg b.reg).toNat + v.toNat

/-- What a semaphore instruction needs. -/
def semaNeed (srcs : List Src) (dests : List Reg) : Need := { ext := .base, srcs := srcs, dests := dests, outside := true }

/-- R356. -/
def execSemi (g : Guard) (n : BitVec 8) (b : Src) (v : BitVec 13) (s : State) : Host.Outcome State Fault Refusal :=
  run s g (semaNeed [b] []) fun s t =>
    let x := semaValue t b v
    if !s.semaRight t then .trap cProt (n.setWidth 64)
    else if 65535 < x then .trap cDescbad (BitVec.ofNat 64 x)
    else .ok (s.semaChange t.cluster n.toNat (BitVec.ofNat 16 x) false)
/-- R356. -/
def execSema (g : Guard) (n : BitVec 8) (b : Src) (v : BitVec 13) (s : State) : Host.Outcome State Fault Refusal :=
  run s g (semaNeed [b] []) fun s t =>
    if !s.semaRight t then .trap cProt (n.setWidth 64) else .ok (s.semaAdd t.cluster n.toNat (semaValue t b v))
/-- R355: the state of a semaphore. -/
def Sema.word (x : Sema) : Word := BitVec.ofNat 64 ((if x.ovf then 65536 else 0) + x.count.toNat)
/-- R356. -/
def execSemr (g : Guard) (d : Reg) (n : BitVec 8) (s : State) : Host.Outcome State Fault Refusal :=
  run s g (semaNeed [] [d]) fun s t =>
    if !s.semaRight t then .trap cProt (n.setWidth 64) else .ok (s.write s.cur d (s.sema t.cluster n.toNat).word)
/-- R356: SEMW; a value of 0 completes at once. -/
def execSemw (g : Guard) (n : BitVec 8) (b : Src) (v : BitVec 13) (s : State) : Host.Outcome State Fault Refusal :=
  run s g (semaNeed [b] []) fun s t =>
    let x := semaValue t b v
    let cl := t.cluster
    let m := s.sema cl n.toNat
    if !s.semaRight t then .trap cProt (n.setWidth 64)
    else if 65535 < x then .trap cDescbad (BitVec.ofNat 64 x)
    else if x = 0 then .ok s
    else if m.waiters.isEmpty && decide (x ≤ m.count.toNat) then
      .ok (s.semaChange cl n.toNat (m.count - BitVec.ofNat 16 x) m.ovf)
    else .pend ((s.setSema cl n.toNat { m with waiters := m.waiters ++ [(s.cur, x)] }).pendOn s.cur (.sem cl n.toNat) true
      .nothing none (n.setWidth 64))

end Sys2Proof.Machine
end

