-- ==== Sys2Proof/Machine/Engine.lean ====
section
/-! DEFINITION. Accesses to ranges of memory by engines, ports and instructions that read blocks (R75, R100, R249, R285):
each range is cut at 512-byte boundaries, within which every rule of R239 to R253 gives one outcome. -/

namespace Sys2Proof.Machine

/-- The result of an access to a range: a value, a failure with its cause and address, or an absent page. -/
inductive Got (α : Type)
  | ok (s : State) (a : α)
  | bad (s : State) (cause : Nat) (va : Word)
  | absent (s : State) (va : Word)

/-- The pieces of a range between 512-byte boundaries: address and length. -/
def pieces (va n : Nat) : List (Nat × Nat) :=
  if n = 0 then [] else
    (List.range ((va % 512 + n + 511) / 512)).map (fun i =>
      let lo := Nat.max va ((va / 512 + i) * 512)
      let hi := Nat.min (va + n) ((va / 512 + i + 1) * 512)
      (lo, hi - lo))

/-- The rights of an engine that works for a context (R247: E = 1 is required). -/
def engineCtx (core : Nat) (dom : BitVec 12) (cin tag : BitVec 16) (sup : Bool) : Ctx := ⟨core, dom, cin, tag, sup, 0, true⟩
/-- The rights of the launch unit or a port that works for a context; E is not required (R100). -/
def unitCtx (core : Nat) (dom : BitVec 12) (cin tag : BitVec 16) (sup : Bool) : Ctx := ⟨core, dom, cin, tag, sup, 0, false⟩
/-- A thread's rights when an engine reads for it. -/
def Thread.engine (t : Thread) : Ctx := { t.ctx with engine := true }

/-- The home of an address lies in a fenced cofferdam that the access would have to enter (R444). -/
def State.fencedFrom (s : State) (core pa : Nat) : Bool :=
  let cl := homeCluster (pkgOf core) (homeOf pa)
  decide (cl ≠ clusterOf core) && (s.cluster cl).fen

/-- One piece read. -/
def State.readPiece (s : State) (c : Ctx) (va n : Nat) (allowC : Bool) : Got Nat :=
  let a := BitVec.ofNat 64 va
  match s.resolve c a .load allowC with
  | (s1, .fail f) => .bad s1 f a
  | (s1, .absent) => .absent s1 a
  | (s1, .at pa leaf) =>
    let q := s1.viewOf c.domid (leafShadow leaf) pa
    if s1.fencedFrom c.core pa then .bad s1 0x0E a
    else if s1.poisoned q n then .bad s1 cPoison a else .ok s1 (s1.peek q n)

/-- A range read: its bytes as a little-endian number. -/
def State.readRange (s : State) (c : Ctx) (va n : Nat) (allowC : Bool := false) : Got Nat :=
  (pieces va n).foldl (fun r p => match r with
    | .ok s1 v => match s1.readPiece c p.1 p.2 allowC with
      | .ok s2 x => .ok s2 (v + x * 256 ^ (p.1 - va))
      | .bad s2 f a => .bad s2 f a
      | .absent s2 a => .absent s2 a
    | r => r) (.ok s 0)

/-- The words of a range whose tags have changed, at the place `q` where they stand: their waiters are served in ascending
order by the home of `pa` (R333). -/
def State.tagsChanged (s : State) (core pa q n : Nat) : State :=
  let pos := homePos (pkgOf core) (homeOf pa)
  ((List.range ((q % 8 + n + 7) / 8)).map (fun i => wordOf q + 8 * i)).foldl (fun s w => s.tagChanged (clusterOf pos) w pos) s

/-- Bits of `v` where the mask is set, of `old` elsewhere. -/
def mergeBits (old v mask : Nat) : Nat := (old ^^^ (old &&& mask)) ||| (v &&& mask)

/-- R426: where a byte of a TCM or scratchpad that a gang switch has saved stands in its image. -/
def State.imageOf (s : State) (pa : Nat) : Option Nat :=
  (s.gangs.flatMap Gang.images).findSome? (fun i => if i.1 = pa / 65536 * 65536 then some (i.2.1 + pa % 65536) else none)

/-- R330, R426: saved words that a redirected write fills come back full. -/
def State.fillSaved (s : State) (pa n : Nat) : State :=
  { s with gangs := s.gangs.map (fun g => { g with empties := g.empties.filter (fun x => decide (x + 8 ≤ pa ∨ pa + n ≤ x)) }) }

/-- One piece written, of which the bits of the mask are replaced in one access (R273), with its tags full. A shadow reserve without room stalls the writer as an absent page does (R448);
a write to a byte that a gang switch has saved goes to its image (R426). -/
def State.writePiece (s : State) (c : Ctx) (va n v mask : Nat) (allowC : Bool) : Got Unit :=
  let a := BitVec.ofNat 64 va
  match s.resolve c a .store allowC with
  | (s1, .fail f) => .bad s1 f a
  | (s1, .absent) => .absent s1 a
  | (s1, .at pa leaf) =>
    if s1.fencedFrom c.core pa then .bad s1 0x0E a
    else match if c.engine then s1.imageOf pa else none with
    | some q => .ok ((s1.perform q n (mergeBits (s1.peek q n) v (mask % 256 ^ n)) true).fillSaved pa n) ()
    | none =>
    if (s1.shadowFor c.domid (leafShadow leaf) pa).isNone then .absent s1 a
    else
      let old := s1.peek (s1.viewOf c.domid (leafShadow leaf) pa) n
      let s2 := s1.performFor c.domid (leafShadow leaf) pa n (mergeBits old v (mask % 256 ^ n)) true
      .ok (s2.tagsChanged c.core pa (s2.viewOf c.domid (leafShadow leaf) pa) n) ()

/-- The bits of a mask in a range written, with its tags full, piece by piece; a failure leaves what has been written. -/
def State.writeMask (s : State) (c : Ctx) (va n v mask : Nat) (allowC : Bool) : Got Unit :=
  (pieces va n).foldl (fun r p => match r with
    | .ok s1 _ => s1.writePiece c p.1 p.2 (v / 256 ^ (p.1 - va)) (mask / 256 ^ (p.1 - va)) allowC
    | r => r) (.ok s ())
/-- A range written. -/
def State.writeRange (s : State) (c : Ctx) (va n v : Nat) (allowC : Bool := false) : Got Unit :=
  s.writeMask c va n v (256 ^ n - 1) allowC

/-- Bits of memory from a bit address. -/
def State.readBits (s : State) (c : Ctx) (at_ n : Nat) (allowC : Bool := false) : Got Nat :=
  match s.readRange c (at_ / 8) ((at_ % 8 + n + 7) / 8) allowC with
  | .ok s1 v => .ok s1 (v / 2 ^ (at_ % 8) % 2 ^ n)
  | r => r
/-- Bits of memory written; the bits around them keep their values (R273). -/
def State.writeBits (s : State) (c : Ctx) (at_ n v : Nat) (allowC : Bool := false) : Got Unit :=
  s.writeMask c (at_ / 8) ((at_ % 8 + n + 7) / 8) (v % 2 ^ n * 2 ^ (at_ % 8)) ((2 ^ n - 1) * 2 ^ (at_ % 8)) allowC

/-- Word `i` of a block that has been read. -/
def wordAt (v i : Nat) : Word := BitVec.ofNat 64 (v / 2 ^ (64 * i))

/-- A fault message that a port or engine sends once for each absent page (R256). -/
def State.svcOnce (s : State) (die : Nat) (m : SvcMsg) : State := if (s.die die).svc.contains m then s else s.svc die m

/-- Units of a core that name themselves in a fault message by a command handle (R256): copy queues 0 to 8, then these. The
handles are the model's choice. (DEDUCED: log entry 60) -/
abbrev uMatrix : Nat := 9
abbrev uTacc : Nat := 10
abbrev uReject : Nat := 13
abbrev uBulk : Nat := 14
/-- The fault message of a unit (R256, access 3). (DEDUCED: log entry 57) -/
def State.stallMsg (s : State) (core unit : Nat) (c : Ctx) (va : Word) : State :=
  s.svcOnce (dieOf core) (faultWords { c with tag := BitVec.ofNat 16 unit } 3 va)

/-- The first poisoned word of a block, as a LD.w would report it. -/
def State.poisonAt (s : State) (c : Ctx) (p : Word) (n : Nat) : Word :=
  match s.resolve c p .load with
  | (s1, .at pa leaf) =>
    let q := s1.viewOf c.domid (leafShadow leaf) pa
    p + BitVec.ofNat 64 (8 * (((List.range (n / 8)).find? (fun i => s1.poisoned (q + 8 * i) 8)).getD 0))
  | _ => p
/-- An instruction reads a block: as LD.w reads (R227, R230, R400), where poison traps with the word's address, or as a
descriptor (R75), which may lie on a compressed page and whose failed read traps with the block's address. An absent page
parks or stalls the thread (R255). -/
def State.readBlock (s : State) (c : Ctx) (p : Word) (n : Nat) (desc : Bool) (k : State → Nat → Res) : Res :=
  match s.readRange c p.toNat n desc with
  | .ok s1 v => k s1 v
  | .bad _ f _ => .trap f (if f = cPoison ∧ !desc then s.poisonAt c p n else p)
  | .absent s1 _ => .gone (s1.pageFault s1.cur p 0)

/-- Every store that the thread has sent has been acknowledged, so that an engine's reads for it follow them (R75, R275). -/
def Thread.stored (t : Thread) : Bool :=
  t.await.all (fun a => match a.dest with
    | .store => false
    | _ => true)

/-- The lines that a range touches. -/
def linesOf (a n : Nat) : List Nat := if n = 0 then [] else (List.range ((a % 128 + n + 127) / 128)).map (fun i => lineOf a + 128 * i)

/-- R75, R229, R275, R429: an engine reads for the thread only after the thread's own stores: gated ones have been released by an
exchange, and sent ones acknowledged. -/
def Thread.afterStores (t : Thread) (f : Res) : Res :=
  if !t.gated.isEmpty then .wait .exchange false 0 else if !t.stored then .wait .stores false 0 else f

/-- The arenas that running walks have reserved, but that of one cluster's (R314). -/
def State.arenaHeld (s : State) (acb : Nat) (but : Option Nat) : Bool :=
  s.clusters.any (fun p => decide (some p.1 ≠ but) && (match p.2.walk with
    | some w => match w.arena with
      | some a => decide (a.acb = acb)
      | none => false
    | none => false))

end Sys2Proof.Machine
end

