-- ==== Sys2Proof/Machine/Flit.lean ====
section
/-! DEFINITION. The flit as bits: header (R382), the words of its payload and AUX by kind (R383), and the packet that carries
it over a link: beats, trailer and CRC-32C (R387). The layouts of payloads that the spec only names are the model's. -/

namespace Sys2Proof.Machine

/-- The address that an asker's request names: the one that its register awaits, or at which its instruction waits. -/
def State.askAddr (s : State) (who : Asker) : Word :=
  let t := s.thread who.tid
  match t.await.find? (fun a => decide (a.tok = who.tok)) with
  | some a => a.va
  | none => (t.pend.map Pend.addr).getD 0

/-- A channel address (R366). -/
def chanWord (core chan : Nat) : Word := BitVec.ofNat 64 (chan * 262144 + core)

/-- R383: the word AUX of a flit to a position. -/
def State.aux (s : State) (ldest : Nat) : Body → Word
  | .image _ _ _ | .signal _ => 0
  | .read _ pa _ _ | .feqry _ pa | .write _ pa _ _ | .writes _ pa _ | .tagw _ _ pa _ | .chan _ _ pa _ => BitVec.ofNat 64 pa
  | .proxy r => BitVec.ofNat 64 r.pa
  | .msg _ m => chanWord ldest m.chan
  | .bulk _ chan _ _ => chanWord ldest chan
  | .engc _ cap _ _ _ => cap
  | .mcast _ _ scalar _ | .contrib _ _ _ _ _ scalar => scalar
  | .setup _ _ gid _ _ => gid.setWidth 64
  | .wtch _ line => BitVec.ofNat 64 line
  | .resp who a => match a with
    | .popr _ pa => BitVec.ofNat 64 pa
    | .value _ | .ok | .line _ _ _ _ _ | .fail _ => s.askAddr who

/-- A number of words, lowest first, and their length in bytes. -/
def wordsNat (l : List Word) : Nat := l.foldr (fun w n => w.toNat + 2 ^ 64 * n) 0
def words (l : List Word) : Nat × Nat := (wordsNat l, 8 * l.length)
/-- The number that a list of bytes stands for, lowest first. -/
def bytesNat : List Byte → Nat
  | [] => 0
  | b :: r => b.toNat + 256 * bytesNat r
/-- R391: a tree in payload bytes 0 to 95. -/
def treeNat (l : List (BitVec 24)) : Nat := l.foldr (fun n k => n.toNat + 2 ^ 24 * k) 0
/-- The code of a tag request. -/
def TagOp.words : TagOp → List Word
  | .ldf e => [if e then 1 else 0, 0]
  | .stf w d => [if w then 3 else 2, d]
  | .feset f => [if f then 5 else 4, 0]
/-- The value of an answer in its payload. -/
def Ans.words : Ans → List Word
  | .value v | .popr v _ => [v]
  | .line v _ _ _ _ => [v]
  | .ok => []
  | .fail c => [c.setWidth 64]

/-- R383: the payload of a flit as a number, and how many of its bytes are in use. A bulk message travels as one flit of the
model, and its payload here is its first piece. (DESIGN CHOICE: log entry 94) -/
def State.payload (s : State) : Body → Nat × Nat
  | .image tid _ _ => words (s.thread tid).image
  | .read _ _ _ _ | .feqry _ _ | .wtch _ _ => (0, 0)
  | .write _ _ n v => (v.toNat % 256 ^ n, n)
  | .writes _ pa l => (l.foldl (fun k e => k + e.2.2.toNat % 256 ^ e.2.1 * 256 ^ (e.1 - wordOf pa)) 0, 8)
  | .proxy r => words [r.b, r.c, BitVec.ofNat 64 r.n]
  | .tagw _ op _ n => words (op.words ++ [BitVec.ofNat 64 n])
  | .chan _ op _ _ => match op with
    | .push v | .init v => words [v]
    | .pop => (0, 0)
  | .msg _ m => words m.words
  | .bulk _ _ data _ => (bytesNat (data.take 224), Nat.min data.length 224)
  | .engc _ _ blk _ _ => words blk.words
  | .mcast tree data _ _ => (treeNat tree + data.toNat * 2 ^ 768, 224)
  | .contrib _ _ _ _ data _ => (data.toNat, 128)
  | .setup _ _ gid nodes _ => (nodes.foldr (fun n k => n.1 + 2 ^ 24 * k) 0 + gid.toNat * 2 ^ 768, 98)
  | .signal c => words [(c.si.setWidth 64 <<< 8) ||| c.ss.setWidth 64]
  | .resp _ a => words a.words

/-- R382: the nodes of the tree that a flit carries, 0 for a unicast one. -/
def Body.treeNodes : Body → Nat
  | .mcast tree _ _ _ => tree.length
  | .setup _ _ _ nodes _ => nodes.length
  | _ => 0

/-- R380: AGE: it grows while the flit is in the fabric. -/
def State.age (s : State) (m : Msg) : Nat := Nat.min 4095 (m.out.getD s.cycle - m.injected)

/-- A field of `w` bits at a place of a number. -/
def fieldAt (v w at_ : Nat) : Nat := v % 2 ^ w * 2 ^ at_
/-- R382: the 256 bits of a flit's header. -/
def State.header (s : State) (m : Msg) : Nat :=
  fieldAt m.dest 18 0 + fieldAt m.ldest 18 18 + fieldAt m.src 18 36 + fieldAt (s.age m) 12 54 + fieldAt m.kind.toNat 6 66 +
    fieldAt m.pri.toNat 2 72 + fieldAt m.domid.toNat 12 74 + fieldAt m.cin.toNat 16 86 + fieldAt m.tag.toNat 16 102 +
    fieldAt m.held.toNat 1 118 + fieldAt m.nack.toNat 1 119 + fieldAt m.fnc.toNat 1 120 + fieldAt m.body.treeNodes 6 121 +
    fieldAt m.seq.toNat 16 128 + fieldAt (s.payload m.body).2 8 144 + fieldAt m.born.toNat 32 160 + fieldAt (s.aux m.ldest m.body).toNat 64 192
/-- The 2,048 bits of a flit: its header, then its payload. -/
def State.flitBits (s : State) (m : Msg) : Nat := s.header m + (s.payload m.body).1 % 2 ^ 1792 * 2 ^ 256

/-- CRC-32C over one more byte, lowest bit first. -/
def crc32cByte (c : BitVec 32) (b : Nat) : BitVec 32 :=
  (List.range 8).foldl (fun c _ => if c.getLsbD 0 then (c >>> 1) ^^^ 0x82F63B78#32 else c >>> 1) (c ^^^ BitVec.ofNat 32 (b % 256))
/-- CRC-32C of `n` bytes of a number, lowest first. -/
def crc32c (v : Nat) : Nat → BitVec 32 → BitVec 32
  | 0, c => ~~~c
  | n + 1, c => crc32c (v / 256) n (crc32cByte c (v % 256))
/-- R387: the low 32 bits of the trailer: WID and LSEQ. -/
def trailerLow (wid : BitVec 2) (lseq : Nat) : Nat := wid.toNat * 4096 + lseq % 4096
/-- R387: the nine beats of a packet: eight of the flit, and the trailer with its CRC. -/
def State.packet (s : State) (m : Msg) (wid : BitVec 2) (lseq : Nat) : List (BitVec 256) :=
  let flit := s.flitBits m
  let low := trailerLow wid lseq
  (List.range 8).map (fun b => BitVec.ofNat 256 (flit / 2 ^ (256 * b))) ++
    [BitVec.ofNat 256 (low + (crc32c (flit + low * 2 ^ 2048) 260 (BitVec.allOnes 32)).toNat * 2 ^ 32)]
/-- R388: the receiver's check of the beats of a packet: its CRC is that of beats 0 to 7 and the low half of the trailer. -/
def packetOk (beats : List (BitVec 256)) : Bool :=
  let flit := (beats.take 8).foldr (fun b n => b.toNat + 2 ^ 256 * n) 0
  match beats.drop 8 with
  | [t] => decide ((t.extractLsb' 32 32) = crc32c (flit + (t.extractLsb' 0 32).toNat * 2 ^ 2048) 260 (BitVec.allOnes 32))
  | _ => false

end Sys2Proof.Machine
end

