-- ==== Sys2Proof/Machine/Threads.lean ====
section
/-! DEFINITION. Thread life (06): EXTL, SPAWN, EXIT, YIELD, ANCH, and the arrival of images in slots (R80 to R83, R140,
R144, R145). -/

namespace Sys2Proof.Machine

/-- R150. -/
def execExtl (g : Guard) (d : Reg) (s : State) : Host.Outcome State Fault Refusal :=
  run s g { ext := .sys, dests := [d] } fun s t => .ok (s.write s.cur d (s.extList t.core t.slot))

/-! ### SPAWN (R151, R152) -/

/-- R151: the new thread of a SPAWN; its tag, frame and RNDSEED come with its placement. -/
def spawned (t : Thread) (entry arg : Word) (msg : Nat) : Thread :=
  { Thread.blank with
    g := ((Thread.blank.g.set 0 arg).set 1 (t.tag.setWidth 64)).set 4 (BitVec.ofNat 64 t.core)
    pw := 1#32 ||| (t.pw &&& 0xE00000#32)
    pc := entry, domid := t.domid, cin := t.cin, sup := t.sup, prio := t.prio, wlim := t.wlim, tvec := t.tvec, fa := t.fa
    fb := t.fb, fsh := t.fsh, launch := t.launch, place := .flight msg }

/-- A thread joins the launch that its maker belongs to (R151). -/
def State.launchJoin (s : State) (l : Option Nat) (tid : Nat) : State :=
  match l with
  | none => s
  | some id =>
    match KMap.find s.launches id with
    | none => s
    | some x => { s with launches := KMap.set s.launches id { x with alive := x.alive + 1, members := x.members ++ [tid] } }

/-- R151. -/
def execSpawn (g : Guard) (d : Reg) (a b c : Src) (s : State) : Host.Outcome State Fault Refusal :=
  run s g { ext := .base, srcs := [a, b, c], dests := [d], outside := true } fun s t =>
    let entry := t.reg a.reg
    let pos := if c.reg.isZ then BitVec.ofNat 64 t.core else t.reg c.reg
    if entry.extractLsb' 0 3 != 0 then .trap cAlign entry
    else if !s.coreOperand pos then .trap cDescbad pos
    else if !t.domReleased then .wait .domain false 0
    else if s.sendOverflow t.core then .trap 0x0F pos
    else
      let s1 := s.awaitReg s.cur d 8 false false 0 0
      let tid := s1.nextId
      let s2 := (s1.bumpId.setThread tid (spawned t entry (t.reg b.reg) (tid + 1))).launchJoin t.launch tid
      .ok (s2.sendFlit t.core pos.toNat kImage t.domid t.cin t.tag t.prio (.image tid false (some (t.asker s.cur s.nextId false))))

/-! ### EXIT, YIELD, ANCH (R153 to R155) -/

/-- Some register awaits a response. -/
def Thread.awaitsReg (t : Thread) : Bool :=
  t.await.any (fun a => match a.dest with
    | .reg _ _ _ | .lane _ _ => true
    | .store | .none => false)

/-- R153. -/
def execExit (g : Guard) (s : State) : Host.Outcome State Fault Refusal :=
  run s g { ext := .base, outside := true } fun s t =>
    if t.awaitsReg then .wait .drain false 0
    else if !t.strmDone then .wait (.strm 4 8192) false 0
    else .gone (s.endThread s.cur false)

/-- R154: the slot may issue again nine cycles later. -/
def State.yield (s : State) (tid : Nat) : State :=
  (s.retire tid ((s.thread tid).pc + 8)).modThread tid (fun t => { t with wait := some (.yield (s.now (s.thread tid).core + 9)) })
/-- R154. -/
def execYield (g : Guard) (s : State) : Host.Outcome State Fault Refusal :=
  run s g { ext := .base } fun s _ => .gone (s.yield s.cur)
/-- R154: a roaming thread joins the run queue when an entry waits that its slot would accept. -/
def execYieldRq (g : Guard) (s : State) : Host.Outcome State Fault Refusal :=
  run s g { ext := .base } fun s t =>
    if !t.anc && (s.bestEntry t.core t.slot).isSome then s.toQueue s.cur false (t.pc + 8) true else .gone (s.yield s.cur)

/-- Vector and mask registers as 0 and full. -/
def Thread.clearVec (t : Thread) : Thread :=
  { t with
    v := Vector.replicate 32 0, m := Vector.replicate 8 0, vFull := BitVec.allOnes 32, mFull := BitVec.allOnes 8
    marks := t.marks.filter (fun x => decide (x.reg < 16)), bad := t.bad.filter (fun x => decide (x < 16)) }

/-- R155: `anch`. -/
def execAnch (g : Guard) (s : State) : Host.Outcome State Fault Refusal :=
  run s g { ext := .base } fun s t =>
    if t.anc then .ok s
    else if isPylon t.core then s.extSearch s.cur Ext.vec.id
    else if t.slot < 4 then
      .ok ((s.modThread s.cur (fun t => { t.clearVec with anc := true })).modCore t.core (fun c => c.keepSlot t.slot))
    else
      match s.toQueue s.cur true t.pc false with
      | .gone s1 =>
        if (s1.thread s.cur).inSlot then .gone s1
        else .gone (s1.modThread s.cur (fun x =>
          { x with wait := some .anch, counted := true, since := some (s.now t.core), waitAddr := BitVec.ofNat 64 t.core, iw := s.iword }))
      | r => r

/-- R155, R214, R291: `anch.r` waits for vector loads and for the thread's matrix operations; the anchor, the matrix
engine and the streams are released. The scarab thread never migrates and keeps its anchor (R292). -/
def execAnchR (g : Guard) (s : State) : Host.Outcome State Fault Refusal :=
  run s g { ext := .base } fun s t =>
    let lanes := t.await.any (fun a => match a.dest with
      | .lane _ _ => true
      | _ => false)
    let mx := (s.core t.core).mx
    let mine := match mx.owner with
      | some o => t.owns o
      | none => false
    if !t.anc then .ok s
    else if lanes || (mine && mx.busyFor s.cur) then .wait .drain false 0
    else if !t.strmDone then .wait (.strm 4 8192) false 0
    else
      let s1 := s.modThread s.cur (fun x => { x.clearVec with anc := decide (t.slot = 7), sm := [] })
      .ok (if mine then s1.modCore t.core (fun c => { c with mx := c.mx.release }) else s1)

/-! ### Images arrive (R82, R144, R145) -/

/-- An image at its destination: stale ones are dropped, one whose fields disagree with its header is dropped and counted (R82), accepted ones enter a slot or the run queue; none when it is
refused, and then it is bounced (R365). The status of a SPAWN leaves with the placement (R151),
and the new thread's start acts as an acquire (R152). -/
def State.land (s : State) (id : Nat) : State :=
  match s.arrived id with
  | none => s
  | some m =>
    match m.body with
    | .image tid any tell =>
      let cl := clusterOf m.ldest
      let t := s.thread tid
      if !s.isLive cl m.domid m.cin then (s.dropMsg id).endThread tid true
      else if tell.isNone && !(t.domid == m.domid && t.cin == m.cin && t.tag == m.tag) then ((s.dropMsg id).endThread tid true).orphaned cl
      else if tell.isSome && !s.frameFree cl then s
      else
        let s1 := s.dropMsg id
        let s2 := if tell.isSome then (s1.equip tid cl).modThread tid (fun t => { t with rnd := t.tag.setWidth 32 + 1 }) else s1
        match s2.arrive tid cl (if any then none else some m.ldest) false with
        | none => s
        | some s3 => match tell with
          | some who => (s3.acquire m.ldest sysScope).reply who m.ldest kStat (.value ((s3.thread tid).tag.setWidth 64))
          | none => s3
    | _ => s
/-- R82, R145. -/
def execImageArrival (msg : Nat) (s : State) : Host.Outcome State Fault Refusal := .next (s.land msg)

/-- On a paired core the point at which a context starts is agreed (R428, R429). -/
def State.agreeStart (s : State) (tid : Nat) : State := if s.paired (s.thread tid) then s.agree tid else s

/-- R83: the resting state is read back from the trap frame before the thread's first instruction issues; an `anch` that
waited in the run queue then completes (R155). -/
def execRestingStateReload (tid : Nat) (s : State) : Host.Outcome State Fault Refusal :=
  .next <|
    let t := s.thread tid
    if t.inSlot && t.resting then
      let a := t.tframe.toNat + 256
      let s1 := s.modThread tid (fun t => { t with
        tcause := s.peekW a, taddr := s.peekW (a + 8), tpc := s.peekW (a + 16), cyc := s.peekW (a + 24)
        retired := s.peekW (a + 32), inh := bit (s.peekW (a + 40)) 0, resting := false })
      (if t.wait = some .anch then s1.retire tid (t.pc + 8) else s1).agreeStart tid
    else s

/-- R140: a placed context has loaded. -/
def execSlotLoadDone (tid : Nat) (s : State) : Host.Outcome State Fault Refusal :=
  .next <|
    let t := s.thread tid
    if t.inSlot && (s.core t.core).loading.any (fun p => decide (p.1 = t.slot ∧ p.2 ≤ s.now t.core)) then
      let s1 := s.modCore t.core (fun c => { c with loading := c.loading.filter (fun p => decide (p.1 ≠ t.slot)) })
      if t.resting then s1 else s1.agreeStart tid
    else s

/-- R145: a free slot takes the oldest entry of the lowest class that it accepts: the highest free slot of the core a roaming
one, the lowest an anchored one. -/
def execSlotFill (core slot : Nat) (s : State) : Host.Outcome State Fault Refusal :=
  .next <|
    match s.bestEntry core slot with
    | some (tid, t) => if s.freeSlot core t.queuedAnchored = some slot then s.enterSlot tid core slot else s
    | none => s

end Sys2Proof.Machine
end

