-- ==== Sys2Proof/Machine/Channel.lean ====
section
/-! DEFINITION. PUSH, POP and CHINIT (15: R358 to R363), routing channels and messages: SEND, SENDM, RECV, CHBIND, TRDY
(R113 to R116, R366 to R372, R285). -/

namespace Sys2Proof.Machine

/-! ### PUSH, POP, CHINIT -/

/-- CHINIT's control word. -/
def ChanOp.control : ChanOp → Word
  | .init ctl => ctl
  | .push _ | .pop => 0
/-- R359: the operation is a CHINIT whose control word names no channel object. -/
def ChanOp.badControl : ChanOp → Bool
  | .init ctl => (chinitOf ctl).isNone
  | .push _ | .pop => false
/-- R358, R359: the checks of a channel-object instruction, those of its address before that of CHINIT's control word, and its
request to the home; the slot waits for the answer. (DEDUCED: log entry 60) -/
def State.chanIssue (s : State) (t : Thread) (a : Word) (op : ChanOp) (pr : Bool) (fin : Fin) (counted : Bool) (kind : BitVec 6) : Res :=
  if a.toNat % 8 ≠ 0 ∨ 104 < a.toNat % 128 then .trap cAlign a
  else match s.resolve t.ctx a .store with
    | (_, .fail c) => .trap c a
    | (s1, .absent) => .gone (s1.pageFault s.cur a 1)
    | (s1, .at pa leaf) =>
      let pos := homePos (pkgOf t.core) (homeOf pa)
      if homeOf pa = .host then .trap cProt a
      else if op.badControl then .trap cDescbad op.control
      else s1.requestOr t pos <| .pend (((s1.pendOn s.cur .answer counted fin none a).pendLine s.cur pa).request t pos kind
        (.chan (t.asker s.cur s1.nextId (leafShadow leaf)) op pa pr))

/-- R360: PUSH; the data register is read without take. -/
def execPush (g : Guard) (pr : Bool) (d : Reg) (m : MemOp) (s : State) : Host.Outcome State Fault Refusal :=
  run s g (memNeed (MemOp.srcs m) [d] [] true) fun s t => s.chanIssue t (MemOp.ea t m) (.push (t.reg d)) pr .nothing true kPush
/-- R360: POP. -/
def execPop (g : Guard) (pr : Bool) (d : Reg) (m : MemOp) (s : State) : Host.Outcome State Fault Refusal :=
  run s g (memNeed (MemOp.srcs m) [] [d] true) fun s t => s.chanIssue t (MemOp.ea t m) .pop pr (.reg d 8 false) true kPop
/-- R359: CHINIT. -/
def execChinit (g : Guard) (d : Reg) (m : MemOp) (s : State) : Host.Outcome State Fault Refusal :=
  run s g (memNeed (MemOp.srcs m) [d] [] true) fun s t => s.chanIssue t (MemOp.ea t m) (.init (t.reg d)) false .nothing false kWrite

/-! ### Routing channels (R113 to R116) -/

/-- The channel and core of a channel address; none when it is not one (R366). -/
def State.chanAddr (s : State) (w : Word) : Option (Nat × Nat) :=
  let core := (w.extractLsb' 0 18).toNat
  if w.extractLsb' 24 40 = 0 ∧ s.corePresent core then some (core, (w.extractLsb' 18 6).toNat) else none

/-- A routing-channel entry of a core. -/
def State.chan (s : State) (core n : Nat) : ChanEntry := KMap.getD (s.core core).chans n {}
def ChanEntry.bound (e : ChanEntry) : Bool := bit e.w0 2
/-- READY = 1 and HOLD = 0. -/
def ChanEntry.open (e : ChanEntry) : Bool := bit e.w0 1 && !bit e.w0 0
def ChanEntry.dom (e : ChanEntry) : BitVec 12 := e.w2.extractLsb' 0 12

/-- R115: a task's thread before it has its tag and frame. (DEDUCED: log entry 92) -/
def taskThread (e : ChanEntry) (m : ChanMsg) (cin : BitVec 16) : Thread :=
  { Thread.blank with
    g := (((((Thread.blank.g.set 0 (m.words.getD 0 0)).set 1 (m.words.getD 1 0)).set 2 (m.words.getD 2 0)).set 3
      (m.words.getD 3 0)).set 4 (BitVec.ofNat 64 m.sender)).set 5 (BitVec.ofNat 64 (m.words.length * 256 + m.chan))
    pc := e.w0 &&& ~~~7, prio := e.w2.extractLsb' 12 2, tvec := e.tvec, domid := e.dom, cin := cin }

/-- R115: a task starts as a roaming thread that arrives at the core; its start acts as an acquire (R367). None when the
arrival is refused. (DEDUCED: log entry 92) -/
def State.startTask (s : State) (core : Nat) (e : ChanEntry) (m : ChanMsg) : Option State :=
  let cl := clusterOf core
  if !s.frameFree cl then none
  else
    let tid := s.nextId
    let s1 := (s.bumpId.setThread tid (taskThread e m (s.liveCin cl e.dom))).equip tid cl
    (s1.acquire core sysScope).arrive tid cl (some core) false

/-- R114: the messages parked on a channel start their tasks in arrival order. -/
def State.startParked (s : State) (core n : Nat) : Nat → State
  | 0 => s
  | fuel + 1 =>
    let e := s.chan core n
    match (s.core core).parkedMsgs.find? (fun m => decide (m.chan = n)) with
    | none => s
    | some m =>
      if !(e.bound && e.open) then s
      else
        let s1 := s.modCore core (fun c => { c with parkedMsgs := c.parkedMsgs.erase m })
        if !s.isLive (clusterOf core) m.domid m.cin then State.startParked s1 core n fuel
        else match s1.startTask core e m with
          | some s2 => State.startParked s2 core n fuel
          | none => s

/-- R114: messages that were left parked on an open channel for want of a trap frame or of room start their tasks. -/
def State.resumeParked (s : State) (core : Nat) : State :=
  ((s.core core).parkedMsgs.map ChanMsg.chan).dedup.foldl (fun s n => s.startParked core n (s.core core).parkedMsgs.length) s

/-- An answer to a sender, where one is due. -/
def State.tell (s : State) (who : Option Asker) (pos : Nat) (v : Word) : State :=
  match who with
  | some w => s.reply w pos kStat (.value v)
  | none => s

/-- R114: a message at its core: none when it must be bounced for want of room. (DEDUCED: log entry 92) -/
def State.chanMessage (s : State) (core : Nat) (who : Option Asker) (m : ChanMsg) : Option State :=
  let e := s.chan core m.chan
  let cl := clusterOf core
  let parked := (s.core core).parkedMsgs.any (fun x => decide (x.chan = m.chan))
  let park := if s.parkFull cl then none
    else some ((s.modCore core (fun c => { c with parkedMsgs := c.parkedMsgs ++ [m] })).tell who core 0)
  if !e.bound || e.dom != m.domid then some ((s.orphaned cl).tell who core 1)
  else if !s.isLive cl m.domid m.cin then some (s.tell who core 1)
  else if e.open && !parked then (s.startTask core e m).map (fun s1 => s1.tell who core 0)
  else if e.open then
    match (s.startParked core m.chan (s.core core).parkedMsgs.length).startTask core e m with
    | some s1 => some (s1.tell who core 0)
    | none => none
  else park

/-- R114: a message arrives on a routing channel. Its staleness is the rule's own, and is answered (R367). -/
def execChannelMessageArrival (msg : Nat) (s : State) : Host.Outcome State Fault Refusal :=
  .next <| match s.arrived msg with
    | none => s
    | some m => match m.body with
      | .msg who x => ((s.dropMsg msg).chanMessage m.ldest who x).getD s
      | _ => s

/-- R366: the payload registers of SEND. -/
def payloadRegs (b : Src) (n : BitVec 3) : List Reg := (List.range n.toNat).map (fun i => .g (Fin.ofNat 16 (regNum b.reg + i)))
/-- R367: SEND. A take on the payload field takes the register that it names, the first. (DEDUCED: log entry 63) -/
def execSend (g : Guard) (d : Reg) (a b : Src) (n : BitVec 3) (s : State) : Host.Outcome State Fault Refusal :=
  let regs := payloadRegs b n
  run s g { ext := .base, srcs := if n = 0 then [a] else [a, b], reads := regs, dests := [d], outside := true } fun s t =>
    let w := t.reg a.reg
    match s.chanAddr w with
    | none => .trap cDescbad w
    | some (core, ch) =>
      if !t.domReleased then .wait .domain false 0
      else if s.sendOverflow t.core then .trap 0x0F w
      else .ok ((s.awaitReg s.cur d 8 false false 0 0).request t core kMsg
        (.msg (some (t.asker s.cur s.nextId false)) ⟨ch, regs.map t.reg, t.core, t.domid, t.cin⟩))

/-! ### Bulk messages (R368 to R370, R285) -/

/-- The bytes of a source that a message reads: those before the first poisoned piece, and whether it met one. -/
def State.readSource (s : State) (c : Ctx) (va n : Nat) : Got (List Byte × Bool) :=
  (pieces va n).foldl (fun r p => match r with
    | .ok s1 (l, false) => match s1.readPiece c p.1 p.2 false with
      | .ok s2 x => .ok s2 (l ++ (List.range p.2).map (fun i => BitVec.ofNat 8 (x / 256 ^ i)), false)
      | .bad s2 f a => if f = cPoison then .ok s2 (l, true) else .bad s2 f a
      | .absent s2 a => .absent s2 a
    | r => r) (.ok s ([], false))

/-- R370: SENDM. -/
def execSendm (g : Guard) (d : Reg) (a b c : Src) (s : State) : Host.Outcome State Fault Refusal :=
  run s g { ext := .base, srcs := [a, b, c], dests := [d], outside := true } fun s t =>
    let w := t.reg a.reg
    let src := t.reg b.reg
    let len := t.reg c.reg
    match s.chanAddr w with
    | none => .trap cDescbad w
    | some (core, ch) =>
      if 65536 < len.toNat then .trap cDescbad len
      else t.afterStores <| match s.readSource t.ctx src.toNat len.toNat with
        | .bad _ f va => .trap f va
        | .absent s1 va => .gone (s1.pageFault s.cur va 0)
        | .ok s1 (data, _) =>
          if s1.sendOverflow t.core then .trap 0x0F w
          else .ok ((s1.awaitReg s.cur d 8 false false 0 0).sendFlit t.core core kBulk t.domid t.cin t.tag 3
            (.bulk (t.asker s.cur s1.nextId false) ch data len.toNat))

/-- What the placement of a bulk message does next (R285, R370): it is over, or a page is absent, before or after its buffer
has been written. -/
inductive Placed
  | over (s : State)
  | absent (s : State) (va : Word) (placed : Option Nat)

/-- R370: STATUS is written, with its tag full, once the buffer holds `n` bytes; then the block is withdrawn and the sender
answered. -/
def State.bulkEnd (s : State) (m : Msg) (who : Asker) (ch : Nat) (b : RecvBlock) (size len n : Nat) : Placed :=
  let c := engineCtx m.ldest b.domid b.cin 0 b.sup
  let st := BitVec.ofNat 64 (m.src * 4294967296 + (if b.len < len then 2147483648 else 0) + n)
  let close := fun (s2 : State) => Placed.over ((s2.modCore m.ldest (fun k => { k with posted := KMap.erase k.posted ch })).reply who m.ldest kStat
    (.value (if size < len then 0x0A else if b.len < len then 0x10 else 0)))
  match s.writeRange c (b.addr.toNat + 24) 8 st.toNat with
  | .ok s2 _ | .bad s2 _ _ => close s2
  | .absent s2 va => .absent s2 va (some n)

/-- R285, R370: a bulk message is placed into a posted block: its buffer, unless it has been written, then STATUS. A write that
fails otherwise is dropped, and BYTES counts what has been placed before it. (DEDUCED: log entry 97) -/
def State.bulkPlace (s : State) (m : Msg) (who : Asker) (ch : Nat) (b : RecvBlock) (data : List Byte) (len : Nat) (placed : Option Nat) : Placed :=
  match placed with
  | some n => s.bulkEnd m who ch b data.length len n
  | none =>
    let n := Nat.min data.length b.len
    match s.writeRange (engineCtx m.ldest b.domid b.cin 0 b.sup) b.buf.toNat n (bytesNat (data.take n)) with
    | .ok s1 _ => s1.bulkEnd m who ch b data.length len n
    | .bad s1 _ va => s1.bulkEnd m who ch b data.length len (va.toNat - b.buf.toNat)
    | .absent s1 va => .absent s1 va none

/-- R285: a bulk message, out of the fabric, is placed; on an absent page a fault message goes to the service pair and the message
is held in the park region of the port cluster; none when it cannot be: no block is posted, or the region is full. -/
def State.bulkAt (s : State) (id : Nat) (m : Msg) (placed : Option Nat) (held : Bool) : Option State :=
  match m.body with
  | .bulk who ch data len =>
    match KMap.find (s.core m.ldest).posted ch with
    | none => none
    | some b => match s.bulkPlace m who ch b data len placed with
      | .over s1 => some (s1.dropMsg id)
      | .absent s1 va p =>
        if !held && s.parkFull (portOf (dieOf m.ldest)) then none
        else some ((s1.stallMsg m.ldest uBulk (engineCtx m.ldest b.domid b.cin 0 b.sup) va) |> fun s2 =>
          { s2 with msgs := KMap.set s2.msgs id { m with loc := .stalled (portOf (dieOf m.ldest)) p } })
  | _ => none

/-- R285: the placement of a bulk message that has arrived, or that was held for an absent page. -/
def execBulkMessagePlacement (msg : Nat) (s : State) : Host.Outcome State Fault Refusal :=
  .next <| match KMap.find s.msgs msg with
    | none => s
    | some m => match m.loc with
      | .stalled _ placed => if s.isLive (clusterOf m.ldest) m.domid m.cin then (s.bulkAt msg m placed true).getD s else s.dropMsg msg
      | _ => match s.arrived msg with
        | none => s
        | some _ => if s.isLive (clusterOf m.ldest) m.domid m.cin then (s.bulkAt msg m none false).getD s else s.dropMsg msg

/-- R369: RECV. -/
def execRecv (g : Guard) (a : Src) (ch : BitVec 6) (s : State) : Host.Outcome State Fault Refusal :=
  run s g { ext := .base, srcs := [a], outside := true } fun s t =>
    let p := t.reg a.reg
    if p.extractLsb' 0 5 != 0 then .trap cAlign p
    else t.afterStores <| s.readBlock t.engine p 32 true fun s1 v =>
      let w0 := wordAt v 0
      let len := wordAt v 2
      if w0 != 0x9000000000000000 || decide (65536 < len.toNat) || (KMap.find (s1.core t.core).posted ch.toNat).isSome then
        .trap cDescbad p
      else
        let s2 := match s1.resolve t.engine (p + 24) .load true with
          | (s2, .at pa leaf) =>
            let s3 := (s2.shadowFor t.domid (leafShadow leaf) pa).getD s2
            let v := s3.viewOf t.domid (leafShadow leaf) pa
            (s3.setTag v false).tagsChanged t.core pa v 8
          | (s2, _) => s2
        .ok (s2.modCore t.core (fun c => { c with
          posted := KMap.set c.posted ch.toNat ⟨p, wordAt v 1, len.toNat, t.domid, t.cin, t.sup⟩ }))

/-! ### CHBIND and TRDY (R371, R372) -/

/-- An entry is replaced; parked messages of one that is left unbound are dropped and counted (R371). -/
def State.bindChan (s : State) (core n : Nat) (e : ChanEntry) : State :=
  let s1 := s.modCore core (fun c => { c with chans := KMap.set c.chans n e })
  let mine := (s.core core).parkedMsgs.filter (fun m => decide (m.chan = n))
  if e.bound then s1.startParked core n mine.length
  else mine.foldl (fun s _ => s.orphaned (clusterOf core))
    (s1.modCore core (fun c => { c with parkedMsgs := c.parkedMsgs.filter (fun m => decide (m.chan ≠ n)) }))

/-- R371: CHBIND. (DEDUCED: log entry 36) -/
def execChbind (g : Guard) (a b : Src) (ch : BitVec 6) (s : State) : Host.Outcome State Fault Refusal :=
  run s g { ext := .base, srcs := [a, b], outside := true } fun s t =>
    let p := t.reg a.reg
    let pos := if b.reg.isZ then BitVec.ofNat 64 t.core else t.reg b.reg
    if p.extractLsb' 0 3 != 0 then .trap cAlign p
    else if !s.coreOperand pos then .trap cDescbad pos
    else t.afterStores <| s.readBlock t.ctx p 24 false fun s1 v =>
      let core := pos.toNat
      let e : ChanEntry := ⟨wordAt v 0, wordAt v 1, wordAt v 2 &&& 0x3FFF⟩
      let old := s1.chan core ch.toNat
      if (s1.cluster (clusterOf core)).fen && decide (clusterOf core ≠ t.cluster) then .trap 0x0E pos
      else if !t.sup && (e.dom != t.domid || (old.bound && old.dom != t.domid)) then .trap cProt pos
      else .ok (s1.bindChan core ch.toNat e)

/-- R372: a bit kept, set or cleared. -/
def Ksc.app : Ksc → Bool → Bool
  | .keep, b => b
  | .set, _ => true
  | .clear, _ => false

/-- R372: TRDY. (DEDUCED: log entry 36) -/
def execTrdy (g : Guard) (r h : Ksc) (d : Reg) (a : Src) (s : State) : Host.Outcome State Fault Refusal :=
  run s g { ext := .base, srcs := [a], dests := [d], outside := true } fun s t =>
    let w := t.reg a.reg
    match s.chanAddr w with
    | none => .trap cDescbad w
    | some (core, n) =>
      let e := s.chan core n
      if (s.cluster (clusterOf core)).fen && decide (clusterOf core ≠ t.cluster) then .trap 0x0E w
      else if !t.sup && e.dom != t.domid then .trap cProt w
      else
        let bits : Word := (if Ksc.app r (bit e.w0 1) then 2 else 0) + (if Ksc.app h (bit e.w0 0) then 1 else 0)
        let e1 : ChanEntry := { e with w0 := (e.w0 &&& ~~~3) ||| bits }
        let s1 := s.modCore core (fun c => { c with chans := KMap.set c.chans n e1 })
        .ok ((s1.startParked core n (s1.core core).parkedMsgs.length).write s.cur d (e.w0 &&& 7))

end Sys2Proof.Machine
end

