-- ==== Sys2Proof/Machine/Scalar.lean ====
section
/-! DEFINITION. Scalar integer, bit-field, constant, flag and control-flow instructions (07: R163 to R176). -/

namespace Sys2Proof.Machine

/-! ### Shared operations -/

/-- What an instruction of opcodes 0x01 to 0x2A needs: its sources full, no response due into its destination (R164), an
anchored thread when it names an m register (R166). -/
def aluNeed (d : Reg) (srcs : List Src) : Need :=
  { ext := .base, anc := d.isM || srcs.any (·.reg.isM), srcs := srcs, dests := [d] }

/-- R168: an operation on the low 64 or 32 bits of two operands, with the 32-bit result sign-extended. -/
def alu2 (f : (w : Nat) → BitVec w → BitVec w → BitVec w) (h : Bool) (a b : Word) : Word :=
  if h then (f 32 (a.setWidth 32) (b.setWidth 32)).signExtend 64 else f 64 a b
/-- R168: an operation on one operand. -/
def alu1 (f : (w : Nat) → BitVec w → BitVec w) (h : Bool) (a : Word) : Word :=
  if h then (f 32 (a.setWidth 32)).signExtend 64 else f 64 a
/-- R168: a shift, whose count is all 64 bits of the second operand. -/
def aluShift (f : (w : Nat) → BitVec w → Nat → BitVec w) (h : Bool) (a b : Word) : Word :=
  if h then (f 32 (a.setWidth 32) b.toNat).signExtend 64 else f 64 a b.toNat

/-- R168: the two-operand form of ADD to MAXN. -/
def runAlu (s : State) (g : Guard) (d : Reg) (a : Src) (b : Opd) (f : Word → Word → Word) : Host.Outcome State Fault Refusal :=
  run s g (aluNeed d (a :: Opd.srcs b)) fun s t => .ok (s.write s.cur d (f (t.reg a.reg) (Opd.val t b)))
/-- R168: the one-operand form of CLZ to BSWP. -/
def runAlu1 (s : State) (g : Guard) (d : Reg) (a : Src) (f : Word → Word) : Host.Outcome State Fault Refusal :=
  run s g (aluNeed d [a]) fun s t => .ok (s.write s.cur d (f (t.reg a.reg)))
/-- R168: DIV to REMN trap DIVZ when the divisor's w bits are 0. -/
def runDiv (s : State) (g : Guard) (h : Bool) (d : Reg) (a : Src) (b : Opd) (f : Word → Word → Word) :
    Host.Outcome State Fault Refusal :=
  run s g (aluNeed d (a :: Opd.srcs b)) fun s t =>
    let y := Opd.val t b
    if (if h then y.setWidth 32 == 0 else y == 0) then .trap 0x08 (t.reg a.reg)
    else .ok (s.write s.cur d (f (t.reg a.reg) y))

/-- Leading zero bits. -/
def clz (w : Nat) (a : BitVec w) : BitVec w := BitVec.ofNat w (if a.toNat = 0 then w else w - 1 - a.toNat.log2)
/-- Trailing zero bits. -/
def ctz (w : Nat) (a : BitVec w) : BitVec w := BitVec.ofNat w (((List.range w).find? a.getLsbD).getD w)
/-- One bits. -/
def popc (w : Nat) (a : BitVec w) : BitVec w := BitVec.ofNat w ((List.range w).filter a.getLsbD).length
/-- Bits in the opposite order. -/
def brev (w : Nat) (a : BitVec w) : BitVec w :=
  BitVec.ofNat w ((List.range w).foldl (fun n i => n * 2 + (if a.getLsbD i then 1 else 0)) 0)
/-- Bytes in the opposite order. -/
def bswp (w : Nat) (a : BitVec w) : BitVec w :=
  BitVec.ofNat w ((List.range (w / 8)).foldl (fun n i => n * 256 + a.toNat / 256 ^ i % 256) 0)
/-- The high half of the exact signed product. -/
def mulHigh (w : Nat) (a b : BitVec w) : BitVec w := BitVec.ofInt w (a.toInt * b.toInt / 2 ^ w)
/-- The high half of the exact unsigned product. -/
def mulHighN (w : Nat) (a b : BitVec w) : BitVec w := BitVec.ofNat w (a.toNat * b.toNat / 2 ^ w)

/-- R169: EXT's field: POS in [5:0], LEN in [14:8], 65 to 127 acting as 64. -/
def extField (w : Nat) (sx : Bool) (a : BitVec w) (k : Word) : BitVec w :=
  let len := min (k.extractLsb' 8 7).toNat 64
  let f := a.toNat / 2 ^ (k.extractLsb' 0 6).toNat % 2 ^ len
  if sx && decide (0 < len) && f.testBit (len - 1) then BitVec.ofInt w ((f : Int) - 2 ^ len) else BitVec.ofNat w f
/-- R169: DEP: `a` with the field replaced by the low bits of `b`. -/
def depField (w : Nat) (a b : BitVec w) (k : Word) : BitVec w :=
  let pos := (k.extractLsb' 0 6).toNat
  let m : BitVec w := BitVec.ofNat w ((2 ^ min (k.extractLsb' 8 7).toNat 64 - 1) * 2 ^ pos)
  (a &&& ~~~m) ||| ((b <<< pos) &&& m)

/-! ### ADD to BSWP (R168) -/

/-- R168. -/
def execAdd (g : Guard) (h : Bool) (d : Reg) (a : Src) (b : Opd) (s : State) : Host.Outcome State Fault Refusal :=
  runAlu s g d a b (alu2 (fun _ x y => x + y) h)
/-- R168. -/
def execSub (g : Guard) (h : Bool) (d : Reg) (a : Src) (b : Opd) (s : State) : Host.Outcome State Fault Refusal :=
  runAlu s g d a b (alu2 (fun _ x y => x - y) h)
/-- R168. -/
def execMul (g : Guard) (h : Bool) (d : Reg) (a : Src) (b : Opd) (s : State) : Host.Outcome State Fault Refusal :=
  runAlu s g d a b (alu2 (fun _ x y => x * y) h)
/-- R168. -/
def execMulh (g : Guard) (h : Bool) (d : Reg) (a : Src) (b : Opd) (s : State) : Host.Outcome State Fault Refusal :=
  runAlu s g d a b (alu2 mulHigh h)
/-- R168. -/
def execMulhn (g : Guard) (h : Bool) (d : Reg) (a : Src) (b : Opd) (s : State) : Host.Outcome State Fault Refusal :=
  runAlu s g d a b (alu2 mulHighN h)
/-- R168: truncated toward zero; the most negative number divided by -1 is itself. -/
def execDiv (g : Guard) (h : Bool) (d : Reg) (a : Src) (b : Opd) (s : State) : Host.Outcome State Fault Refusal :=
  runDiv s g h d a b (alu2 (fun _ x y => x.sdiv y) h)
/-- R168. -/
def execDivn (g : Guard) (h : Bool) (d : Reg) (a : Src) (b : Opd) (s : State) : Host.Outcome State Fault Refusal :=
  runDiv s g h d a b (alu2 (fun _ x y => x / y) h)
/-- R168: the remainder has the sign of the dividend. -/
def execRem (g : Guard) (h : Bool) (d : Reg) (a : Src) (b : Opd) (s : State) : Host.Outcome State Fault Refusal :=
  runDiv s g h d a b (alu2 (fun _ x y => x.srem y) h)
/-- R168. -/
def execRemn (g : Guard) (h : Bool) (d : Reg) (a : Src) (b : Opd) (s : State) : Host.Outcome State Fault Refusal :=
  runDiv s g h d a b (alu2 (fun _ x y => x % y) h)
/-- R168. -/
def execAnd (g : Guard) (h : Bool) (d : Reg) (a : Src) (b : Opd) (s : State) : Host.Outcome State Fault Refusal :=
  runAlu s g d a b (alu2 (fun _ x y => x &&& y) h)
/-- R168; with pw as destination or source, the shape of R122. -/
def execOr (g : Guard) (h : Bool) (d : Reg) (a : Src) (b : Opd) (s : State) : Host.Outcome State Fault Refusal :=
  runAlu s g d a b (alu2 (fun _ x y => x ||| y) h)
/-- R168. -/
def execXor (g : Guard) (h : Bool) (d : Reg) (a : Src) (b : Opd) (s : State) : Host.Outcome State Fault Refusal :=
  runAlu s g d a b (alu2 (fun _ x y => x ^^^ y) h)
/-- R168. -/
def execAndn (g : Guard) (h : Bool) (d : Reg) (a : Src) (b : Opd) (s : State) : Host.Outcome State Fault Refusal :=
  runAlu s g d a b (alu2 (fun _ x y => x &&& ~~~y) h)
/-- R168: 0 when the count is w or more. -/
def execShl (g : Guard) (h : Bool) (d : Reg) (a : Src) (b : Opd) (s : State) : Host.Outcome State Fault Refusal :=
  runAlu s g d a b (aluShift (fun w x n => if n < w then x <<< n else 0) h)
/-- R168: 0 when the count is w or more. -/
def execShr (g : Guard) (h : Bool) (d : Reg) (a : Src) (b : Opd) (s : State) : Host.Outcome State Fault Refusal :=
  runAlu s g d a b (aluShift (fun w x n => if n < w then x >>> n else 0) h)
/-- R168: the sign fill when the count is w or more. -/
def execSar (g : Guard) (h : Bool) (d : Reg) (a : Src) (b : Opd) (s : State) : Host.Outcome State Fault Refusal :=
  runAlu s g d a b (aluShift (fun w x n => x.sshiftRight (min n w)) h)
/-- R168: rotated left by the count modulo w. -/
def execRot (g : Guard) (h : Bool) (d : Reg) (a : Src) (b : Opd) (s : State) : Host.Outcome State Fault Refusal :=
  runAlu s g d a b (aluShift (fun w x n => (x <<< (n % w)) ||| (x >>> (w - n % w))) h)
/-- R168. -/
def execMin (g : Guard) (h : Bool) (d : Reg) (a : Src) (b : Opd) (s : State) : Host.Outcome State Fault Refusal :=
  runAlu s g d a b (alu2 (fun _ x y => if x.slt y then x else y) h)
/-- R168. -/
def execMax (g : Guard) (h : Bool) (d : Reg) (a : Src) (b : Opd) (s : State) : Host.Outcome State Fault Refusal :=
  runAlu s g d a b (alu2 (fun _ x y => if x.slt y then y else x) h)
/-- R168. -/
def execMinn (g : Guard) (h : Bool) (d : Reg) (a : Src) (b : Opd) (s : State) : Host.Outcome State Fault Refusal :=
  runAlu s g d a b (alu2 (fun _ x y => if x.ult y then x else y) h)
/-- R168. -/
def execMaxn (g : Guard) (h : Bool) (d : Reg) (a : Src) (b : Opd) (s : State) : Host.Outcome State Fault Refusal :=
  runAlu s g d a b (alu2 (fun _ x y => if x.ult y then y else x) h)
/-- R168. -/
def execClz (g : Guard) (h : Bool) (d : Reg) (a : Src) (s : State) : Host.Outcome State Fault Refusal := runAlu1 s g d a (alu1 clz h)
/-- R168. -/
def execCtz (g : Guard) (h : Bool) (d : Reg) (a : Src) (s : State) : Host.Outcome State Fault Refusal := runAlu1 s g d a (alu1 ctz h)
/-- R168. -/
def execPopc (g : Guard) (h : Bool) (d : Reg) (a : Src) (s : State) : Host.Outcome State Fault Refusal := runAlu1 s g d a (alu1 popc h)
/-- R168. -/
def execBrev (g : Guard) (h : Bool) (d : Reg) (a : Src) (s : State) : Host.Outcome State Fault Refusal := runAlu1 s g d a (alu1 brev h)
/-- R168. -/
def execBswp (g : Guard) (h : Bool) (d : Reg) (a : Src) (s : State) : Host.Outcome State Fault Refusal := runAlu1 s g d a (alu1 bswp h)

/-! ### EXT, DEP, SEL, LEA, MOVW, MOVH (R169 to R172) -/

/-- R169. -/
def execExt (g : Guard) (h s_ : Bool) (d : Reg) (a : Src) (b : Opd) (s : State) : Host.Outcome State Fault Refusal :=
  runAlu s g d a b (fun x k => alu1 (fun w x => extField w s_ x k) h x)
/-- R169. -/
def execDep (g : Guard) (h : Bool) (d : Reg) (a b c : Src) (s : State) : Host.Outcome State Fault Refusal :=
  run s g (aluNeed d [a, b, c]) fun s t =>
    .ok (s.write s.cur d (alu2 (fun w x y => depField w x y (t.reg c.reg)) h (t.reg a.reg) (t.reg b.reg)))
/-- R170: the flag is read at issue; both sources are waited on and taken. -/
def execSel (g : Guard) (h neg : Bool) (fl : BitVec 3) (d : Reg) (a : Src) (b : Opd) (s : State) : Host.Outcome State Fault Refusal :=
  run s g (aluNeed d (a :: Opd.srcs b)) fun s t =>
    .ok (s.write s.cur d (alu1 (fun _ x => x) h (if t.flag fl != neg then t.reg a.reg else Opd.val t b)))
/-- R171. -/
def execLea (g : Guard) (h : Bool) (d : Reg) (m : MemOp) (s : State) : Host.Outcome State Fault Refusal :=
  run s g (aluNeed d (MemOp.srcs m)) fun s t => .ok (s.write s.cur d (alu1 (fun _ x => x) h (MemOp.ea t m)))
/-- R172. -/
def execMovw (g : Guard) (d : Reg) (i : BitVec 42) (s : State) : Host.Outcome State Fault Refusal :=
  run s g (aluNeed d []) fun s _ => .ok (s.write s.cur d (i.signExtend 64))
/-- R172: bits [63:42] replaced; the old value is waited on and not taken. -/
def execMovh (g : Guard) (d : Reg) (i : BitVec 22) (s : State) : Host.Outcome State Fault Refusal :=
  run s g { aluNeed d [] with reads := [d] } fun s t => .ok (s.write s.cur d (i ++ (t.reg d).extractLsb' 0 42))

/-! ### Comparison, flags, pw (R173 to R175) -/

/-- R173. -/
def execCmp (g : Guard) (cc : ICond) (fd : BitVec 3) (a : Src) (b : Opd) (s : State) : Host.Outcome State Fault Refusal :=
  run s g (aluNeed .z (a :: Opd.srcs b)) fun s t => .ok (s.setFlag s.cur fd (ICond.holds cc (t.reg a.reg) (Opd.val t b)))
/-- R174. -/
def execFlop (g : Guard) (op : FlopOp) (fd : BitVec 3) (nx : Bool) (fx : BitVec 3) (ny : Bool) (fy : BitVec 3) (s : State) :
    Host.Outcome State Fault Refusal :=
  run s g (aluNeed .z []) fun s t => .ok (s.setFlag s.cur fd (FlopOp.app op (t.flag fx != nx) (t.flag fy != ny)))
/-- R175. -/
def execPwrd (g : Guard) (f : PwField) (d : Reg) (s : State) : Host.Outcome State Fault Refusal :=
  run s g (aluNeed d []) fun s t => .ok (s.write s.cur d (PwField.get f t.pw))
/-- R175. -/
def execPwwr (g : Guard) (f : PwField) (a : Src) (s : State) : Host.Outcome State Fault Refusal :=
  run s g (aluNeed .z [a]) fun s t => .ok (s.modThread s.cur (fun x => { x with pw := PwField.put f x.pw (t.reg a.reg) }))

/-! ### Control transfer (R176) -/

/-- R176, R119: a transfer to `tgt` after the state `s`; a target that is not a multiple of 8 traps ALIGN. -/
def transfer (s : State) (tgt : Word) : Res := if tgt.extractLsb' 0 3 != 0 then .trap cAlign tgt else .jump s tgt

/-- R176. -/
def execBr (g : Guard) (i : BitVec 35) (s : State) : Host.Outcome State Fault Refusal :=
  run s g (aluNeed .z []) fun s t => transfer s (t.pc + 8 * i.signExtend 64)
/-- R176: the link is PC + 8. -/
def execBrl (g : Guard) (d : Reg) (i : BitVec 35) (s : State) : Host.Outcome State Fault Refusal :=
  run s g (aluNeed d []) fun s t => transfer (s.write s.cur d (t.pc + 8)) (t.pc + 8 * i.signExtend 64)
/-- R176. -/
def execJmp (g : Guard) (a : Src) (i : BitVec 21) (s : State) : Host.Outcome State Fault Refusal :=
  run s g (aluNeed .z [a]) fun s t => transfer s (t.reg a.reg + i.signExtend 64)
/-- R176: the source is read before the link is written. -/
def execJmpl (g : Guard) (d : Reg) (a : Src) (i : BitVec 21) (s : State) : Host.Outcome State Fault Refusal :=
  run s g (aluNeed d [a]) fun s t => transfer (s.write s.cur d (t.pc + 8)) (t.reg a.reg + i.signExtend 64)
/-- R176: the counter less one; a branch while it is not 0. -/
def execLoop (g : Guard) (d : Reg) (i : BitVec 35) (s : State) : Host.Outcome State Fault Refusal :=
  run s g { aluNeed d [] with reads := [d] } fun s t =>
    let x := t.reg d - 1
    if x = 0 then .ok (s.write s.cur d x) else transfer (s.write s.cur d x) (t.pc + 8 * i.signExtend 64)
/-- R176. -/
def execNop (g : Guard) (s : State) : Host.Outcome State Fault Refusal := run s g (aluNeed .z []) fun s _ => .ok s

end Sys2Proof.Machine
end

