-- ==== Sys2Proof/Machine/ScalarFloat.lean ====
section
/-! DEFINITION. Scalar floating-point instructions (07: R177 to R183), and the element types as formats (R36). -/

namespace Sys2Proof

open Sys2Proof.Machine

/-! ### Element types -/

/-- The format of a floating or narrow element type, with the format registers (R36, R37). -/
def ETyp.fmt (fa fb : BitVec 24) : ETyp → Fmt
  | .f64 => f64Fmt
  | .f16 => f16Fmt
  | .e8m7 => e8m7Fmt
  | .fna => fmtOf fa
  | .fnb => fmtOf fb
  | .f32 | .i8 | .i16 | .i32 | .i64 | .n8 | .n16 | .n32 | .n64 => f32Fmt

/-- A signed integer type. -/
def ETyp.signed : ETyp → Bool
  | .i8 | .i16 | .i32 | .i64 => true
  | .n8 | .n16 | .n32 | .n64 | .f32 | .f64 | .f16 | .e8m7 | .fna | .fnb => false

/-- Width of an element in bits (R36). -/
def ETyp.bits (fa fb : BitVec 24) (t : ETyp) : Nat := if t.isNarrow then (t.fmt fa fb).width else t.fixedWidth

/-- Smallest and largest value of an integer type (R35). -/
def ETyp.lo (t : ETyp) : Int := if t.signed then -(2 ^ (t.fixedWidth - 1) : Nat) else 0
def ETyp.hi (t : ETyp) : Int := if t.signed then (2 ^ (t.fixedWidth - 1) : Nat) - 1 else (2 ^ t.fixedWidth : Nat) - 1

/-- The integer that `n`'s low bits hold in an integer type. -/
def ETyp.intOf (t : ETyp) (n : Nat) : Int :=
  let m : Nat := n % 2 ^ t.fixedWidth
  if t.signed && decide (2 ^ (t.fixedWidth - 1) ≤ m) then (m : Int) - (2 ^ t.fixedWidth : Nat) else m

/-- The value of an element, from its low bits. -/
def ETyp.num (fa fb : BitVec 24) (t : ETyp) (n : Nat) : Machine.Num :=
  if t.isInt then .ofInt (t.intOf n) else (t.fmt fa fb).value n

/-- A value converted to an element type (R41 to R47): the code, for an integer type as an integer, and the flags. -/
def ETyp.convert (fa fb : BitVec 24) (t : ETyp) (rm : RM) (r : BitVec 32) (x : Machine.Num) : Int × Fl :=
  if t.isInt then toInteger t.lo t.hi rm r x
  else
    let p := (t.fmt fa fb).put rm r x
    (p.1, p.2)

end Sys2Proof

namespace Sys2Proof.Machine

/-- The format registers that an instruction uses are invalid: the value of the first (R38), which for a conversion between fna
and fnb is that of the source type. (DESIGN CHOICE: log entry 98) -/
def badFmt (fa fb : BitVec 24) (l : List ETyp) : Option (BitVec 24) :=
  (l.filterMap (fun t => if t = .fna then some fa else if t = .fnb then some fb else none)).find? (fun r => !fmtValid r)

/-! ### Shared operations -/

/-- The value used by one rounding, and the thread's generator afterwards (R51). -/
def State.rnd1 (s : State) (rm : RM) : State × BitVec 32 :=
  if rm = .sr then
    let r := rndStep (s.thread s.cur).rnd
    (s.modThread s.cur (fun t => { t with rnd := r }), r)
  else (s, 0)

/-- The format that SUB[0] selects (R177). -/
def fpFmt (single : Bool) : Fmt := if single then f32Fmt else f64Fmt
/-- A scalar operand's value: an f32 ignores the upper half of its register. -/
def fpVal (single : Bool) (x : Word) : Num := (fpFmt single).value x.toNat

/-- What a scalar floating-point instruction needs. -/
def fpNeed (d : Reg) (srcs : List Src) : Need := { ext := .fps, srcs := srcs, dests := [d] }

/-- A scalar instruction that rounds one exact result (R178, R179). -/
def runFp (s : State) (g : Guard) (single : Bool) (rm : RM) (d : Reg) (srcs : List Src) (f : RM → Thread → Raw) :
    Host.Outcome State Fault Refusal :=
  run s g (fpNeed d srcs) fun s t =>
    let m := rm.eff t.pw
    let p := s.rnd1 m
    let c := (fpFmt single).finish m p.2 (f m t)
    .ok ((p.1.raise s.cur c.2.bits).write s.cur d (BitVec.ofNat 64 c.1))

/-- R179. -/
def execFadd (g : Guard) (s_ : Bool) (rm : RM) (d : Reg) (a b : Src) (s : State) : Host.Outcome State Fault Refusal :=
  runFp s g s_ rm d [a, b] fun m t => addNum m (fpVal s_ (t.reg a.reg)) (fpVal s_ (t.reg b.reg))
/-- R179: as FADD with b negated. -/
def execFsub (g : Guard) (s_ : Bool) (rm : RM) (d : Reg) (a b : Src) (s : State) : Host.Outcome State Fault Refusal :=
  runFp s g s_ rm d [a, b] fun m t => addNum m (fpVal s_ (t.reg a.reg)) (fpVal s_ (t.reg b.reg)).neg
/-- R179. -/
def execFmul (g : Guard) (s_ : Bool) (rm : RM) (d : Reg) (a b : Src) (s : State) : Host.Outcome State Fault Refusal :=
  runFp s g s_ rm d [a, b] fun _ t => mulNum (fpVal s_ (t.reg a.reg)) (fpVal s_ (t.reg b.reg))
/-- R179. -/
def execFfma (g : Guard) (s_ : Bool) (rm : RM) (d : Reg) (a b c : Src) (s : State) : Host.Outcome State Fault Refusal :=
  runFp s g s_ rm d [a, b, c] fun m t => fmaNum m (fpVal s_ (t.reg a.reg)) (fpVal s_ (t.reg b.reg)) (fpVal s_ (t.reg c.reg))
/-- R179. -/
def execFdiv (g : Guard) (s_ : Bool) (rm : RM) (d : Reg) (a b : Src) (s : State) : Host.Outcome State Fault Refusal :=
  runFp s g s_ rm d [a, b] fun _ t => divNum (fpVal s_ (t.reg a.reg)) (fpVal s_ (t.reg b.reg))
/-- R179. -/
def execFsqrt (g : Guard) (s_ : Bool) (rm : RM) (d : Reg) (a : Src) (s : State) : Host.Outcome State Fault Refusal :=
  runFp s g s_ rm d [a] fun _ t => sqrtNum (fpVal s_ (t.reg a.reg))
/-- R179: FMIN does not round. -/
def execFmin (g : Guard) (s_ : Bool) (d : Reg) (a b : Src) (s : State) : Host.Outcome State Fault Refusal :=
  runFp s g s_ .rtz d [a, b] fun _ t => minMaxNum false (fpVal s_ (t.reg a.reg)) (fpVal s_ (t.reg b.reg))
/-- R179: FMAX does not round. -/
def execFmax (g : Guard) (s_ : Bool) (d : Reg) (a b : Src) (s : State) : Host.Outcome State Fault Refusal :=
  runFp s g s_ .rtz d [a, b] fun _ t => minMaxNum true (fpVal s_ (t.reg a.reg)) (fpVal s_ (t.reg b.reg))

/-- R182: the flag is written, NV raised even into f0. -/
def execFcmp (g : Guard) (cc : FCond) (s_ : Bool) (fd : BitVec 3) (a b : Src) (s : State) : Host.Outcome State Fault Refusal :=
  run s g (fpNeed .z [a, b]) fun s t =>
    let c := fcondHolds cc (fpVal s_ (t.reg a.reg)) (fpVal s_ (t.reg b.reg))
    .ok ((s.raise s.cur ({ nv := c.2 } : Fl).bits).setFlag s.cur fd c.1)

/-- R180: the source from the low bits of ga; an integer result extended to 64 bits, any other in the low bits. -/
def execFcvt (g : Guard) (rm : RM) (dt ty : ETyp) (d : Reg) (a : Src) (s : State) : Host.Outcome State Fault Refusal :=
  run s g (fpNeed d [a]) fun s t =>
    match badFmt t.fa t.fb [ty, dt] with
    | some r => .trap 0x19 (r.setWidth 64)
    | none =>
      let m := rm.eff t.pw
      let p := s.rnd1 m
      let c := ETyp.convert t.fa t.fb dt m p.2 (ETyp.num t.fa t.fb ty (t.reg a.reg).toNat)
      .ok ((p.1.raise s.cur c.2.bits).write s.cur d (BitVec.ofInt 64 c.1))

/-- R181: the sign bit of b, inverted, or combined with a's. -/
def SgnOp.app (o : SgnOp) (sa sb : Bool) : Bool :=
  match o with
  | .j => sb
  | .jn => !sb
  | .jx => sa != sb

/-- R181: the magnitude of a with a sign derived from b; a NaN in a gives the canonical NaN. -/
def execFsgn (g : Guard) (s_ : Bool) (op : SgnOp) (d : Reg) (a b : Src) (s : State) : Host.Outcome State Fault Refusal :=
  run s g (fpNeed d [a, b]) fun s t =>
    let f := fpFmt s_
    let x := (t.reg a.reg).toNat % 2 ^ f.width
    let v := fpVal s_ (t.reg a.reg)
    if v.isNan then .ok ((s.raise s.cur ({ nv := v.isSig } : Fl).bits).write s.cur d (BitVec.ofNat 64 f.nanCode))
    else
      .ok (s.write s.cur d (BitVec.ofNat 64
        (f.signBit (SgnOp.app op (x.testBit f.mag) ((t.reg b.reg).getLsbD f.mag)) + x % 2 ^ f.mag)))

/-- R183: the class of a value, as a bit number. -/
def fpClass (f : Fmt) (x : Num) : Nat :=
  match x with
  | .nan s => if s then 8 else 9
  | .inf neg => if neg then 0 else 7
  | .fin e =>
    if e.man = 0 then (if e.neg then 3 else 4)
    else if e.man < 2 ^ f.m then (if e.neg then 2 else 5)
    else (if e.neg then 1 else 6)

/-- R183. -/
def execFcls (g : Guard) (s_ : Bool) (d : Reg) (a : Src) (s : State) : Host.Outcome State Fault Refusal :=
  run s g (fpNeed d [a]) fun s t =>
    .ok (s.write s.cur d (BitVec.ofNat 64 (2 ^ fpClass (fpFmt s_) (fpVal s_ (t.reg a.reg)))))

end Sys2Proof.Machine
end

