-- ==== Sys2Proof/Machine/Vector.lean ====
section
/-! DEFINITION. Vector computation (08: R185 to R205): elements and masks, elementwise operations, lanes and permutes,
conversion, block quantisation (R54 to R57), reductions and scans (R58, R59), mask operations. -/

namespace Sys2Proof.Machine

/-! ### Elements, lanes and masks -/

/-- Bits of an element's cell in a v register (R185). -/
def ETyp.cell (t : ETyp) : Nat := if t.count = 16 then 64 else 32

/-- An element's `w` bits (R186). -/
def elemOf (t : ETyp) (w : Nat) (v : BitVec 1024) (i : Nat) : Nat := v.toNat / 2 ^ (ETyp.cell t * i) % 2 ^ w
/-- Lane `i` of 32 bits. -/
def laneOf (v : BitVec 1024) (i : Nat) : Nat := v.toNat / 2 ^ (32 * i) % 2 ^ 32

/-- What the elements of an instruction accumulate: flags (R52) and the generator (R51). -/
structure Vx where
  fl : Fl := {}
  rnd : BitVec 32
deriving DecidableEq, Repr

/-- Flags raised by one element. -/
def Vx.raise (x : Vx) (f : Fl) : Vx := { x with fl := x.fl.or f }
/-- One rounding: under SR the generator steps once (R51), and the value is used. -/
def Vx.rounding {α : Type} (x : Vx) (rm : RM) (f : BitVec 32 → α × Fl) : Vx × α :=
  let r := if rm = .sr then rndStep x.rnd else x.rnd
  let p := f r
  ({ x with rnd := r, fl := x.fl.or p.2 }, p.1)

/-- What becomes of an element of the destination (R187). -/
inductive Lane | active | zero | keep
deriving DecidableEq, Repr

/-- R187: MK and Z. -/
def VMask.lane (k : VMask) (t : Thread) (i : Nat) : Lane :=
  if k.m = 0 || (t.m[k.m.toNat]'k.m.isLt).getLsbD i then .active else if k.z then .zero else .keep
/-- The element is active. -/
def VMask.on (k : VMask) (t : Thread) (i : Nat) : Bool := VMask.lane k t i == .active
/-- The mask register that MK names. -/
def VMask.reads (k : VMask) : List Reg := if k.m = 0 then [] else [.m k.m.toFin]

/-- R192: an instruction over the elements of a vector of type `t`, width `w`: each active one is computed in ascending
order, and the others are kept or zero. -/
def vloop (t : ETyp) (w : Nat) (lane : Nat → Lane) (old : BitVec 1024) (x : Vx) (f : Nat → Vx → Vx × Nat) : Vx × BitVec 1024 :=
  let c := ETyp.cell t
  let r := (List.range t.count).foldl (fun (p : Vx × Nat) i =>
    match lane i with
    | .active =>
      let q := f i p.1
      (q.1, p.2 + cellOf c w t.signed q.2 * 2 ^ (c * i))
    | .zero => p
    | .keep => (p.1, p.2 + elemOf t c old i * 2 ^ (c * i))) (x, 0)
  (r.1, BitVec.ofNat 1024 r.2)

/-- An element as a scalar (R197): sign-extended for i types, otherwise zero-extended. -/
def elemWord (t : ETyp) (w : Nat) (n : Nat) : Word := BitVec.ofNat 64 (cellOf 64 w t.signed n)

/-- What a vector instruction needs (R188, R189). -/
def vneed (k : VMask) (d : Reg) (srcs : List Src) (reads : List Reg) : Need :=
  { ext := .vec, anc := true, srcs := srcs, reads := VMask.reads k ++ reads, dests := [d] }

/-- R190: a vector instruction: the format registers it uses must be valid, its flags are raised and its generator steps
are kept when it writes its result. -/
def runV {α : Type} (s : State) (g : Guard) (n : Need) (ty : List ETyp) (rm : RM) (put : State → α → State)
    (f : RM → Thread → Vx → Vx × α) : Host.Outcome State Fault Refusal :=
  run s g n fun s t =>
    match badFmt t.fa t.fb ty with
    | some r => .trap 0x19 (r.setWidth 64)
    | none =>
      let p := f (rm.eff t.pw) t ⟨{}, t.rnd⟩
      .ok (put ((s.modThread s.cur (fun t => { t with rnd := p.1.rnd })).raise s.cur p.1.fl.bits) p.2)

/-- R192: the element of the second operand: of a v register, or the same low bits of a g register for every element. -/
def vopd (t : ETyp) (w : Nat) (th : Thread) (b : Src) (i : Nat) : Nat :=
  match b.reg with
  | .v _ => elemOf t w (th.vreg b.reg) i
  | r => (th.reg r).toNat % 2 ^ w

/-- An elementwise operation of up to three operands (R192). -/
def runElem (s : State) (g : Guard) (k : VMask) (t : ETyp) (rm : RM) (d : Reg) (a b c : Src)
    (f : Thread → RM → Nat → Nat → Nat → Vx → Vx × Nat) : Host.Outcome State Fault Refusal :=
  runV s g (vneed k d [a, b, c] []) [t] rm (fun s v => s.writeV s.cur d v) fun m th x =>
    let w := t.bits th.fa th.fb
    vloop t w (VMask.lane k th) (th.vreg d) x fun i x =>
      f th m (elemOf t w (th.vreg a.reg) i) (vopd t w th b i) (elemOf t w (th.vreg c.reg) i) x

/-- The source z. -/
abbrev zSrc : Src := ⟨.z, false⟩

/-! ### Elementwise operations (R193, R194) -/

/-- An exact integer result in an integer type: its low bits, or clamped. -/
def ETyp.wrap (t : ETyp) (sat : Bool) (i : Int) : Nat :=
  let i := if sat then (if i < t.lo then t.lo else if t.hi < i then t.hi else i) else i
  (i % (2 ^ t.fixedWidth : Nat)).toNat

/-- An exact result rounded into a floating type. -/
def vfin (th : Thread) (t : ETyp) (rm : RM) (r : Raw) (x : Vx) : Vx × Nat :=
  x.rounding rm fun g => (t.fmt th.fa th.fb).finish rm g r

/-- A floating operation that does not round. -/
def vexact (th : Thread) (t : ETyp) (r : Raw) (x : Vx) : Vx × Nat := vfin th t .rtz r x

/-- R193: VADD, VSUB and VMUL. -/
def vArith (fop : RM → Num → Num → Raw) (iop : Int → Int → Int) (sat : Bool) (t : ETyp) (th : Thread) (rm : RM) (a b : Nat) (x : Vx) :
    Vx × Nat :=
  if t.isInt then (x, ETyp.wrap t sat (iop (t.intOf a) (t.intOf b)))
  else vfin th t rm (fop rm (t.num th.fa th.fb a) (t.num th.fa th.fb b)) x

/-- R193. -/
def execVadd (g : Guard) (sat : Bool) (t : ETyp) (rm : RM) (k : VMask) (d : Reg) (a b : Src) (s : State) : Host.Outcome State Fault Refusal :=
  runElem s g k t rm d a b zSrc fun th m u v _ x => vArith addNum (· + ·) sat t th m u v x
/-- R193. -/
def execVsub (g : Guard) (sat : Bool) (t : ETyp) (rm : RM) (k : VMask) (d : Reg) (a b : Src) (s : State) : Host.Outcome State Fault Refusal :=
  runElem s g k t rm d a b zSrc fun th m u v _ x => vArith (fun m p q => addNum m p q.neg) (· - ·) sat t th m u v x
/-- R193. -/
def execVmul (g : Guard) (sat : Bool) (t : ETyp) (rm : RM) (k : VMask) (d : Reg) (a b : Src) (s : State) : Host.Outcome State Fault Refusal :=
  runElem s g k t rm d a b zSrc fun th m u v _ x => vArith (fun _ p q => mulNum p q) (· * ·) sat t th m u v x

/-- R193: the fused forms; `na` and `nc` negate the product and the addend. -/
def vFused (na nc : Bool) (t : ETyp) (th : Thread) (rm : RM) (a b c : Nat) (x : Vx) : Vx × Nat :=
  let n := fun (y : Nat) => t.num th.fa th.fb y
  vfin th t rm (fmaNum rm (if na then (n a).neg else n a) (n b) (if nc then (n c).neg else n c)) x

/-- R193. -/
def execVfma (g : Guard) (t : ETyp) (rm : RM) (k : VMask) (d : Reg) (a b c : Src) (s : State) : Host.Outcome State Fault Refusal :=
  runElem s g k t rm d a b c fun th m u v w x => vFused false false t th m u v w x
/-- R193. -/
def execVfms (g : Guard) (t : ETyp) (rm : RM) (k : VMask) (d : Reg) (a b c : Src) (s : State) : Host.Outcome State Fault Refusal :=
  runElem s g k t rm d a b c fun th m u v w x => vFused false true t th m u v w x
/-- R193. -/
def execVfnma (g : Guard) (t : ETyp) (rm : RM) (k : VMask) (d : Reg) (a b c : Src) (s : State) : Host.Outcome State Fault Refusal :=
  runElem s g k t rm d a b c fun th m u v w x => vFused true false t th m u v w x

/-- R193: the smaller, or with `max` the larger. -/
def vMinMax (max : Bool) (t : ETyp) (th : Thread) (a b : Nat) (x : Vx) : Vx × Nat :=
  if t.isInt then (x, if decide (t.intOf a < t.intOf b) != max then a else b)
  else vexact th t (minMaxNum max (t.num th.fa th.fb a) (t.num th.fa th.fb b)) x

/-- R193. -/
def execVmin (g : Guard) (t : ETyp) (k : VMask) (d : Reg) (a b : Src) (s : State) : Host.Outcome State Fault Refusal :=
  runElem s g k t .rne d a b zSrc fun th _ u v _ x => vMinMax false t th u v x
/-- R193. -/
def execVmax (g : Guard) (t : ETyp) (k : VMask) (d : Reg) (a b : Src) (s : State) : Host.Outcome State Fault Refusal :=
  runElem s g k t .rne d a b zSrc fun th _ u v _ x => vMinMax true t th u v x

/-- R193: VABS and VNEG. -/
def vSign (fop : Num → Num) (iop : Int → Int) (sat : Bool) (t : ETyp) (th : Thread) (a : Nat) (x : Vx) : Vx × Nat :=
  if t.isInt then (x, ETyp.wrap t sat (iop (t.intOf a)))
  else vexact th t ⟨fop (t.num th.fa th.fb a), false, false⟩ x

/-- R193. -/
def execVabs (g : Guard) (sat : Bool) (t : ETyp) (k : VMask) (d : Reg) (a : Src) (s : State) : Host.Outcome State Fault Refusal :=
  runElem s g k t .rne d a zSrc zSrc fun th _ u _ _ x => vSign Num.abs (fun i => i.natAbs) sat t th u x
/-- R193. -/
def execVneg (g : Guard) (sat : Bool) (t : ETyp) (k : VMask) (d : Reg) (a : Src) (s : State) : Host.Outcome State Fault Refusal :=
  runElem s g k t .rne d a zSrc zSrc fun th _ u _ _ x => vSign Num.neg (fun i => -i) sat t th u x

/-- R193. -/
def execVdiv (g : Guard) (t : ETyp) (rm : RM) (k : VMask) (d : Reg) (a b : Src) (s : State) : Host.Outcome State Fault Refusal :=
  runElem s g k t rm d a b zSrc fun th m u v _ x => vfin th t m (divNum (t.num th.fa th.fb u) (t.num th.fa th.fb v)) x

/-- A floating function of one operand. -/
def runFun (s : State) (g : Guard) (k : VMask) (t : ETyp) (rm : RM) (d : Reg) (a : Src) (f : Num → Raw) : Host.Outcome State Fault Refusal :=
  runElem s g k t rm d a zSrc zSrc fun th m u _ _ x => vfin th t m (f (t.num th.fa th.fb u)) x

/-- R193. -/
def execVsqrt (g : Guard) (t : ETyp) (rm : RM) (k : VMask) (d : Reg) (a : Src) (s : State) : Host.Outcome State Fault Refusal :=
  runFun s g k t rm d a sqrtNum
/-- R194: 1/a. -/
def execVrcp (g : Guard) (t : ETyp) (rm : RM) (k : VMask) (d : Reg) (a : Src) (s : State) : Host.Outcome State Fault Refusal :=
  runFun s g k t rm d a (divNum (.of false 1 0))
/-- R194: 1/√a. -/
def execVrsq (g : Guard) (t : ETyp) (rm : RM) (k : VMask) (d : Reg) (a : Src) (s : State) : Host.Outcome State Fault Refusal :=
  runFun s g k t rm d a rsqrtNum
/-- R194: 2^a. -/
def execVexp2 (g : Guard) (t : ETyp) (rm : RM) (k : VMask) (d : Reg) (a : Src) (s : State) : Host.Outcome State Fault Refusal :=
  runFun s g k t rm d a exp2Num
/-- R194: log2 a. -/
def execVlog2 (g : Guard) (t : ETyp) (rm : RM) (k : VMask) (d : Reg) (a : Src) (s : State) : Host.Outcome State Fault Refusal :=
  runFun s g k t rm d a log2Num

/-- R193: on the bits, with no flag. -/
def execVand (g : Guard) (t : ETyp) (k : VMask) (d : Reg) (a b : Src) (s : State) : Host.Outcome State Fault Refusal :=
  runElem s g k t .rne d a b zSrc fun _ _ u v _ x => (x, u &&& v)
/-- R193. -/
def execVor (g : Guard) (t : ETyp) (k : VMask) (d : Reg) (a b : Src) (s : State) : Host.Outcome State Fault Refusal :=
  runElem s g k t .rne d a b zSrc fun _ _ u v _ x => (x, u ||| v)
/-- R193. -/
def execVxor (g : Guard) (t : ETyp) (k : VMask) (d : Reg) (a b : Src) (s : State) : Host.Outcome State Fault Refusal :=
  runElem s g k t .rne d a b zSrc fun _ _ u v _ x => (x, u ^^^ v)

/-- R193: the shifts of integer types, with the count of each element. -/
def vShift (right : Bool) (t : ETyp) (a k : Nat) : Nat :=
  let k := min k t.fixedWidth
  if right then ETyp.wrap t false (t.intOf a / (2 ^ k : Nat)) else a * 2 ^ k % 2 ^ t.fixedWidth

/-- The shifts: the count is I10, or each element of the second operand. -/
def runShift (s : State) (g : Guard) (right : Bool) (t : ETyp) (k : VMask) (d : Reg) (a : Src) (b : VIdx) : Host.Outcome State Fault Refusal :=
  match b with
  | .imm i => runElem s g k t .rne d a zSrc zSrc fun _ _ u _ _ x => (x, vShift right t u i.toNat)
  | .reg r => runElem s g k t .rne d a r zSrc fun _ _ u v _ x => (x, vShift right t u v)

/-- R193. -/
def execVshl (g : Guard) (t : ETyp) (k : VMask) (d : Reg) (a : Src) (b : VIdx) (s : State) : Host.Outcome State Fault Refusal :=
  runShift s g false t k d a b
/-- R193. -/
def execVshr (g : Guard) (t : ETyp) (k : VMask) (d : Reg) (a : Src) (b : VIdx) (s : State) : Host.Outcome State Fault Refusal :=
  runShift s g true t k d a b

/-! ### Comparison, selection, copies (R195, R196) -/

/-- R126, R195: an integer condition between two elements. -/
def Cond.ints (c : Cond) (t : ETyp) (a b : Nat) : Bool :=
  let x := t.intOf a
  let y := t.intOf b
  match c with
  | .eq => decide (a = b)
  | .ne => decide (a ≠ b)
  | .lt => decide (x < y)
  | .ge => decide (y ≤ x)
  | .le => decide (x ≤ y)
  | .gt => decide (y < x)
  | .ltn => decide (a < b)
  | .gen => decide (b ≤ a)
  | .len => decide (a ≤ b)
  | .gtn => decide (b < a)
  | .tst => decide (a &&& b ≠ 0)
  | .ntst => decide (a &&& b = 0)
  | .un | .ord => false
/-- The floating condition of the same code (R195). -/
def Cond.float : Cond → Option FCond
  | .eq => some .eq
  | .ne => some .ne
  | .lt => some .lt
  | .ge => some .ge
  | .le => some .le
  | .gt => some .gt
  | .un => some .un
  | .ord => some .ord
  | .ltn | .gen | .len | .gtn | .tst | .ntst => none
/-- R195: the condition between two elements, with its flags. -/
def vcond (c : Cond) (t : ETyp) (th : Thread) (a b : Nat) : Bool × Fl :=
  if t.isInt then (Cond.ints c t a b, {})
  else match Cond.float c with
    | some f =>
      let r := fcondHolds f (t.num th.fa th.fb a) (t.num th.fa th.fb b)
      (r.1, { nv := r.2 })
    | none => (false, {})

/-- R195: bit i of md; an inactive bit is kept, or cleared under Z; bits above n are zero. -/
def vcmpMask (c : Cond) (t : ETyp) (k : VMask) (th : Thread) (d : Reg) (a b : Src) (x : Vx) : Vx × Nat :=
  let w := t.bits th.fa th.fb
  (List.range t.count).foldl (fun (p : Vx × Nat) i =>
    match VMask.lane k th i with
    | .active =>
      let r := vcond c t th (elemOf t w (th.vreg a.reg) i) (vopd t w th b i)
      (p.1.raise r.2, p.2 + (if r.1 then 2 ^ i else 0))
    | .zero => p
    | .keep => (p.1, p.2 + (if (th.mreg d).getLsbD i then 2 ^ i else 0))) (x, 0)

/-- R195. -/
def execVcmp (g : Guard) (cc : Cond) (t : ETyp) (k : VMask) (d : Reg) (a b : Src) (s : State) : Host.Outcome State Fault Refusal :=
  runV s g (vneed k d [a, b] []) [t] .rne (fun s n => s.write s.cur d (BitVec.ofNat 64 n)) fun _ th x => vcmpMask cc t k th d a b x

/-- R195: a where bit i of mc is 1, otherwise b. -/
def execVsel (g : Guard) (t : ETyp) (k : VMask) (d : Reg) (a b c : Src) (s : State) : Host.Outcome State Fault Refusal :=
  runV s g (vneed k d [a, b, c] []) [t] .rne (fun s v => s.writeV s.cur d v) fun _ th x =>
    let w := t.bits th.fa th.fb
    vloop t w (VMask.lane k th) (th.vreg d) x fun i x =>
      (x, elemOf t w (th.vreg (if (th.mreg c.reg).getLsbD i then a.reg else b.reg)) i)

/-- R196: elements copied with their extension, uninterpreted. -/
def execVmov (g : Guard) (t : ETyp) (k : VMask) (d : Reg) (a : Src) (s : State) : Host.Outcome State Fault Refusal :=
  runV s g (vneed k d [a] []) [t] .rne (fun s v => s.writeV s.cur d v) fun _ th x =>
    vloop t (ETyp.cell t) (VMask.lane k th) (th.vreg d) x fun i x => (x, elemOf t (ETyp.cell t) (th.vreg a.reg) i)

/-- R196. -/
def execVbcst (g : Guard) (t : ETyp) (k : VMask) (d : Reg) (a : Src) (s : State) : Host.Outcome State Fault Refusal :=
  runElem s g k t .rne d zSrc a zSrc fun _ _ _ v _ x => (x, v)

/-- R196: Src(A) + i · sext(I10). -/
def execVidx (g : Guard) (t : ETyp) (k : VMask) (step : BitVec 10) (d : Reg) (a : Src) (s : State) : Host.Outcome State Fault Refusal :=
  runV s g (vneed k d [a] []) [t] .rne (fun s v => s.writeV s.cur d v) fun _ th x =>
    vloop t t.fixedWidth (VMask.lane k th) (th.vreg d) x fun i x =>
      (x, ETyp.wrap t false ((th.reg a.reg).toNat + (i : Int) * step.toInt))

/-! ### Lanes and permutes (R197, R198) -/

/-- R197. -/
def execVgetl (g : Guard) (t : ETyp) (d : Reg) (a : Src) (b : VIdx) (s : State) : Host.Outcome State Fault Refusal :=
  runV s g (vneed ⟨0, false⟩ d (a :: VIdx.srcs b) []) [t] .rne (fun s v => s.write s.cur d v) fun _ th x =>
    let w := t.bits th.fa th.fb
    let j := (VIdx.val th b).toNat
    (x, if j < t.count then elemWord t w (elemOf t w (th.vreg a.reg) j) else 0)

/-- R197: waits until vd is full, without taking it; a register index out of range changes nothing. -/
def execVputl (g : Guard) (t : ETyp) (d : Reg) (a : Src) (b : VIdx) (s : State) : Host.Outcome State Fault Refusal :=
  runV s g (vneed ⟨0, false⟩ d (a :: VIdx.srcs b) [d]) [t] .rne (fun s v => s.writeV s.cur d v) fun _ th x =>
    vloop t (t.bits th.fa th.fb) (fun i => if i = (VIdx.val th b).toNat then .active else .keep) (th.vreg d) x
      fun _ x => (x, (th.reg a.reg).toNat)

/-- R198: indices from the lanes of vb. -/
def execVperm (g : Guard) (t : ETyp) (k : VMask) (d : Reg) (a b : Src) (s : State) : Host.Outcome State Fault Refusal :=
  runV s g (vneed k d [a, b] []) [t] .rne (fun s v => s.writeV s.cur d v) fun _ th x =>
    let w := t.bits th.fa th.fb
    vloop t w (VMask.lane k th) (th.vreg d) x fun i x => (x, elemOf t w (th.vreg a.reg) (laneOf (th.vreg b.reg) i % t.count))

/-- R198. -/
def execVrot (g : Guard) (t : ETyp) (k : VMask) (d : Reg) (a : Src) (b : VIdx) (s : State) : Host.Outcome State Fault Refusal :=
  runV s g (vneed k d (a :: VIdx.srcs b) []) [t] .rne (fun s v => s.writeV s.cur d v) fun _ th x =>
    let w := t.bits th.fa th.fb
    vloop t w (VMask.lane k th) (th.vreg d) x fun i x =>
      (x, elemOf t w (th.vreg a.reg) ((i + (VIdx.val th b).toNat) % t.count))

/-! ### Conversion (R199) -/

/-- R199: one element converted; a pair that cannot round takes no generator step (its RM is 0). -/
def vconvert (st dt : ETyp) (th : Thread) (rm : RM) (a : Nat) (x : Vx) : Vx × Nat :=
  if st.isInt && dt.isInt then (x, ETyp.wrap dt true (st.intOf a))
  else
    let p := x.rounding rm fun r => ETyp.convert th.fa th.fb dt rm r (st.num th.fa th.fb a)
    (p.1, (p.2 % (2 ^ dt.bits th.fa th.fb : Nat)).toNat)

/-- R199: the source element of a destination element, where it has one. -/
def vcvtFrom (st dt : ETyp) (hi : Bool) (j : Nat) : Option Nat :=
  let h := if hi then 16 else 0
  if st.count = dt.count then some j
  else if dt.count = 16 then some (h + j)
  else if h ≤ j ∧ j < h + 16 then some (j - h) else none

/-- R199. -/
def execVcvt (g : Guard) (hi : Bool) (dt ty : ETyp) (rm : RM) (k : VMask) (d : Reg) (a : Src) (s : State) : Host.Outcome State Fault Refusal :=
  runV s g (vneed k d [a] []) [ty, dt] rm (fun s v => s.writeV s.cur d v) fun m th x =>
    vloop dt (dt.bits th.fa th.fb) (fun j => if (vcvtFrom ty dt hi j).isNone then .keep else VMask.lane k th j) (th.vreg d) x
      fun j x => vconvert ty dt th m (elemOf ty (ty.bits th.fa th.fb) (th.vreg a.reg) ((vcvtFrom ty dt hi j).getD j)) x

/-! ### Block quantisation (R54 to R57, R200, R201) -/

/-- floor(log2 of the magnitude) of a nonzero finite number. -/
def Ex.top (x : Ex) : Int := x.exp + x.man.log2
/-- R55: the largest floor(log2 |x|) among nonzero values. -/
def topOf (l : List Num) : Option Int :=
  l.foldl (fun m x => match x with
    | .fin e => if e.man = 0 then m else some (match m with
      | some k => max k (Ex.top e)
      | none => Ex.top e)
    | _ => m) none
/-- emax_elem of a format: floor(log2 MAXF). -/
def Fmt.emax (f : Fmt) : Int :=
  match f.value f.maxCode with
  | .fin e => Ex.top e
  | _ => 0

/-- R55 steps 3 to 5: the scale code, and whether it was clamped. -/
def scaleCode (f : Fmt) (top : Int) : Nat × Bool :=
  let c := top - f.emax + 127
  if c < 1 then (1, true) else if 254 < c then (254, true) else (c.toNat, false)

/-- R55 step 6: one element of a block with scale code `c`, saturating in every special-value mode. -/
def quantOne (f : Fmt) (rm : RM) (c : Nat) (r : BitVec 32) (x : Num) : Nat × Fl :=
  match x with
  | .fin e =>
    let p := f.round rm r { e with exp := e.exp + 127 - c }
    if p.2.ofl then (f.signBit e.neg + f.maxCode, p.2) else p
  | _ => (0, {})

/-- A value that is NaN or infinite. -/
def Num.special : Num → Bool
  | .fin _ => false
  | _ => true

/-- R55, R56: a block quantised: its scale code and element codes; the generator steps once for each value present. -/
def quantBlock (f : Fmt) (rm : RM) (l : List (Option Num)) (x : Vx) : Vx × Nat × List Nat :=
  let vals := l.filterMap id
  let zeros := fun (x : Vx) (c : Nat) =>
    (l.foldl (fun (x : Vx) o => if o.isSome then (x.rounding rm fun _ => ((), {})).1 else x) x, c, l.map (fun _ => 0))
  if vals.any Num.special then zeros (x.raise { nv := true }) 255
  else match topOf vals with
    | none => zeros x 0
    | some top =>
      let c := scaleCode f top
      let r := l.foldl (fun (p : Vx × List Nat) o => match o with
        | some v =>
          let q := p.1.rounding rm fun r => quantOne f rm c.1 r v
          (q.1, p.2 ++ [q.2])
        | none => (p.1, p.2 ++ [0])) (x.raise { clmp := c.2 }, [])
      (r.1, c.1, r.2)

/-- R54, R57: one element decoded into a type. -/
def decodeOne (f : Fmt) (to_ : Fmt) (rm : RM) (c code : Nat) (x : Vx) : Vx × Nat :=
  x.rounding rm fun r =>
    if c = 0 then (0, {})
    else if c = 255 then (to_.nanCode, {})
    else to_.put rm r (match f.value code with
      | .fin e => .fin { e with exp := e.exp + c - 127 }
      | n => n)

/-- The element format of a codec (R200). -/
def VCodec.fmt (fa fb : BitVec 24) : VCodec → Fmt
  | .bs4 => bs4Fmt
  | .bsa => fmtOf fa
  | .bsb => fmtOf fb
/-- The format register that a codec uses. -/
def VCodec.uses : VCodec → List ETyp
  | .bs4 => []
  | .bsa => [.fna]
  | .bsb => [.fnb]

/-- R200: the packed image of a block; an inactive element counts as missing. -/
def execVqnt (g : Guard) (cd : VCodec) (t : ETyp) (rm : RM) (k : VMask) (d : Reg) (a : Src) (s : State) : Host.Outcome State Fault Refusal :=
  runV s g (vneed k d [a] []) (VCodec.uses cd) rm (fun s v => s.writeV s.cur d v) fun m th x =>
    let f := VCodec.fmt th.fa th.fb cd
    let q := quantBlock f m ((List.range 32).map (fun i =>
      if VMask.on k th i then some (t.num th.fa th.fb (elemOf t t.fixedWidth (th.vreg a.reg) i)) else none)) x
    (q.1, BitVec.ofNat 1024 ((q.2.2.foldr (fun e n => e + n * 2 ^ f.width) 0) + q.2.1 * 2 ^ (32 * f.width)))

/-- R201. -/
def execVdqnt (g : Guard) (cd : VCodec) (t : ETyp) (rm : RM) (k : VMask) (d : Reg) (a : Src) (s : State) : Host.Outcome State Fault Refusal :=
  runV s g (vneed k d [a] []) (VCodec.uses cd) rm (fun s v => s.writeV s.cur d v) fun m th x =>
    let f := VCodec.fmt th.fa th.fb cd
    let img := (th.vreg a.reg).toNat
    vloop t t.fixedWidth (VMask.lane k th) (th.vreg d) x fun i x =>
      decodeOne f (t.fmt th.fa th.fb) m (img / 2 ^ (32 * f.width) % 256) (img / 2 ^ (f.width * i) % 2 ^ f.width) x

/-! ### Reductions, scans, dot products (R58, R59, R202 to R204) -/

/-- R202: the Combine of an operator on two elements. -/
def RedOp.combine (op : RedOp) (t : ETyp) (th : Thread) (rm : RM) (a b : Nat) (x : Vx) : Vx × Nat :=
  match op with
  | .sum => vArith addNum (· + ·) false t th rm a b x
  | .max => vMinMax true t th a b x
  | .min => vMinMax false t th a b x
  | .and => (x, a &&& b)
  | .or => (x, a ||| b)
  | .xor => (x, a ^^^ b)

/-- Combine with absent operands (R58). -/
def combineOpt {α : Type} (f : α → α → Vx → Vx × α) (a b : Option α) (x : Vx) : Vx × Option α :=
  match a, b with
  | some p, some q =>
    let r := f p q x
    (r.1, some r.2)
  | some p, none => (x, some p)
  | none, o => (x, o)

/-- One pairing of two lists, in ascending order. -/
def combineAll {α : Type} (f : α → α → Vx → Vx × α) : List (Option α) → List (Option α) → Vx → Vx × List (Option α)
  | a :: l, b :: r, x =>
    let p := combineOpt f a b x
    let q := combineAll f l r p.1
    (q.1, p.2 :: q.2)
  | _, _, x => (x, [])

/-- R58: the pairwise tree over 2^k elements. -/
def redTree {α : Type} (f : α → α → Vx → Vx × α) : Nat → List (Option α) → Vx → Vx × Option α
  | 0, l, x => (x, l.headD none)
  | k + 1, l, x =>
    let p := combineAll f (l.take (2 ^ k)) (l.drop (2 ^ k)) x
    redTree f k p.2 p.1

/-- R59: `k` steps of a scan with distances d, 2d, …. -/
def scanSteps {α : Type} (f : α → α → Vx → Vx × α) : Nat → Nat → List (Option α) → Vx → Vx × List (Option α)
  | 0, _, l, x => (x, l)
  | k + 1, d, l, x =>
    let p := combineAll f l (l.drop d) x
    scanSteps f k (2 * d) (l.take d ++ p.2) p.1

/-- log2 of the element count. -/
def ETyp.logCount (t : ETyp) : Nat := if t.count = 16 then 4 else 5

/-- R202: the result over no active element. -/
def RedOp.empty (op : RedOp) (t : ETyp) (fa fb : BitVec 24) : Nat :=
  let f := t.fmt fa fb
  match op with
  | .sum | .or | .xor => 0
  | .and => 2 ^ t.bits fa fb - 1
  | .max =>
    if t.isInt then ETyp.wrap t false t.lo
    else if !f.sg then 0
    else f.signBit true + (if f.spm = 2 then f.infCode else f.maxCode)
  | .min =>
    if t.isInt then ETyp.wrap t false t.hi
    else if f.spm = 2 then f.infCode else f.maxCode

/-- The active elements of a register, the others absent. -/
def actives (t : ETyp) (k : VMask) (th : Thread) (v : BitVec 1024) : List (Option Nat) :=
  (List.range t.count).map (fun i => if VMask.on k th i then some (elemOf t (t.bits th.fa th.fb) v i) else none)

/-- R202: the result is written as VGETL writes an element. -/
def execVred (g : Guard) (op : RedOp) (t : ETyp) (rm : RM) (k : VMask) (d : Reg) (a : Src) (s : State) : Host.Outcome State Fault Refusal :=
  runV s g (vneed k d [a] []) [t] rm (fun s v => s.write s.cur d v) fun m th x =>
    let r := redTree (RedOp.combine op t th m) (ETyp.logCount t) (actives t k th (th.vreg a.reg)) x
    (r.1, elemWord t (t.bits th.fa th.fb) (r.2.getD (RedOp.empty op t th.fa th.fb)))

/-- R203. -/
def execVscan (g : Guard) (op : RedOp) (t : ETyp) (rm : RM) (k : VMask) (d : Reg) (a : Src) (s : State) : Host.Outcome State Fault Refusal :=
  runV s g (vneed k d [a] []) [t] rm (fun s v => s.writeV s.cur d v) fun m th x =>
    let r := scanSteps (RedOp.combine op t th m) (ETyp.logCount t) 1 (actives t k th (th.vreg a.reg)) x
    vloop t (t.bits th.fa th.fb) (VMask.lane k th) (th.vreg d) r.1 fun i x => (x, ((r.2.getD i none).getD 0))

/-- R204: the products of the active elements: each rounded, in ascending order, or for an integer type exact. -/
def dotProducts (t : ETyp) (k : VMask) (th : Thread) (rm : RM) (u v : BitVec 1024) (x : Vx) : Vx × List (Option Nat) :=
  let w := t.bits th.fa th.fb
  (List.range t.count).foldl (fun (p : Vx × List (Option Nat)) i =>
    if VMask.on k th i then
      let q := vfin th t rm (mulNum (t.num th.fa th.fb (elemOf t w u i)) (t.num th.fa th.fb (elemOf t w v i))) p.1
      (q.1, p.2 ++ [some q.2])
    else (p.1, p.2 ++ [none])) (x, [])

/-- R204: an integer dot product, modulo 2^64. -/
def dotInt (t : ETyp) (k : VMask) (th : Thread) (u v : BitVec 1024) : Word :=
  BitVec.ofInt 64 ((List.range t.count).foldl (fun (n : Int) i =>
    if VMask.on k th i then n + t.intOf (elemOf t t.fixedWidth u i) * t.intOf (elemOf t t.fixedWidth v i) else n) 0)

/-- R204. -/
def execVdot (g : Guard) (t : ETyp) (rm : RM) (k : VMask) (d : Reg) (a b : Src) (s : State) : Host.Outcome State Fault Refusal :=
  runV s g (vneed k d [a, b] []) [t] rm (fun s v => s.write s.cur d v) fun m th x =>
    if t.isInt then (x, dotInt t k th (th.vreg a.reg) (th.vreg b.reg))
    else
      let p := dotProducts t k th m (th.vreg a.reg) (th.vreg b.reg) x
      let r := redTree (RedOp.combine .sum t th m) (ETyp.logCount t) p.2 p.1
      (r.1, elemWord t (t.bits th.fa th.fb) (r.2.getD 0))

/-! ### Masks (R205) -/

/-- R205. -/
def MopsOp.app (op : MopsOp) (t : Thread) (a : BitVec 32) : BitVec 32 :=
  match op with
  | .and b => a &&& t.mreg b.reg
  | .or b => a ||| t.mreg b.reg
  | .xor b => a ^^^ t.mreg b.reg
  | .andn b => a &&& ~~~t.mreg b.reg
  | .not => ~~~a
  | .first => a &&& -a
  | .below => if a = 0 then BitVec.allOnes 32 else (a &&& -a) - 1
/-- The second source of MOPS. -/
def MopsOp.srcs : MopsOp → List Src
  | .and b | .or b | .xor b | .andn b => [b]
  | .not | .first | .below => []

/-- R205. -/
def execMops (g : Guard) (op : MopsOp) (d : Reg) (a : Src) (s : State) : Host.Outcome State Fault Refusal :=
  runV s g (vneed ⟨0, false⟩ d (a :: MopsOp.srcs op) []) [] .rne (fun s (v : BitVec 32) => s.write s.cur d (v.setWidth 64)) fun _ th x =>
    (x, MopsOp.app op th (th.mreg a.reg))

end Sys2Proof.Machine
end

