-- ==== Sys2Proof/Machine/VectorMem.lean ====
section
/-! DEFINITION. Vector memory access (08: R206 to R210) and FMTLD (R211). A vector access is cut into the aligned words that
it touches, each read or written as one access (R208). -/

namespace Sys2Proof.Machine

/-! ### The words of a vector access -/

/-- A word that a vector access touches: its address, the first byte of it that an element needs, the index of that element,
and the parts of elements that it holds, in ascending order. -/
structure VWord where
  va : Nat
  first : Nat
  parts : List LanePart
deriving DecidableEq, Repr

/-- The words with one more part. -/
def addPart : List VWord → Nat → Nat → LanePart → List VWord
  | [], va, first, p => [⟨va, first, [p]⟩]
  | x :: l, va, first, p => if x.va = va then { x with parts := x.parts ++ [p] } :: l else x :: addPart l va first p

/-- The parts of element `i` of type `t` and width `w` whose first bit is bit `bit_` of the byte at `a`: one, or two where a
narrow element crosses a word. -/
def elemParts (t : ETyp) (w i a bit_ : Nat) : List (Nat × Nat × LanePart) :=
  let c := ETyp.cell t
  let src := a % 8 * 8 + bit_
  let word := a / 8 * 8
  if src + w ≤ 64 then [(word, a, ⟨c * i, src, w, c, t.signed⟩)]
  else
    let lo := 64 - src
    [(word, a, ⟨c * i, src, lo, c, false⟩), ((word + 8) % 2 ^ 64, (word + 8) % 2 ^ 64, ⟨c * i + lo, 0, w - lo, c, false⟩)]

/-- The words of elements: index, byte address, bit. -/
def vwords (t : ETyp) (w : Nat) (l : List (Nat × Nat × Nat)) : List VWord :=
  (l.flatMap (fun e => elemParts t w e.1 e.2.1 e.2.2)).foldl (fun ws p => addPart ws p.1 p.2.1 p.2.2) []

/-- R206: the elements of VLD and VST from the address `ea`. -/
def vseq (t : ETyp) (w : Nat) (ea : Word) : List (Nat × Nat × Nat) :=
  (List.range t.count).map (fun i => (i, (ea.toNat + w * i / 8) % 2 ^ 64, w * i % 8))
/-- R207: the elements of VLDS and VSTS. -/
def vstride (t : ETyp) (base : Word) (stride : Word) : List (Nat × Nat × Nat) :=
  (List.range t.count).map (fun i => (i, (base + BitVec.ofNat 64 i * stride).toNat, 0))
/-- R207: the active elements of VGTH and VSCT. -/
def vindexed (t : ETyp) (k : VMask) (th : Thread) (base : Word) (sc : BitVec 2) (v : BitVec 1024) : List (Nat × Nat × Nat) :=
  ((List.range t.count).filter (VMask.on k th)).map (fun i =>
    (i, (base + ((BitVec.ofNat 32 (laneOf v i)).signExtend 64 <<< sc.toNat)).toNat, 0))

/-- A word after its check: its physical address and leaf. -/
structure VAt where
  word : VWord
  pa : Nat
  leaf : Option Word
deriving DecidableEq, Repr

/-- The outcomes of all words' checks, in ascending order (R208). -/
def State.resolveAll (s : State) (c : Ctx) (k : Acc) : List VWord → State × List (VWord × Rslt)
  | [] => (s, [])
  | x :: l =>
    let r := s.resolve c (BitVec.ofNat 64 x.first) k
    let q := State.resolveAll r.1 c k l
    (q.1, (x, r.2) :: q.2)

/-- The first word whose check failed with the cause. -/
def failedWith (l : List (VWord × Rslt)) (cause : Nat) : Option (Nat × Nat) :=
  (l.find? (fun p => match p.2 with
    | .fail c => decide (c = cause)
    | _ => false)).map (fun p => (cause, p.1.first))

/-- R208: the checks of a vector access before it accesses any element: alignment, mapping, rights, compressed pages, absent
pages, each in ascending order; `f` goes on with the words. -/
def State.vaccess (s : State) (t : ETyp) (l : List (Nat × Nat × Nat)) (ws : List VWord) (kind : Acc) (f : State → List VAt → Res) : Res :=
  let t0 := s.thread s.cur
  match if t.isNarrow then none else l.find? (fun e => decide (e.2.1 % (t.fixedWidth / 8) ≠ 0)) with
  | some e => .trap cAlign (BitVec.ofNat 64 e.2.1)
  | none =>
    let r := s.resolveAll t0.ctx kind ws
    match ((failedWith r.2 cNomap).or (failedWith r.2 cXlate)).or ((failedWith r.2 cProt).or (failedWith r.2 cCmpr)) with
    | some c => .trap c.1 (BitVec.ofNat 64 c.2)
    | none =>
      match r.2.find? (fun p => decide (p.2 = .absent)) with
      | some p => .gone (r.1.pageFault s.cur (BitVec.ofNat 64 p.1.first) (if kind = .store then 1 else 0))
      | none =>
        match failedWith r.2 cHosterr with
        | some c => .trap c.1 (BitVec.ofNat 64 c.2)
        | none => f r.1 (r.2.filterMap (fun p => match p.2 with
            | .at pa leaf => some ⟨p.1, wordOf pa, leaf⟩
            | _ => none))

/-! ### Loads -/

/-- A word is served directly (R209). -/
def VAt.direct (x : VAt) (t : Thread) : Bool := homeLocal t.core (homeOf x.pa)

/-- One fetched word: from a candidate line, or by a request (R246, R322). -/
def State.fetchV (s : State) (v : Nat) (keep : Bool) (x : VAt) : State × Option Word :=
  let t := s.thread s.cur
  let s1 := { s with free := s.free + 1 }
  match if leafShadow x.leaf then none else s.candidate t (BitVec.ofNat 64 (wordOf x.word.first)) 8 with
  | some d => (s1, some (BitVec.ofNat 64 d))
  | none => (s1.sendRead s.cur (.lane v x.word.parts) (BitVec.ofNat 64 x.word.first) x.pa 8 (leafShadow x.leaf) keep, none)

/-- R209: the words of a load: direct ones are read, the others are fetched; the register's bits so far. -/
def State.loadWords (s : State) (v : Nat) (keep : Bool) (base : BitVec 1024) : List VAt → State × BitVec 1024
  | [] => (s, base)
  | x :: l =>
    let t := s.thread s.cur
    if x.direct t then State.loadWords s v keep (base ||| laneBits x.word.parts (BitVec.ofNat 64 (s.view t (leafShadow x.leaf) x.pa 8))) l
    else
      let r := s.fetchV v keep x
      State.loadWords r.1 v keep (match r.2 with
        | some d => base ||| laneBits x.word.parts d
        | none => base) l

/-- R209, R258: a vector load after its checks: `base` holds the elements that it does not load. -/
def State.vload (s : State) (d : Reg) (keep : Bool) (base : BitVec 1024) (l : List VAt) : Res :=
  let t := s.thread s.cur
  let far := l.filter (fun x => !x.direct t)
  match l.find? (fun x => x.direct t && s.poisoned (s.viewOf t.domid (leafShadow x.leaf) x.pa) 8) with
  | some x => .trap cPoison (BitVec.ofNat 64 x.word.first)
  | none =>
    match far.find? (fun x => t.storing x.pa 8) with
    | some x => .wait (.ownStore x.pa) false (BitVec.ofNat 64 x.word.first)
    | none =>
      if s.paired t && far.any (fun x => t.gated.any (fun g => decide (g.pa < x.pa + 8 ∧ x.pa < g.pa + g.n))) then .wait .exchange false 0
      else
        match d with
        | .v n =>
          let r := s.loadWords n.val keep base l
          let t1 := r.1.thread s.cur
          if t1.awaited d then .ok (r.1.modThread s.cur (fun t => { t.empty d with v := t.v.set n r.2 }))
          else .ok (r.1.writeV s.cur d r.2)
        | _ => .ok s

/-- The cells of the elements that an instruction computes are zero, the others kept or zero (R187). -/
def vbase (t : ETyp) (k : VMask) (th : Thread) (d : Reg) : BitVec 1024 :=
  (vloop t (ETyp.cell t) (VMask.lane k th) (th.vreg d) ⟨{}, 0⟩ (fun _ x => (x, 0))).2

/-- What a vector memory instruction needs. -/
def vmemNeed (k : VMask) (srcs : List Src) (reads dests : List Reg) : Need :=
  { ext := .vec, anc := true, srcs := srcs, reads := VMask.reads k ++ reads, dests := dests }

/-- A vector memory instruction: the format registers are checked first (R190), then the addresses. -/
def runVmem (s : State) (g : Guard) (n : Need) (t : ETyp) (kind : Acc) (elems : Thread → Nat → List (Nat × Nat × Nat))
    (f : State → Thread → List VAt → Res) : Host.Outcome State Fault Refusal :=
  run s g n fun s th =>
    match badFmt th.fa th.fb [t] with
    | some r => .trap 0x19 (r.setWidth 64)
    | none =>
      let w := t.bits th.fa th.fb
      s.vaccess t (elems th w) (vwords t w (elems th w)) kind fun s1 l => f s1 (s1.thread s.cur) l

/-- No mask. -/
abbrev allActive : VMask := ⟨0, false⟩

/-- R206. -/
def execVld (g : Guard) (t : ETyp) (d : Reg) (m : MemOp) (s : State) : Host.Outcome State Fault Refusal :=
  runVmem s g (vmemNeed allActive (MemOp.srcs m) [] [d]) t .load (fun th w => vseq t w (MemOp.ea th m)) fun s th l =>
    s.vload d (m.sp != 1) (vbase t allActive th d) l
/-- R207. -/
def execVlds (g : Guard) (t : ETyp) (d : Reg) (m : MemOp) (s : State) : Host.Outcome State Fault Refusal :=
  runVmem s g (vmemNeed allActive (MemOp.srcs m) [] [d]) t .load
    (fun th _ => vstride t (th.reg m.base.reg + m.disp.signExtend 64) (th.reg m.index.reg <<< m.sc.toNat)) fun s th l =>
    s.vload d (m.sp != 1) (vbase t allActive th d) l
/-- R207. -/
def execVgth (g : Guard) (t : ETyp) (k : VMask) (sc : BitVec 2) (d : Reg) (a b : Src) (s : State) : Host.Outcome State Fault Refusal :=
  runVmem s g (vmemNeed k [a, b] [] [d]) t .load (fun th _ => vindexed t k th (th.reg a.reg) sc (th.vreg b.reg)) fun s th l =>
    s.vload d true (vbase t k th d) l

/-! ### Stores -/

/-- The bytes that a word's parts write: for each byte offset of the word, its value; later parts win (R207). -/
def wordBytes (parts : List LanePart) (v : BitVec 1024) : List (Nat × Nat) :=
  let bits : Nat × Nat := parts.foldl (fun (p : Nat × Nat) q =>
    let m := (2 ^ q.bits - 1) * 2 ^ q.src
    let x := v.toNat / 2 ^ q.dst % 2 ^ q.bits * 2 ^ q.src
    (p.1 ||| m, (p.2 &&& (2 ^ 64 - 1 - m)) ||| x)) (0, 0)
  ((List.range 8).filter (fun i => bits.1.testBit (8 * i))).map (fun i => (i, bits.2 / 256 ^ i % 256))

/-- Bytes joined into ranges: address, length, value. -/
def joinBytes (pa : Nat) : List (Nat × Nat) → List (Nat × Nat × Word)
  | [] => []
  | (i, b) :: r =>
    match joinBytes pa r with
    | (a, n, v) :: l => if a = pa + i + 1 then (pa + i, n + 1, BitVec.ofNat 64 (b + 256 * v.toNat)) :: l else (pa + i, 1, BitVec.ofNat 64 b) :: (a, n, v) :: l
    | [] => [(pa + i, 1, BitVec.ofNat 64 b)]

/-- The shadow granules that local words of a store need (R448); the first word for which there is no frame. -/
def State.shadowAll (s : State) (t : Thread) : List VAt → State × Option VAt
  | [] => (s, none)
  | x :: l =>
    match s.shadowFor t.domid (leafShadow x.leaf) x.pa with
    | some s1 => State.shadowAll (if x.direct t then s1 else s) t l
    | none => (s, some x)

/-- R208, R429: a vector store after its checks; `base` for the forms whose store through g14 is a stack access (R412). -/
def State.vstore (s : State) (v : BitVec 1024) (base : Option Reg) (l : List VAt) : Res :=
  let t := s.thread s.cur
  let done := fun (s : State) => Res.ok (match base with
    | some r => s.stackStore s.cur r
    | none => s)
  match s.shadowAll t l with
  | (_, some x) => .gone (s.pageFault s.cur (BitVec.ofNat 64 x.word.first) 1)
  | (s1, none) =>
    let pieces := l.map (fun x => (leafShadow x.leaf, joinBytes x.pa (wordBytes x.word.parts v)))
    if s.paired t then
      if 64 < t.gated.length + (pieces.flatMap Prod.snd).length then .wait .exchange false 0
      else done (pieces.foldl (fun s p => p.2.foldl (fun s e => s.storeOrGate s.cur e.1 e.2.1 p.1 e.2.2) s) s1)
    else done (pieces.foldl (fun s p => s.storeWord s.cur p.1 p.2) s1)

/-- R206: the data register is read without take. -/
def execVst (g : Guard) (t : ETyp) (d : Reg) (m : MemOp) (s : State) : Host.Outcome State Fault Refusal :=
  runVmem s g (vmemNeed allActive (MemOp.srcs m) [d] []) t .store (fun th w => vseq t w (MemOp.ea th m)) fun s th l =>
    s.vstore (th.vreg d) (some m.base.reg) l
/-- R207. -/
def execVsts (g : Guard) (t : ETyp) (d : Reg) (m : MemOp) (s : State) : Host.Outcome State Fault Refusal :=
  runVmem s g (vmemNeed allActive (MemOp.srcs m) [d] []) t .store
    (fun th _ => vstride t (th.reg m.base.reg + m.disp.signExtend 64) (th.reg m.index.reg <<< m.sc.toNat)) fun s th l =>
    s.vstore (th.vreg d) (some m.base.reg) l
/-- R207. -/
def execVsct (g : Guard) (t : ETyp) (k : VMask) (sc : BitVec 2) (d : Reg) (a b : Src) (s : State) : Host.Outcome State Fault Refusal :=
  runVmem s g (vmemNeed k [a, b] [d] []) t .store (fun th _ => vindexed t k th (th.reg a.reg) sc (th.vreg b.reg)) fun s th l =>
    s.vstore (th.vreg d) none l

/-! ### FMTLD (R211) -/

/-- The sources of FMTLD. -/
def FmtldOp.srcs : FmtldOp → List Src
  | .a a | .b a => [a]
  | .fsh _ => []

/-- R211: a format register from a scalar. -/
def State.setFmt (s : State) (v : Word) (f : Thread → BitVec 24 → Thread) : Res :=
  let r : BitVec 24 := v.setWidth 24
  if fmtValid r then .ok (s.modThread s.cur (fun t => f t r)) else .trap 0x19 (r.setWidth 64)

/-- R211: the FSH descriptor's fields. -/
def State.fmtFrom (s : State) (p d : Word) : Res :=
  if d.extractLsb' 60 4 != 3 then .trap cDescbad p
  else if !fmtValid (d.extractLsb' 32 24) then .trap 0x19 ((d.extractLsb' 32 24).setWidth 64)
  else if !fmtValid (d.extractLsb' 8 24) then .trap 0x19 ((d.extractLsb' 8 24).setWidth 64)
  else .ok (s.modThread s.cur (fun t => { t with
    fa := d.extractLsb' 32 24, fb := d.extractLsb' 8 24, pw := PwField.put .rm t.pw ((d.extractLsb' 5 3).setWidth 64) }))

/-- R211: the descriptor's word is read as LD.w reads it: a roaming thread migrates to its home; a fetched word, for which
the instruction waits, follows the thread's own stores. -/
def execFmtld (g : Guard) (op : FmtldOp) (s : State) : Host.Outcome State Fault Refusal :=
  run s g { ext := .vec, srcs := FmtldOp.srcs op } fun s t =>
    match op with
    | .a a => s.setFmt (t.reg a.reg) (fun t r => { t with fa := r })
    | .b a => s.setFmt (t.reg a.reg) (fun t r => { t with fb := r })
    | .fsh n =>
      let p := t.fsh[n.toNat]'n.isLt
      if p = 0 then .trap cDescbad 0
      else if p.extractLsb' 0 6 != 0 then .trap cAlign p
      else s.access s.cur p 8 .load fun s1 pa leaf =>
        if !homeLocal t.core (homeOf pa) && migrates t (homeOf pa) leaf true then s1.goHome s.cur (homeOf pa) 0
        else if t.storing pa 8 then .wait (.ownStore pa) false p
        else if s1.fencedFrom t.core pa then .trap 0x0E p
        else if s1.poisoned (s1.viewOf t.domid (leafShadow leaf) pa) 8 then .trap cPoison p
        else s1.fmtFrom p (BitVec.ofNat 64 (s1.view t (leafShadow leaf) pa 8))

end Sys2Proof.Machine
end

