-- ==== Sys2Proof/Machine/Matrix.lean ====
section
/-! DEFINITION. The matrix engine (09: R213 to R238; R60 to R62): its ownership, the instructions of its thread, remote
commands, and the events in which commands, TAZ and TACC are performed. -/

namespace Sys2Proof.Machine

/-! ### Tiles, locks, status -/

/-- The number of a tile element. -/
def tileAt (t i j : Nat) : Nat := 2048 * t + 32 * i + j
/-- A tile element's bits; +0 when unlisted. -/
def Matrix.elem (m : Matrix) (k : Nat) : BitVec 32 := KMap.getD m.tiles k 0
/-- A tile element written. -/
def Matrix.setElem (m : Matrix) (k : Nat) (x : BitVec 32) : Matrix :=
  { m with tiles := if x = 0 then KMap.erase m.tiles k else KMap.set m.tiles k x }
/-- A whole tile at +0. -/
def Matrix.zeroTile (m : Matrix) (t : Nat) : Matrix :=
  { m with tiles := m.tiles.filter (fun p => decide (p.1 < 2048 * t ∨ 2048 * (t + 1) ≤ p.1)) }

/-- Fields of word 0 of a command block (R216). -/
def MxBlock.w (b : MxBlock) (i : Nat) : Word := b.words.getD i 0
def MxBlock.tile (b : MxBlock) : Nat := ((b.w 0).extractLsb' 56 2).toNat

/-- The pending command of the shadow set. -/
def Matrix.pending (m : Matrix) : Option MxCmd :=
  match m.shadow with
  | .pending c => some c
  | .empty | .loaded _ => none

/-- Every command accepted and not complete. -/
def Matrix.commands (m : Matrix) : List MxCmd := m.active.toList ++ m.pending.toList ++ m.remote

/-- R223: a tile is locked while an operation on it is incomplete. -/
def Matrix.locked (m : Matrix) (t : Nat) : Bool :=
  m.commands.any (fun c => decide (c.blk.tile = t)) || m.ops.any (fun o => decide (o.tile = t))

/-- R215: ENGST. -/
def Matrix.engst (m : Matrix) : Word :=
  BitVec.ofNat 64 ((if m.lnx then 2 ^ 58 else 0) + (if m.lnv then 2 ^ 57 else 0) + (if m.lof then 2 ^ 56 else 0) +
    2 ^ 48 * m.lastCode.toNat + 2 ^ 16 * (if m.active.isSome then m.done else 0) + (if m.capv then 1024 else 0) + 128 * m.remote.length +
    32 * (match m.shadow with
      | .empty => 0
      | .loaded _ => 1
      | .pending _ => 2) + (if m.active.isSome then 16 else 0) +
    (List.range 4).foldl (fun n t => n + (if m.locked t then 2 ^ t else 0)) 0)

/-! ### Ownership (R214) -/

/-- What an instruction of the engine needs; all but MXSEND need an anchored thread. -/
def mxNeed (srcs : List Src) (reads dests : List Reg) : Need := { ext := .mx, anc := true, srcs := srcs, reads := reads, dests := dests }

/-- R214: the thread becomes the owner; a change of context clears the engine. -/
def Matrix.claim (m : Matrix) (t : Thread) : Matrix :=
  let m1 := if m.last = none ∨ m.last = some (t.domid, t.cin) then m else { m with tiles := [], shadow := .empty, capv := false }
  { m1 with owner := some ⟨t.slot, t.domid, t.cin, t.tag⟩ }

/-- An instruction of the engine's owner: an engine without an owner is claimed first, once its remote commands have run, and
stays claimed whatever the instruction does; another owner is waited for. -/
def runMx (s : State) (g : Guard) (n : Need) (f : State → Thread → Matrix → Res) : Host.Outcome State Fault Refusal :=
  run s g n fun s t =>
    let m := (s.core t.core).mx
    let mine := match m.owner with
      | some o => t.owns o
      | none => false
    if mine then f s t m
    else if m.owner.isSome || m.active.isSome || !m.remote.isEmpty then .wait .mxOwner true (BitVec.ofNat 64 t.core)
    else
      let s1 := s.modCore t.core (fun c => { c with mx := c.mx.claim t })
      match f s1 t (m.claim t) with
      | .trap c a => .gone (s1.trapHere c a)
      | .wait w c a => .gone (s1.block s.cur w c a)
      | r => r

/-- The engine of a thread's core, changed. -/
def State.modMx (s : State) (core : Nat) (f : Matrix → Matrix) : State := s.modCore core (fun c => { c with mx := f c.mx })

/-! ### MXSET, MXRUN, MXSEND (R227 to R230) -/

/-- The words of a command block. -/
def blockWords (v : Nat) : List Word := (List.range 8).map (wordAt v)

/-- R227, R228. -/
def execMxset (g : Guard) (a : Src) (s : State) : Host.Outcome State Fault Refusal :=
  runMx s g (mxNeed [a] [] []) fun s t m =>
    let p := t.reg a.reg
    if p.extractLsb' 0 6 != 0 then .trap cAlign p
    else if m.pending.isSome then .wait .mxShadow true p
    else t.afterStores <| s.readBlock t.ctx p 64 false fun s1 v =>
      .ok (s1.modMx t.core (fun m => { m with shadow := .loaded ⟨blockWords v, t.fa, t.fb⟩ }))

/-- A command of a thread as it is accepted in a cycle. -/
def Thread.mxCmd (t : Thread) (tid : Nat) (b : MxBlock) (cl : Clauses) (acc now : Nat) (met : Bool) : MxCmd :=
  { blk := b, clauses := cl, acc := acc, when_ := 2 * now, domid := t.domid, cin := t.cin, tag := t.tag, sup := t.sup, tid := tid, core := t.core
    remote := false, met := met }

/-- R229: the thread's own stores are performed before the command is accepted, so that its operand reads follow them. -/
def execMxrun (g : Guard) (cl : Clauses) (s : State) : Host.Outcome State Fault Refusal :=
  runMx s g (mxNeed [] [] []) fun s t m =>
    match m.shadow with
    | .empty => .trap cDescbad 0
    | .pending _ => .wait .mxShadow true 0
    | .loaded b =>
      t.afterStores <| .ok (s.modMx t.core (fun m => { m with
        shadow := .pending (t.mxCmd s.cur b cl m.accNo (s.now t.core) (s.clauseHolds t.cluster cl)), accNo := m.accNo + 1 }))

/-- R230: the flit of MXSEND. A position at which no core stands takes no flit: the command is counted as an orphan. -/
def State.mxSend (s : State) (t : Thread) (cap : Word) (b : MxBlock) (cl : Clauses) : Res :=
  let pos := (cap.extractLsb' 0 18).toNat
  if !s.corePresent pos then .ok (s.orphaned t.cluster)
  else if s.sendOverflow t.core then .trap 0x0F (BitVec.ofNat 64 pos)
  else .ok (s.bumpId.request t pos kEngc (.engc (t.asker s.cur s.nextId false) cap b cl t.core))

/-- R230: the block is read first; the wait clause is then waited for. -/
def execMxsend (g : Guard) (a b : Src) (cl : Clauses) (s : State) : Host.Outcome State Fault Refusal :=
  run s g { ext := .mx, srcs := [a, b], outside := true } fun s t =>
    let p := t.reg b.reg
    let cap := t.reg a.reg
    match t.wait with
    | some (.clause k ws wt met blk) =>
      if met then s.mxSend t cap ⟨blk, t.fa, t.fb⟩ cl else .wait (.clause k ws wt met blk) true p
    | _ =>
      if p.extractLsb' 0 6 != 0 then .trap cAlign p
      else t.afterStores <| s.readBlock t.ctx p 64 false fun s1 v =>
        if s1.clauseHolds t.cluster cl then s1.mxSend t cap ⟨blockWords v, t.fa, t.fb⟩ cl
        else .gone (s1.block s.cur (.clause t.cluster cl.ws.toNat cl.wt.toNat false (blockWords v)) true p)

/-! ### TARD and TAWR (R231) -/

/-- The row of TARD and TAWR. -/
def RowSel.val (t : Thread) : RowSel → Word
  | .imm r => r.setWidth 64
  | .reg s => t.reg s.reg
def RowSel.srcs : RowSel → List Src
  | .imm _ => []
  | .reg s => [s]

/-- R231: a tile row as the bits of a vector register of type `t`. -/
def Matrix.readRow (m : Matrix) (tile r : Nat) (t : ETyp) (k : VMask) (th : Thread) (rm : RM) (d : Reg) (x : Vx) : Vx × BitVec 1024 :=
  vloop t t.fixedWidth (VMask.lane k th) (th.vreg d) x fun j x =>
    let e := (m.elem (tileAt tile r j)).toNat
    if t = .f32 then (x, e) else vfin th t rm ⟨f32Fmt.value e, false, false⟩ x

/-- R231: TARD. -/
def execTard (g : Guard) (t : ETyp) (rm : RM) (k : VMask) (d : Reg) (tile : BitVec 2) (row : RowSel) (s : State) :
    Host.Outcome State Fault Refusal :=
  runMx s g (mxNeed (RowSel.srcs row) (VMask.reads k) [d]) fun s th m =>
    let r := RowSel.val th row
    if 63 < r.toNat then .trap cTarange r
    else if m.locked tile.toNat then .wait (.tile tile.toNat) true (tile.setWidth 64)
    else
      let p := m.readRow tile.toNat r.toNat t k th (rm.eff th.pw) d ⟨{}, th.rnd⟩
      .ok (((s.modThread s.cur (fun t => { t with rnd := p.1.rnd })).raise s.cur p.1.fl.bits).writeV s.cur d p.2)

/-- R231: TAWR: active elements are stored as bits. -/
def execTawr (g : Guard) (k : VMask) (a : Src) (tile : BitVec 2) (row : RowSel) (s : State) : Host.Outcome State Fault Refusal :=
  runMx s g (mxNeed (a :: RowSel.srcs row) (VMask.reads k) []) fun s th m =>
    let r := RowSel.val th row
    if 63 < r.toNat then .trap cTarange r
    else if m.locked tile.toNat then .wait (.tile tile.toNat) true (tile.setWidth 64)
    else .ok (s.modMx th.core (fun m => ((List.range 32).filter (VMask.on k th)).foldl (fun m j =>
      m.setElem (tileAt tile.toNat r.toNat j) (BitVec.ofNat 32 (laneOf (th.vreg a.reg) j))) m))

/-! ### TAZ, TACC, TAQ, MXCAP (R232 to R235) -/

/-- R222: TAZ or TACC is accepted; a fifth waits. The wait clause of a TAZ is tested first here, at its acceptance: R21 and R356 do
not say whether the command waits from there or from its turn on the tile. (DEDUCED: log entry 72) -/
def State.acceptOp (s : State) (t : Thread) (m : Matrix) (tile : Nat) (chain : Option Chain) (cl : Clauses) : Res :=
  if 4 ≤ m.ops.length then .wait (.tile 4) true (BitVec.ofNat 64 tile)
  else .ok (s.modMx t.core (fun m => { m with
    accNo := m.accNo + 1
    ops := m.ops ++ [{ tile := tile, acc := m.accNo, when_ := 2 * s.now t.core, chain := chain, fl := {}, stall := none, clauses := cl, domid := t.domid, cin := t.cin, sup := t.sup, tid := s.cur
                       met := s.clauseHolds t.cluster cl }] }))

/-- R232. -/
def execTaz (g : Guard) (tile : BitVec 2) (cl : Clauses) (s : State) : Host.Outcome State Fault Refusal :=
  runMx s g (mxNeed [] [] []) fun s t m => s.acceptOp t m tile.toNat none cl

/-- The 8 KiB from an address lie in the core's TCM or in its cluster's scratchpad (R235, R240). -/
def State.recvOk (s : State) (core : Nat) (a : Nat) : Bool :=
  let inTcm := decide (homeOf a = .tcm core) && decide (homeOf (a + 8191) = .tcm core)
  let c := clusterOf core
  let k := s.cluster c
  let inPad := fun (x : Nat) => decide (homeOf x = .pool c) && decide (k.bnd0.toNat ≤ x % 8388608 / 65536) &&
    decide (x % 8388608 / 65536 < k.bnd1.toNat)
  bit (BitVec.ofNat 64 a) 55 && decide (a < 2 ^ 56) && (inTcm || (inPad a && inPad (a + 8191)))

/-- No clause. -/
abbrev noClauses : Clauses := ⟨0, 0, 0, 0⟩

/-- R235. -/
def execTacc (g : Guard) (tile : BitVec 2) (a b : Src) (s : State) : Host.Outcome State Fault Refusal :=
  runMx s g { mxNeed [a, b] [] [] with outside := true } fun s t m =>
    let src := t.reg a.reg
    let dst := t.reg b.reg
    if src.extractLsb' 0 7 != 0 then .trap cAlign src
    else if dst.extractLsb' 0 7 != 0 then .trap cAlign dst
    else if src != 0 && !s.recvOk t.core src.toNat then .trap cTarange src
    else s.acceptOp t m tile.toNat (some { src := src.toNat, dst := dst.toNat }) noClauses

/-- Work that a thread has committed to the engine, its queued commands included, is incomplete (R233). -/
def Matrix.works (m : Matrix) (tid : Nat) : Bool := m.commands.any (fun c => decide (c.tid = tid)) || m.ops.any (fun o => decide (o.tid = tid))

/-- R233. -/
def execTaq (g : Guard) (wt : Bool) (d : Reg) (s : State) : Host.Outcome State Fault Refusal :=
  runMx s g (mxNeed [] [] [d]) fun s _ m =>
    if wt && m.works s.cur then .wait .mxIdle true 0 else .ok (s.write s.cur d m.engst)

/-- R225: a nonce that differs from the previous one of this engine; its value is not stated. (DEDUCED: log entries 72, 84) -/
def freshNonce (old : BitVec 24) (free : Word) : BitVec 24 :=
  let n : BitVec 24 := free.setWidth 24
  if n = old then n + 1 else n

/-- R234. (DESIGN CHOICE: log entry 84) -/
def execMxcap (g : Guard) (d : Reg) (a : Src) (s : State) : Host.Outcome State Fault Refusal :=
  runMx s g (mxNeed [a] [] [d]) fun s t m =>
    let k := t.reg a.reg
    if 15 < k.toNat then .trap cDescbad k
    else if k = 0 then .ok ((s.modMx t.core (fun m => { m with capv := false })).write s.cur d 0)
    else
      let nonce := freshNonce (m.capReg.extractLsb' 30 24) s.freeWord
      let cap : Word := (k <<< 54) ||| (nonce.setWidth 64 <<< 30) ||| (t.domid.setWidth 64 <<< 18) ||| BitVec.ofNat 64 t.core
      .ok ((s.bumpFree.modMx t.core (fun m => { m with capv := true, capReg := cap })).write s.cur d cap)

/-! ### Completion (R224) -/

/-- R224: the status word. -/
def mxStatus (code : BitVec 8) (done : Nat) (nx nv ofl : Bool) : Word :=
  BitVec.ofNat 64 (2 ^ 16 * done + (if nx then 1024 else 0) + (if nv then 512 else 0) + (if ofl then 256 else 0) + code.toNat)

/-- The signal of a command, applied to its sender's cluster; from another cluster it travels there. -/
def State.mxSignal (s : State) (core : Nat) (c : MxCmd) : State :=
  if clusterOf c.core = clusterOf core then s.signal (clusterOf core) c.clauses
  else if c.clauses.si = 0 then s
  else s.sendFlit core c.core kStat c.domid c.cin c.tag 0 (.signal c.clauses)

/-- The status word is written where STATUS names a place for it; none while its page is absent. A write that fails
otherwise is lost. -/
def State.mxReport (s : State) (core : Nat) (c : MxCmd) (st : Word) : Option State :=
  let p := c.blk.w 7
  if p = 0 ∨ p.extractLsb' 0 3 != 0 then some s
  else match s.writeRange (engineCtx core c.domid c.cin c.tag c.sup) p.toNat 8 st.toNat with
    | .ok s1 _ | .bad s1 _ _ => some s1
    | .absent _ _ => none

/-- The command on the array meets an absent page: it stalls, and a fault message is sent (R224). (DEDUCED: log entry 57) -/
def State.mxStall (s : State) (core : Nat) (c : MxCmd) (va : Word) : State :=
  s.stallMsg core uMatrix (engineCtx core c.domid c.cin c.tag c.sup) va |>.modMx core (fun m => { m with stall := some va })

/-- R224, R226: a command that ends without having run: status, ENGST of the engine at which it stood, signal. An absent page of
its STATUS is waited for. -/
def State.mxReject (s : State) (core : Nat) (c : MxCmd) (code : BitVec 8) (here : Bool) : State :=
  match s.mxReport core c (mxStatus code 0 false false false) with
  | some s1 =>
    (if here then s1.modMx core (fun m => { m with lastCode := code, lnx := false, lnv := false, lof := false }) else s1).mxSignal core c
  | none => (s.stallMsg core uReject (engineCtx core c.domid c.cin c.tag c.sup) (c.blk.w 7)).modMx core (fun m =>
      { m with rejects := m.rejects ++ [(c, code, here)], asked := true })
/-- The rejected commands whose STATUS had no page end now, if it is there; after a wake with a cause their status is lost. -/
def State.mxRejects (s : State) (core : Nat) (lost : Bool) : State :=
  (s.core core).mx.rejects.foldl (fun s p => s.mxReject core (if lost then { p.1 with blk := { p.1.blk with words := p.1.blk.words.take 7 } } else p.1) p.2.1 p.2.2)
    (s.modMx core (fun m => { m with rejects := [], asked := false }))

/-- R224: the command on the array completes once it has been summed: status, ENGST, signal. (DESIGN CHOICE: log entry 73) -/
def State.mxComplete (s : State) (core : Nat) : State :=
  let m := (s.core core).mx
  if m.stall.isSome then s else
  match m.active, m.result with
  | some c, some code =>
    match s.mxReport core c (mxStatus code m.done m.nx m.nv m.ofl) with
    | none => s.mxStall core c (c.blk.w 7)
    | some s1 =>
      ((s1.modMx core (fun m => { m with
        active := none, result := none, done := 0, lastCode := code, lnx := m.nx, lnv := m.nv, lof := m.ofl
        nx := false, nv := false, ofl := false, pinned := [], copy := [] })).mxSignal core c).ownerGone core
  | _, _ => if m.rejects.isEmpty || m.asked then s else s.mxRejects core false

/-! ### Remote commands (R226) -/

/-- R226: a command at its target; none when the remote queue is full. -/
def State.engcArrive (s : State) (core : Nat) (who : Asker) (cap : Word) (b : MxBlock) (cl : Clauses) (from_ : Nat) : Option State :=
  let m := (s.core core).mx
  let c : MxCmd := { blk := b, clauses := cl, acc := m.accNo, when_ := 2 * s.now core + 1, domid := who.domid, cin := who.cin, tag := who.tag, sup := who.sup, tid := who.tid
                     core := from_, remote := true, met := true }
  if !m.capv || cap != m.capReg || who.domid != m.capReg.extractLsb' 18 12 || !bit (m.capReg) (54 + b.tile) then
    some (s.mxReject core c 0x14 true)
  else if 4 ≤ m.remote.length then none
  else some (s.modMx core (fun m => { m with remote := m.remote ++ [c], accNo := m.accNo + 1 }))

/-- R226: a remote command arrives. -/
def execRemoteCommandArrival (msg : Nat) (s : State) : Host.Outcome State Fault Refusal :=
  .next <| s.atHome msg fun s m => match m.body with
    | .engc who cap b cl core => s.engcArrive m.ldest who cap b cl core
    | _ => none

/-! ### Commands on the array (R218 to R220, R60, R61) -/

/-- A command block's contents (R216, R217). -/
structure MxShape where
  fa : Fmt
  fb : Fmt
  rows : Nat
  cols : Nat
  k : Nat
  abase : Nat
  astr : Nat
  bbase : Nat
  bstr : Nat
  asc : Nat
  ascs : Nat
  bsc : Nat
  bscs : Nat
deriving DecidableEq, Repr

/-- The element type of a field TA or TB. -/
def mxType (n : Nat) : Option ETyp :=
  if n = 2 then some .f16 else if n = 3 then some .e8m7 else if n = 12 then some .fna else if n = 13 then some .fnb else none

/-- The bytes that `n` rows of pitch `str` need from `base`, each of `len` bytes, end at this address; 0 for none. -/
def endOf (base str n len : Nat) : Nat := if n = 0 ∨ len = 0 then 0 else base + (n - 1) * str + len

/-- R218: the checks of a command: its shape, or the code that it ends with. -/
def MxBlock.shape (b : MxBlock) : Except (BitVec 8) MxShape :=
  let w0 := b.w 0
  match mxType (w0.extractLsb' 52 4).toNat, mxType (w0.extractLsb' 48 4).toNat with
  | some ta, some tb =>
    let sh : MxShape := {
      fa := ta.fmt b.fa b.fb, fb := tb.fmt b.fa b.fb
      rows := (w0.extractLsb' 40 6).toNat + 1, cols := (w0.extractLsb' 35 5).toNat + 1, k := (w0.extractLsb' 0 32).toNat
      abase := (b.w 1).toNat, astr := ((b.w 2).extractLsb' 0 32).toNat, bbase := (b.w 3).toNat, bstr := ((b.w 2).extractLsb' 32 32).toNat
      asc := (b.w 4).toNat, ascs := ((b.w 6).extractLsb' 0 32).toNat, bsc := (b.w 5).toNat, bscs := ((b.w 6).extractLsb' 32 32).toNat }
    let wide := fun (t : ETyp) => !t.isNarrow
    if w0.extractLsb' 60 4 != 4 || bit w0 59 || w0.extractLsb' 46 2 != 0 || w0.extractLsb' 32 3 != 0 ||
        (b.w 7).extractLsb' 0 3 != 0 || (decide (sh.asc ≠ 0) && wide ta) || (decide (sh.bsc ≠ 0) && wide tb) ||
        (wide ta && (decide (sh.abase % 2 ≠ 0) || decide (sh.astr % 2 ≠ 0))) ||
        (wide tb && (decide (sh.bbase % 2 ≠ 0) || decide (sh.bstr % 2 ≠ 0))) then .error 0x1A
    else if (badFmt b.fa b.fb [ta, tb]).isSome then .error 0x19
    else if 2 ^ 56 < endOf sh.abase sh.astr sh.rows ((sh.k * sh.fa.width + 7) / 8) ∨ 2 ^ 56 < endOf sh.bbase sh.bstr sh.cols ((sh.k * sh.fb.width + 7) / 8) ∨
        (sh.asc ≠ 0 ∧ 2 ^ 56 < endOf sh.asc sh.ascs sh.rows ((sh.k + 31) / 32)) ∨
        (sh.bsc ≠ 0 ∧ 2 ^ 56 < endOf sh.bsc sh.bscs sh.cols ((sh.k + 31) / 32)) then .error 0x1A
    else .ok sh
  | _, _ => .error 0x1A

/-- R60: products per group. -/
def MxShape.group (h : MxShape) : Nat :=
  if 8 < h.fa.width ∨ 8 < h.fb.width then 4 else if 4 < h.fa.width ∨ 4 < h.fb.width then 16 else 32

/-- A row's elements and scale code in one group. -/
abbrev RowPart := List Num × Nat

/-- Bytes of the lines in the staging region. -/
def Matrix.staged (m : Matrix) (a n : Nat) : Nat :=
  ((linesOf a n).zipIdx.foldl (fun v p => v + (KMap.getD m.pinned p.1 (0, [])).1 * 256 ^ (128 * p.2)) 0) / 256 ^ (a % 128) % 256 ^ n
/-- Some of those bytes lie in a poisoned word. -/
def Matrix.stagedBad (m : Matrix) (a n : Nat) : Bool :=
  (linesOf a n).any (fun l => (KMap.getD m.pinned l (0, [])).2.any (fun w => decide (l + w < a + n ∧ a < l + w + 8)))
/-- R220: a line is read once, as one access, and pinned. -/
def State.pinLine (s : State) (core : Nat) (c : Ctx) (l : Nat) : Got Unit :=
  if (KMap.find (s.core core).mx.pinned l).isSome then .ok s ()
  else match s.resolve c (BitVec.ofNat 64 l) .load with
    | (s1, .fail f) => .bad s1 f (BitVec.ofNat 64 l)
    | (s1, .absent) => .absent s1 (BitVec.ofNat 64 l)
    | (s1, .at pa leaf) =>
      let q := s1.viewOf c.domid (leafShadow leaf) pa
      if s1.fencedFrom core pa then .bad s1 0x0E (BitVec.ofNat 64 l)
      else .ok (s1.modMx core (fun m => { m with
        pinned := KMap.set m.pinned l (s1.peek q 128, ((List.range 16).map (8 * ·)).filter (fun w => s1.poisoned (q + w) 8)) })) ()
/-- Lines pinned one after another. -/
def State.pinLines (s : State) (core : Nat) (c : Ctx) : List Nat → Got Unit
  | [] => .ok s ()
  | l :: r => match s.pinLine core c l with
    | .ok s1 _ => State.pinLines s1 core c r
    | x => x
/-- Operand bytes, through the staging region. -/
def State.pinRead (s : State) (core : Nat) (c : Ctx) (a n : Nat) : Got Nat :=
  match s.pinLines core c (linesOf a n) with
  | .bad s1 f va => .bad s1 f va
  | .absent s1 va => .absent s1 va
  | .ok s1 _ =>
    if (s1.core core).mx.stagedBad a n then .bad s1 cPoison (BitVec.ofNat 64 a) else .ok s1 ((s1.core core).mx.staged a n)

/-- The operand rows of one side for `n` indices from `k0`. -/
def State.readRows (s : State) (core : Nat) (c : Ctx) (f : Fmt) (rows base str sc scs k0 n : Nat) : Got (List RowPart) :=
  (List.range rows).foldl (fun r i => match r with
    | .ok s1 l =>
      let at_ := 8 * base + 8 * i * str + k0 * f.width
      match s1.pinRead core c (at_ / 8) ((at_ % 8 + n * f.width + 7) / 8) with
      | .bad s2 e a => .bad s2 e a
      | .absent s2 a => .absent s2 a
      | .ok s2 v =>
        let row := (List.range n).map (fun j => f.value (v / 2 ^ (at_ % 8 + f.width * j) % 2 ^ f.width))
        if sc = 0 then .ok s2 (l ++ [(row, 127)])
        else match s2.pinRead core c (sc + i * scs + k0 / 32) 1 with
          | .ok s3 x => .ok s3 (l ++ [(row, x)])
          | .bad s3 e a => .bad s3 e a
          | .absent s3 a => .absent s3 a
    | r => r) (.ok s [])

/-- Products of two rows. -/
def products (a b : List Num) : List Num := List.zipWith (fun x y => (mulNum x y).num) a b

/-- An infinity of a sign. -/
def Num.isInf (neg : Bool) : Num → Bool
  | .inf n => n == neg
  | _ => false

/-- The exact sum of finite numbers; a zero sum is +0 unless every number is -0. -/
def sumEx : List Num → Ex
  | [] => ⟨false, 0, 0, false⟩
  | [.fin x] => x
  | .fin x :: r => addEx .rne x (sumEx r)
  | _ :: r => sumEx r

/-- R60, R61: the value of a group before rounding, and whether it is NaN under R61. -/
def groupSum (a b : RowPart) : Num :=
  if a.2 = 255 ∨ b.2 = 255 then .nan false
  else if a.2 = 0 ∨ b.2 = 0 then .of false 0 0
  else
    let p := products a.1 b.1
    if p.any Num.isNan || (p.any (Num.isInf true) && p.any (Num.isInf false)) then .nan false
    else if p.any (Num.isInf true) then .inf true
    else if p.any (Num.isInf false) then .inf false
    else
      let x := sumEx p
      .fin { x with exp := x.exp + (a.2 : Int) - 127 + (b.2 : Int) - 127 }

/-- R60: one group added to an accumulator element: group rounding, then one addition, both RNE. -/
def addGroup (acc : BitVec 32) (g : Num) : BitVec 32 × Fl :=
  let p := f32Fmt.put .rne 0 g
  let q := f32Fmt.finish .rne 0 (addNum .rne (f32Fmt.value acc.toNat) (f32Fmt.value p.1))
  (BitVec.ofNat 32 q.1, { nx := p.2.nx || q.2.nx, ofl := p.2.ofl || q.2.ofl, nv := g.isNan })

/-- One group added to the whole of the M by N region (R219). -/
def Matrix.addGroups (m : Matrix) (tile : Nat) (as bs : List RowPart) : Matrix :=
  (as.zipIdx).foldl (fun m a => (bs.zipIdx).foldl (fun m b =>
    let k := tileAt tile a.2 b.2
    let r := addGroup (m.elem k) (groupSum a.1 b.1)
    let m1 := m.setElem k r.1
    { m1 with nx := m1.nx || r.2.nx, nv := m1.nv || r.2.nv, ofl := m1.ofl || r.2.ofl }) m) m

/-- R219, R220, R224: the groups from `done` on. A failure ends the command at its group; an absent page stalls it there. -/
def State.mxGroups (s : State) (core : Nat) (c : MxCmd) (h : MxShape) : Nat → State
  | 0 => s
  | fuel + 1 =>
    let k0 := (s.core core).mx.done
    if h.k ≤ k0 then s.modMx core (fun m => { m with result := some 0 })
    else
      let n := Nat.min h.group (h.k - k0)
      let ctx := engineCtx core c.domid c.cin c.tag c.sup
      match s.readRows core ctx h.fa h.rows h.abase h.astr h.asc h.ascs k0 n with
      | .bad s1 e _ => s1.modMx core (fun m => { m with result := some (BitVec.ofNat 8 (engineCause e)) })
      | .absent s1 va => s1.mxStall core c va
      | .ok s1 as =>
        match s1.readRows core ctx h.fb h.cols h.bbase h.bstr h.bsc h.bscs k0 n with
        | .bad s2 e _ => s2.modMx core (fun m => { m with result := some (BitVec.ofNat 8 (engineCause e)) })
        | .absent s2 va => s2.mxStall core c va
        | .ok s2 bs =>
          State.mxGroups (s2.modMx core (fun m => { m.addGroups c.blk.tile as bs with done := k0 + n })) core c h fuel

/-- The command on the array is checked and summed as far as it can be. -/
def State.mxRun (s : State) (core : Nat) : State :=
  let m := (s.core core).mx
  if m.stall.isSome then s else
  match m.active, m.result with
  | some c, none =>
    match c.blk.shape with
    | .error e => s.modMx core (fun m => { m with result := some e })
    | .ok h =>
      let s1 := if m.done = 0 && bit (c.blk.w 0) 58 then s.modMx core (fun m => m.zeroTile c.blk.tile) else s
      s1.mxGroups core c h (h.k / 4 + 2)
  | _, _ => s

/-- R222: one acceptance comes before another: by cycle, a local one first, then as they were taken. -/
def acceptedBefore (when1 acc1 when2 acc2 : Nat) : Bool := decide (when1 < when2 ∨ (when1 = when2 ∧ acc1 < acc2))
/-- R222: no operation accepted before is incomplete on the tile. -/
def Matrix.tileTurn (m : Matrix) (tile when_ acc : Nat) : Bool :=
  m.commands.all (fun c => decide (c.blk.tile ≠ tile) || !acceptedBefore c.when_ c.acc when_ acc) &&
    m.ops.all (fun o => decide (o.tile ≠ tile) || !acceptedBefore o.when_ o.acc when_ acc)
/-- R222: the command that starts next: the pending set or the head of the remote queue, its clause met and no operation
accepted earlier on its tile incomplete. -/
def Matrix.next (m : Matrix) : Option MxCmd :=
  let ready := fun (c : MxCmd) => c.met && m.tileTurn c.blk.tile c.when_ c.acc
  match m.pending.filter ready, m.remote.head?.filter ready with
  | some a, some b => if acceptedBefore b.when_ b.acc a.when_ a.acc then some b else some a
  | some a, none => some a
  | none, o => o

/-- The elements of a tile that are not +0. -/
def Matrix.tileOf (m : Matrix) (t : Nat) : List (Nat × BitVec 32) := m.tiles.filter (fun p => decide (2048 * t ≤ p.1 ∧ p.1 < 2048 * (t + 1)))
/-- R221, R432: the command moves from its set or queue to the array; on a paired core its tile is copied. -/
def Matrix.start (m : Matrix) (c : MxCmd) (paired : Bool) : Matrix :=
  let m1 := { m with active := some c, result := none, done := 0, nx := false, nv := false, ofl := false, pinned := []
                     copy := if paired then m.tileOf c.blk.tile else [] }
  if c.remote then { m1 with remote := m1.remote.tail } else { m1 with shadow := .loaded c.blk }

/-- R222: the engine starts a command when the array is free, or goes on with one that an absent page has stalled. (DESIGN CHOICE: log entry 73) -/
def execMxCommandStart (core : Nat) (s : State) : Host.Outcome State Fault Refusal :=
  .next <|
    let m := (s.core core).mx
    match m.active with
    | some _ => s.mxRun core
    | none => match m.next with
      | some c => (s.modMx core (fun m => m.start c (s.core core).pair.isSome)).mxRun core
      | none => s

/-! ### TAZ and TACC (R232, R235) -/

/-- The operation may be performed: its clause is met and no operation accepted earlier on its tile is incomplete. -/
def Matrix.opReady (m : Matrix) (o : TileOp) : Bool :=
  o.met && o.stall.isNone && m.tileTurn o.tile o.when_ o.acc
/-- An operation completes: ENGST.LAST and its flags, then its signal. -/
def State.opDone (s : State) (core : Nat) (o : TileOp) (code : BitVec 8) (fl : Fl) : State :=
  ((s.modMx core (fun m => { m with
    ops := m.ops.filter (fun x => decide (x.acc ≠ o.acc)), lastCode := code, lnx := fl.nx, lnv := fl.nv, lof := fl.ofl })).signal
      (clusterOf core) o.clauses).ownerGone core

/-- R232: the first TAZ that may be performed. (DEDUCED: log entry 72) -/
def execTazPerform (core : Nat) (s : State) : Host.Outcome State Fault Refusal :=
  .next <|
    let m := (s.core core).mx
    match m.ops.find? (fun o => o.chain.isNone && m.opReady o) with
    | some o => (s.modMx core (fun m => m.zeroTile o.tile)).opDone core o 0 {}
    | none => s

/-- One row received into the tile (R62): each element received + own, rounded RNE. -/
def Matrix.addRow (m : Matrix) (tile r v : Nat) : Matrix × Fl :=
  (List.range 32).foldl (fun (p : Matrix × Fl) j =>
    let k := tileAt tile r j
    let q := f32Fmt.finish .rne 0 (addNum .rne (f32Fmt.value (v / 2 ^ (32 * j))) (f32Fmt.value (p.1.elem k).toNat))
    (p.1.setElem k (BitVec.ofNat 32 q.1), p.2.or q.2)) (m, {})
/-- A row of a tile as 128 bytes. -/
def Matrix.rowBytes (m : Matrix) (tile r : Nat) : Nat :=
  (List.range 32).foldl (fun n j => n + (m.elem (tileAt tile r j)).toNat * 2 ^ (32 * j)) 0

/-- The progress of a TACC is kept in it. -/
def State.setOp (s : State) (core : Nat) (o : TileOp) (ch : Chain) (fl : Fl) : State :=
  s.modMx core (fun m => { m with ops := m.ops.map (fun x => if x.acc = o.acc then { x with chain := some ch, fl := x.fl.or fl } else x) })

/-- A TACC meets an absent page. -/
def State.opStall (s : State) (core : Nat) (o : TileOp) (c : Ctx) (va : Word) : State :=
  (s.stallMsg core uTacc c va).modMx core (fun m => { m with
    ops := m.ops.map (fun x => if x.acc = o.acc then { x with stall := some va } else x) })

/-- R235: the next word of the row is taken, if it is full; a row that is complete is added. -/
def State.taccTake (s : State) (core : Nat) (o : TileOp) (ch : Chain) : State :=
  let c := engineCtx core o.domid o.cin 0 o.sup
  if ch.src = 0 then s.setOp core o { ch with sent := some 0 } {}
  else if 16 ≤ ch.got.length then
    let p := (s.core core).mx.addRow o.tile ch.row (ch.got.zipIdx.foldl (fun n w => n + w.1.toNat * 2 ^ (64 * w.2)) 0)
    (s.modMx core (fun _ => p.1)).setOp core o { ch with got := [], sent := some 0 } p.2
  else
    let a := BitVec.ofNat 64 (ch.src + 128 * ch.row + 8 * ch.got.length)
    match s.resolve c a .load with
    | (s1, .fail e) => s1.opDone core o (BitVec.ofNat 8 (engineCause e)) o.fl
    | (s1, .absent) => s1.opStall core o c a
    | (s1, .at pa leaf) =>
      let q := s1.viewOf c.domid (leafShadow leaf) pa
      if s1.poisoned q 8 then s1.opDone core o 0x0A o.fl
      else if !s1.tagFull q then s
      else ((s1.setTag q false).tagsChanged core pa q 8).setOp core o { ch with got := ch.got ++ [s1.peekW q] } {}

/-- R235: the next word of the row is sent, if it is empty; after the last the next row begins. -/
def State.taccSend (s : State) (core : Nat) (o : TileOp) (ch : Chain) (i : Nat) : State :=
  let c := engineCtx core o.domid o.cin 0 o.sup
  if 16 ≤ i ∨ ch.dst = 0 then
    if ch.row = 63 then s.opDone core o 0 o.fl else s.setOp core o { ch with row := ch.row + 1, sent := none } {}
  else
    let va := ch.dst + 128 * ch.row + 8 * i
    let a := BitVec.ofNat 64 va
    match s.resolve c a .store with
    | (s1, .fail e) => s1.opDone core o (BitVec.ofNat 8 (engineCause e)) o.fl
    | (s1, .absent) => s1.opStall core o c a
    | (s1, .at pa leaf) =>
      if s1.tagFull (s1.viewOf c.domid (leafShadow leaf) pa) then s
      else match s1.writeRange c va 8 ((s1.core core).mx.rowBytes o.tile ch.row / 2 ^ (64 * i) % 2 ^ 64) with
        | .ok s2 _ => s2.setOp core o { ch with sent := some (i + 1) } {}
        | .bad s2 e _ => s2.opDone core o (BitVec.ofNat 8 (engineCause e)) o.fl
        | .absent s2 va => s2.opStall core o c va

/-- R235: a TACC goes on within its row, word by word, for as long as the tags allow it. (DEDUCED: log entry 72) -/
def State.taccRow (s : State) (core acc row : Nat) : Nat → State
  | 0 => s
  | fuel + 1 =>
    match (s.core core).mx.ops.find? (fun o => decide (o.acc = acc)) with
    | none => s
    | some o =>
      match o.chain with
      | none => s
      | some ch =>
        if o.stall.isSome || decide (ch.row ≠ row) then s
        else
          let s1 := match ch.sent with
            | none => s.taccTake core o ch
            | some i => s.taccSend core o ch i
          if (s1.core core).mx.ops = (s.core core).mx.ops then s else State.taccRow s1 core acc row fuel

/-- R235: the next row of the first TACC that can go on. With neither buffer a TACC completes at once. (DEDUCED: log entry 72) -/
def execTaccRow (core : Nat) (s : State) : Host.Outcome State Fault Refusal :=
  .next <|
    let m := (s.core core).mx
    (m.ops.filter m.opReady).foldl (fun s1 o => if s1 != s then s1 else match o.chain with
      | some ch => if ch.src = 0 ∧ ch.dst = 0 then s.opDone core o 0 {} else s.taccRow core o.acc ch.row 40
      | none => s) s

end Sys2Proof.Machine
end

