-- ==== Sys2Proof/Machine/Copy.lean ====
section
/-! DEFINITION. The copy port (11: R267 to R285; R73 to R79): descriptors, the acceptance of CPY and CPYX, the movement of
commands with their codecs, stalls and the scout, arenas, CPQ, CPCAN and SCOUT. -/

namespace Sys2Proof.Machine

/-! ### Tensors (R73, R74) -/

/-- Elements of a tensor. -/
def Tensor.count (x : Tensor) : Nat := x.ext.foldl (· * ·) 1
/-- An element's type as a format, and its width. -/
def Tensor.format (x : Tensor) : Fmt := x.t.fmt x.fmt x.fmt
/-- The indices of an element in each dimension, from its linear index. -/
def indices : List Nat → Nat → List Nat
  | [], _ => []
  | n :: r, k => k % n :: indices r (k / n)
/-- R74: the first bit of the element of linear index `k`. -/
def Tensor.at (x : Tensor) (k : Nat) : Nat :=
  (((8 * x.base + x.boff : Nat) : Int) + (List.zipWith (fun i (st : Int) => (i : Int) * st) (indices x.ext k) x.stride).foldl (· + ·) 0).toNat

/-- R73 to R75: a tensor descriptor from its words, or the code that it ends a command with: DESCBAD of its fields before FMTBAD
before DESCBAD of its range. Every dimension of more than one element must keep elements of 8 or more bits at byte addresses,
interior ones too. (DEDUCED: log entry 82) -/
def tensorOf (v : Nat) (fa fb : BitVec 24) : Except (BitVec 8) Tensor :=
  let w := wordAt v
  let rank := ((w 0).extractLsb' 53 3).toNat
  let exts := [((w 3).extractLsb' 0 32).toNat, ((w 3).extractLsb' 32 32).toNat, ((w 4).extractLsb' 0 32).toNat, ((w 4).extractLsb' 32 32).toNat]
  let strides := [(w 5).toInt, (w 6).toInt, (w 7).toInt, (w 8).toInt]
  match ETyp.ofCode ((w 0).extractLsb' 56 4) with
  | none => .error 0x1A
  | some t =>
    if w 0 >>> 60 != 1 || (w 0).extractLsb' 0 53 != 0 || decide (rank = 0) || decide (4 < rank) || decide (2 ^ 48 ≤ (w 2).toNat) ||
        (exts.take rank).any (· == 0) || (exts.drop rank).any (· != 0) || (strides.drop rank).any (· != 0) ||
        decide (v / 2 ^ (64 * 9) ≠ 0) then .error 0x1A
    else if (badFmt fa fb [t]).isSome then .error 0x19
    else
      let x : Tensor := { t := t, width := t.bits fa fb, rank := rank, base := (w 1).toNat, boff := (w 2).toNat, ext := exts.take rank
                          stride := strides.take rank, fmt := if t = .fnb then fb else fa }
      let far := List.zipWith (fun (n : Nat) (st : Int) => ((n : Int) - 1) * st) x.ext x.stride
      let a0 : Int := (8 * x.base + x.boff : Nat)
      let lo := far.foldl (fun a d => if d < 0 then a + d else a) a0
      let hi := far.foldl (fun a d => if 0 < d then a + d else a) a0
      let odd := decide (x.boff % 8 ≠ 0) || (List.zipWith (fun (n : Nat) (st : Int) => decide (1 < n) && decide (st % 8 ≠ 0)) x.ext x.stride).any id
      if lo < 0 ∨ 2 ^ 59 < hi + x.width ∨ (8 ≤ x.width ∧ odd) then .error 0x1A else .ok x

/-- R76: the fields of a plane descriptor. -/
structure Planes where
  codec : Nat
  data : Nat
  scale : Nat
  n : Nat
  aux : Word
deriving DecidableEq, Repr

/-- R76, R77: a plane descriptor used with codec `c`; its CODEC field must name that codec, except under codecs 6 to 9, where it
is not examined. -/
def planesOf (v : Nat) (named : Bool) (c n : Nat) : Except (BitVec 8) Planes :=
  let w := wordAt v
  let p : Planes := ⟨c, (w 1).toNat, (w 2).toNat, (w 3).toNat, w 4⟩
  let scaled := decide (c = 3) || decide (c = 4)
  if w 0 >>> 60 != 2 || (w 0).extractLsb' 0 56 != 0 || decide (2 ^ 32 ≤ p.n) || decide (v / 2 ^ 320 ≠ 0) || decide (p.n ≠ n) ||
      (named && decide (((w 0).extractLsb' 56 4).toNat ≠ c)) || (!scaled && decide (p.scale ≠ 0)) ||
      (decide (c ≠ 1) && decide (c ≠ 5) && p.aux != 0) || (decide (c = 5) && decide (256 ≤ p.aux.toNat)) then .error 0x1A
  else .ok p

/-- R79: what SAVE of a format and scale descriptor selects: 0 uncoded, 2 SB1, 3 BS4. Its zero bits are not examined. (DEDUCED:
log entry 82) (DEDUCED: log entry 82) -/
def saveCodec (v : Nat) : Option Nat :=
  let w := wordAt v 0
  if w >>> 60 != 3 then none
  else match (w.extractLsb' 58 2).toNat with
    | 0 => some 0
    | 1 => some 2
    | 2 => some 3
    | _ => none

/-- The codecs that CT names directly (R271, R272). -/
def codecNo : CodecSel → Option Nat
  | .zb => some 1
  | .sb1 => some 2
  | .bs4 => some 3
  | .bsn => some 4
  | .cust => some 5
  | .none | .fsh _ => none

/-- What the descriptors of a command come to: its operation, or the code that it completes with. -/
abbrev Parsed := Except (BitVec 8) CopyOp

/-- R75: descriptors read in order: the values read so far, and how the reading has ended. -/
def State.readDescs (s : State) (c : Ctx) : List (Word × Nat) → List Nat → List Nat × Got Unit
  | [], got => (got, .ok s ())
  | (p, n) :: r, got =>
    match s.readRange c p.toNat n true with
    | .ok s1 v => State.readDescs s1 c r (got ++ [v])
    | .bad s1 e va => (got, .bad s1 e va)
    | .absent s1 va => (got, .absent s1 va)

/-- The operation of a codec (R272). The uncoded image and SB1 and ZB take every type. -/
def codedOp (dec : Bool) (codec : Nat) (x : Tensor) (p : Planes) (fa : BitVec 24) : Except (BitVec 8) CopyOp :=
  if codec = 4 ∧ !fmtValid fa then .error 0x19
  else if !dec && (codec = 3 || codec = 4) && !x.t.isQ then .error 0x1A
  else .ok (if dec then .dec codec x p.data p.scale p.aux.toNat fa else .enc codec x p.data p.scale p.aux.toNat fa)

/-- R282: an arena control block's BASE and SIZE. -/
def arenaOf (v : Nat) : Option (Nat × Nat) :=
  let w := wordAt v
  let base := (w 1).toNat
  let size := (w 2).toNat
  if w 0 != 0x6000000000000000 || decide (base % 8 ≠ 0) || decide (size % 8 ≠ 0) || decide (size < 64) || decide (2 ^ 40 < size) ||
      decide (2 ^ 16 ≤ (w 5).toNat) || decide (v / 2 ^ (64 * 6) ≠ 0) then none
  else some (base, size)

/-- R272: the descriptors of CPY and CPYX in the order in which they are read. (DEDUCED: log entry 82) -/
def copyDescs (dec : Bool) (cd : CodecSel) (a b fsh : Word) : List (Word × Nat) :=
  let ten := if dec then a else b
  let pl := if dec then b else a
  match cd with
  | .none => [(a, 128), (b, 128)]
  | .fsh _ => if fsh = 0 ∨ fsh.extractLsb' 0 6 != 0 then [] else [(fsh, 64), (ten, 128), (pl, 128)]
  | .zb | .sb1 | .bs4 | .bsn | .cust => [(ten, 128), (pl, 128)]

/-- A tensor and its planes under a codec. -/
def codedPair (dec named : Bool) (codec ten pl : Nat) (fa fb : BitVec 24) : Parsed :=
  match tensorOf ten fa fb with
  | .error e => .error e
  | .ok x => match planesOf pl named codec x.count with
    | .error e => .error e
    | .ok p => codedOp dec codec x p fa

/-- R272: what the descriptors of CPY and CPYX come to, from their values in the order of `copyDescs`. Where several are wrong, the
first one's status is the command's, and a tensor's comes before its planes'. (DEDUCED: log entry 82) -/
def copyParse (a : Word) (dec : Bool) (cd : CodecSel) (fa fb : BitVec 24) (got : List Nat) : Parsed :=
  let va := got.getD 0 0
  let vb := got.getD 1 0
  match cd with
  | .none =>
    match tensorOf vb fa fb with
    | .error e => .error e
    | .ok src =>
      if wordAt va 0 >>> 60 = 6 then
        match arenaOf va with
        | some (base, size) => .ok (.arena a.toNat base size src)
        | none => .error 0x1A
      else match tensorOf va fa fb with
        | .error e => .error e
        | .ok dst => if dst.t = src.t ∧ dst.count = src.count then .ok (.plain dst src) else .error 0x1A
  | .fsh _ => match got with
    | v :: ten :: pl :: _ => match saveCodec v with
      | none => .error 0x1A
      | some k => codedPair dec false k ten pl fa fb
    | _ => .error 0x1A
  | cd => match codecNo cd with
    | some k => codedPair dec true k va vb fa fb
    | none => .error 0x1A

/-- R286: a storage request block. -/
def storParse (wr : Bool) (entry v : Nat) : Parsed :=
  let w := wordAt v
  if w 0 >>> 60 != 7 || (w 0).extractLsb' 16 44 != 0 || w 2 = 0 || (w 2).extractLsb' 32 32 != 0 || (w 3).extractLsb' 0 3 != 0 then .error 0x1A
  else .ok (.stor wr ((w 0).extractLsb' 0 16).toNat (w 1).toNat (w 2).toNat (w 3).toNat entry)

/-- R75: the descriptors that a command has still to read are read; an absent page leaves it with those that it has. -/
def State.readOp (s : State) (c : Ctx) (op : CopyOp) : Got CopyOp :=
  match op with
  | .unread dec cd a b fa fb fsh got =>
    match s.readDescs c ((copyDescs dec cd a b fsh).drop got.length) got with
    | (got, .ok s1 _) => .ok s1 (match copyParse a dec cd fa fb got with
      | .ok op => op
      | .error e => .refused e)
    | (_, .bad s1 e _) => .ok s1 (.refused (BitVec.ofNat 8 (engineCause e)))
    | (_, .absent s1 va) => .absent s1 va
  | .unreadStor wr p e =>
    match s.readDescs c [(p, 32)] [] with
    | (got, .ok s1 _) => .ok s1 (match storParse wr e (got.getD 0 0) with
      | .ok op => op
      | .error e => .refused e)
    | (_, .bad s1 e _) => .ok s1 (.refused (BitVec.ofNat 8 (engineCause e)))
    | (_, .absent s1 va) => .absent s1 va
  | op => .ok s op
/-- The operation of a command whose descriptors have not all been read, with those that have. -/
def State.readSoFar (s : State) (c : Ctx) (op : CopyOp) : CopyOp :=
  match op with
  | .unread dec cd a b fa fb fsh got => .unread dec cd a b fa fb fsh (s.readDescs c ((copyDescs dec cd a b fsh).drop got.length) got).1
  | op => op

/-! ### Queues (R267 to R269) -/

/-- A copy queue, changed. -/
def State.modQueue (s : State) (core q : Nat) (f : CopyQueue → CopyQueue) : State :=
  s.modCore core (fun c => { c with queues := KMap.set c.queues q (f (c.queue q)) })
/-- The head command, changed. -/
def CopyQueue.modHead (x : CopyQueue) (f : CopyCmd → CopyCmd) : CopyQueue :=
  { x with cmds := match x.cmds with
    | c :: r => f c :: r
    | [] => [] }
def State.modCmd (s : State) (core q : Nat) (f : CopyCmd → CopyCmd) : State := s.modQueue core q (·.modHead f)
/-- Commands that a queue holds; the cross-core channel, number 8, holds four (R267). -/
def queueRoom (q : Nat) : Nat := if q = 8 then 4 else 8

/-- The rights with which a command is performed. -/
def CopyCmd.ctx (c : CopyCmd) (core : Nat) : Ctx := engineCtx core c.domid c.cin c.tag c.sup

/-- A command's wait clause is first tested when it reaches the head of its queue (R268). -/
def State.headTest (s : State) (core q : Nat) : State :=
  match (s.queue core q).cmds with
  | c :: _ => if s.clauseHolds (clusterOf core) c.clauses then s.modCmd core q (fun c => { c with met := true }) else s
  | [] => s

/-- R268: a command is accepted. (DEDUCED: log entry 82) -/
def State.accept (s : State) (t : Thread) (q : Nat) (op : CopyOp) (cl : Clauses) : State :=
  let c : CopyCmd := {
    op := op, clauses := cl, domid := t.domid, cin := t.cin, tag := t.tag, sup := t.sup, tid := s.cur, launch := t.launch
    met := false, started := false, finished := none, moved := 0, pos := 0, bits := 0, fl := {}, out := [], stop := 0 }
  let empty := (s.queue t.core q).cmds.isEmpty
  let s1 := s.modQueue t.core q (fun x => { x with cmds := x.cmds ++ [c] })
  if empty then s1.headTest t.core q else s1

/-- R283: the words of a record for a payload of some bytes, with its header, as bytes. -/
def recordBytes (payload : Nat) : Nat := 8 + 8 * ((payload + 7) / 8)
/-- The bytes of a tensor's packed image (R273). -/
def Tensor.imageBytes (x : Tensor) : Nat := (x.count * x.width + 7) / 8

/-- A CPY, CPYX or STOR whose operands are aligned: it waits for room and for the thread's stores (R75), and is accepted. A
message that its arena can never hold traps (R283). -/
def State.copyIssue (s : State) (t : Thread) (q : Nat) (cl : Clauses) (acb : Word) (op : CopyOp) : Res :=
  if queueRoom q ≤ (s.queue t.core q).cmds.length then .wait (.queue q) true (BitVec.ofNat 64 q)
  else t.afterStores <|
    match s.readOp t.engine op with
    | .ok s1 (.arena p base size src) =>
      if size - 8 < recordBytes src.imageBytes then .trap 0x11 acb else .ok (s1.accept t q (.arena p base size src) cl)
    | .ok s1 op => .ok (s1.accept t q op cl)
    | .bad s1 e _ => .ok (s1.accept t q (.refused (BitVec.ofNat 8 (engineCause e))) cl)
    | .absent s1 _ => .ok (s1.accept t q (s.readSoFar t.engine op) cl)

/-- What a copy instruction needs. -/
def cpyNeed (srcs : List Src) (dests : List Reg) (anc : Bool) : Need := { ext := .cpy, anc := anc, srcs := srcs, dests := dests, outside := true }

/-- R267 to R272: CPY. -/
def execCpy (g : Guard) (q : BitVec 3) (dec : Bool) (cd : CodecSel) (a b : Src) (cl : Clauses) (s : State) : Host.Outcome State Fault Refusal :=
  run s g (cpyNeed [a, b] [] false) fun s t =>
    let p := t.reg a.reg
    let r := t.reg b.reg
    let fsh : Word := match cd with
      | .fsh n => t.fsh[n.toNat]'n.isLt
      | _ => 0
    if p.extractLsb' 0 7 != 0 then .trap cAlign p
    else if r.extractLsb' 0 7 != 0 then .trap cAlign r
    else s.copyIssue t q.toNat cl p (.unread dec cd p r t.fa t.fb fsh [])

/-- R267, R272: CPYX, on the cross-core channel, without a codec. -/
def execCpyx (g : Guard) (a b : Src) (cl : Clauses) (s : State) : Host.Outcome State Fault Refusal :=
  run s g (cpyNeed [a, b] [] false) fun s t =>
    let p := t.reg a.reg
    let r := t.reg b.reg
    if p.extractLsb' 0 7 != 0 then .trap cAlign p
    else if r.extractLsb' 0 7 != 0 then .trap cAlign r
    else s.copyIssue t 8 cl p (.unread false .none p r t.fa t.fb 0 [])

/-- R286 to R288: STOR. -/
def execStor (g : Guard) (wr : Bool) (q : BitVec 3) (a b : Src) (cl : Clauses) (s : State) : Host.Outcome State Fault Refusal :=
  run s g (cpyNeed [a, b] [] false) fun s t =>
    let p := t.reg a.reg
    let e := t.reg b.reg
    if p.extractLsb' 0 5 != 0 then .trap cAlign p
    else if 255 < e.toNat then .trap cDescbad e
    else s.copyIssue t q.toNat cl p (.unreadStor wr p e.toNat)

/-! ### The movement of one unit (R273 to R277) -/

/-- Destination bits to write, cut where a page may end; `counts` when they are part of the destination of R269. -/
def putsOf (at_ n v : Nat) (counts : Bool := true) : List Put :=
  if n = 0 then []
  else (pieces (at_ / 8) ((at_ % 8 + n + 7) / 8)).map fun p =>
    let lo := Nat.max at_ (8 * p.1)
    let hi := Nat.min (at_ + n) (8 * (p.1 + p.2))
    ⟨lo, hi - lo, v / 2 ^ (lo - at_) % 2 ^ (hi - lo), counts⟩
/-- Bytes to write. -/
def bytesOf (va n v : Nat) (counts : Bool := true) : List Put := putsOf (8 * va) (8 * n) v counts

/-- What a unit of movement, once read, leaves to write, with the position in the coded plane after it and its flags. -/
structure Moved where
  pos : Nat
  fl : Fl := {}
  puts : List Put := []
deriving DecidableEq, Repr

/-- Reads, then goes on. -/
def Got.then {α β : Type} (r : Got α) (f : State → α → Got β) : Got β :=
  match r with
  | .ok s a => f s a
  | .bad s e va => .bad s e va
  | .absent s va => .absent s va

/-- Element `k` of a tensor. -/
def State.getElem (s : State) (c : Ctx) (x : Tensor) (k : Nat) : Got Nat := s.readBits c (x.at k) x.width true
/-- Element `k` of a tensor to be written. -/
def Tensor.put (x : Tensor) (k v : Nat) : List Put := putsOf (x.at k) x.width v

/-- `n` bits of a tensor's packed image from bit `b` (R273); bits past the image are 0. -/
def State.imageBits (s : State) (c : Ctx) (x : Tensor) (b n : Nat) : Got Nat :=
  let last := Nat.min (b + n) (x.count * x.width)
  if last ≤ b then .ok s 0
  else
    let k0 := b / x.width
    (List.range ((last - 1) / x.width + 1 - k0)).foldl (fun (r : Got Nat) i => r.then fun s v =>
      (s.getElem c x (k0 + i)).then fun s1 e =>
        let lo := (k0 + i) * x.width
        .ok s1 (if b ≤ lo then v + e * 2 ^ (lo - b) else v + e / 2 ^ (b - lo))) (.ok s 0) |>.then fun s v => .ok s (v % 2 ^ (last - b))

/-- `n` bits to be scattered to a tensor's packed image at bit `b`; bits past the image are dropped. -/
def Tensor.scatter (x : Tensor) (b n v : Nat) : List Put :=
  let last := Nat.min (b + n) (x.count * x.width)
  if last ≤ b then []
  else
    let k0 := b / x.width
    (List.range ((last - 1) / x.width + 1 - k0)).flatMap fun i =>
      let lo := (k0 + i) * x.width
      let from_ := Nat.max lo b
      let to_ := Nat.min (lo + x.width) last
      putsOf (x.at (k0 + i) + (from_ - lo)) (to_ - from_) (v / 2 ^ (from_ - b) % 2 ^ (to_ - from_))

/-- Blocks of 32 along dimension 0 (R77): block `b` starts at this element and has this many. -/
def Tensor.blocks (x : Tensor) : Nat := x.count / x.ext.headD 1 * ((x.ext.headD 1 + 31) / 32)
def Tensor.block (x : Tensor) (b : Nat) : Nat × Nat :=
  let n0 := x.ext.headD 1
  let nb := (n0 + 31) / 32
  (b / nb * n0 + 32 * (b % nb), Nat.min 32 (n0 - 32 * (b % nb)))

/-- The element format of a block codec. -/
def blockFmt (codec : Nat) (fa : BitVec 24) : Fmt := if codec = 3 then bs4Fmt else fmtOf fa

/-- 64-bit words of a coded ZB line and its mask (R277). -/
def zbMask (line : Nat) : Nat := (List.range 16).foldl (fun m i => m + (if line / 2 ^ (64 * i) % 2 ^ 64 = 0 then 0 else 2 ^ i)) 0
def zbWords (line : Nat) : Nat × Nat :=
  (List.range 16).foldl (fun (p : Nat × Nat) i =>
    let w := line / 2 ^ (64 * i) % 2 ^ 64
    if w = 0 then p else (p.1 + w * 2 ^ (64 * p.2), p.2 + 1)) (0, 0)
/-- The line that a mask and its words stand for. (DEDUCED: log entry 83) -/
def zbLine (mask words : Nat) : Nat :=
  ((List.range 16).foldl (fun (p : Nat × Nat) i =>
    if mask.testBit i then (p.1 + words / 2 ^ (64 * p.2) % 2 ^ 64 * 2 ^ (64 * i), p.2 + 1) else p) (0, 0)).1
/-- One bits of a 16-bit mask. -/
def bitsSet (m : Nat) : Nat := ((List.range 16).filter m.testBit).length

/-- The elements of a tensor from one on. -/
def State.getElems (s : State) (c : Ctx) (x : Tensor) (k n : Nat) : Got (List Nat) :=
  (List.range n).foldl (fun (r : Got (List Nat)) i => r.then fun s l => (s.getElem c x (k + i)).then fun s v => .ok s (l ++ [v])) (.ok s [])

/-- One unit of an encoder read: an element, a block, a line; the last unit of a plane pads its final byte, or the length table.
(DEDUCED: log entry 83) (DEDUCED: log entry 83) -/
def State.encUnit (s : State) (c : Ctx) (codec : Nat) (x : Tensor) (data scale aux : Nat) (fa : BitVec 24) (u pos : Nat) : Got Moved :=
  let pad := fun (bits : Nat) => (.ok s ⟨pos, {}, if bits % 8 = 0 then [] else putsOf (8 * data + bits) (8 - bits % 8) 0⟩ : Got Moved)
  if codec = 0 then
    if u = x.count then pad (x.count * x.width)
    else (s.getElem c x u).then fun s v => .ok s ⟨pos, {}, putsOf (8 * data + x.width * u) x.width v⟩
  else if codec = 2 then
    if u = x.count then pad x.count
    else (s.getElem c x u).then fun s v =>
      let n := x.t.num x.fmt x.fmt v
      let one := !n.isNan && n.cmp (.of false 0 0) == .gt
      .ok s ⟨pos, {}, putsOf (8 * data + u) 1 (if one then 1 else 0)⟩
  else if codec = 1 then
    let row := aux + 520 * (u / 512)
    if u = (x.imageBytes + 127) / 128 then
      -- lines past the image in the last segment count 0
      .ok s ⟨pos, {}, bytesOf (row + 8 + u % 512) ((512 - u % 512) % 512) 0⟩
    else
      (s.imageBits c x (1024 * u) 1024).then fun s line =>
        let w := zbWords line
        .ok s ⟨pos + 2 + 8 * w.2, {},
          (if u % 512 = 0 then bytesOf row 8 pos else []) ++ bytesOf (data + pos) (2 + 8 * w.2) (zbMask line + 65536 * w.1) ++
            bytesOf (row + 8 + u % 512) 1 w.2⟩
  else
    let f := blockFmt codec fa
    if u = x.blocks then pad (x.count * f.width)
    else
      let b := x.block u
      (s.getElems c x b.1 b.2).then fun s l =>
        let q := quantBlock f .rne (l.map fun v => some (x.t.num x.fmt x.fmt v)) ⟨{}, 0⟩
        let codes := q.2.2.foldr (fun e n => e + n * 2 ^ f.width) 0
        .ok s ⟨pos, q.1.fl, putsOf (8 * data + f.width * b.1) (f.width * b.2) codes ++ bytesOf (scale + u) 1 q.2.1⟩

/-- A value decoded into a tensor's type, RNE (R274, R276, R57). -/
def Tensor.encodeNum (x : Tensor) (n : Num) : Nat × Fl :=
  let p := ETyp.convert x.fmt x.fmt x.t .rne 0 n
  ((p.1 % (2 ^ x.width : Nat)).toNat, p.2)
/-- R57: the value of an element code under a scale code. -/
def scaled (f : Fmt) (sc code : Nat) : Num :=
  if sc = 0 then .of false 0 0
  else if sc = 255 then .nan false
  else match f.value code with
    | .fin e => .fin { e with exp := e.exp + sc - 127 }
    | n => n

/-- One unit of a decoder read. A ZB line whose count does not match its mask ends the command with DESCBAD. (DEDUCED: log entry 83) -/
def State.decUnit (s : State) (c : Ctx) (codec : Nat) (x : Tensor) (data scale aux : Nat) (fa : BitVec 24) (u pos : Nat) : Got Moved :=
  if codec = 0 then
    (s.readBits c (8 * data + x.width * u) x.width true).then fun s v => .ok s ⟨pos, {}, x.put u v⟩
  else if codec = 2 then
    (s.readBits c (8 * data + u) 1 true).then fun s v =>
      let p := x.encodeNum (.of false v 0)
      .ok s ⟨pos, p.2, x.put u p.1⟩
  else if codec = 1 then
    let row := aux + 520 * (u / 512)
    (if u % 512 = 0 then s.readRange c row 8 true else .ok s pos).then fun s pos =>
      (s.readRange c (row + 8 + u % 512) 1 true).then fun s cnt =>
        (s.readRange c (data + pos) 2 true).then fun s m =>
          if bitsSet m ≠ cnt then .bad s cDescbad 0
          else (s.readRange c (data + pos + 2) (8 * cnt) true).then fun s w =>
            .ok s ⟨pos + 2 + 8 * cnt, {}, x.scatter (1024 * u) 1024 (zbLine m w)⟩
  else
    let f := blockFmt codec fa
    let b := x.block u
    (s.readRange c (scale + u) 1 true).then fun s sc =>
      (s.readBits c (8 * data + f.width * b.1) (f.width * b.2) true).then fun s codes =>
        let vs := (List.range b.2).map fun i => x.encodeNum (scaled f sc (codes / 2 ^ (f.width * i) % 2 ^ f.width))
        .ok s ⟨pos, vs.foldl (fun fl p => fl.or p.2) {}, (List.zipWith (fun i p => x.put (b.1 + i) p.1) (List.range b.2) vs).flatten⟩

/-- Units of a codec. -/
def codecUnits (codec : Nat) (x : Tensor) (enc : Bool) : Nat :=
  (if codec = 0 ∨ codec = 2 then x.count else if codec = 1 then (x.imageBytes + 127) / 128 else x.blocks) + (if enc then 1 else 0)

/-- Units that a command moves in CPY_COMMAND_START. -/
def CopyOp.units : CopyOp → Nat
  | .plain dst _ => dst.count
  | .enc k x _ _ _ _ => codecUnits k x true
  | .dec k x _ _ _ _ => codecUnits k x false
  | .arena _ _ _ _ | .stor _ _ _ _ _ _ | .refused _ | .unread _ _ _ _ _ _ _ _ | .unreadStor _ _ _ => 0

/-- One unit of a command read. -/
def State.copyUnit (s : State) (c : Ctx) (op : CopyOp) (u pos : Nat) : Got Moved :=
  match op with
  | .plain dst src => (s.getElem c src u).then fun s v => .ok s ⟨pos, {}, dst.put u v⟩
  | .enc k x d sc aux fa => s.encUnit c k x d sc aux fa u pos
  | .dec k x d sc aux fa => s.decUnit c k x d sc aux fa u pos
  | .arena _ _ _ _ | .stor _ _ _ _ _ _ | .refused _ | .unread _ _ _ _ _ _ _ _ | .unreadStor _ _ _ => .ok s ⟨pos, {}, []⟩

/-- The head command's movement has ended. -/
def State.copyEnd (s : State) (core q : Nat) (code : BitVec 8) : State := s.modCmd core q (fun c => { c with finished := some code })

/-! ### The scout and stalls (R279, R280) -/

/-- The first and last byte of an element. -/
def Tensor.spots (x : Tensor) (k : Nat) : List Nat := [x.at k / 8, (x.at k + x.width - 1) / 8]
/-- Those of the elements of which `n` bits of the packed image from bit `b` are part. -/
def Tensor.imageSpots (x : Tensor) (b n : Nat) : List Nat :=
  let last := Nat.min (b + n) (x.count * x.width)
  if last ≤ b then [] else (List.range ((last - 1) / x.width + 1 - b / x.width)).flatMap (fun i => x.spots (b / x.width + i))

/-- Units over which the scout looks ahead. -/
def CopyCmd.span (c : CopyCmd) : Nat :=
  match c.op with
  | .arena _ _ _ x => x.count
  | .stor _ _ _ n _ _ => n
  | .enc 5 x _ _ _ _ | .dec 5 x _ _ _ _ => x.count
  | op => op.units

/-- Addresses in the planes of a coded tensor that unit `u` touches, of those that the lengths of the lines before it do not
hide: a ZB line takes 2 bytes at least. (DESIGN CHOICE: log entry 17) -/
def CopyCmd.planeSpots (c : CopyCmd) (k : Nat) (x : Tensor) (data scale aux : Nat) (fa : BitVec 24) (u : Nat) : List Nat :=
  if k = 0 ∨ k = 5 then [data + x.width * u / 8]
  else if k = 1 then [aux + 520 * (u / 512), aux + 520 * (u / 512) + 8 + u % 512, data + c.pos + 2 * (u - c.moved)]
  else if k = 2 then [data + u / 8]
  else
    let f := (blockFmt k fa).width
    let b := x.block u
    [scale + u, data + f * b.1 / 8, data + (f * (b.1 + b.2) - 1) / 8]
/-- Addresses in a coded command's tensor that unit `u` touches. -/
def tensorSpots (k : Nat) (x : Tensor) (u : Nat) : List Nat :=
  if k = 0 ∨ k = 2 ∨ k = 5 then x.spots u
  else if k = 1 then x.imageSpots (1024 * u) 1024
  else (List.range (x.block u).2).flatMap (fun i => x.spots ((x.block u).1 + i))

/-- Addresses that a unit of a command touches on the source or the destination side, in access order. -/
def CopyCmd.touches (c : CopyCmd) (src : Bool) (u : Nat) : List Nat :=
  match c.op with
  | .plain d x => if src then x.spots u else d.spots u
  | .enc k x data sc aux fa => if src then tensorSpots k x u else c.planeSpots k x data sc aux fa u
  | .dec k x data sc aux fa => if src then c.planeSpots k x data sc aux fa u else tensorSpots k x u
  | .arena _ _ _ x => if src then x.spots u else []
  | .stor wr _ _ _ mem _ => if src = wr then [mem + 4096 * u, mem + 4096 * u + 4095] else []
  | .refused _ | .unread _ _ _ _ _ _ _ _ | .unreadStor _ _ _ => []

/-- The next `sd` pages of 64 KiB on one side, from unit `u` on, without those of `now`. -/
def pagesAhead (touch : Nat → List Nat) (now : List Nat) (sd : Nat) : Nat → Nat → List Nat → List Nat
  | 0, _, l => l.take sd
  | n + 1, u, l =>
    if sd ≤ l.length then l.take sd
    else pagesAhead touch now sd n (u + 1) ((touch u).foldl (fun l a =>
      let p := a / 65536 * 65536
      if now.contains p || l.contains p then l else l ++ [p]) l)

/-- R279: the scout sends a fault message for every absent page that it finds ahead of the positions `us` of the source and
`ud` of the destination, once. -/
def State.scoutPages (s : State) (core q us ud : Nat) (at_ : Option Word) : State :=
  match (s.queue core q).cmds with
  | [] => s
  | c :: _ =>
    let sd := (s.queue core q).scout
    let side := fun (src : Bool) (u : Nat) =>
      let here := (at_.map (fun a => a.toNat / 65536 * 65536)).toList ++ ((c.touches src u).take 1).map (fun a => a / 65536 * 65536)
      pagesAhead (c.touches src) here sd (if sd = 0 then 0 else c.span - u) u []
    (side true us ++ side false ud).foldl (fun s p =>
      if (s.queue core q).told.contains p then s
      else match (s.resolve (c.ctx core) (BitVec.ofNat 64 p) .load true).2 with
        | .absent => (s.stallMsg core q (c.ctx core) (BitVec.ofNat 64 p)).modQueue core q (fun x => { x with told := x.told ++ [p] })
        | _ => s) s
/-- The scout looks from where the head command stands. -/
def State.scoutHead (s : State) (core q : Nat) (at_ : Option Word) : State :=
  match (s.queue core q).cmds with
  | [] => s
  | c :: _ =>
    match c.op, (s.core core).item with
    | .enc 5 x _ _ _ _, some i | .dec 5 x _ _ _ _, some i => s.scoutPages core q (i.inPos / x.width) (i.outPos / x.width) at_
    | _, _ => s.scoutPages core q c.moved (if c.puts.isEmpty then c.moved else c.moved - 1) at_

/-- R280: the head command stalls at an absent page. The page that the scout has reported is not reported again. (DEDUCED: log entry 57) -/
def State.copyStall (s : State) (core q : Nat) (c : CopyCmd) (va : Word) : State :=
  let page := va.toNat / 65536 * 65536
  let s1 := if (s.queue core q).told.contains page then s else s.stallMsg core q (c.ctx core) va
  (s1.modQueue core q (fun x => { x with
    stall := some va, stallAt := s.now core, told := x.told.filter (fun p => decide (p ≠ page)) })).scoutHead core q (some va)

/-- The stall of a queue's head ends; threads that wait for room in the queue have not waited meanwhile (R280). -/
def State.unstall (s : State) (core q : Nat) : State :=
  let x := s.queue core q
  if x.stall.isNone then s
  else
    let now := s.now core
    { s.modQueue core q (fun x => { x with stall := none }) with
      threads := s.threads.map (fun p =>
        if p.2.wait = some (.queue q) ∧ p.2.core = core then
          (p.1, { p.2 with since := p.2.since.map (fun c => c + (now - Nat.max c x.stallAt)) })
        else p) }

/-! ### Movement (R268, R273, R280, R281) -/

/-- R281, R426: a destination of the cross-core channel lies in a core that is switched out. -/
def State.switchedOut (s : State) (core q : Nat) (c : CopyCmd) (p : Put) : Bool :=
  decide (q = 8) && (match (s.resolve (c.ctx core) (BitVec.ofNat 64 (p.at_ / 8)) .store true).2 with
    | .at pa _ => (s.imageOf pa).isSome
    | _ => false)

/-- How writes of the head command have ended: all performed, one failed with a code, or the rest kept for later. -/
inductive PutsEnd
  | done
  | stop (code : BitVec 8)
  | wait
deriving DecidableEq, Repr

/-- Writes of the head command performed in order; those that an absent page or a core switched out holds back stay with it. -/
def State.copyPuts (s : State) (core q : Nat) (l : List Put) : State × PutsEnd :=
  match l with
  | [] => (s.modCmd core q (fun c => { c with puts := [] }), .done)
  | p :: r =>
    match (s.queue core q).cmds with
    | [] => (s, .done)
    | c :: _ =>
      let kept := fun (s : State) => s.modCmd core q (fun c => { c with puts := p :: r })
      if s.switchedOut core q c p then (kept s, .wait)
      else match s.writeBits (c.ctx core) p.at_ p.n p.v true with
        | .ok s1 _ => State.copyPuts (s1.modCmd core q (fun c => { c with bits := c.bits + (if p.counts then p.n else 0) })) core q r
        | .bad s1 e _ => (s1.modCmd core q (fun c => { c with puts := [] }), .stop (BitVec.ofNat 8 (engineCause e)))
        | .absent s1 va => ((kept s1).copyStall core q c va, .wait)

/-- The head command moves its units from where it stands, until it ends, stalls or is held. (DESIGN CHOICE: log entry 17) -/
def State.copyMove (s : State) (core q : Nat) : Nat → State
  | 0 => s
  | fuel + 1 =>
    match (s.queue core q).cmds with
    | [] => s
    | c :: _ =>
      match s.copyPuts core q c.puts with
      | (s1, .wait) => s1
      | (s1, .stop code) => s1.copyEnd core q code
      | (s1, .done) =>
        if c.op.units ≤ c.moved then s1.copyEnd core q 0
        else match s1.copyUnit (c.ctx core) c.op c.moved c.pos with
          | .ok s2 m =>
            State.copyMove (s2.modCmd core q (fun c => { c with moved := c.moved + 1, pos := m.pos, puts := m.puts, fl := c.fl.or m.fl })) core q fuel
          | .bad s2 e _ => s2.copyEnd core q (BitVec.ofNat 8 (engineCause e))
          | .absent s2 va => s2.copyStall core q c va

/-- A command of kind CUST. -/
def CopyOp.isCust : CopyOp → Bool
  | .enc k _ _ _ _ _ | .dec k _ _ _ _ _ => decide (k = 5)
  | .plain _ _ | .arena _ _ _ _ | .stor _ _ _ _ _ _ | .refused _ | .unread _ _ _ _ _ _ _ _ | .unreadStor _ _ _ => false

/-- The head command may be worked on: its clause is met, nothing holds it and it has not ended. -/
def CopyQueue.head (x : CopyQueue) : Option CopyCmd :=
  match x.cmds with
  | c :: _ => if c.met && x.stall.isNone && c.finished.isNone then some c else none
  | [] => none

/-- R75: the descriptors of a command that an absent page had kept unread. -/
def State.copyRead (s : State) (core q : Nat) (c : CopyCmd) : State :=
  match s.readOp (c.ctx core) c.op with
  | .ok s1 op => s1.modCmd core q (fun c => { c with op := op })
  | .bad s1 e _ => s1.modCmd core q (fun c => { c with op := .refused (BitVec.ofNat 8 (engineCause e)) })
  | .absent s1 va => (s1.modCmd core q (fun x => { x with op := s.readSoFar (c.ctx core) c.op })).copyStall core q c va

/-- R268, R272: the head command starts, or goes on after a stall. (DESIGN CHOICE: log entry 17) -/
def State.copyStart (s : State) (core q : Nat) : State :=
  match (s.queue core q).head with
  | none => s
  | some c =>
    match c.op with
    | .refused e => s.copyEnd core q e
    | .unread _ _ _ _ _ _ _ _ | .unreadStor _ _ _ => s.copyRead core q c
    | .arena _ _ _ _ | .stor _ _ _ _ _ _ => s.modCmd core q (fun c => { c with started := true })
    | .plain _ _ | .enc _ _ _ _ _ _ | .dec _ _ _ _ _ _ =>
      if c.op.isCust then s
      else (s.modCmd core q (fun c => { c with started := true })).copyMove core q (c.op.units + 2 - c.moved)

/-- R268. (DESIGN CHOICE: log entry 17) -/
def execCpyCommandStart (core q : Nat) (s : State) : Host.Outcome State Fault Refusal := .next (s.copyStart core q)

/-! ### Completion (R268, R289) -/

/-- R426: the signal clause of a command of a saved context is applied to the saved semaphore. -/
def State.copySignal (s : State) (core : Nat) (c : CopyCmd) : State :=
  let cl := clusterOf core
  match s.gangs.find? (fun g => g.pairs.contains (cl, c.domid, c.cin)) with
  | none => s.signal cl c.clauses
  | some g =>
    if c.clauses.si = 0 then s
    else
      let k := c.clauses.ss.toNat
      let p := KMap.getD g.parts cl {}
      let x := KMap.getD p.sems k {}
      let sum := x.count.toNat + c.clauses.si.toNat
      let y : Sema := { x with count := BitVec.ofNat 16 (Nat.min sum 65535), ovf := x.ovf || decide (65535 < sum) }
      let g1 := { g with parts := KMap.set g.parts cl { p with sems := KMap.set p.sems k y } }
      { s with gangs := s.gangs.map (fun x => if x.id = g.id then g1 else x) }

/-- The head command leaves its queue with a code: status, then signal; the next one's clause is tested. -/
def State.copyDone (s : State) (core q : Nat) (code : BitVec 8) : State :=
  match (s.queue core q).cmds with
  | [] => s
  | c :: r =>
    (((s.unstall core q).modQueue core q (fun x => { x with
      cmds := r, told := [], code := code, nx := c.fl.nx, uf := c.fl.uf, of := c.fl.ofl, nv := c.fl.nv, clmp := c.fl.clmp
      bytes := (c.bits + 7) / 8 })).copySignal core c).headTest core q

/-- R268. -/
def execCpyCommandComplete (core q : Nat) (s : State) : Host.Outcome State Fault Refusal :=
  .next <| match (s.queue core q).cmds with
    | c :: _ => match c.finished with
      | some code => s.copyDone core q code
      | none => s
    | [] => s

/-- R294: the scarab's item is dead when its command is discarded or cancelled, and no item of the queue waits any more. -/
def Core.killItem (c : Core) (q : Nat) : Core :=
  { c with
    work := c.work.filter (fun x => decide (x ≠ q))
    item := c.item.map (fun i => if i.queue = q then { i with dead := true } else i) }

/-- R269: QSTS. -/
def CopyQueue.qsts (x : CopyQueue) : Word :=
  BitVec.ofNat 64 (2 ^ 56 * x.code.toNat + (if x.nx then 2 ^ 55 else 0) + (if x.uf then 2 ^ 54 else 0) + (if x.of then 2 ^ 53 else 0) +
    (if x.nv then 2 ^ 52 else 0) + (if x.clmp then 2 ^ 51 else 0) + (if x.stall.isSome then 2 ^ 50 else 0) + 2 ^ 46 * x.cmds.length +
    (match x.cmds with
      | c :: _ => c.bits / 8
      | [] => x.bytes) % 2 ^ 46)

/-- R289. -/
def execCpq (g : Guard) (d : Reg) (q : BitVec 4) (s : State) : Host.Outcome State Fault Refusal :=
  run s g (cpyNeed [] [d] false) fun s t => .ok (s.write s.cur d (s.queue t.core q.toNat).qsts)

/-- Every command of a queue completes CANCELLED, oldest first. -/
def State.cancelAll (s : State) (core q : Nat) : Nat → State
  | 0 => s
  | n + 1 => State.cancelAll (s.copyDone core q 0x21) core q n

/-- R289. -/
def execCpcan (g : Guard) (d : Reg) (q : BitVec 4) (s : State) : Host.Outcome State Fault Refusal :=
  run s g (cpyNeed [] [d] false) fun s t =>
    let n := (s.queue t.core q.toNat).cmds.length
    .ok (((s.modCore t.core (fun c => c.killItem q.toNat)).cancelAll t.core q.toNat n).write s.cur d (BitVec.ofNat 64 n))

/-- R289. -/
def execScout (g : Guard) (a : Src) (q : BitVec 3) (s : State) : Host.Outcome State Fault Refusal :=
  run s g (cpyNeed [a] [] false) fun s t =>
    let v := t.reg a.reg
    if 255 < v.toNat then .trap cDescbad v
    else
      let s1 := s.modQueue t.core q.toNat (fun x => { x with scout := v.toNat })
      let x := s.queue t.core q.toNat
      .ok (if x.stall.isSome then s1.scoutHead t.core q.toNat x.stall else s1)

/-! ### Arenas (R282 to R284) -/

/-- The header of a record (R283). -/
def recordHeader (words kind seq : Nat) : Nat := 0xFFFFE * 2 ^ 44 + words * 2 ^ 20 + kind * 2 ^ 16 + seq

/-- R283, R284: a message of `n` words, whose value is `body`, placed in an arena as one record: what is written, in order (body,
header, TAIL, SEQ), or the code of its refusal. The bytes of the record are the command's destination (R269). -/
def State.placeRecord (s : State) (c : Ctx) (acb base size kind n body : Nat) : Got (Except (BitVec 8) (List Put)) :=
  (s.readRange c (acb + 24) 24 true).then fun s v =>
    let tail := (wordAt v 0).toNat
    let headp := (wordAt v 1).toNat
    let seq := ((wordAt v 2).extractLsb' 0 16).toNat
    let m := 8 + 8 * n
    if tail % 8 ≠ 0 ∨ headp % 8 ≠ 0 ∨ size ≤ tail ∨ size ≤ headp then .ok s (.error 0x1A)
    else
      let f := size - 8 - (tail + size - headp) % size
      let e := size - tail
      let put := fun (at_ t1 : Nat) =>
        bytesOf (base + at_ + 8) (8 * n) body ++ bytesOf (base + at_) 8 (recordHeader n kind seq) ++ bytesOf (acb + 24) 8 t1 false ++
          bytesOf (acb + 40) 2 ((seq + 1) % 65536) false
      if m ≤ e ∧ m ≤ f then .ok s (.ok (put tail ((tail + m) % size)))
      else if e < m ∧ e + m ≤ f then .ok s (.ok (bytesOf (base + tail) 8 (recordHeader (e / 8 - 1) 0 0) false ++ put 0 m))
      else .ok s (.error 0x20)

/-- The numbers of the messages and walks that have reached an arena's home. -/
def State.arenaLine (s : State) (acb : Nat) : List Nat :=
  let copies := s.cores.flatMap (fun (p : Nat × Core) => p.2.queues.filterMap (fun (q : Nat × CopyQueue) => q.2.cmds.head?.bind CopyCmd.ticket))
  let walks := s.clusters.filterMap (fun (p : Nat × Cluster) => p.2.walk.bind Walk.ticket)
  (copies ++ walks).filterMap (fun (t : Nat × Nat) => if t.1 = acb then some t.2 else none)
/-- R284, R314: the home of an arena is free for the one whose arrival has this number: nothing that came before it is left, and no
walk has reserved the arena. -/
def State.arenaTurn (s : State) (acb n : Nat) (cl : Option Nat) : Bool := (s.arenaLine acb).all (fun m => decide (n ≤ m)) && !s.arenaHeld acb cl

/-- R282 to R284, R314: the placement of the head command's message. The message reaches the ACB's home with its source read, waits
there for its turn and for the end of a reservation, and is placed with no other in between. -/
def execArenaPlacement (core q : Nat) (s : State) : Host.Outcome State Fault Refusal :=
  .next <| match (s.queue core q).head with
    | none => s
    | some c =>
      match c.op with
      | .arena acb base size x =>
        let fail := fun (s : State) (e : Nat) => s.copyEnd core q (BitVec.ofNat 8 (engineCause e))
        let write := fun (s : State) (l : List Put) => match s.copyPuts core q l with
          | (s1, .done) => s1.copyEnd core q 0
          | (s1, .stop code) => s1.copyEnd core q code
          | (s1, .wait) => s1
        if !c.started then s
        else if !c.puts.isEmpty then write s c.puts
        else match s.imageBits (c.ctx core) x 0 (8 * x.imageBytes) with
          | .bad s1 e _ => fail s1 e
          | .absent s1 va => s1.copyStall core q c va
          | .ok s1 body => match s1.resolve (c.ctx core) (BitVec.ofNat 64 acb) .store true with
            | (s2, .fail e) => fail s2 e
            | (s2, .absent) => s2.copyStall core q c (BitVec.ofNat 64 acb)
            | (s2, .at pa _) =>
              let no := (c.ticket.getD (pa, s2.nextId)).2
              let s3 := if c.ticket.isSome then s2 else (s2.modCmd core q (fun c => { c with ticket := some (pa, no) })).bumpId
              if !s3.arenaTurn pa no none then s3
              else match s3.placeRecord (c.ctx core) acb base size 1 ((x.imageBytes + 7) / 8) body with
                | .bad s4 e _ => fail s4 e
                | .absent s4 va => s4.copyStall core q c va
                | .ok s4 (.error code) => s4.copyEnd core q code
                | .ok s4 (.ok l) => write s4 l
      | _ => s

end Sys2Proof.Machine
end

