-- ==== Sys2Proof/Machine/Stream.lean ====
section
/-! DEFINITION. Storage transfers (R286 to R288, R470), stream registers (R290, R291), the scarab thread's work queue and
bitstreams (R292 to R294). -/

namespace Sys2Proof.Machine

/-! ### Storage -/

/-- The key of a storage block: device and block number. (DEDUCED: log entry 89) -/
def storageKey (dev block : Nat) : Nat := dev * 2 ^ 64 + block

/-- R288: the capability allows a block of a command at this moment. -/
def Extent.allows (x : Extent) (dom : BitVec 12) (target block : Nat) (wr : Bool) (now : Nat) : Bool :=
  x.domid == dom && decide (x.target.toNat = target) && decide (x.first ≤ block) && decide (block < x.first + x.count) &&
    (if wr then x.w else x.r) && (decide (x.expiry = 0) || decide (now ≤ x.expiry))

/-- A storage command ends once every block that it has issued is complete. -/
def CopyCmd.storEnd (c : CopyCmd) (count : Nat) : CopyCmd :=
  if c.out.isEmpty && (c.stop != 0 || decide (count ≤ c.moved)) then { c with finished := some c.stop } else c

/-- R288, R470: the next block of the head command is checked against the entry as it stands, and issued. -/
def execStorageBlockCheck (core q : Nat) (s : State) : Host.Outcome State Fault Refusal :=
  .next <| match (s.queue core q).head with
    | none => s
    | some c => match c.op with
      | .stor wr target first count _ entry =>
        let p := s.pkg (pkgOf core)
        let ok := match KMap.find p.extents entry with
          | some x => x.allows c.domid target (first + c.moved) wr (s.timeAt (dieOf core)).toNat
          | none => false
        if !c.started || c.stop != 0 || decide (count ≤ c.moved) then s
        else if !ok then s.modCmd core q (fun c => { c with stop := 0x14 }.storEnd count)
        else if (KMap.find p.targets target).isNone then s.modCmd core q (fun c => { c with stop := 0x0D }.storEnd count)
        else (s.modCmd core q (fun c => { c with out := c.out ++ [c.moved], moved := c.moved + 1 })).scoutHead core q none
      | _ => s

/-- A block read: from memory to write it to storage, or from storage. (DEDUCED: log entry 89) -/
def State.storageRead (s : State) (core : Nat) (c : CopyCmd) (wr : Bool) (dev blk mem : Nat) : Got Nat :=
  if wr then s.readRange (c.ctx core) mem 4096 true else .ok s (KMap.getD (s.pkg (pkgOf core)).storage (storageKey dev blk) 0)
/-- A block written to storage. (DEDUCED: log entry 89) -/
def State.storageWrite (s : State) (pkg dev blk v : Nat) : State :=
  let key := storageKey dev blk
  s.modPkg pkg (fun p => { p with storage := if v = 0 then KMap.erase p.storage key else KMap.set p.storage key v })

/-- R470: a block that has been issued completes, in any order; one that an absent page stalls goes on where it stands. (DEDUCED: log entry 89) -/
def execStorageBlockComplete (core q block : Nat) (s : State) : Host.Outcome State Fault Refusal :=
  .next <| match (s.queue core q).head with
    | none => s
    | some c => match c.op with
      | .stor wr target first count mem _ =>
        let ended := fun (s : State) (stop : BitVec 8) => s.modCmd core q (fun c =>
          { c with out := c.out.erase block, stop := if c.stop = 0 then stop else c.stop }.storEnd count)
        let write := fun (s : State) (l : List Put) => match (s.modCmd core q (fun c => { c with part := block })).copyPuts core q l with
          | (s1, .done) => ended s1 0
          | (s1, .stop code) => ended s1 code
          | (s1, .wait) => s1
        let dev := KMap.getD (s.pkg (pkgOf core)).targets target 0
        if !c.out.contains block || (!c.puts.isEmpty && decide (c.part ≠ block)) then s
        else if !c.puts.isEmpty then write s c.puts
        else match s.storageRead core c wr dev (first + block) (mem + 4096 * block) with
          | .bad s1 e _ => ended s1 (BitVec.ofNat 8 (engineCause e))
          | .absent s1 va => s1.copyStall core q c va
          | .ok s1 v =>
            if wr then ended ((s1.storageWrite (pkgOf core) dev (first + block) v).modCmd core q (fun c => { c with bits := c.bits + 32768 })) 0
            else write s1 (bytesOf (mem + 4096 * block) 4096 v)
      | _ => s

/-! ### Streams (R291) -/

/-- The stream bound to a stream register. -/
def Thread.stream (t : Thread) (n : BitVec 2) : Option Stream := t.sm.getD n.toNat none
/-- A stream register bound or unbound. -/
def Thread.setStream (t : Thread) (n : BitVec 2) (x : Option Stream) : Thread :=
  { t with sm := (t.sm ++ List.replicate (4 - t.sm.length) none).set n.toNat x }
/-- The trap of a stream that has no further element, the wrong direction, or none at all. -/
def strmEof (n : BitVec 2) : Res := .trap 0x17 (BitVec.ofNat 64 (regNum (.sm (n.toFin))))

/-- The register number of a stream register. -/
def strmNo (n : BitVec 2) : Word := BitVec.ofNat 64 (regNum (.sm (n.toFin)))

/-- R291, R75: STRM; a stream bound to the register before ends as with `strc.end`. -/
def execStrm (g : Guard) (wr : Bool) (sm : BitVec 2) (a : Src) (s : State) : Host.Outcome State Fault Refusal :=
  run s g (cpyNeed [a] [] true) fun s t =>
    let p := t.reg a.reg
    if p.extractLsb' 0 7 != 0 then .trap cAlign p
    else if !t.strmRoom sm.toNat 8192 then .wait (.strm sm.toNat 8192) true (strmNo sm)
    else t.afterStores <| s.readBlock t.engine p 128 true fun s1 v => match tensorOf v t.fa t.fb with
      | .error e => .trap e.toNat p
      | .ok x => .ok (s1.modThread s.cur (fun t => t.setStream sm (some ⟨wr, x, 0, []⟩)))

/-- An access to the next element of a stream: failures trap with the element's address. (DEDUCED: log entry 81) -/
def streamStep {α : Type} (s : State) (x : Stream) (access : Nat) (r : Got α) (f : State → α → Res) : Res :=
  let va := BitVec.ofNat 64 (x.ten.at x.pos / 8)
  match r with
  | .ok s1 a => f s1 a
  | .bad _ e _ => .trap e va
  | .absent s1 _ => .gone (s1.pageFault s.cur va access)

/-- The stream advanced by one element. -/
def State.streamNext (s : State) (sm : BitVec 2) (x : Stream) : State :=
  s.modThread s.cur (fun t => t.setStream sm (some { x with pos := x.pos + 1 }))

/-- R291: `strc.get`. -/
def execStrcGet (g : Guard) (d : Reg) (sm : BitVec 2) (s : State) : Host.Outcome State Fault Refusal :=
  run s g (cpyNeed [] [d] true) fun s t =>
    match t.stream sm with
    | none => strmEof sm
    | some x =>
      if x.wr ∨ x.ten.count ≤ x.pos then strmEof sm
      else streamStep s x 0 (s.readBits t.engine (x.ten.at x.pos) x.ten.width) fun s1 v =>
        .ok ((s1.streamNext sm x).write s.cur d (elemWord x.ten.t x.ten.width v))
/-- R291: `strc.put`: the element is checked and joins the buffer. -/
def execStrcPut (g : Guard) (sm : BitVec 2) (a : Src) (s : State) : Host.Outcome State Fault Refusal :=
  run s g (cpyNeed [a] [] true) fun s t =>
    match t.stream sm with
    | none => strmEof sm
    | some x =>
      if !x.wr ∨ x.ten.count ≤ x.pos then strmEof sm
      else if !t.strmRoom sm.toNat x.ten.width then .wait (.strm sm.toNat x.ten.width) true (strmNo sm)
      else
        let v := (t.reg a.reg).toNat
        streamStep s x 1 (s.writeBits t.engine (x.ten.at x.pos) x.ten.width v) fun _ _ =>
          .ok (s.modThread s.cur (fun t => t.setStream sm (some { x with pos := x.pos + 1, buf := x.buf ++ x.ten.put x.pos v })))
/-- R291: `strc.end` waits until every element is written. -/
def execStrcEnd (g : Guard) (sm : BitVec 2) (s : State) : Host.Outcome State Fault Refusal :=
  run s g (cpyNeed [] [] true) fun s t =>
    match t.stream sm with
    | none => strmEof sm
    | some _ =>
      if !t.strmRoom sm.toNat 8192 then .wait (.strm sm.toNat 8192) true (strmNo sm)
      else .ok (s.modThread s.cur (fun t => t.setStream sm none))
/-- Elements of a stream's buffer written, oldest first; one whose page is absent stays, one that fails by now is lost. (DEDUCED: log
entry 81) -/
def State.drainPuts (s : State) (c : Ctx) : List Put → Nat → State × List Put
  | [], _ => (s, [])
  | p :: r, 0 => (s, p :: r)
  | p :: r, n + 1 => match s.writeBits c p.at_ p.n p.v with
    | .ok s1 _ | .bad s1 _ _ => State.drainPuts s1 c r n
    | .absent s1 _ => (s1, p :: r)
/-- R291: in a cycle a copy port writes any number of the elements that a thread's streams hold. (DEDUCED: log entry 81) -/
def State.streamMove (s : State) (tid : Nat) : State :=
  let t := s.thread tid
  if t.strmDone || !t.inSlot then s
  else (List.range 4).foldl (fun (s : State) n =>
    match (s.thread tid).sm.getD n none with
    | none => s
    | some x =>
      let r := s.drainPuts t.engine x.buf (Config.freeNat s.free % (x.buf.length + 1))
      { r.1 with free := r.1.free + 1 }.modThread tid (fun t => t.setStream (BitVec.ofNat 2 n) (some { x with buf := r.2 }))) s
/-- The elements that leave the buffers of all streams in a cycle. -/
def State.streamsMove (s : State) : State := (s.threads.map Prod.fst).foldl State.streamMove s
/-- R291: `strc.q`. -/
def execStrcQ (g : Guard) (d : Reg) (sm : BitVec 2) (s : State) : Host.Outcome State Fault Refusal :=
  run s g (cpyNeed [] [d] true) fun s t =>
    match t.stream sm with
    | none => strmEof sm
    | some x => .ok (s.write s.cur d (BitVec.ofNat 64 (x.ten.count - x.pos)))

/-! ### The scarab's items (R292 to R294) -/

/-- The tensor, data plane, direction (1 decode) and codec number of a CUST command. -/
def CopyOp.custom : CopyOp → Option (Tensor × Nat × Bool × Nat)
  | .enc 5 x d _ n _ => some (x, d, false, n)
  | .dec 5 x d _ n _ => some (x, d, true, n)
  | _ => none

/-- R292: a CUST command at the head of its queue joins the work queue; on a part without BSX it completes UNIMPL. -/
def execCustItemEnqueue (core q : Nat) (s : State) : Host.Outcome State Fault Refusal :=
  .next <| match (s.queue core q).head with
    | none => s
    | some c =>
      if c.started || !c.op.isCust then s
      else if decide ((s.pkg (pkgOf core)).variant = 2) then s.copyEnd core q 0x02
      else (s.modCmd core q (fun c => { c with started := true })).modCore core (fun k => { k with work := k.work ++ [q] })

/-- What a bitstream instruction needs. -/
def bsNeed (srcs : List Src) (dests : List Reg) : Need := { ext := .bsx, srcs := srcs, dests := dests }

/-- R293: QWAIT. -/
def execQwait (g : Guard) (s : State) : Host.Outcome State Fault Refusal :=
  run s g (bsNeed [] []) fun s t => if (s.core t.core).work.isEmpty then .wait .work false 0 else .ok s

/-- R293: INFO. (DEDUCED: log entry 81) -/
def WorkItem.info (i : WorkItem) : Word :=
  BitVec.ofNat 64 (i.count % 2 ^ 32 * 65536 + i.t.code.toNat * 4096 + (if i.dir then 256 else 0) + i.n % 256)

/-- R293: QTAKE. -/
def execQtake (g : Guard) (d : Reg) (s : State) : Host.Outcome State Fault Refusal :=
  run s g (bsNeed [] [d]) fun s t =>
    let k := s.core t.core
    if k.item.isSome then .trap cDescbad 0
    else match k.work with
      | [] => .wait .work false 0
      | q :: r =>
        match (s.queue t.core q).cmds.head?.bind (fun c => c.op.custom) with
        | none => .wait .work false 0
        | some (x, _, dir, n) =>
          let bits := x.count * x.width
          let i : WorkItem := {
            queue := q, dir := dir, n := n, t := x.t, count := x.count, inBits := if dir then none else some bits, outBits := bits
            inPos := 0, outPos := 0, dead := false }
          .ok ((s.modCore t.core (fun k => { k with work := r, item := some i })).write s.cur d i.info)

/-- The item's position, changed. -/
def State.modItem (s : State) (core : Nat) (f : WorkItem → WorkItem) : State := s.modCore core (fun k => { k with item := k.item.map f })

/-- An instruction on the item that the scarab has taken: none or a dead one traps. (DEDUCED: log entry 81) -/
def onItem (s : State) (t : Thread) (out : Bool) (f : WorkItem → CopyCmd → Tensor → Nat → Res) : Res :=
  match (s.core t.core).item with
  | none => .trap 0x17 0
  | some i =>
    let pos := BitVec.ofNat 64 (if out then i.outPos else i.inPos)
    if i.dead then .trap 0x17 pos
    else match (s.queue t.core i.queue).cmds with
      | c :: _ => match c.op.custom with
        | some (x, data, _, _) => f i c x data
        | none => .trap 0x17 pos
      | [] => .trap 0x17 pos

/-- An access of the port for the item: a failure ends its command and the item is dead; an absent page makes the
instruction wait. -/
def itemAccess {α : Type} (s : State) (t : Thread) (i : WorkItem) (c : CopyCmd) (pos : Nat) (r : Got α) (f : State → α → Res) : Res :=
  match r with
  | .ok s1 a => f s1 a
  | .bad s1 e _ =>
    .gone (((s1.copyEnd t.core i.queue (BitVec.ofNat 8 (engineCause e))).modItem t.core (fun i => { i with dead := true })).trapHere 0x17 (BitVec.ofNat 64 pos))
  | .absent _ va => .gone ((s.copyStall t.core i.queue c va).block s.cur (.item i.queue) false 0)

/-- `n` bits of the item's input. -/
def State.itemRead (s : State) (core : Nat) (i : WorkItem) (c : CopyCmd) (x : Tensor) (data n : Nat) : Got Nat :=
  if i.dir then s.readBits (c.ctx core) (8 * data + i.inPos) n true else s.imageBits (c.ctx core) x i.inPos n
/-- `n` bits to be written at a position of the item's output. -/
def WorkItem.put (i : WorkItem) (x : Tensor) (data pos n v : Nat) : List Put :=
  if i.dir then x.scatter pos n v else putsOf (8 * data + pos) n v
/-- Output bits of the item are written; those that an absent page has kept from being written are tried again with the
instruction, and an access that fails ends the command and leaves the item dead. -/
def itemWrite (s : State) (t : Thread) (i : WorkItem) (c : CopyCmd) (l : List Put) (f : State → Res) : Res :=
  match s.copyPuts t.core i.queue (if c.puts.isEmpty then l else c.puts) with
  | (s1, .done) => f s1
  | (s1, .stop code) =>
    .gone (((s1.copyEnd t.core i.queue code).modItem t.core (fun i => { i with dead := true })).trapHere 0x17 (BitVec.ofNat 64 i.outPos))
  | (s1, .wait) => .gone (s1.block s.cur (.item i.queue) false 0)

/-- The count operand of the bitstream instructions: 1 to 64. -/
def bitCount (t : Thread) (n : Opd) (f : Nat → Res) : Res :=
  let k := match n with
    | .imm i => i.setWidth 64
    | .reg r => t.reg r.reg
  if k = 0 ∨ 64 < k.toNat then .trap cDescbad k else f k.toNat

/-- R293: BSGET and BSPEEK. -/
def State.bsRead (s : State) (t : Thread) (d : Reg) (n : Opd) (advance : Bool) : Res :=
  bitCount t n fun n => onItem s t false fun i c x data =>
    let past := match i.inBits with
      | some b => decide (b < i.inPos + n)
      | none => false
    if past && advance then .trap 0x17 (BitVec.ofNat 64 i.inPos)
    else itemAccess s t i c i.inPos (s.itemRead t.core i c x data n) fun s1 v =>
      .ok ((if advance then s1.modItem t.core (fun i => { i with inPos := i.inPos + n }) else s1).write s.cur d (BitVec.ofNat 64 v))

/-- R293. -/
def execBsget (g : Guard) (d : Reg) (n : Opd) (s : State) : Host.Outcome State Fault Refusal :=
  run s g (bsNeed (Opd.srcs n) [d]) fun s t => s.bsRead t d n true
/-- R293. -/
def execBspeek (g : Guard) (d : Reg) (n : Opd) (s : State) : Host.Outcome State Fault Refusal :=
  run s g (bsNeed (Opd.srcs n) [d]) fun s t => s.bsRead t d n false

/-- Output bits written, and the position after them. -/
def State.bsOut (s : State) (t : Thread) (i : WorkItem) (c : CopyCmd) (x : Tensor) (data n v : Nat) (f : State → Res) : Res :=
  itemWrite s t i c (i.put x data i.outPos n (v % 2 ^ n)) fun s1 => f (s1.modItem t.core (fun i => { i with outPos := i.outPos + n }))

/-- R293. -/
def execBsput (g : Guard) (a : Src) (n : Opd) (s : State) : Host.Outcome State Fault Refusal :=
  run s g (bsNeed (a :: Opd.srcs n) []) fun s t =>
    bitCount t n fun n => onItem s t true fun i c x data =>
      if i.outBits < i.outPos + n then .trap 0x17 (BitVec.ofNat 64 i.outPos)
      else s.bsOut t i c x data n (t.reg a.reg).toNat fun s1 => .ok s1

/-- Bits from a position to the next multiple of 2^k. -/
def alignGap (pos k : Nat) : Nat := (2 ^ k - pos % 2 ^ k) % 2 ^ k

/-- R293: BSALN; padding stops at the output limit. -/
def execBsaln (g : Guard) (out : Bool) (k : BitVec 3) (s : State) : Host.Outcome State Fault Refusal :=
  run s g (bsNeed [] []) fun s t =>
    onItem s t out fun i c x data =>
      if out then s.bsOut t i c x data (Nat.min (alignGap i.outPos k.toNat) (i.outBits - i.outPos)) 0 fun s1 => .ok s1
      else .ok (s.modItem t.core (fun i => { i with inPos := i.inPos + alignGap i.inPos k.toNat }))

/-- R293: a partial byte is padded with zeros; every output bit is written already. Past the output limit the bits of the
last byte of a data plane are zero all the same (R276). -/
def State.bsFlush (s : State) (t : Thread) (f : State → Res) : Res :=
  onItem s t true fun i c x data =>
    let gap := alignGap i.outPos 3
    let inside := Nat.min gap (i.outBits - i.outPos)
    let rest := if i.dir then [] else putsOf (8 * data + i.outPos + inside) (gap - inside) 0
    itemWrite s t i c (i.put x data i.outPos inside 0 ++ rest) fun s1 => f (s1.modItem t.core (fun i => { i with outPos := i.outPos + inside }))

/-- R293. -/
def execBsfls (g : Guard) (s : State) : Host.Outcome State Fault Refusal :=
  run s g (bsNeed [] []) fun s t => s.bsFlush t fun s1 => .ok s1

/-- R293, R294: QDONE; a dead item is released without effect. -/
def execQdone (g : Guard) (a : Src) (s : State) : Host.Outcome State Fault Refusal :=
  run s g (bsNeed [a] []) fun s t =>
    let v := t.reg a.reg
    let release := fun (s : State) => s.modCore t.core (fun k => { k with item := none })
    match (s.core t.core).item with
    | none => .trap 0x17 0
    | some i =>
      if i.dead then .ok (release s)
      else s.bsFlush t fun s1 =>
        .ok (release ((s1.modCmd t.core i.queue (fun c => { c with
          fl := { nx := bit v 12, uf := bit v 11, ofl := bit v 10, nv := bit v 9, clmp := bit v 8 } })).copyEnd t.core i.queue (v.setWidth 8)))

end Sys2Proof.Machine
end

