-- ==== Sys2Proof/Machine/Sha.lean ====
section
/-! DEFINITION. SHA-512 (R312, R417), over a message of 64-bit words in the hash's own big-endian reading. -/

namespace Sys2Proof.Machine

/-- The round constants of SHA-512: fractions of the cube roots of the first 80 primes. -/
def shaK : List Word :=
  [0x428a2f98d728ae22, 0x7137449123ef65cd, 0xb5c0fbcfec4d3b2f, 0xe9b5dba58189dbbc] ++
  [0x3956c25bf348b538, 0x59f111f1b605d019, 0x923f82a4af194f9b, 0xab1c5ed5da6d8118] ++
  [0xd807aa98a3030242, 0x12835b0145706fbe, 0x243185be4ee4b28c, 0x550c7dc3d5ffb4e2] ++
  [0x72be5d74f27b896f, 0x80deb1fe3b1696b1, 0x9bdc06a725c71235, 0xc19bf174cf692694] ++
  [0xe49b69c19ef14ad2, 0xefbe4786384f25e3, 0x0fc19dc68b8cd5b5, 0x240ca1cc77ac9c65] ++
  [0x2de92c6f592b0275, 0x4a7484aa6ea6e483, 0x5cb0a9dcbd41fbd4, 0x76f988da831153b5] ++
  [0x983e5152ee66dfab, 0xa831c66d2db43210, 0xb00327c898fb213f, 0xbf597fc7beef0ee4] ++
  [0xc6e00bf33da88fc2, 0xd5a79147930aa725, 0x06ca6351e003826f, 0x142929670a0e6e70] ++
  [0x27b70a8546d22ffc, 0x2e1b21385c26c926, 0x4d2c6dfc5ac42aed, 0x53380d139d95b3df] ++
  [0x650a73548baf63de, 0x766a0abb3c77b2a8, 0x81c2c92e47edaee6, 0x92722c851482353b] ++
  [0xa2bfe8a14cf10364, 0xa81a664bbc423001, 0xc24b8b70d0f89791, 0xc76c51a30654be30] ++
  [0xd192e819d6ef5218, 0xd69906245565a910, 0xf40e35855771202a, 0x106aa07032bbd1b8] ++
  [0x19a4c116b8d2d0c8, 0x1e376c085141ab53, 0x2748774cdf8eeb99, 0x34b0bcb5e19b48a8] ++
  [0x391c0cb3c5c95a63, 0x4ed8aa4ae3418acb, 0x5b9cca4f7763e373, 0x682e6ff3d6b2b8a3] ++
  [0x748f82ee5defb2fc, 0x78a5636f43172f60, 0x84c87814a1f0ab72, 0x8cc702081a6439ec] ++
  [0x90befffa23631e28, 0xa4506cebde82bde9, 0xbef9a3f7b2c67915, 0xc67178f2e372532b] ++
  [0xca273eceea26619c, 0xd186b8c721c0c207, 0xeada7dd6cde0eb1e, 0xf57d4f7fee6ed178] ++
  [0x06f067aa72176fba, 0x0a637dc5a2c898a6, 0x113f9804bef90dae, 0x1b710b35131c471b] ++
  [0x28db77f523047d84, 0x32caab7b40c72493, 0x3c9ebe0a15c9bebc, 0x431d67c49c100d4c] ++
  [0x4cc5d4becb3e42b6, 0x597f299cfc657e2a, 0x5fcb6fab3ad6faec, 0x6c44198c4a475817]

/-- The start value of SHA-512: fractions of the square roots of the first 8 primes. -/
def shaInit : List Word := [0x6a09e667f3bcc908, 0xbb67ae8584caa73b, 0x3c6ef372fe94f82b, 0xa54ff53a5f1d36f1] ++ [0x510e527fade682d1, 0x9b05688c2b3e6c1f, 0x1f83d9abfb41bd6b, 0x5be0cd19137e2179]

/-- The bytes of a word in reverse order. -/
def swapBytes (x : Word) : Word :=
  (List.range 8).foldl (fun r i => r ||| ((x >>> (8 * i) &&& 0xFF) <<< (56 - 8 * i))) 0

def shaBig0 (x : Word) : Word := x.rotateRight 28 ^^^ x.rotateRight 34 ^^^ x.rotateRight 39
def shaBig1 (x : Word) : Word := x.rotateRight 14 ^^^ x.rotateRight 18 ^^^ x.rotateRight 41
def shaSmall0 (x : Word) : Word := x.rotateRight 1 ^^^ x.rotateRight 8 ^^^ (x >>> 7)
def shaSmall1 (x : Word) : Word := x.rotateRight 19 ^^^ x.rotateRight 61 ^^^ (x >>> 6)

/-- One round: the window of the sixteen message words that come next, and the eight working words. -/
def shaRound (p : List Word × List Word) (k : Word) : List Word × List Word :=
  let w := p.1
  let v := fun (i : Nat) => p.2.getD i 0
  let t1 := v 7 + shaBig1 (v 4) + ((v 4 &&& v 5) ^^^ (~~~(v 4) &&& v 6)) + k + w.getD 0 0
  let t2 := shaBig0 (v 0) + ((v 0 &&& v 1) ^^^ (v 0 &&& v 2) ^^^ (v 1 &&& v 2))
  let next := shaSmall1 (w.getD 14 0) + w.getD 9 0 + shaSmall0 (w.getD 1 0) + w.getD 0 0
  (w.drop 1 ++ [next], [t1 + t2, v 0, v 1, v 2, v 3 + t1, v 4, v 5, v 6])

/-- One block of sixteen words. -/
def shaBlock (h blk : List Word) : List Word := List.zipWith (· + ·) h (shaK.foldl shaRound (blk, h)).2

/-- The blocks of a padded message; `fuel` bounds their number. -/
def shaBlocks (h : List Word) : Nat → List Word → List Word
  | 0, _ => h
  | n + 1, l => if l.isEmpty then h else shaBlocks (shaBlock h (l.take 16)) n (l.drop 16)

/-- SHA-512 of a message of whole words whose bytes are little-endian words of memory; the digest as bytes 0 to 63 in order,
read as a little-endian number. -/
def sha512Words (l : List Word) : Nat :=
  let n := l.length
  let zeros := (29 - n % 16) % 16
  let msg := l.map swapBytes ++ 0x8000000000000000 :: List.replicate zeros 0 ++ [0, BitVec.ofNat 64 (64 * n)]
  ((shaBlocks shaInit (msg.length / 16 + 1) msg).map swapBytes).foldr (fun w x => w.toNat + x * 2 ^ 64) 0

end Sys2Proof.Machine
end

