-- ==== Sys2Proof/Machine/Sync.lean ====
section
/-! DEFINITION. Monitors (15: R344 to R348), barriers (R349 to R354) and the wait limit (R342, R343). -/

namespace Sys2Proof.Machine

/-! ### Monitors -/

/-- R347: MARM. (DEDUCED: log entry 78) -/
def execMarm (g : Guard) (m : MemOp) (s : State) : Host.Outcome State Fault Refusal :=
  run s g (memNeed (MemOp.srcs m) [] [] true) fun s t =>
    let a := MemOp.ea t m &&& ~~~127
    s.access s.cur a 128 .load fun s1 pa leaf =>
      let h := homeOf pa
      let pos := homePos (pkgOf t.core) h
      if h = .host then .trap cProt a
      else if t.mon.lines.contains pa then .ok s1
      else if 4 ≤ t.mon.lines.length then
        if t.mon.trig then .ok s1
        else if t.anc then .wait .trig false a
        else s1.toQueue s.cur false t.pc false
      else if t.mon.lines.isEmpty && s1.parkFull t.recordCluster then .wait (.record t.recordCluster) false a
      else
        let s2 := s1.modThread s.cur (fun t => { t with mon := { t.mon with lines := t.mon.lines ++ [pa] } })
        if homeLocal t.core h then
          .ok ((s2.modCluster (clusterOf pos) (fun c => { c with watchers := c.watchers ++ [(pa, s.cur)] })).dropCand t.cluster pa)
        else .pend ((s2.pendOn s.cur .answer false .nothing none a).request t pos kWtch (.wtch (t.asker s.cur s2.nextId (leafShadow leaf)) pa))

/-- R347: every line is released and TRIG cleared. -/
def execMarmClr (g : Guard) (s : State) : Host.Outcome State Fault Refusal :=
  run s g (memNeed [] [] [] true) fun s _ => .ok (s.disarm s.cur)

/-- R348: the codes of MWAIT. -/
abbrev mwWrite : Word := 0
abbrev mwTimeout : Word := 1
abbrev mwIntr : Word := 2
abbrev mwNone : Word := 3

/-- R348: MWAIT. -/
def execMwait (g : Guard) (d : Reg) (a : Src) (s : State) : Host.Outcome State Fault Refusal :=
  run s g { ext := .base, srcs := [a], dests := [d], outside := true } fun s t =>
    let done := fun (code : Word) => Res.ok (((s.modThread s.cur (fun t => { t with intr := false })).write s.cur d code).disarm s.cur)
    let limit := t.reg a.reg
    if t.mon.trig then done mwWrite
    else if t.mon.lines.isEmpty then done mwNone
    else if t.intr then done mwIntr
    else .pend (s.pendOn s.cur (.mwait (if limit = 0 then none else some (s.nowOf t + limit.toNat))) false (.reg d 8 false) none 0)

/-- R348: a thread in MWAIT is woken with a code; the record is released. (DEDUCED: log entry 78) -/
def State.mwake (s : State) (tid : Nat) (code : Word) : State :=
  match (s.thread tid).pend with
  | some p => (s.complete tid p code).disarm tid
  | none => s
/-- The thread waits in MWAIT: its timeout. -/
def Thread.inMwait (t : Thread) : Option (Option Nat) :=
  match t.wait with
  | some (.mwait d) => if t.pend.isSome && t.inSlot then some d else none
  | _ => none

/-- R345, R348: TRIG wakes the thread. (DEDUCED: log entry 78) -/
def execMonitorTrigger (tid : Nat) (s : State) : Host.Outcome State Fault Refusal :=
  .next (if (s.thread tid).inMwait.isSome && (s.thread tid).mon.trig then s.mwake tid mwWrite else s)
/-- R348: the timeout passes. -/
def execMwaitTimeout (tid : Nat) (s : State) : Host.Outcome State Fault Refusal :=
  .next (match (s.thread tid).inMwait with
    | some (some d) => if decide (d ≤ s.nowOf (s.thread tid)) && !(s.thread tid).mon.trig then s.mwake tid mwTimeout else s
    | _ => s)
/-- R348: a wake sent by the service pair; a timeout that has passed goes before it. -/
def State.intrWake (s : State) (tid : Nat) : State :=
  let t := s.thread tid
  match t.inMwait with
  | none => s
  | some d =>
    if t.mon.trig then s
    else s.mwake tid (match d with
      | some d => if d ≤ s.nowOf t then mwTimeout else mwIntr
      | none => mwIntr)
/-- R348. -/
def execServicePairIntrWake (tid : Nat) (s : State) : Host.Outcome State Fault Refusal := .next (s.intrWake tid)

/-! ### Barriers -/

/-- R349: the core and index that a name gives; none when it is invalid. (DEDUCED: log entry 36) -/
def State.barName (s : State) (w : Word) : Option (Nat × Nat) :=
  let core := (w.extractLsb' 0 18).toNat
  let idx := (w.extractLsb' 18 6).toNat
  if w.extractLsb' 24 40 = 0 ∧ idx < 48 ∧ s.corePresent core then some (core, idx) else none

/-- A barrier instruction acts at the home core: an invalid name traps; a fenced home answers FENCED (R445); a context that
is not live there gets no answer (R436). (DEDUCED: log entry 79) -/
def State.atBarrier (s : State) (t : Thread) (name : Word) (f : Nat → Nat → Res) : Res :=
  match s.barName name with
  | none => .trap cDescbad name
  | some (core, idx) =>
    if (s.cluster (clusterOf core)).fen && decide (clusterOf core ≠ t.cluster) then .trap 0x0E name
    else if !s.isLive (clusterOf core) t.domid t.cin then .pend (s.pendOn s.cur .answer true .nothing none name)
    else if s.switchedFrom (clusterOf core) t.domid t.cin then .wait (.away (clusterOf core)) true name
    else f core idx

/-- What a barrier instruction needs. -/
def barNeed (srcs : List Src) (dests : List Reg) : Need := { ext := .base, srcs := srcs, dests := dests, outside := true }

/-- R354: BINIT. -/
def execBinit (g : Guard) (a b c : Src) (s : State) : Host.Outcome State Fault Refusal :=
  run s g (barNeed [a, b, c] []) fun s t =>
    let name := t.reg a.reg
    let rect := t.reg b.reg
    let count := t.reg c.reg
    s.atBarrier t name fun core idx =>
      let old := s.barrier core idx
      if count = 0 ∨ 65535 < count.toNat then .trap cDescbad count
      else if rectSys rect || rectBad rect then .trap cDescbad rect
      else if decide (old.exp ≠ 0) && old.domid != t.domid && !t.sup then .trap cProt name
      else
        .ok ((s.setBarrier core idx { exp := count.toNat, live := count.toNat, rect := rect, domid := t.domid, cin := t.cin
                                      gen := old.gen + 1 }).releaseWaiters old.waiters true)

/-- The thread's membership of a barrier's present generation. -/
def Thread.membership (t : Thread) (core idx gen : Nat) : Option Member :=
  t.members.find? (fun m => decide (m.core = core ∧ m.idx = idx ∧ m.gen = gen))
/-- R351: a membership of an older generation no longer counts (R354). -/
def State.memberLive (s : State) (m : Member) : Bool := decide ((s.barrier m.core m.idx).gen = m.gen)
/-- R351: why the thread may not arrive. -/
def State.arrivalFault (s : State) (t : Thread) (core idx : Nat) : Option Nat :=
  let b := s.barrier core idx
  let m := t.membership core idx b.gen
  if b.exp = 0 then some cDescbad
  else if b.domid ≠ t.domid then some cProt
  else if !rectHas b.rect t.core then some cProt
  else match m with
    | some m => if m.dropped then some cDescbad else none
    | none => if (t.members.filter (fun m => s.memberLive m && !m.dropped)).length < 8 then none else some cDescbad

/-- The memberships that still count, with one of the present generation. -/
def State.setMember (s : State) (tid core idx : Nat) (dropped : Bool) : State :=
  let gen := (s.barrier core idx).gen
  s.modThread tid (fun t => { t with members :=
    ⟨core, idx, gen, dropped⟩ :: t.members.filter (fun m => s.memberLive m && !decide (m.core = core ∧ m.idx = idx)) })

/-- R351, R352: an arrival, before the phase is checked: ARR saturates and the thread becomes a member. -/
def State.arriveAt (s : State) (tid core idx : Nat) : State :=
  let b := s.barrier core idx
  (s.setMember tid core idx false).setBarrier core idx { b with arr := Nat.min (b.arr + 1) 65535 }

/-- The checks of an arrival and its release of the member rectangle's scope (R351, R353). -/
def State.arriving (s : State) (t : Thread) (name : Word) (f : Nat → Nat → Res) : Res :=
  s.atBarrier t name fun core idx =>
    match s.arrivalFault t core idx with
    | some c => .trap c name
    | none => if t.released (s.barrier core idx).rect then f core idx else .wait (.release (s.barrier core idx).rect) false 0

/-- R354: `barv`. -/
def execBarv (g : Guard) (d : Reg) (a : Src) (s : State) : Host.Outcome State Fault Refusal :=
  run s g (barNeed [a] [d]) fun s t =>
    s.arriving t (t.reg a.reg) fun core idx =>
      .ok (((s.arriveAt s.cur core idx).phaseCheck core idx).write s.cur d ((s.barrier core idx).ph.setWidth 64))

/-- R350: the state that `barv.q` reads. -/
def Barrier.word (b : Barrier) : Word := BitVec.ofNat 64 (b.exp * 281474976710656 + b.live * 4294967296 + b.arr * 65536 + b.ph.toNat)
/-- R354: `barv.q`. -/
def execBarvQ (g : Guard) (d : Reg) (a : Src) (s : State) : Host.Outcome State Fault Refusal :=
  run s g (barNeed [a] [d]) fun s t =>
    s.atBarrier t (t.reg a.reg) fun core idx => .ok (s.write s.cur d (s.barrier core idx).word)

/-- R354: pw[8] is written at the write-back. -/
def State.setBrk (s : State) (tid : Nat) (b : Bool) : State :=
  s.modThread tid (fun t => { t with pw := (t.pw &&& ~~~0x100#32) ||| (if b then 0x100#32 else 0) })
/-- The thread joins the waiters of the present phase, after an arrival of its own that may have made it a member (R351); it
acquires the rectangle's scope when it resumes (R353). -/
def State.barWait (s : State) (tid core idx : Nat) (name : Word) (arrived joined : Bool) : Res :=
  let b := s.barrier core idx
  .pend ((s.setBarrier core idx { b with waiters := b.waiters ++ [tid] }).pendOn tid (.barrier core idx arrived joined) true .brk
    (some b.rect) name)
/-- A wait on a phase that has completed returns at once (R353, R354). (DEDUCED: log entry 79) -/
def State.barReturn (s : State) (t : Thread) (core idx : Nat) (brk : Bool) : Res :=
  .ok ((s.acquire t.core (s.barrier core idx).rect).setBrk s.cur brk)

/-- R354: `barw`. -/
def execBarw (g : Guard) (a b : Src) (s : State) : Host.Outcome State Fault Refusal :=
  run s g (barNeed [a, b] []) fun s t =>
    let name := t.reg a.reg
    s.atBarrier t name fun core idx =>
      let x := s.barrier core idx
      let dist := (x.ph - (t.reg b.reg).setWidth 16).toNat
      if !t.readsDone then .wait .reads false 0
      else if dist = 0 then s.barWait s.cur core idx name false false
      else if dist ≤ 16 then s.barReturn t core idx (x.history.getD (dist - 1) false)
      else if dist < 32768 then s.barReturn t core idx true
      else .trap cDescbad (t.reg b.reg)

/-- R354: `barw.a`: the arrival may complete its own phase. -/
def execBarwA (g : Guard) (a : Src) (s : State) : Host.Outcome State Fault Refusal :=
  run s g (barNeed [a] []) fun s t =>
    let name := t.reg a.reg
    s.arriving t name fun core idx =>
      let s1 := s.arriveAt s.cur core idx
      let s2 := s1.phaseCheck core idx
      if (s2.barrier core idx).ph = (s.barrier core idx).ph then
        s1.barWait s.cur core idx name true (t.membership core idx (s.barrier core idx).gen).isNone
      else s2.barReturn t core idx ((s2.barrier core idx).history.getD 0 false)

/-- R352, R354: `bdrop`. -/
def execBdrop (g : Guard) (a : Src) (s : State) : Host.Outcome State Fault Refusal :=
  run s g (barNeed [a] []) fun s t =>
    s.atBarrier t (t.reg a.reg) fun core idx =>
      let b := s.barrier core idx
      .ok (((s.setBarrier core idx { b with live := b.live - 1 }).setMember s.cur core idx true).phaseCheck core idx)

/-! ### The wait limit (R343) -/

/-- Removes a thread from the waiters of barriers and semaphores; an arrival that `barw.a` made is taken back with its wait, and
the membership that it gave. -/
def State.unwait (s : State) (tid : Nat) : State :=
  let t := s.thread tid
  match t.wait with
  | some (.barrier core idx arrived joined) =>
    let b := s.barrier core idx
    (s.setBarrier core idx { b with waiters := b.waiters.filter (fun x => decide (x ≠ tid)), arr := if arrived then b.arr - 1 else b.arr }).modThread
      tid (fun t => if joined then { t with members := t.members.filter (fun m => decide (m.core ≠ core ∨ m.idx ≠ idx)) } else t)
  | some (.sem cl n) =>
    let x := s.sema cl n
    (s.setSema cl n { x with waiters := x.waiters.filter (fun w => decide (w.1 ≠ tid)) }).serveSema cl n (x.waiters.length + 1)
  | _ => s

/-- A request of a thread that waits at its home: it is removed from the lists of waiters. (DEDUCED: log entry 80) -/
def State.cancelAtHome (s : State) (tid tok : Nat) : State × Bool :=
  let mine := fun (w : Asker) => decide (w.tid = tid ∧ w.tok = tok)
  let found := s.clusters.any (fun p => p.2.tagWait.any (fun w => mine w.who) || p.2.chanWait.any (fun w => mine w.who))
  if found then
    ({ s with clusters := s.clusters.map (fun p => (p.1, { p.2 with
        tagWait := p.2.tagWait.filter (fun w => !mine w.who), chanWait := p.2.chanWait.filter (fun w => !mine w.who) })) }, true)
  else (s, false)
/-- The request of a token is still on its way to its home. -/
def State.travelling (s : State) (tid tok : Nat) : Bool :=
  let mine := fun (w : Asker) => decide (w.tid = tid ∧ w.tok = tok)
  s.msgs.any (fun p => match p.2.body with
    | .tagw who _ _ _ => mine who
    | .chan who _ _ _ => mine who
    | _ => false)
/-- The home at which a context's request would wait has dropped it as stale, or it has been served: nothing to cancel. -/
def State.served (s : State) (tid tok : Nat) : Bool :=
  s.msgs.any (fun p => match p.2.body with
    | .resp who _ => decide (who.tid = tid ∧ who.tok = tok)
    | _ => false)

/-- The thread waits for room in a queue whose head command is stalled: that time counts against no WLIM (R280). -/
def State.behindStall (s : State) (t : Thread) : Bool :=
  match t.wait with
  | some (.queue q) => (s.queue t.core q).stall.isSome
  | _ => false
/-- R343: the thread's wait has passed its limit. (DEDUCED: log entry 67) -/
def State.waitExpired (s : State) (t : Thread) : Bool :=
  t.counted && !s.behindStall t && t.wait.isSome && decide (t.wlim ≠ 0) && (match t.since with
    | some c => decide (t.wlim.toNat < s.nowOf t - c)
    | none => false)

/-- R343: WAITLIM. A request that waits at its home is cancelled there; one on its way is marked, and its fate is decided
where it arrives (R360); one that has been served completes normally. A thread that waits in the run queue for an anchored
slot traps there, and goes on as a roaming one. (DEDUCED: log entry 67) -/
def execWaitlimExpiry (tid : Nat) (s : State) : Host.Outcome State Fault Refusal :=
  .next <|
    let t := s.thread tid
    if !s.waitExpired t then s
    else match t.pend with
      | none =>
        match t.place with
        | .runq cl target true =>
          ((s.waitlim tid).modThread tid (fun t => match t.place with
            | .runq _ _ _ => { t with place := .runq cl target false }
            | _ => t)).rest tid
        | _ => s.waitlim tid
      | some p =>
        match t.wait with
        | some .answer =>
          let c := s.cancelAtHome tid p.tok
          if c.2 then c.1.waitlim tid
          else if s.travelling tid p.tok then s.modThread tid (fun t => { t with pend := some { p with cancelled := true } })
          else if s.served tid p.tok then s
          else s.waitlim tid
        | _ => (s.unwait tid).waitlim tid

end Sys2Proof.Machine
end

