-- ==== Sys2Proof/Machine/Graph.lean ====
section
/-! DEFINITION. Whole-graph instructions (12: R296 to R319; 03: R63 to R69): the engine of a cluster, walks and their state
blocks, discovery, serialisation, comparison, copies into arenas, release, GTYPE and GQRY. One event of the engine is one
step of R300, which happens whole or, when a trap or an absent page stops it, not at all. -/

namespace Sys2Proof.Machine

/-! ### Stops -/

/-- Why a step of the engine does not happen. -/
inductive Stop
  /-- a trap of the instruction, with the state that it leaves where that is not the state before the step -/
  | trap (cause : Nat) (addr : Word) (keep : Option State)
  /-- an absent page, with its access (R304), and the state that it leaves -/
  | page (va : Word) (access : Nat) (keep : Option State)
  /-- a home of the arena lies in a fenced cofferdam (R314, R315) -/
  | fenced
  /-- the arena's home is taken, or another came to it before (R314) -/
  | held

/-- What stops a step leaves what the step had done before. -/
def Stop.keeping (e : Stop) (s : State) : Stop :=
  match e with
  | .trap c a none => .trap c a (some s)
  | .page va acc none => .page va acc (some s)
  | e => e

/-- A trap that leaves nothing behind. -/
abbrev trapOf {α : Type} (cause : Nat) (addr : Word) : Except Stop (State × α) := .error (.trap cause addr none)

/-- Codes of R136 that walks give. -/
abbrev cArena : Nat := 0x11
abbrev cWalkcap : Nat := 0x12
abbrev cWalkbad : Nat := 0x13
/-- Codes of R310. -/
abbrev gDone : BitVec 8 := 0
abbrev gPartial : BitVec 8 := 1
abbrev gDiffer : BitVec 8 := 2
abbrev gFenced : BitVec 8 := 0x0E
abbrev gArenafull : BitVec 8 := 0x20
abbrev gMutated : BitVec 8 := 0x22

/-! ### Accesses of the engine -/

/-- An access with the rights of the thread (R298, R306). -/
def State.walkAccess (s : State) (t : Thread) (va : Nat) (acc : Acc) : Except Stop (State × (Nat × Option Word)) :=
  let a := BitVec.ofNat 64 va
  match s.resolve t.ctx a acc with
  | (_, .fail c) => trapOf c a
  | (_, .absent) => .error (.page a (if acc = .store then 1 else 0) none)
  | (s1, .at pa leaf) => .ok (s1, (pa, leaf))

/-- R298: the homes at which a walk state block may lie. -/
def State.wsbHome (s : State) (t : Thread) (pa : Nat) : Bool :=
  match homeOf pa with
  | .tcm k => decide (k = t.core)
  | .pool c =>
    let gr := pa % 8388608 / 65536
    decide (c = t.cluster) && decide ((s.cluster c).bnd0.toNat ≤ gr) && decide (gr < (s.cluster c).bnd1.toNat)
  | .vault c => decide (c = t.cluster)
  | .deck _ _ | .host => false

/-- An access to a walk state block, checked in the order of R298. -/
def State.wsbAccess (s : State) (t : Thread) (wsb va : Nat) (acc : Acc) : Except Stop (State × (Nat × Option Word)) := do
  let (s, (pa, leaf)) ← s.walkAccess t va acc
  if s.wsbHome t pa then .ok (s, (pa, leaf)) else trapOf cTarange (BitVec.ofNat 64 wsb)

/-- The address of the poisoned line among the `n` bytes at `va`, which stand at `q`. -/
def State.badLine (s : State) (va q n : Nat) : Option Word :=
  (s.poison.find? (fun x => decide (x < q + n ∧ q < x + 8))).map (fun x => BitVec.ofNat 64 (lineOf (va + (x - q))))

/-- Bytes of a walk state block. -/
def State.wsbRead (s : State) (t : Thread) (wsb off n : Nat) : Except Stop (State × Nat) :=
  (pieces (wsb + off) n).foldlM (fun (r : State × Nat) p => do
    let (s, (pa, leaf)) ← r.1.wsbAccess t wsb p.1 .load
    let q := s.viewOf t.domid (leafShadow leaf) pa
    match s.badLine p.1 q p.2 with
    | some a => trapOf cPoison a
    | none => .ok (s, r.2 + s.peek q p.2 * 256 ^ (p.1 - (wsb + off)))) (s, 0)

/-- Bytes of a walk state block written, their tags set full (R320). -/
def State.wsbWrite (s : State) (t : Thread) (wsb off n v : Nat) : Except Stop (State × Unit) :=
  (pieces (wsb + off) n).foldlM (fun (r : State × Unit) p => do
    let (s, (pa, leaf)) ← r.1.wsbAccess t wsb p.1 .store
    if (s.shadowFor t.domid (leafShadow leaf) pa).isNone then .error (.page (BitVec.ofNat 64 p.1) 1 none)
    else
      let s1 := s.performFor t.domid (leafShadow leaf) pa p.2 (v / 256 ^ (p.1 - (wsb + off)) % 256 ^ p.2) true
      .ok (s1.tagsChanged t.core pa (s1.viewOf t.domid (leafShadow leaf) pa) p.2, ())) (s, ())

/-- Words as one number, word 0 lowest. -/
def natWords (l : List Nat) : Nat := l.foldr (fun w n => w + n * 2 ^ 64) 0

/-- A range written for the thread outside its state block: the arena and its control block (R314). -/
def State.walkWrite (s : State) (t : Thread) (va n v : Nat) : Except Stop (State × Unit) :=
  match s.writeRange t.ctx va n v with
  | .ok s1 _ => .ok (s1, ())
  | .bad _ f a => if f = 0x0E then .error .fenced else trapOf f a
  | .absent _ a => .error (.page a 1 none)
/-- A range read for the thread outside its state block and the graph. -/
def State.walkRead (s : State) (t : Thread) (va n : Nat) : Except Stop (State × Nat) :=
  match s.readRange t.ctx va n with
  | .ok s1 v => .ok (s1, v)
  | .bad _ f a => if f = 0x0E then .error .fenced else trapOf f a
  | .absent _ a => .error (.page a 0 none)

/-! ### Watches (R307, R308) -/

/-- A watch of a cluster's engine, changed. -/
def State.modWatch (s : State) (cl wid : Nat) (f : Watch → Watch) : State :=
  s.modCluster cl (fun c => { c with watches := c.watches.map (fun w => if w.wid = wid then f w else w) })
/-- The watch of a number. -/
def State.watch (s : State) (cl wid : Nat) : Option Watch := (s.cluster cl).watches.find? (fun w => decide (w.wid = wid))
/-- The mutation flag of a walk. -/
def State.mutd (s : State) (cl wid : Nat) : Bool := ((s.watch cl wid).map (·.mutd)).getD true

/-- R307: a line that a walk reads comes under watch: line by line up to 4,096, then by its page. (DEDUCED: log entry 20) -/
def Watch.add (w : Watch) (l : Nat × Nat × Nat) : Watch :=
  if w.lines.any (fun x => decide (x.1 = l.1)) || w.pages.contains (l.1 / 65536 * 65536) then w
  else if w.lines.length < 4096 then { w with lines := w.lines ++ [l] }
  else { w with pages := w.pages ++ [l.1 / 65536 * 65536] }

/-- R65: the type table: its address, and its entries, none when every lookup is invalid. -/
def tableBase (tb : Word) : Nat := (tb.extractLsb' 4 52).toNat * 16
def tableCount (tb : Word) : Nat := if tb.extractLsb' 58 6 ≤ 20 then 2 ^ (tb.extractLsb' 58 6).toNat else 0

/-- The part of a line that belongs to the type table, as offsets in it (R67, R307). (DEDUCED: log entry 20) -/
def tablePart (tb : Word) (line : Nat) : Nat × Nat :=
  let lo := Nat.max line (tableBase tb)
  let hi := Nat.min (line + 128) (tableBase tb + 16 * tableCount tb)
  if lo < hi then (lo - line, hi - line) else (0, 0)

/-- R306: a line that the walk reads; the place where its data stands. Graph lines are watched, those read for a type entry
are not (R67). -/
def State.walkLine (s : State) (t : Thread) (w : Walk) (line : Nat) (watched : Bool) : Except Stop (State × Nat) := do
  let (s, (pa, leaf)) ← s.walkAccess t line .load
  let q := s.viewOf t.domid (leafShadow leaf) pa
  if s.fencedFrom t.core pa then trapOf 0x0E (BitVec.ofNat 64 line)
  else if s.poisoned q 128 then trapOf cPoison (BitVec.ofNat 64 line)
  else .ok (if watched then s.modWatch t.cluster w.wid (fun x => x.add (pa, tablePart w.typebase line)) else s, q)

/-- A word of the graph. -/
def State.graphWord (s : State) (t : Thread) (w : Walk) (va : Nat) : Except Stop (State × Word) := do
  let (s, q) ← s.walkLine t w (lineOf va) true
  .ok (s, s.peekW (q + va % 128))

/-! ### Objects and types (R63 to R69) -/

/-- Fields of an object header (R63). -/
def hdrType (h : Word) : Nat := (h.extractLsb' 44 20).toNat
def hdrSize (h : Word) : Nat := (h.extractLsb' 20 24).toNat

/-- R64: the hardware types. -/
def hwType (n : Nat) : Bool := [0xFFFF0, 0xFFFF1, 0xFFFF2, 0xFFFFE, 0xFFFFF].contains n

/-- R66: a valid type entry: repeat form or bitmap, group length, prefix, mask, and required SIZE. -/
structure TypeEnt where
  rep : Bool
  len : Nat
  pre : Nat
  map : Word
  words : Nat
deriving DecidableEq, Repr

/-- R66, R67, R69: an entry from its two words; none when it is invalid. -/
def typeEnt (w0 w1 : Word) : Option TypeEnt :=
  let form := (w0.extractLsb' 62 2).toNat
  let len := (w0.extractLsb' 56 6).toNat + 1
  if form = 1 ∨ (form = 2 ∧ w1.toNat / 2 ^ len = 0) then
    some ⟨form == 2, len, (w0.extractLsb' 0 24).toNat, w1, (w0.extractLsb' 32 24).toNat⟩
  else none

/-- R67: body word `i` is a pointer word; a hardware type has none (R64). -/
def isPtr (e : Option TypeEnt) (i : Nat) : Bool :=
  match e with
  | none => false
  | some e => if e.rep then decide (e.pre ≤ i) && bit e.map ((i - e.pre) % e.len) else decide (i < 64) && bit e.map i

/-- R64, R65: what a type number leads to. -/
inductive TypeRef
  | hardware
  | entry (va : Nat)
  | invalid
deriving DecidableEq, Repr
def typeRef (tb : Word) (n : Nat) : TypeRef :=
  if hwType n then .hardware else if n < 0xFFF00 ∧ n < tableCount tb then .entry (tableBase tb + 16 * n) else .invalid

/-- R69: the type of an object, read by the engine, with the checks that depend on the type table. (DEDUCED: log entry 23) -/
def State.typeOf (s : State) (t : Thread) (w : Walk) (h taddr : Word) : Except Stop (State × Option TypeEnt) :=
  match typeRef w.typebase (hdrType h) with
  | .hardware => .ok (s, none)
  | .invalid => trapOf cWalkbad taddr
  | .entry va => do
    let (s, q) ← s.walkLine t w (lineOf va) false
    match typeEnt (s.peekW (q + va % 128)) (s.peekW (q + va % 128 + 8)) with
    | none => trapOf cWalkbad taddr
    | some e => if e.words ≠ 0 ∧ e.words ≠ hdrSize h then trapOf cWalkbad taddr else .ok (s, some e)

/-! ### The walk state block (R297) -/

/-- Where the engine keeps its own state in the block (bytes 192 to 511): words 0 to 9 as read at the start, then TAIL at the
reservation, whether a copy has restarted, its body words, whether a release has begun, and an outcome found before the end
of the walk, whether R299 is still to be checked, and where a sent record starts with its SEQ. The layout is the model's choice.
(DESIGN CHOICE: log entry 19) (DESIGN CHOICE: log entry 19) -/
abbrev offLatched : Nat := 192
abbrev offTail : Nat := 272
abbrev offRestart : Nat := 280
abbrev offBody : Nat := 288
abbrev offSecond : Nat := 296
abbrev offEnded : Nat := 304
abbrev offCheck : Nat := 312
abbrev offSent : Nat := 320

/-- Opcodes of the walks (R311). -/
def GOp.code : GOp → Nat
  | .gcopy => 0xB8
  | .gsend => 0xB9
  | .gcmp => 0xBA
  | .ghash => 0xBB
  | .gfree => 0xBC
/-- A copy into an arena. -/
def GOp.copies (o : GOp) : Bool := decide (o = .gcopy) || decide (o = .gsend)

/-- Word 0 with STATE and OPC replaced. -/
def wsbWord0 (w0 : Word) (state opc : Nat) : Nat :=
  (w0 &&& 0xF000FFFFFFFFFFFF).toNat + state * 2 ^ 56 + opc * 2 ^ 48

/-- R299: the words of a block that starts afresh do not allow the walk. -/
def wsbBad (op : GOp) (wsb : Nat) (v : Nat) : Bool :=
  let w := fun i => (wordAt v i).toNat
  let size := w 9
  let range := fun (lo hi : Nat) => decide (hi < lo) || decide (lo % 8 ≠ 0) || decide (hi % 8 ≠ 0) || decide (2 ^ 56 < hi) ||
    (decide (lo < hi) && decide (wsb < hi) && decide (lo < wsb + size))
  let two := decide (op = .gcmp)
  let dest := op.copies || decide (op = .gfree)
  decide (w 0 / 2 ^ 60 ≠ 8) || decide (w 0 / 2 % 2 ^ 47 ≠ 0) || decide (size % 128 ≠ 0) || decide (size < 4096) ||
    range (w 3) (w 4) || (two && range (w 5) (w 6)) || (!two && (decide (w 2 ≠ 0) || decide (w 5 ≠ 0) || decide (w 6 ≠ 0))) ||
    (dest != decide (w 7 ≠ 0)) || (decide (op = .gsend) != decide (w 8 ≠ 0)) || decide (2 ^ 24 ≤ w 8)

/-- The fields of a running walk that its steps use. -/
structure WsbView where
  /-- words 0 to 9 as latched -/
  p : Nat
  objs : Nat
  depth : Nat
def WsbView.word (x : WsbView) (i : Nat) : Nat := (wordAt x.p i).toNat
def WsbView.size (x : WsbView) : Nat := x.word 9
/-- EXTRAW. -/
def WsbView.extraw (x : WsbView) : Bool := decide (x.word 0 % 2 = 1)
/-- The bound range of the first or second graph. -/
def WsbView.lo (x : WsbView) (g : Nat) : Nat := x.word (3 + 2 * g)
def WsbView.hi (x : WsbView) (g : Nat) : Nat := x.word (4 + 2 * g)
/-- R301: an internal pointer. -/
def WsbView.inside (x : WsbView) (g : Nat) (v : Word) : Bool := v != 0 && decide (x.lo g ≤ v.toNat) && decide (v.toNat < x.hi g)

/-- What a step needs of the block. -/
def State.wsbView (s : State) (t : Thread) (wsb : Nat) : Except Stop (State × WsbView) := do
  let (s, p) ← s.wsbRead t wsb offLatched 80
  let (s, c) ← s.wsbRead t wsb 88 8
  .ok (s, ⟨p, c % 2 ^ 32, c / 2 ^ 32⟩)

/-- Word 11 of the block. -/
def State.putCounts (s : State) (t : Thread) (wsb objs depth : Nat) : Except Stop (State × Unit) := s.wsbWrite t wsb 88 8 (objs + depth * 2 ^ 32)
/-- The visited list. -/
def State.visited (s : State) (t : Thread) (wsb objs : Nat) : Except Stop (State × Nat) := s.wsbRead t wsb 512 (16 * objs)
/-- The visit index of an object of the first or second graph. -/
def visitOf (vl objs g : Nat) (v : Word) : Option Nat := (List.range objs).find? (fun j => wordAt vl (2 * j + g) == v)

/-! ### Starting and resuming (R298, R299) -/

/-- The rest of the engine's watches when a walk becomes the most recently run; the ninth takes the place of the least
recently run one (R308). -/
def State.holdWatch (s : State) (cl : Nat) (w : Watch) : State :=
  s.modCluster cl (fun c =>
    let l := c.watches.filter (fun x => decide (x.wid ≠ w.wid))
    { c with watches := (if 8 ≤ l.length then l.drop 1 else l) ++ [w] })

/-- A walk identifier that names no watch of any engine, so that a watch left behind on one engine is not taken for that of a
walk which has gone on at another (R308). -/
def State.freshWid (s : State) (cl : Nat) : Nat :=
  freshIn (s.clusters.flatMap (fun p => p.2.watches.map (·.wid))) 65536 (s.cluster cl).nextWid

/-- An arena control block and the arena's state (R282, R283). -/
def State.readArena (s : State) (t : Thread) (dest : Nat) : Except Stop (State × (Arena × Nat)) := do
  let d := BitVec.ofNat 64 dest
  if dest % 128 ≠ 0 then trapOf cAlign d
  else do
    let (s, v) ← s.walkRead t dest 128
    let (s, (pa, _)) ← s.walkAccess t dest .load
    match arenaOf v with
    | none => trapOf cDescbad d
    | some (base, size) =>
      let tail := (wordAt v 3).toNat
      let head := (wordAt v 4).toNat
      if tail % 8 ≠ 0 ∨ head % 8 ≠ 0 ∨ size ≤ tail ∨ size ≤ head then trapOf cDescbad d
      else .ok (s, (⟨pa, base, size, tail, size - 8 - (tail + size - head) % size⟩, ((wordAt v 5).extractLsb' 0 16).toNat))

/-- R299: the arena overlaps the bound range, or the block lies inside it. -/
def arenaBad (a : Arena) (wsb v : Nat) : Bool :=
  let lo := (wordAt v 3).toNat
  let hi := (wordAt v 4).toNat
  (decide (lo < hi) && decide (a.base < hi) && decide (lo < a.base + a.size)) ||
    (decide (a.base ≤ wsb) && decide (wsb + (wordAt v 9).toNat ≤ a.base + a.size))

/-- R299: the block does not allow the walk: STATE becomes 0 and the instruction traps DESCBAD. (DEDUCED: log entry 21) -/
def State.walkBad {α : Type} (s : State) (t : Thread) (q : WalkReq) (w0 : Word) : Except Stop (State × α) := do
  let (s, _) ← s.wsbWrite t q.wsb 0 8 (wsbWord0 w0 0 q.op.code)
  .error (.trap cDescbad (BitVec.ofNat 64 q.wsb) (some s))

/-- R299, R314: the arena of a copy is checked; true when its home lies in a fenced cofferdam. (DEDUCED: log entry 21) -/
def State.walkArena (s : State) (t : Thread) (q : WalkReq) (v : Nat) : Except Stop (State × Bool) :=
  if q.op.copies then
    match s.readArena t (wordAt v 7).toNat with
    | .error .fenced => .ok (s, true)
    | .error e => .error e
    | .ok (s1, (a, _)) => if arenaBad a q.wsb v then s1.walkBad t q (wordAt v 0) else .ok (s1, false)
  else .ok (s, false)

/-- R299: what a walk that started afresh still has to have checked; the block keeps that it has. -/
def State.walkCheck (s : State) (t : Thread) (q : WalkReq) (w0 : Word) (v : Nat) : Except Stop (State × Bool) := do
  let (s1, _) ← if wsbBad q.op q.wsb v then s.walkBad t q w0 else .ok (s, ())
  match s1.walkArena t q v with
  | .error e => .error (e.keeping s1)
  | .ok (s2, fenced) => do
    let (s3, _) ← s2.wsbWrite t q.wsb offCheck 8 0
    .ok (s3, fenced)

/-- R298: a walk starts afresh: the lines that the engine uses of the block are reached, the block names the walk, then R299 is
checked. (DEDUCED: log entry 21) -/
def State.walkFresh (s : State) (t : Thread) (q : WalkReq) (v : Nat) : Except Stop (State × Walk) := do
  let cl := t.cluster
  let w0 := wordAt v 0
  let wid := s.freshWid cl
  let (s, _) ← s.wsbRead t q.wsb 128 384
  let (s, _) ← s.wsbWrite t q.wsb 0 8 (wsbWord0 w0 1 q.op.code)
  let (s, _) ← s.wsbWrite t q.wsb 80 24 (natWords [t.domid.toNat * 2 ^ 32 + t.cin.toNat * 2 ^ 16 + wid, 0, 0])
  let (s, _) ← s.wsbWrite t q.wsb offLatched 144 (v % 2 ^ 640 + natWords [2 ^ 64 - 1, 0, 0, 0, 0, 1, 0, 0] * 2 ^ 640)
  let s := (s.modCluster cl (fun c => { c with nextWid := (c.nextWid + 1) % 65536 })).holdWatch cl
    ⟨wid, q.wsb, t.domid, t.cin, [], [], false⟩
  let (s, fenced) ← s.walkCheck t q w0 v
  .ok (s, ⟨q, wid, KMap.getD s.typebase t.domid.toNat 0, 0, 0, none, if fenced then some gFenced else none, none, false, false, none⟩)

/-- R298, R308: a walk is resumed; a watch that is not held unbroken sets the mutation flag. -/
def State.walkResume (s : State) (t : Thread) (q : WalkReq) (v : Nat) : Except Stop (State × Walk) := do
  let cl := t.cluster
  let old := ((wordAt v 10).extractLsb' 0 16).toNat
  let (s, more) ← s.wsbRead t q.wsb offSecond 24
  let second := decide (more % 2 ^ 64 ≠ 0)
  let ended := more / 2 ^ 64 % 2 ^ 64
  let held := (s.watch cl old).filter (fun w => decide (w.wsb = q.wsb) && w.domid == t.domid && w.cin == t.cin)
  let (s, wid) ← match held with
    | some w => .ok (s.holdWatch cl w, old)
    | none => do
      let wid := s.freshWid cl
      let (s, _) ← s.wsbWrite t q.wsb 80 8 (t.domid.toNat * 2 ^ 32 + t.cin.toNat * 2 ^ 16 + wid)
      .ok ((s.modCluster cl (fun c => { c with nextWid := (c.nextWid + 1) % 65536 })).holdWatch cl
        ⟨wid, q.wsb, t.domid, t.cin, [], [], true⟩, wid)
  let (s, fenced) ← if more / 2 ^ 128 = 0 then .ok (s, false) else do
    let (s, p) ← s.wsbRead t q.wsb offLatched 80
    s.walkCheck t q (wordAt v 0) p
  .ok (s, ⟨q, wid, KMap.getD s.typebase t.domid.toNat 0, 0, 0, none,
    if fenced then some gFenced else if ended ≠ 0 then some (BitVec.ofNat 8 (ended - 1)) else if second then some gDone else none,
    if second then some false else none, second, false, none⟩)

/-- R298: the instruction starts or resumes its walk. -/
def State.walkOpen (s : State) (t : Thread) (q : WalkReq) : Except Stop (State × Walk) := do
  let (s, v) ← s.wsbRead t q.wsb 0 128
  let w0 := wordAt v 0
  let w10 := wordAt v 10
  if w0.extractLsb' 56 4 == 1 && decide ((w0.extractLsb' 48 8).toNat = q.op.code) && w10.extractLsb' 32 12 == t.domid &&
      w10.extractLsb' 16 16 == t.cin then s.walkResume t q v
  else s.walkFresh t q v

/-! ### Discovery and scanning (R300 to R305) -/

/-- Where a copy's record starts, and the room that it has (R314). -/
def copyPlace (a : Arena) (restarted : Bool) : Nat × Nat :=
  if restarted then (a.base, a.free - (a.size - a.tail)) else (a.base + a.tail, Nat.min (a.size - a.tail) a.free)

/-- What becomes of a record that would grow to a number of body words (R314). -/
inductive Grow | fits | restart | full | never
deriving DecidableEq, Repr
def growth (a : Arena) (restarted : Bool) (body : Nat) : Grow :=
  let m := 8 + 8 * body
  if a.size - 8 < m ∨ 2 ^ 24 ≤ body then .never
  else if m ≤ (copyPlace a restarted).2 then .fits
  else if a.tail ≠ 0 ∧ !restarted then .restart
  else .full

/-- A walk that cannot end with a record stops: STATE becomes 0 and the instruction traps ARENA (R314). (DEDUCED: log entry 21) -/
def State.arenaTrap {α : Type} (s : State) (t : Thread) (w : Walk) (x : WsbView) : Except Stop (State × α) := do
  let (s, w0) ← s.wsbRead t w.req.wsb 0 8
  let (s, _) ← s.wsbWrite t w.req.wsb 0 8 (wsbWord0 (BitVec.ofNat 64 w0) 0 w.req.op.code)
  .error (.trap cArena (BitVec.ofNat 64 (x.word 7)) (some s))

/-- The walk of a copy begins again from its root with no object discovered. -/
def State.walkRestart (s : State) (t : Thread) (w : Walk) (tail : Nat) (restarted : Bool) : Except Stop (State × Walk) := do
  let (s, _) ← s.wsbWrite t w.req.wsb offTail 24 (natWords [tail, if restarted then 1 else 0, 0])
  let (s, _) ← s.putCounts t w.req.wsb 0 0
  .ok (s, w)

/-- The comparison ends at serialised word `d` of visit `k` (R313). (DEDUCED: log entry 21) -/
def State.differ (s : State) (t : Thread) (w : Walk) (k d : Nat) (v1 v2 : Word) : Except Stop (State × Walk) := do
  let (s, _) ← s.wsbWrite t w.req.wsb 96 32 (natWords [k, d, v1.toNat, v2.toNat])
  let (s, _) ← s.wsbWrite t w.req.wsb offEnded 8 (1 + gDiffer.toNat)
  .ok (s, { w with code := some gDiffer })

/-- The header of an object that the walk reaches, with the checks of R69 that need no type entry; 0 for the missing object
of an empty graph (R313). -/
def State.reachHeader (s : State) (t : Thread) (w : Walk) (x : WsbView) (g : Nat) (a taddr : Word) : Except Stop (State × Word) :=
  if a = 0 then .ok (s, 0)
  else do
    let (s, h) ← s.graphWord t w a.toNat
    if x.hi g < a.toNat + 8 * hdrSize h + 8 then trapOf cWalkbad taddr else .ok (s, h)

/-- A record being copied: where it starts, whether it has restarted, and its body words so far. -/
def State.copyState (s : State) (t : Thread) (w : Walk) (a : Arena) : Except Stop (State × (Nat × Bool × Nat)) := do
  let (s, v) ← s.wsbRead t w.req.wsb offRestart 16
  let restarted := decide (v % 2 ^ 64 = 1)
  .ok (s, ((copyPlace a restarted).1, restarted, v / 2 ^ 64))

/-- Discover(p) of R300, for both graphs of GCMP at once (a graph that discovers nothing there, as a raw external value can make
it, is at its end: log entry 21), and of a copy with its place in the record (R303, R305, R313,
R314). `from_` is the frame that names the object: its depth, visit index, and body word. (DEDUCED: log entry 21) -/
def State.discover (s : State) (t : Thread) (w : Walk) (x : WsbView) (a1 a2 ta1 ta2 : Word) (from_ : Option (Nat × Nat × Nat)) : Except Stop (State × Walk) := do
  let wsb := w.req.wsb
  let two := decide (w.req.op = .gcmp)
  if w.req.limit ≠ 0 ∧ w.req.limit ≤ w.found then .ok (s, { w with code := some gPartial })
  else if x.size ≤ 512 + 16 * (x.objs + 1) + 16 * (x.depth + 1) then trapOf cWalkcap (BitVec.ofNat 64 wsb)
  else if a1.toNat % 8 ≠ 0 then trapOf cWalkbad ta1
  else if two && decide (a2.toNat % 8 ≠ 0) then trapOf cWalkbad ta2
  else do
    let (s, h1) ← s.reachHeader t w x 0 a1 ta1
    let (s, h2) ← if two then s.reachHeader t w x 1 a2 ta2 else .ok (s, h1)
    let equal := decide (h1 = h2) && (!two || (a1 != 0 && a2 != 0))
    let (s, _) ← if equal then s.typeOf t w h1 ta1 else .ok (s, none)
    let enter := fun (s : State) (second : Nat) => do
      let (s, _) ← s.wsbWrite t wsb (512 + 16 * x.objs) 16 (natWords [a1.toNat, second])
      let (s, _) ← match from_ with
        | some (d, k, i) => s.wsbWrite t wsb (x.size - 16 * d) 16 (natWords [k, i + 1])
        | none => .ok (s, ())
      let (s, _) ← if equal then s.wsbWrite t wsb (x.size - 16 * (x.depth + 1)) 16 (natWords [x.objs, 0]) else .ok (s, ())
      let (s, _) ← s.putCounts t wsb (x.objs + 1) (if equal then x.depth + 1 else x.depth)
      (.ok (s, { w with found := w.found + 1 }) : Except Stop (State × Walk))
    match w.arena with
    | none => do
      let (s, w) ← enter s (if two then a2.toNat else 0)
      if equal then .ok (s, w) else s.differ t w x.objs 0 h1 h2
    | some a => do
      let (s, (start, restarted, body)) ← s.copyState t w a
      let grown := body + 1 + hdrSize h1
      match growth a restarted grown with
      | .never => s.arenaTrap t w x
      | .full => .ok (s, { w with code := some gArenafull })
      | .restart => s.walkRestart t { w with found := w.found + 1 } a.tail true
      | .fits => do
        let at_ := start + 8 + 8 * body
        let (s, _) ← s.walkWrite t at_ 8 h1.toNat
        let (s, _) ← match from_ with
          | some (_, k, i) => do
            let (s, e) ← s.wsbRead t wsb (512 + 16 * k + 8) 8
            s.walkWrite t (e + 8 + 8 * i) 8 at_
          | none => .ok (s, ())
        let (s, _) ← s.wsbWrite t wsb offBody 8 grown
        enter s at_

/-- R302: a pointer word as serialised, and the object that it is about to discover. -/
def serialWord (x : WsbView) (g : Nat) (vl : Nat) (v : Word) : Word × Bool :=
  if v = 0 then (0, false)
  else if !x.inside g v then (if x.extraw then v else BitVec.allOnes 64, false)
  else match visitOf vl x.objs g v with
    | some j => (BitVec.ofNat 64 (j + 1), false)
    | none => (BitVec.ofNat 64 (x.objs + 1), true)

/-- R314: a body word as copied, for a word that discovers nothing. -/
def copiedWord (x : WsbView) (vl : Nat) (ptr : Bool) (v : Word) : Word :=
  if !ptr || v == 0 then v
  else if !x.inside 0 v then (if x.extraw then v else BitVec.allOnes 64)
  else match visitOf vl x.objs 0 v with
    | some j => wordAt vl (2 * j + 1)
    | none => 0

/-- Body words of object `k` of a copy, from the places of its neighbours in the record. -/
def copiedSize (x : WsbView) (vl k start body : Nat) : Nat :=
  let here := (wordAt vl (2 * k + 1)).toNat
  let next := if k + 1 < x.objs then (wordAt vl (2 * k + 3)).toNat else start + 8 + 8 * body
  (next - here) / 8 - 1

/-- R302, R312: the canonical serialisation of a walked graph. -/
def State.serialise (s : State) (t : Thread) (w : Walk) (x : WsbView) (vl : Nat) : Except Stop (State × List Word) :=
  (List.range x.objs).foldlM (fun (r : State × List Word) k => do
    let o := wordAt vl (2 * k)
    let (s, h) ← r.1.graphWord t w o.toNat
    let (s, e) ← s.typeOf t w h o
    let (s, l) ← (List.range (hdrSize h)).foldlM (fun (r : State × List Word) i => do
      let (s, v) ← r.1.graphWord t w (o.toNat + 8 + 8 * i)
      (.ok (s, (if isPtr e i then (serialWord x 0 vl v).1 else v) :: r.2) : Except Stop (State × List Word))) (s, [h])
    (.ok (s, r.2 ++ l.reverse) : Except Stop (State × List Word))) (s, [])

/-- Scanning is over: the digest is computed; an empty copy needs room for its header. -/
def State.scanned (s : State) (t : Thread) (w : Walk) (x : WsbView) : Except Stop (State × Walk) := do
  if w.req.op = .ghash then do
    let (s, vl) ← s.visited t w.req.wsb x.objs
    let (s, l) ← s.serialise t w x vl
    .ok (s, { w with code := some gDone, digest := sha512Words l })
  else match w.arena with
    | none => .ok (s, { w with code := some gDone })
    | some a => do
      let (s, (_, restarted, body)) ← s.copyState t w a
      match growth a restarted body with
      | .fits => .ok (s, { w with code := some gDone })
      | .restart => s.walkRestart t w a.tail true
      | .full => .ok (s, { w with code := some gArenafull })
      | .never => s.arenaTrap t w x

/-- One step of Scan of R300 on the top frame. A type entry that has become invalid since the object was discovered is reported at
the object's own address. (DEDUCED: log entry 23) -/
def State.scan (s : State) (t : Thread) (w : Walk) (x : WsbView) : Except Stop (State × Walk) := do
  let wsb := w.req.wsb
  let two := decide (w.req.op = .gcmp)
  let (s, fr) ← s.wsbRead t wsb (x.size - 16 * x.depth) 16
  let k := fr % 2 ^ 32
  let i := fr / 2 ^ 64 % 2 ^ 24
  let (s, vl) ← s.visited t wsb x.objs
  let o1 := wordAt vl (2 * k)
  let o2 := wordAt vl (2 * k + 1)
  let (s, h) ← s.graphWord t w o1.toNat
  let (s, cs) ← match w.arena with
    | some a => do
      let (s, (start, _, body)) ← s.copyState t w a
      .ok (s, copiedSize x vl k start body)
    | none => .ok (s, hdrSize h)
  if cs ≤ i then do
    let (s, _) ← s.putCounts t wsb x.objs (x.depth - 1)
    .ok (s, w)
  else do
    let (s, e) ← s.typeOf t w h o1
    let ta1 := o1 + BitVec.ofNat 64 (8 + 8 * i)
    let ta2 := o2 + BitVec.ofNat 64 (8 + 8 * i)
    let (s, v1) ← s.graphWord t w ta1.toNat
    let (s, v2) ← if two then s.graphWord t w ta2.toNat else .ok (s, v1)
    let ptr := isPtr e i
    let c1 := if ptr then serialWord x 0 vl v1 else (v1, false)
    let c2 := if !two then c1 else if ptr then serialWord x 1 vl v2 else (v2, false)
    if c1.1 ≠ c2.1 then do
      let (s, _) ← s.wsbWrite t wsb (x.size - 16 * x.depth) 16 (natWords [k, i + 1])
      s.differ t w k (i + 1) c1.1 c2.1
    else if c1.2 || c2.2 then s.discover t w x (if c1.2 then v1 else 0) (if c2.2 then v2 else 0) ta1 ta2 (some (x.depth, k, i))
    else do
      let (s, _) ← if w.arena.isSome then s.walkWrite t (o2.toNat + 8 + 8 * i) 8 (copiedWord x vl ptr v1).toNat else .ok (s, ())
      let (s, _) ← s.wsbWrite t wsb (x.size - 16 * x.depth) 16 (natWords [k, i + 1])
      .ok (s, w)

/-- R314: a copy reserves its arena in the order of arrival at its home. A TAIL other than that of the walk's last reservation
restarts it from the root. -/
def State.reserveArena (s : State) (t : Thread) (w : Walk) (x : WsbView) : Except Stop (State × Walk) := do
  let (s, (a, _)) ← s.readArena t (x.word 7)
  match w.ticket with
  | none => .ok (s.bumpId, { w with ticket := some (a.acb, s.nextId) })
  | some (_, no) =>
    if !s.arenaTurn a.acb no (some t.cluster) then .error .held
    else
      let (s, old) ← s.wsbRead t w.req.wsb offTail 8
      let w1 := { w with arena := some a }
      if old = a.tail then .ok (s, w1) else s.walkRestart t w1 a.tail false

/-- One step of the engine on a walk that is not over. (DESIGN CHOICE: log entry 18) -/
def State.walkStep (s : State) (t : Thread) (w : Walk) : Except Stop (State × Walk) := do
  let (s, x) ← s.wsbView t w.req.wsb
  let two := decide (w.req.op = .gcmp)
  if w.req.op.copies && w.arena.isNone then s.reserveArena t w x
  else if x.depth ≠ 0 then s.scan t w x
  else if x.objs ≠ 0 then s.scanned t w x
  else
    let r1 := wordAt x.p 1
    let r2 := if two then wordAt x.p 2 else 0
    if r1 = 0 ∧ r2 = 0 then s.scanned t w x
    else if r1 ≠ 0 ∧ !x.inside 0 r1 then trapOf cWalkbad r1
    else if r2 ≠ 0 ∧ !x.inside 1 r2 then trapOf cWalkbad r2
    else s.discover t w x r1 r2 r1 r2 none

/-! ### The engine's events -/

/-- The engine of a cluster is left by its walk. -/
def State.engineFree (s : State) (cl : Nat) : State := s.modCluster cl (fun c => { c with walk := none })

/-- R304: a walk is suspended: the thread traps, or meets the absent page. (DEDUCED: log entry 57) -/
def State.walkStop (s : State) (cl tid : Nat) (e : Stop) : State :=
  let t := s.thread tid
  match e with
  | .trap c a keep => (((keep.getD s).engineFree cl)).takeTrap tid (BitVec.ofNat 64 c) a t.pc t.iw
  | .page va acc keep =>
    (({ keep.getD s with iword := t.iw }.engineFree cl).modThread tid (fun t => { t with pend := none })).pageFault tid va acc
  | .fenced | .held => s

/-- The thread still waits for this request (R309). -/
def State.walkAlive (s : State) (q : WalkReq) : Bool :=
  match (s.thread q.tid).pend with
  | some p => decide (p.tok = q.tok)
  | none => false

/-- A step's result: the walk as it stands, with the mutation flag untouched by its own writes (R307). (DEDUCED: log entry 20) -/
def State.keepFlag (old s : State) (cl wid : Nat) : State :=
  match old.watch cl wid with
  | some w => s.modWatch cl wid (fun x => { x with mutd := w.mutd })
  | none => s

/-- R310: the value of gd. -/
def walkResult (mutd : Bool) (objs : Nat) (code : BitVec 8) : Word :=
  BitVec.ofNat 64 ((if mutd then 2 ^ 40 else 0) + objs * 256 + code.toNat)

/-- The instruction retires with a result (R310); MUT is sticky in pw. -/
def State.walkRetire (s : State) (cl tid : Nat) (v : Word) : State :=
  match (s.thread tid).pend with
  | some p =>
    let d := match p.fin with
      | .graph r _ => r
      | _ => .z
    let s1 := (s.engineFree cl).complete tid { p with fin := .reg d 8 false } v
    if bit v 40 then s1.raise tid 0x200 else s1
  | none => s

/-- R296: the engine takes the next walk in order of issue. -/
def execGraphWalkStart (cluster : Nat) (s : State) : Host.Outcome State Fault Refusal :=
  .next <|
    let c := s.cluster cluster
    let busy := match c.walk with
      | some w => s.walkAlive w.req
      | none => false
    if busy then s
    else match c.walks with
      | [] => s.engineFree cluster
      | q :: r =>
        let s0 := s.modCluster cluster (fun c => { c with walk := none, walks := r })
        if !s.walkAlive q then s0
        else match s0.walkOpen (s0.thread q.tid) q with
          | .ok (s1, w) =>
            let s2 := match s0.watch cluster w.wid with
              | some _ => s0.keepFlag s1 cluster w.wid
              | none => s1
            s2.modCluster cluster (fun c => { c with walk := some w })
          | .error e => s0.walkStop cluster q.tid e

/-- R300, R303, R306: one step of the running walk. A walk that reaches its limit retires with PARTIAL. (DESIGN CHOICE: log entry 18) -/
def execGraphLineRead (cluster : Nat) (s : State) : Host.Outcome State Fault Refusal :=
  .next <| match (s.cluster cluster).walk with
    | none => s
    | some w =>
      if !s.walkAlive w.req || w.code.isSome then s
      else match s.walkStep (s.thread w.req.tid) w with
        | .ok (s1, w1) =>
          let s2 := s.keepFlag s1 cluster w.wid
          if w1.code = some gPartial then
            match s2.wsbRead (s2.thread w.req.tid) w.req.wsb 88 4 with
            | .ok (s3, objs) => s3.walkRetire cluster w.req.tid (walkResult false objs gPartial)
            | .error e => s.walkStop cluster w.req.tid e
          else s2.modCluster cluster (fun c => { c with walk := some w1 })
        | .error .fenced => s.modCluster cluster (fun c => { c with walk := some { w with code := some gFenced } })
        | .error e => s.walkStop cluster w.req.tid e

/-- R307: the sweep marker passes the homes of every watched line, and the mutation flag is taken. (DESIGN CHOICE: log entry 18) -/
def execGraphSweep (cluster : Nat) (s : State) : Host.Outcome State Fault Refusal :=
  .next <| match (s.cluster cluster).walk with
    | none => s
    | some w =>
      if !s.walkAlive w.req || w.code.isNone || w.swept.isSome then s
      else s.modCluster cluster (fun c => { c with walk := some { w with swept := some (s.mutd cluster w.wid) } })

/-- A watch ends. -/
def State.dropWatch (s : State) (cl wid : Nat) : State :=
  s.modCluster cl (fun c => { c with watches := c.watches.filter (fun w => decide (w.wid ≠ wid)) })

/-- R310, R320: the walk completes: the block's last words are written, then the instruction retires. -/
def State.walkFinish (s : State) (cl : Nat) (t : Thread) (w : Walk) (mutd : Bool) (code : BitVec 8) : Except Stop (State × Unit) := do
  let (s, _) ← if w.req.op = .ghash ∧ code = gDone then s.wsbWrite t w.req.wsb 128 64 w.digest else .ok (s, ())
  let (s, v) ← s.wsbRead t w.req.wsb 0 96
  let (s, _) ← s.wsbWrite t w.req.wsb 0 8 (wsbWord0 (wordAt v 0) 2 w.req.op.code)
  .ok ((s.dropWatch cl w.wid).walkRetire cl w.req.tid (walkResult mutd (wordAt v 11 &&& 0xFFFFFFFF).toNat code), ())

/-- The answer to the push or message that is outstanding. -/
def Thread.walkAnswer (t : Thread) : Option Word :=
  match t.pend with
  | some p => match p.fin with
    | .graph _ got => got
    | _ => none
  | none => none

/-- R316, R315: the answer to a push or a task message is counted in the block as it arrives, so that a walk suspended afterwards
does not ask again. -/
def State.walkSettle (s : State) (cl : Nat) (t : Thread) (w : Walk) : Except Stop (State × Unit) := do
  let wsb := w.req.wsb
  let (s, code) ← if w.req.op = .gfree then do
      let (s, d) ← s.wsbRead t wsb 96 8
      let (s, _) ← s.wsbWrite t wsb 96 8 (d + 1)
      (.ok (s, w.code) : Except Stop (State × Option (BitVec 8)))
    else do
      let fenced := decide (t.walkAnswer = some 0x0E)
      let (s, _) ← s.wsbWrite t wsb offSecond 16 (natWords [2, if fenced then 1 + gFenced.toNat else 0])
      .ok (s, if fenced then some gFenced else w.code)
  .ok (s.modCluster cl (fun c => { c with walk := c.walk.map (fun w => { w with asked := false, code := code }) }), ())

/-- R314: the record is published: the pad, the header, TAIL, SEQ. (DEDUCED: log entry 22) -/
def State.publish (s : State) (t : Thread) (w : Walk) (x : WsbView) (a : Arena) : Except Stop (State × (Nat × Nat)) := do
  let (s, (start, restarted, body)) ← s.copyState t w a
  let m := 8 + 8 * body
  let (s, (_, seq)) ← s.readArena t (x.word 7)
  let (s, _) ← if restarted then s.walkWrite t (a.base + a.tail) 8 (recordHeader ((a.size - a.tail) / 8 - 1) 0 0) else .ok (s, ())
  let (s, _) ← s.walkWrite t start 8 (recordHeader body 2 seq)
  let (s, _) ← s.walkWrite t (x.word 7 + 24) 8 (if restarted then m else (a.tail + m) % a.size)
  let (s, _) ← s.walkWrite t (x.word 7 + 40) 2 ((seq + 1) % 65536)
  .ok (s, (start, seq))

/-- The thread's wait takes a new token, for a push or message of the second phase; TADDR of a failure is `addr`. (DEDUCED: log entry 22) -/
def State.walkAsk (s : State) (cl : Nat) (w : Walk) (addr : Word) : State :=
  (((s.modThread w.req.tid (fun t => { t with pend := t.pend.map (fun p => { p with
      tok := s.nextId, addr := addr
      fin := match p.fin with
        | .graph r _ => .graph r none
        | f => f }) })).modCluster cl (fun c => { c with walk := some { w with req := { w.req with tok := s.nextId }, second := true, asked := true } }))).bumpId

/-- R315: the task message of a published record. -/
def State.sendTask (s : State) (cl : Nat) (t : Thread) (w : Walk) (x : WsbView) (start seq : Nat) : Except Stop (State × Unit) :=
  let task := wordAt x.p 8
  match s.chanAddr task with
  | none => trapOf cDescbad task
  | some (core, ch) =>
    if s.sendOverflow t.core then trapOf 0x0F task
    else .ok ((s.walkAsk cl w task).request t core kMsg
      (.msg (some (t.asker w.req.tid s.nextId false))
        ⟨ch, [BitVec.ofNat 64 (start + 8), BitVec.ofNat 64 start, BitVec.ofNat 64 x.objs, BitVec.ofNat 64 seq], t.core, t.domid, t.cin⟩), ())

/-- R316: object `k` is released: its header is rewritten, and its address pushed onto the stack at DEST; a rewritten header stays. (DEDUCED: log entry 22) -/
def State.releaseOne (s : State) (cl : Nat) (t : Thread) (w : Walk) (x : WsbView) (k : Nat) : Except Stop (State × Unit) := do
  let dest := wordAt x.p 7
  let (s, o) ← s.wsbRead t w.req.wsb (512 + 16 * k) 8
  let (s, h) ← s.walkRead t o 8
  let (s, _) ← s.walkWrite t o 8 (0xFFFFF * 2 ^ 44 + h % 2 ^ 44)
  if dest.toNat % 8 ≠ 0 ∨ 104 < dest.toNat % 128 then .error (.trap cAlign dest (some s))
  else match s.walkAccess t dest.toNat .store with
    | .error e => .error (e.keeping s)
    | .ok (s1, (pa, leaf)) =>
      if homeOf pa = .host then .error (.trap cProt dest (some s1))
      else .ok ((s1.walkAsk cl w dest).request t (homePos (pkgOf t.core) (homeOf pa)) kPush
        (.chan (t.asker w.req.tid s1.nextId (leafShadow leaf)) (.push (BitVec.ofNat 64 o)) pa true), ())

/-- The second phase of a walk begins, as its block says from then on. -/
def State.walkSecond (s : State) (cl : Nat) (t : Thread) (w : Walk) : Except Stop (State × Unit) := do
  let (s, _) ← s.wsbWrite t w.req.wsb offSecond 8 1
  .ok ((s.modCluster cl (fun c => { c with walk := c.walk.map (fun w => { w with second := true }) })), ())

/-- R316: the release of a walked graph: what comes next. -/
def State.releaseStep (s : State) (cl : Nat) (t : Thread) (w : Walk) (x : WsbView) (mutd : Bool) : Except Stop (State × Unit) := do
  if w.second then do
    let (s, n) ← s.wsbRead t w.req.wsb 96 8
    if x.objs ≤ n then s.walkFinish cl t w false gDone else s.releaseOne cl t w x n
  else if mutd then s.walkFinish cl t w true gMutated
  else do
    let dest := wordAt x.p 7
    let (s, h) ← s.walkRead t dest.toNat 8
    if hdrType (BitVec.ofNat 64 h) ≠ 0xFFFF0 then trapOf cWalkbad dest
    else do
      let (s, _) ← s.walkSecond cl t w
      .ok (s.dropWatch cl w.wid, ())

/-- R315: a published record's task message is sent, and the walk completes once it has been accepted. -/
def State.sendStep (s : State) (cl : Nat) (t : Thread) (w : Walk) (x : WsbView) (a : Option Arena) (mutd : Bool) (code : BitVec 8) : Except Stop (State × Unit) := do
  if w.second then do
    let (s, v) ← s.wsbRead t w.req.wsb offSecond 8
    if v = 2 then s.walkFinish cl t w mutd code
    else do
      let (s, r) ← s.wsbRead t w.req.wsb offSent 16
      s.sendTask cl t w x (r % 2 ^ 64) (r / 2 ^ 64)
  else match a with
    | none => s.walkFinish cl t w mutd code
    | some a => do
      let (s, (start, seq)) ← s.publish t w x a
      let (s, _) ← s.wsbWrite t w.req.wsb offSent 16 (natWords [start, seq])
      s.walkSecond cl t w

/-- The end of a walk whose sweep has passed (R310, R314 to R316). -/
def State.walkEnd (s : State) (cl : Nat) (t : Thread) (w : Walk) (code : BitVec 8) (mutd : Bool) : Except Stop (State × Unit) := do
  let (s, x) ← s.wsbView t w.req.wsb
  if w.asked then s.walkSettle cl t w
  else if code ≠ gDone then s.walkFinish cl t w mutd code
  else match w.req.op, w.arena with
    | .gfree, _ => s.releaseStep cl t w x mutd
    | .gcopy, some a => do
      let (s, _) ← s.publish t w x a
      s.walkFinish cl t w mutd code
    | .gsend, a => s.sendStep cl t w x a mutd code
    | _, _ => s.walkFinish cl t w mutd code

/-- R310: a walk completes, or takes the next step of its second phase. (DESIGN CHOICE: log entry 73) -/
def execGraphWalkComplete (cluster : Nat) (s : State) : Host.Outcome State Fault Refusal :=
  .next <| match (s.cluster cluster).walk with
    | none => s
    | some w =>
      let t := s.thread w.req.tid
      match w.code, w.swept with
      | some code, some mutd =>
        if !s.walkAlive w.req || (w.asked && t.walkAnswer.isNone) then s
        else match s.walkEnd cluster t w code mutd with
          | .ok (s1, _) => s1
          | .error .fenced => s.modCluster cluster (fun c => { c with walk := some { w with code := some gFenced } })
          | .error e => s.walkStop cluster w.req.tid e
      | _, _ => s

/-! ### What else ends or stops a walk -/

/-- R309: walks and watches of contexts and incarnations that a kill ends are discarded at the engine of a cluster. -/
def State.dropWalks (s : State) (cl : Nat) (old : BitVec 12 → BitVec 16 → Bool) : State :=
  let dead := fun (q : WalkReq) => old (s.thread q.tid).domid (s.thread q.tid).cin
  s.modCluster cl (fun c => { c with
    watches := c.watches.filter (fun w => !old w.domid w.cin)
    walks := c.walks.filter (fun q => !dead q)
    walk := c.walk.filter (fun w => !dead w.req) })

/-- A push of a walk waits at its home. -/
def State.askWaits (s : State) (w : Walk) : Bool := (s.cancelAtHome w.req.tid w.req.tok).2
/-- R304: a walk may be suspended before its next line read: a push or message of it has been answered, or waits at its home. -/
def State.walkStoppable (s : State) (cl tid : Nat) : Bool :=
  match (s.cluster cl).walk with
  | some w => decide (w.req.tid ≠ tid) || !w.asked || (s.thread tid).walkAnswer.isSome || s.askWaits w
  | none => true
/-- R304: a gang switch suspends a thread's walk; the instruction executes again. An answer that has come is counted, a push that
waits at its home is withdrawn. (DEDUCED: log entry 22) -/
def State.walkSuspend (s : State) (cl tid : Nat) : State :=
  let s1 := match (s.cluster cl).walk with
    | some w =>
      if w.req.tid = tid ∧ w.asked then
        if (s.thread tid).walkAnswer.isSome then match s.walkSettle cl (s.thread tid) w with
          | .ok (s1, _) => s1
          | .error _ => s
        else (s.cancelAtHome tid w.req.tok).1
      else s
    | none => s
  (s1.modCluster cl (fun c => { c with
    walks := c.walks.filter (fun q => decide (q.tid ≠ tid)), walk := c.walk.filter (fun w => decide (w.req.tid ≠ tid)) })).modThread tid
    (fun t => { t with pend := none, wait := none })

/-! ### Instructions (R311) -/

/-- R296, R298: a walking instruction is handed to the cluster's engine. -/
def walkIssue (op : GOp) (g : Guard) (d : Reg) (a b : Src) (s : State) : Host.Outcome State Fault Refusal :=
  run s g { ext := .graph, srcs := [a, b], dests := [d], outside := true } fun s t =>
    let wsb := t.reg a.reg
    if wsb.extractLsb' 0 7 != 0 then .trap cAlign wsb
    else t.afterStores <| .pend ((s.pendOn s.cur .graph false (.graph d none) none wsb).modCluster t.cluster (fun c =>
      { c with walks := c.walks ++ [⟨op, s.cur, s.nextId, wsb.toNat, (t.reg b.reg).toNat⟩] }))

/-- R314. -/
def execGcopy (g : Guard) (d : Reg) (a b : Src) (s : State) : Host.Outcome State Fault Refusal := walkIssue .gcopy g d a b s
/-- R315. -/
def execGsend (g : Guard) (d : Reg) (a b : Src) (s : State) : Host.Outcome State Fault Refusal := walkIssue .gsend g d a b s
/-- R313. -/
def execGcmp (g : Guard) (d : Reg) (a b : Src) (s : State) : Host.Outcome State Fault Refusal := walkIssue .gcmp g d a b s
/-- R312. -/
def execGhash (g : Guard) (d : Reg) (a b : Src) (s : State) : Host.Outcome State Fault Refusal := walkIssue .ghash g d a b s
/-- R316. -/
def execGfree (g : Guard) (d : Reg) (a b : Src) (s : State) : Host.Outcome State Fault Refusal := walkIssue .gfree g d a b s

/-- R67, R317: pointer words of an object, at most 0xF_FFFF. -/
def ptrCount (e : Option TypeEnt) (size : Nat) : Nat :=
  match e with
  | none => 0
  | some e =>
    let ones := fun (n : Nat) => ((List.range n).filter (fun i => bit e.map i)).length
    Nat.min 0xFFFFF (if e.rep then (size - e.pre) / e.len * ones e.len + ones ((size - e.pre) % e.len) else ones (Nat.min size 64))

/-- R317: the two results of GTYPE. -/
def gtypeResult (h : Word) (e : Option TypeEnt) (p : Option Word) : Word :=
  match p with
  | none => (h &&& 0xFFFFFFFFFFF00000) ||| BitVec.ofNat 64 (ptrCount e (hdrSize h))
  | some i => if i.toNat < hdrSize h ∧ isPtr e i.toNat then 1 else 0

/-- R317: the type entry of a header, read with the rights of the thread. (DEDUCED: log entry 23) -/
def State.gtypeEntry (s : State) (t : Thread) (a h : Word) (k : State → Option TypeEnt → Res) : Res :=
  match typeRef (KMap.getD s.typebase t.domid.toNat 0) (hdrType h) with
  | .hardware => k s none
  | .invalid => .trap cWalkbad a
  | .entry va =>
    match s.readRange t.ctx va 16 with
    | .bad _ f x => .trap f x
    | .absent s1 x => .gone (s1.pageFault s1.cur x 0)
    | .ok s1 v => match typeEnt (wordAt v 0) (wordAt v 1) with
      | none => .trap cWalkbad a
      | some e => if e.words ≠ 0 ∧ e.words ≠ hdrSize h then .trap cWalkbad a else k s1 (some e)

/-- R317: GTYPE. -/
def execGtype (g : Guard) (d : Reg) (a : Src) (p : Option Src) (s : State) : Host.Outcome State Fault Refusal :=
  run s g { ext := .graph, srcs := a :: p.toList, dests := [d] } fun s t =>
    let x := t.reg a.reg
    if x.toNat % 8 ≠ 0 then .trap cWalkbad x
    else s.access s.cur x 8 .load fun s1 pa leaf =>
      if !homeLocal t.core (homeOf pa) && migrates t (homeOf pa) leaf true then s1.goHome s.cur (homeOf pa) 1
      else if t.storing pa 8 then .wait (.ownStore pa) false 0
      else if s1.fencedFrom t.core pa then .trap 0x0E x
      else if s1.poisoned (s1.viewOf t.domid (leafShadow leaf) pa) 8 then .trap cPoison x
      else
        let h := BitVec.ofNat 64 (s1.view t (leafShadow leaf) pa 8)
        s1.gtypeEntry t x h fun s2 e => .ok (s2.write s.cur d (gtypeResult h e (p.map (fun r => t.reg r.reg))))

/-- R318: what GQRY reads. -/
def State.walkQuery (s : State) (t : Thread) (wsb : Nat) : Except Stop (State × Word) := do
  let (s, v) ← s.wsbRead t wsb 0 128
  let w0 := wordAt v 0
  let w := (s.watch t.cluster ((wordAt v 10).extractLsb' 0 16).toNat).filter (fun w => decide (w.wsb = wsb) && w.domid == t.domid)
  .ok (s, (w0.extractLsb' 56 4).setWidth 64 <<< 60 ||| (w0.extractLsb' 48 8).setWidth 64 <<< 52 |||
    (if w.isSome then 0x8000000000000 else 0) ||| (if w.any (·.mutd) then 0x4000000000000 else 0) ||| (wordAt v 11 &&& 0xFFFFFFFF))

/-- R318: GQRY. -/
def execGqry (g : Guard) (d : Reg) (a : Src) (s : State) : Host.Outcome State Fault Refusal :=
  run s g { ext := .graph, srcs := [a], dests := [d] } fun s t =>
    let wsb := t.reg a.reg
    if wsb.extractLsb' 0 7 != 0 then .trap cAlign wsb
    else match s.walkQuery t wsb.toNat with
      | .ok (s1, v) => .ok (s1.write s.cur d v)
      | .error (.trap c x _) => .trap c x
      | .error (.page va acc _) => .gone (s.pageFault s.cur va acc)
      | .error .fenced | .error .held => .trap cTarange wsb

end Sys2Proof.Machine
end

