-- ==== Sys2Proof/Machine/Collective.lean ====
section
/-! DEFINITION. Multicast trees, trestles and the collective instructions (17: R391 to R405). -/

namespace Sys2Proof.Machine

/-! ### Trees (R391) -/

/-- Fields of a tree node. -/
def nodeDlv (n : BitVec 24) : Bool := n.getLsbD 22
def nodeKids (n : BitVec 24) : Nat := (n.extractLsb' 18 4).toNat
def nodePos (n : BitVec 24) : Nat := (n.extractLsb' 0 18).toNat

/-- The preorder parse of `k` subtrees consumes exactly the list. -/
def treeParse : List (BitVec 24) → Nat → Bool
  | [], k => k == 0
  | _ :: _, 0 => false
  | n :: r, k + 1 => treeParse r (k + nodeKids n)

/-- The nodes of the first `k` subtrees of a preorder list, and the rest. -/
def treeTake : List (BitVec 24) → Nat → List (BitVec 24) × List (BitVec 24)
  | l, 0 => ([], l)
  | [], _ => ([], [])
  | n :: r, k + 1 => let p := treeTake r (k + nodeKids n); (n :: p.1, p.2)

/-- The first `k` subtrees of a preorder list. -/
def subtrees : Nat → List (BitVec 24) → List (List (BitVec 24))
  | 0, _ => []
  | k + 1, l => let p := treeTake l 1; p.1 :: subtrees k p.2

/-- The position of a tree's node 0. -/
def treeRoot (l : List (BitVec 24)) : Nat := (l.head?.map nodePos).getD 0
/-- The subtrees of a tree's node 0, in preorder. -/
def treeKids (l : List (BitVec 24)) : List (List (BitVec 24)) :=
  match l with
  | [] => []
  | n :: r => subtrees (nodeKids n) r

/-- R391: a tree is valid. -/
def State.treeOk (s : State) (l : List (BitVec 24)) : Bool :=
  treeParse l 1 && l.all (fun n => !n.getLsbD 23 && s.corePresent (nodePos n) && !isPylon (nodePos n) && (nodeKids n != 0 || nodeDlv n)) &&
    decide (l.map nodePos).Nodup

/-- The parent of each node: `up` is the path of ancestors with the subtrees that each still lacks. -/
def treeParents : List (BitVec 24) → List (Nat × Nat) → List (Nat × Option Nat)
  | [], _ => []
  | n :: r, up =>
    let up1 := up.dropWhile (fun p => decide (p.2 = 0))
    let up2 := match up1 with
      | (p, k) :: q => (p, k - 1) :: q
      | [] => []
    (nodePos n, up1.head?.map Prod.fst) :: treeParents r ((nodePos n, nodeKids n) :: up2)

/-- What each node's trestle installs: position, parent, children in preorder, and DLV (R395). -/
def treeEntries (l : List (BitVec 24)) : List (Nat × Option Nat × List Nat × Bool) :=
  let ps := treeParents l []
  l.zipWith (fun n p => (p.1, p.2, (ps.filter (fun q => decide (q.2 = some p.1))).map Prod.fst, nodeDlv n)) ps

/-! ### Descriptors (R394) -/

/-- OP of R394. -/
def collOp (n : Nat) : Option CollOp := [CollOp.sumf, .maxf, .minf, .sumi, .and, .or, .rscl][n]?

/-- A collective descriptor from its 128 bytes: tree and group; none when it is invalid. OP is not examined here. -/
def State.collDesc (s : State) (v : Nat) : Option (List (BitVec 24) × BitVec 16) :=
  let w := wordAt v 0
  let tn := (w.extractLsb' 48 6).toNat
  let tree := (List.range tn).map (fun k => BitVec.ofNat 24 (v / 2 ^ (64 + 24 * k)))
  if w >>> 60 != 10 || w.extractLsb' 54 2 != 0 || w.extractLsb' 16 32 != 0 || decide (tn = 0) || decide (32 < tn) ||
      decide (v / 2 ^ (64 + 24 * tn) ≠ 0) || !s.treeOk tree then none
  else some (tree, w.extractLsb' 0 16)

/-! ### Combination (R396 to R398) -/

/-- A data block with its scalar word. -/
structure Contrib where
  data : BitVec 1024
  scalar : Word
deriving DecidableEq, Repr

/-- Round(f32, a + b) of two codes. -/
def addF32 (a b : Nat) : Nat × Fl := f32Fmt.finish .rne 0 (addNum .rne (f32Fmt.value a) (f32Fmt.value b))
/-- Round(f32, a * b). -/
def mulF32 (a b : Nat) : Nat × Fl := f32Fmt.finish .rne 0 (mulNum (f32Fmt.value a) (f32Fmt.value b))
/-- FMAX and FMIN of two codes (R179, R193). -/
def mnxF32 (max : Bool) (a b : Nat) : Nat × Fl := f32Fmt.finish .rne 0 (minMaxNum max (f32Fmt.value a) (f32Fmt.value b))

/-- The 32 lanes of two blocks combined. -/
def lanes32 (f : Nat → Nat → Nat × Fl) (a b : BitVec 1024) : BitVec 1024 × Fl :=
  let r := (List.range 32).foldl (fun (p : Nat × Fl) i =>
    let q := f (laneOf a i) (laneOf b i)
    (p.1 + q.1 * 2 ^ (32 * i), p.2.or q.2)) (0, {})
  (BitVec.ofNat 1024 r.1, r.2)

/-- R398: RSCL. -/
def rescale (a b : Contrib) : Contrib × Fl :=
  let mOf := fun (c : Contrib) => c.scalar.toNat % 2 ^ 32
  let sOf := fun (c : Contrib) => c.scalar.toNat / 2 ^ 32
  let ninf := 0xFF800000
  if mOf a = ninf ∧ mOf b = ninf then (⟨0, BitVec.ofNat 64 ninf⟩, {})
  else
    let m := mnxF32 true (mOf a) (mOf b)
    let weight := fun (x : Nat) =>
      let d := f32Fmt.finish .rne 0 (addNum .rne (f32Fmt.value x) (f32Fmt.value m.1).neg)
      let e := f32Fmt.finish .rne 0 (exp2Num (f32Fmt.value d.1))
      (e.1, d.2.or e.2)
    let a1 := weight (mOf a)
    let a2 := weight (mOf b)
    let mix := fun (x y : Nat) =>
      let p := mulF32 x a1.1
      let q := mulF32 y a2.1
      let r := addF32 p.1 q.1
      (r.1, (p.2.or q.2).or r.2)
    let sum := mix (sOf a) (sOf b)
    let o := lanes32 mix a.data b.data
    (⟨o.1, BitVec.ofNat 64 (m.1 + sum.1 * 2 ^ 32)⟩, (((m.2.or a1.2).or a2.2).or sum.2).or o.2)

/-- R397: Combine. (DEDUCED: log entry 62) -/
def combine (op : CollOp) (a b : Contrib) : Contrib × Fl :=
  match op with
  | .sumf => let r := lanes32 addF32 a.data b.data; (⟨r.1, 0⟩, r.2)
  | .maxf => let r := lanes32 (mnxF32 true) a.data b.data; (⟨r.1, 0⟩, r.2)
  | .minf => let r := lanes32 (mnxF32 false) a.data b.data; (⟨r.1, 0⟩, r.2)
  | .sumi =>
    (⟨BitVec.ofNat 1024 ((List.range 16).foldl (fun n i =>
      n + (a.data.toNat / 2 ^ (64 * i) + b.data.toNat / 2 ^ (64 * i)) % 2 ^ 64 * 2 ^ (64 * i)) 0), 0⟩, {})
  | .and => (⟨a.data &&& b.data, 0⟩, {})
  | .or => (⟨a.data ||| b.data, 0⟩, {})
  | .rscl => rescale a b

/-! ### Trestles (R395) -/

/-- An entry's identity. -/
def Trestle.is (e : Trestle) (dom : BitVec 12) (cin gid : BitVec 16) : Bool := e.domid == dom && e.cin == cin && e.gid == gid
/-- The entry of a node. -/
def State.trestle (s : State) (pos : Nat) (dom : BitVec 12) (cin gid : BitVec 16) : Option Trestle :=
  (s.cluster (clusterOf pos)).trestles.find? (fun e => decide (e.pos = pos) && e.is dom cin gid)
/-- The entry of a node, changed. -/
def State.modTrestle (s : State) (e : Trestle) (f : Trestle → Trestle) : State :=
  s.modCluster (clusterOf e.pos) (fun c => { c with trestles := c.trestles.map (fun x => if x.pos = e.pos ∧ x.is e.domid e.cin e.gid then f x else x) })
/-- Entries of a group removed at some positions. -/
def State.dropTrestles (s : State) (dom : BitVec 12) (cin gid : BitVec 16) (l : List Nat) : State :=
  l.foldl (fun s p => s.modCluster (clusterOf p) (fun c =>
    { c with trestles := c.trestles.filter (fun e => !(decide (e.pos = p) && e.is dom cin gid)) })) s

/-- Rounds between two counters modulo 2^16. -/
def roundsFrom (a b : Nat) : Nat := (a + 65536 - b) % 65536

/-- The contribution of round DONE from the node itself (0) or from child `k` (k + 1). -/
def Trestle.share (e : Trestle) (k : Nat) : Option Contrib :=
  (e.contribs.find? (fun c => decide (c.1 = e.done ∧ c.2.1 = k))).map (fun c => ⟨c.2.2.1, c.2.2.2⟩)
/-- The contributors of a round in the order of R396. -/
def Trestle.sharers (e : Trestle) : List Nat := (if e.dlv then [0] else []) ++ (List.range e.children.length).map (· + 1)
/-- R396: the entry holds a whole round; a root keeps two results until they are taken (R395, R403). -/
def Trestle.whole (e : Trestle) : Bool :=
  e.sharers.all (fun k => (e.share k).isSome) && (e.parent.isSome || decide (e.results.length < 2))

/-- R396: the combination of the round, with its flags. (DEDUCED: log entry 62) -/
def Trestle.combined (e : Trestle) : Contrib × Fl :=
  match e.sharers.filterMap e.share with
  | [] => (⟨0, 0⟩, {})
  | c :: r => r.foldl (fun p x => let q := combine e.op p.1 x; (q.1, p.2.or q.2)) (c, {})

/-- R396: the next whole round of a group at a cluster is combined; a node that is not the root sends the result to its
parent. -/
def execTrestleCombine (cluster group : Nat) (s : State) : Host.Outcome State Fault Refusal :=
  .next <| match (s.cluster cluster).trestles.find? (fun e => decide (e.gid.toNat = group) && e.whole) with
    | none => s
    | some e =>
      let p := e.combined
      let s1 := s.modTrestle e (fun x => { x with
        done := (e.done + 1) % 65536
        contribs := x.contribs.filter (fun c => decide (c.1 ≠ e.done))
        results := if e.parent.isNone then x.results ++ [(e.done, p.1.data, p.1.scalar)] else x.results
        nx := x.nx || p.2.nx, ofl := x.ofl || p.2.ofl, nv := x.nv || p.2.nv })
      match e.parent with
      | none => s1
      | some up => s1.sendFlit e.pos up kContrib e.domid e.cin 0 e.pri (.contrib e.gid up e.pos e.done p.1.data p.1.scalar)

/-- R396: a child's contribution at its parent: rounds DONE and DONE + 1 are held, a later one is refused (none); one that
finds no entry, or no such child, is discarded (R405). (DEDUCED: log entry 61) -/
def State.contribAt (s : State) (m : Msg) : Option State :=
  match m.body with
  | .contrib gid node child round data scalar =>
    match s.trestle node m.domid m.cin gid with
    | none => some s
    | some e =>
      match e.children.findIdx? (fun c => decide (c = child)) with
      | none => some s
      | some k =>
        let ahead := roundsFrom round e.done
        if ahead ≤ 1 then some (s.modTrestle e (fun x => { x with contribs := x.contribs ++ [(round, k + 1, data, scalar)], pri := m.pri }))
        else if ahead < 32768 then none
        else some s
  | _ => none
/-- R396, R405. -/
def execContribArrival (msg : Nat) (s : State) : Host.Outcome State Fault Refusal := .next (s.atHome msg State.contribAt)

/-! ### Groups: SETUP and CJOIN (R400) -/

/-- R400: a SETUP at a node: its trestle installs the entry, and the SETUP goes on to the next node in preorder; the last
one answers DONE. Without room, or with the identity already held, everything installed is removed and BUSY is answered. (DEDUCED: log entry 61) -/
def State.setupAt (s : State) (m : Msg) : Option State :=
  match m.body with
  | .setup who op gid nodes done =>
    match nodes with
    | [] => some s
    | (pos, parent, children, dlv) :: rest =>
      let cl := clusterOf pos
      let l := (s.cluster cl).trestles
      if decide (64 ≤ l.length) || l.any (fun e => e.is m.domid m.cin gid && !done.contains e.pos) then
        some ((s.dropTrestles m.domid m.cin gid done).reply who pos kStat (.value 0x24))
      else
        let s1 := s.modCluster cl (fun c => { c with trestles := c.trestles ++ [
          { domid := m.domid, cin := m.cin, gid := gid, pos := pos, op := op, parent := parent, children := children, dlv := dlv
            own := 0, done := 0, read := 0, contribs := [], results := [], nx := false, ofl := false, nv := false }] })
        match rest with
        | [] => some (s1.reply who pos kStat (.value 0))
        | n :: _ => some (s1.sendFlit pos n.1 kSetup m.domid m.cin m.tag m.pri (.setup who op gid rest (pos :: done)))
  | _ => none
/-- R400. -/
def execSetupArrival (msg : Nat) (s : State) : Host.Outcome State Fault Refusal := .next (s.atHome msg State.setupAt)

/-- What a collective instruction needs. -/
def collNeed (srcs : List Src) (dests : List Reg) (anc : Bool) : Need := { ext := .coll, anc := anc, srcs := srcs, dests := dests, outside := true }

/-- R394, R400, R402: the descriptor of CJOIN and CMCST, read after the thread's own stores. -/
def State.onDescriptor (s : State) (t : Thread) (p : Word) (f : State → Nat → List (BitVec 24) → BitVec 16 → Res) : Res :=
  if p.extractLsb' 0 7 != 0 then .trap cAlign p
  else t.afterStores <| s.readBlock t.ctx p 128 false fun s1 v => match s1.collDesc v with
    | none => .trap cDescbad p
    | some (tree, gid) => f s1 v tree gid

/-- R400: `cjoin`. (DEDUCED: log entry 61) -/
def execCjoin (g : Guard) (d : Reg) (a : Src) (s : State) : Host.Outcome State Fault Refusal :=
  run s g (collNeed [a] [d] false) fun s t =>
    let p := t.reg a.reg
    s.onDescriptor t p fun s1 v tree gid =>
      match collOp ((wordAt v 0).extractLsb' 56 4).toNat with
      | none => .trap cDescbad p
      | some op =>
        .ok ((s1.awaitReg s.cur d 8 false false 0 0).request t (treeRoot tree) kSetup
          (.setup (t.asker s.cur s1.nextId false) op gid (treeEntries tree) []))

/-- A group name; nonzero bits above [15:0] trap (R400, R401, R403). -/
def groupName (w : Word) (f : BitVec 16 → Res) : Res := if w.extractLsb' 16 48 != 0 then .trap cDescbad w else f (w.setWidth 16)

/-- R400: the state of an entry. -/
def Trestle.state (e : Trestle) : Word :=
  let role := if e.parent.isNone then 3 else if e.children.isEmpty then 1 else 2
  BitVec.ofNat 64 (e.own * 2 ^ 48 + e.done * 2 ^ 32 + (if e.nx then 2 ^ 23 else 0) + (if e.ofl then 2 ^ 22 else 0) +
    (if e.nv then 2 ^ 21 else 0) + role * 65536 + e.gid.toNat)
/-- R400: `cjoin.q`. -/
def execCjoinQ (g : Guard) (d : Reg) (a : Src) (s : State) : Host.Outcome State Fault Refusal :=
  run s g (collNeed [a] [d] false) fun s t =>
    groupName (t.reg a.reg) fun gid =>
      .ok (s.write s.cur d (((s.trestle t.core t.domid t.cin gid).map Trestle.state).getD 0))

/-- Positions of a tree that `fuel` steps along its links reach. -/
def State.treeReach (s : State) (dom : BitVec 12) (cin gid : BitVec 16) : Nat → List Nat → List Nat
  | 0, l => l
  | fuel + 1, l =>
    State.treeReach s dom cin gid fuel (l.flatMap (fun p => match s.trestle p dom cin gid with
      | some e => p :: e.parent.toList ++ e.children
      | none => [p])).dedup
/-- R400: `cjoin.lv`: every entry of the group is removed, from the own node on. (DEDUCED: log entry 61) -/
def execCjoinLv (g : Guard) (d : Reg) (a : Src) (s : State) : Host.Outcome State Fault Refusal :=
  run s g (collNeed [a] [d] false) fun s t =>
    groupName (t.reg a.reg) fun gid =>
      match s.trestle t.core t.domid t.cin gid with
      | none => .ok (s.write s.cur d 1)
      | some _ => .ok ((s.dropTrestles t.domid t.cin gid (s.treeReach t.domid t.cin gid 32 [t.core])).write s.cur d 0)

/-! ### CRED, CMCST, CRCV (R401 to R403) -/

/-- R401: CRED. -/
def execCred (g : Guard) (op : CollOp) (a b c : Src) (s : State) : Host.Outcome State Fault Refusal :=
  run s g (collNeed [a, b, c] [] true) fun s t =>
    let name := t.reg b.reg
    groupName name fun gid =>
      match s.trestle t.core t.domid t.cin gid with
      | none => .trap cDescbad name
      | some e =>
        if !e.dlv || decide (e.op ≠ op) then .trap cDescbad name
        else if 2 ≤ roundsFrom e.own e.done then .wait (.cred gid.toNat) true name
        else .ok (s.modTrestle e (fun x => { x with
          own := (e.own + 1) % 65536, contribs := x.contribs ++ [(e.own, 0, t.vreg a.reg, t.reg c.reg)], pri := t.prio }))

/-- R402: CMCST: the slot continues once the flit has been injected. (DEDUCED: log entry 61) -/
def execCmcst (g : Guard) (a b c : Src) (s : State) : Host.Outcome State Fault Refusal :=
  run s g (collNeed [a, b, c] [] true) fun s t =>
    s.onDescriptor t (t.reg b.reg) fun s1 _ tree gid =>
      if s1.sendOverflow t.core then .trap 0x0F (BitVec.ofNat 64 (treeRoot tree))
      else .gone ((s1.request t (treeRoot tree) kMcast (.mcast tree (t.vreg a.reg) (t.reg c.reg) gid)).retireWaiting
        (takeRegs [a, b, c]) (.inject s1.nextId) true)

/-- R403: `crcv.mc`. -/
def execCrcvMc (g : Guard) (d : Reg) (a : Src) (b : Reg) (s : State) : Host.Outcome State Fault Refusal :=
  run s g (collNeed [a] [d, b] true) fun s t =>
    let name := t.reg a.reg
    groupName name fun gid =>
      match (s.core t.core).mcast.find? (fun x => x.gid == gid && x.domid == t.domid && x.cin == t.cin) with
      | none => .wait (.crcvMc gid.toNat) true name
      | some x =>
        .ok (((s.modCore t.core (fun k => { k with mcast := k.mcast.erase x })).writeV s.cur d x.data).write s.cur b x.scalar)

/-- R403: `crcv.red`. -/
def execCrcvRed (g : Guard) (d : Reg) (a : Src) (b : Reg) (s : State) : Host.Outcome State Fault Refusal :=
  run s g (collNeed [a] [d, b] true) fun s t =>
    let name := t.reg a.reg
    groupName name fun gid =>
      match s.trestle t.core t.domid t.cin gid with
      | none => .trap cDescbad name
      | some e =>
        if e.parent.isSome then .trap cDescbad name
        else match e.results.find? (fun r => decide (r.1 = e.read)) with
          | none => .wait (.crcvRed gid.toNat) true name
          | some r =>
            .ok (((s.modTrestle e (fun x => { x with read := (e.read + 1) % 65536, results := x.results.erase r })).writeV s.cur d
              r.2.1).write s.cur b r.2.2)

/-! ### Multicast delivery (R392, R393) -/

/-- R393: a delivery fills a slot of its core; none when all four are full. -/
def State.deliver (s : State) (core : Nat) (m : Msg) (data : BitVec 1024) (scalar : Word) (gid : BitVec 16) : Option State :=
  if 4 ≤ (s.core core).mcast.length then none
  else some (s.modCore core (fun k => { k with mcast := k.mcast ++ [⟨data, scalar, gid, m.domid, m.cin⟩] }))

/-- The node has been served: DLV of node 0 is cleared. -/
def treeServed (l : List (BitVec 24)) : List (BitVec 24) :=
  match l with
  | n :: r => (n &&& ~~~0x400000#24) :: r
  | [] => []

/-- R392: the core of node 0 takes its copy, when DLV = 1; the flit that goes on no longer asks for it. (DEDUCED: log entry 61) -/
def State.mcastCore (s : State) (id : Nat) : Option State :=
  match s.arrived id with
  | none => none
  | some m => match m.body with
    | .mcast tree data scalar gid =>
      if !(tree.head?.map nodeDlv).getD false then some s
      else (s.deliver m.ldest m data scalar gid).map (fun s1 =>
        { s1 with msgs := KMap.set s1.msgs id { m with body := .mcast (treeServed tree) data scalar gid } })
    | _ => none

/-- R393: a delivery fills a slot of its core; one that finds no slot is left to be refused (R392). -/
def execMcastDelivery (core msg : Nat) (s : State) : Host.Outcome State Fault Refusal :=
  .next <| match KMap.find s.msgs msg with
    | none => s
    | some m => if m.ldest = core && s.isLive (clusterOf core) m.domid m.cin then (s.mcastCore msg).getD s else s

/-- R392: the router of a node: the core takes its copy first, since a refused copy takes the whole subtree back with it;
then one copy is injected for each child, with SRC kept. A stale copy is dropped (R405). -/
def execMcastNode (msg : Nat) (s : State) : Host.Outcome State Fault Refusal :=
  .next <| s.atHome msg fun _ m => match s.mcastCore msg with
    | none => none
    | some s1 => match m.body with
      | .mcast tree data scalar gid =>
        some ((treeKids tree).foldl (fun s sub =>
          let s2 := s.sendFlit m.ldest (treeRoot sub) kMcast m.domid m.cin m.tag m.pri (.mcast sub data scalar gid)
          match KMap.find s2.msgs s.nextId with
          | some x => { s2 with msgs := KMap.set s2.msgs s.nextId { x with src := m.src } }
          | none => s2) (s1.dropMsg msg))
      | _ => none

end Sys2Proof.Machine
end

