-- ==== Sys2Proof/Machine/Fabric.lean ====
section
/-! DEFINITION. The Viaduct fabric (17: R375 to R390; 15: R361, R362, R365): routers, ranking and deflection, pairing slots,
bounce and park, and off-package links. -/

namespace Sys2Proof.Machine

/-! ### Routers and their ports (R375, R376) -/

/-- Directions of mesh ports: 0 N, 1 E, 2 S, 3 W. -/
def oppositeDir (d : Nat) : Nat := (d + 2) % 4

/-- The physical die of a position is part of the domain; a B9-X2 package has only the southern row of its block (R86). -/
def State.diePhysical (s : State) (die : Nat) : Bool :=
  s.pkgPresent (pkgOfDie die) && (decide ((s.pkg (pkgOfDie die)).variant ≠ 1) || decide (die / 16 % 2 = 0))

/-- One tile further in a direction, wrapping only where the integrator has closed the ring. -/
def State.step1 (s : State) (p d : Nat) : Option Nat :=
  let x := posX p
  let y := posY p
  match d with
  | 0 => if y + 1 < s.tilesY then some (posOf x (y + 1)) else if s.ringY then some (posOf x 0) else none
  | 1 => if x + 1 < s.tilesX then some (posOf (x + 1) y) else if s.ringX then some (posOf 0 y) else none
  | 2 => if y ≠ 0 then some (posOf x (y - 1)) else if s.ringY then some (posOf x (s.tilesY - 1)) else none
  | _ => if x ≠ 0 then some (posOf (x - 1) y) else if s.ringX then some (posOf (s.tilesX - 1) y) else none

/-- The neighbour of a router. Where the next tile belongs to the missing row of a B9-X2 package, the neighbour is the next
tile that exists within 24 further ones. (DEDUCED: log entry 58) -/
def State.neighbour (s : State) (p d : Nat) : Option Nat :=
  ((List.range 25).foldl (fun (r : Option Nat × Option Nat) _ =>
    match r with
    | (some q, none) => if s.diePhysical (dieOf q) then (some q, some q) else (s.step1 q d, none)
    | r => r) (s.step1 p d, none)).2

/-- The port leaves the package: it shares a link interface (R386). -/
def crossing (p q d : Nat) : Bool :=
  decide (pkgOf p ≠ pkgOf q) || (match d with
    | 0 => decide (posY q ≤ posY p)
    | 1 => decide (posX q ≤ posX p)
    | 2 => decide (posY p ≤ posY q)
    | _ => decide (posX p ≤ posX q))

/-- R2, R386: the number of the link that serves an edge port towards a neighbour: package, edge and link of that edge. A B9-X2
package has four links at each edge, each of those in Y serving twelve routers. (DESIGN CHOICE: log entry 95) -/
def State.linkOf (s : State) (p q d : Nat) : Nat :=
  let wide := decide ((s.pkg (pkgOf p)).variant = 1) || decide ((s.pkg (pkgOf q)).variant = 1)
  pkgOf p * 32 + d * 8 + (if d % 2 = 0 then posX p % 48 / (if wide then 12 else 6) else posY p % 48 / 6)

/-- A link. -/
def State.link (s : State) (l : Nat) : Link := KMap.getD s.links l {}
def State.modLink (s : State) (l : Nat) (f : Link → Link) : State := { s with links := KMap.set s.links l (f (s.link l)) }

/-- Packets in a link's replay buffer that the receiver has not accepted. -/
def State.onLink (s : State) (l : Nat) : List (Nat × Msg) :=
  s.msgs.filter (fun p => match p.2.loc with
    | .link k _ _ _ _ _ _ _ => decide (k = l)
    | _ => false)
/-- Packets in a link's transmit interface. -/
def State.onIface (s : State) (l : Nat) : List (Nat × Msg) :=
  s.msgs.filter (fun p => match p.2.loc with
    | .iface k _ _ _ _ => decide (k = l)
    | _ => false)
/-- Packets in a link's receive entries. -/
def State.onRecv (s : State) (l : Nat) : List (Nat × Msg) :=
  s.msgs.filter (fun p => match p.2.loc with
    | .recv k _ _ _ => decide (k = l)
    | _ => false)

/-- A saturated flit (R377). (DEDUCED: log entry 58) -/
def State.saturated (s : State) (m : Msg) : Bool := decide (s.age m = 4095)

/-- The port can take the flit: the neighbour exists, and a link has not failed and its transmit interface has an entry free, the
fifth one only for saturated flits (R376, R378, R386). (DEDUCED: log entry 58) -/
def State.portOpen (s : State) (p d : Nat) (m : Msg) : Option Nat :=
  match s.neighbour p d with
  | none => none
  | some q =>
    if crossing p q d then
      let l := s.linkOf p q d
      if (s.link l).failed || decide ((if s.saturated m then 5 else 4) ≤ (s.onIface l).length) then none else some q
    else some q

/-- A router's record. -/
def State.router (s : State) (p : Nat) : Router := KMap.getD s.routers p {}
def State.modRouter (s : State) (p : Nat) (f : Router → Router) : State := { s with routers := KMap.set s.routers p (f (s.router p)) }

/-- A flit, changed. -/
def State.modMsg (s : State) (id : Nat) (f : Msg → Msg) : State :=
  match KMap.find s.msgs id with
  | some m => { s with msgs := KMap.set s.msgs id (f m) }
  | none => s

/-! ### Ranking (R377) -/

/-- The first flit ranks above the second; `i` and `j` are their input ports in the order of rule 4. -/
def State.ranksAbove (s : State) (i : Nat) (a : Msg) (j : Nat) (b : Msg) : Bool :=
  let sa := s.saturated a
  let sb := s.saturated b
  let now := BitVec.ofNat 32 s.timeNs
  if sa != sb then sa
  else if sa then
    let oa := (now - a.born).toNat
    let ob := (now - b.born).toNat
    if oa ≠ ob then decide (ob < oa) else if a.src ≠ b.src then decide (a.src < b.src)
    else if a.tag ≠ b.tag then decide (a.tag.toNat < b.tag.toNat) else decide (i ≤ j)
  else if a.pri ≠ b.pri then decide (a.pri.toNat < b.pri.toNat)
  else if s.age a ≠ s.age b then decide (s.age b < s.age a)
  else decide (i ≤ j)

/-- A flit in a router: its number, its input port, and its record. -/
abbrev InFlit := Nat × Nat × Msg

/-- A list in rank order with one more flit. -/
def State.rankInsert (s : State) (f : InFlit) : List InFlit → List InFlit
  | [] => [f]
  | g :: r => if s.ranksAbove f.2.1 f.2.2 g.2.1 g.2.2 then f :: g :: r else g :: State.rankInsert s f r

/-- Flits that arrived at a router before this cycle. -/
def State.inputs (s : State) (p : Nat) : List InFlit :=
  s.msgs.filterMap (fun x => match x.2.loc with
    | .port q d at_ => if q = p ∧ at_ < s.cycle then some (x.1, d, x.2) else none
    | _ => none)

/-! ### Pairing (R361, R362) -/

/-- A `.pr` request: push or pop, with its object. -/
def Msg.pairing (m : Msg) : Option (ChanOp × Nat × Asker) :=
  match m.body with
  | .chan who op pa true => if m.nack then none else match op with
    | .init _ => none
    | _ => some (op, pa, who)
  | _ => none

/-- Two requests are opposite, on one object, of one domain and incarnation: the pushed value. -/
def pairValue (a b : Msg) : Option Word :=
  match a.pairing, b.pairing with
  | some (x, p, _), some (y, q, _) =>
    if p = q ∧ a.domid = b.domid ∧ a.cin = b.cin then match x, y with
      | .push v, .pop | .pop, .push v => some v
      | _, _ => none
    else none
  | _, _ => none

/-- Flits in a router's pairing slots: held, or still there for want of a port (R378). -/
def State.heldAt (s : State) (p : Nat) : List (Nat × Msg) :=
  s.msgs.filter (fun x => match x.2.loc with
    | .held q _ | .port q 4 _ => decide (q = p)
    | _ => false)

/-- The cycle in which a held flit's hold ends, or has ended. -/
def heldTill (m : Msg) : Nat :=
  match m.loc with
  | .held _ till => till
  | .port _ 4 at_ => at_ + 1
  | _ => 0
/-- The oldest held flit that a request matches. (DEDUCED: log entry 86) -/
def State.matchFor (s : State) (p : Nat) (m : Msg) : Option (Nat × Word) :=
  ((s.heldAt p).filterMap (fun x => (pairValue x.2 m).map (fun v => (x.1, heldTill x.2, v)))).foldl
    (fun (best : Option (Nat × Nat × Word)) x => match best with
      | some b => if x.2.1 < b.2.1 then some x else some b
      | none => some x) none |>.map (fun b => (b.1, b.2.2))

/-- A router answers an asker (R362). -/
def State.routerAnswer (s : State) (p : Nat) (m : Msg) (kind : BitVec 6) (who : Asker) (a : Ans) : State :=
  (s.sendFlit m.ldest who.core kind who.domid who.cin who.tag 0 (.resp who a)).modMsg s.nextId (fun x => { x with loc := .inject p s.cycle })
/-- One of a matched pair is answered. -/
def State.pairAnswer (s : State) (p : Nat) (m : Msg) (v : Word) : State :=
  match m.pairing with
  | some (.push _, _, who) => s.routerAnswer p m kPusha who .ok
  | some (.pop, pa, who) => s.routerAnswer p m kPopr who (.popr v pa)
  | _ => s
/-- R362: a pair is matched: both are answered by the router, and the object is neither read nor written. -/
def State.pairUp (s : State) (p held id : Nat) (v : Word) : State :=
  match KMap.find s.msgs held, KMap.find s.msgs id with
  | some a, some b => (((s.dropMsg held).dropMsg id).pairAnswer p a v).pairAnswer p b v
  | _, _ => s

/-- The router in which a flit takes part in pairing: where it has arrived, or where it waits to be injected. -/
def Msg.router (m : Msg) : Option Nat :=
  match m.loc with
  | .port p _ _ | .inject p _ => some p
  | _ => none

/-- R362: a router matches a held flit with an opposite one that enters. (DEDUCED: log entry 86) -/
def execPairMatch (held msg : Nat) (s : State) : Host.Outcome State Fault Refusal :=
  .next <| match KMap.find s.msgs msg with
    | none => s
    | some m => match m.router with
      | none => s
      | some p => match s.matchFor p m with
        | some (h, v) => if h = held then s.pairUp p held msg v else s
        | none => s

/-- R362, R378: a hold ends unmatched and the flit goes on to its home; until it finds a port it keeps its slot. (DEDUCED: log entry 86) -/
def execPairHoldExpiry (msg : Nat) (s : State) : Host.Outcome State Fault Refusal :=
  .next <| match KMap.find s.msgs msg with
    | none => s
    | some m => match m.loc with
      | .held p till => if till ≤ s.cycle then s.modMsg msg (fun m => { m with loc := .port p 4 (till - 1) }) else s
      | _ => s

/-- An unmatched `.pr` flit that has never been held is taken into a free slot for W cycles, unless it is saturated. (DEDUCED: log entry 86) -/
def State.tryHold (s : State) (p id : Nat) (m : Msg) : Option State :=
  if m.pairing.isSome && !m.held && s.pwin != 0 && decide ((s.heldAt p).length < 4) && !s.saturated m then
    some (s.modMsg id (fun m => { m with held := true, loc := .held p (s.cycle + s.pwin.toNat) }))
  else none

/-- Pairing of the flits that enter a router in this cycle: what is matched or held leaves the rotation. -/
def State.pairInputs (s : State) (p : Nat) : List InFlit → State
  | [] => s
  | f :: r =>
    State.pairInputs (match s.matchFor p f.2.2 with
      | some (h, v) => s.pairUp p h f.1 v
      | none => (s.tryHold p f.1 f.2.2).getD s) p r

/-! ### One cycle of a router (R378) -/

/-- R442: a router that forwards a flit of a context whose incarnation differs from its cluster's entry sets SEEN. -/
def State.noteSeen (s : State) (p id : Nat) : State :=
  match KMap.find s.msgs id with
  | none => s
  | some m => match s.logicalAt p with
    | none => s
    | some cl => if s.isLive cl m.domid m.cin then s else s.modCluster cl (fun c => { c with seen := insertN c.seen m.domid.toNat })

/-! ### Fences (R445) -/

/-- R444: the cluster is inside a fenced cofferdam that does not hold the other one. (DEDUCED: log entry 25) -/
def State.fencedApart (s : State) (inside other : Nat) : Bool :=
  (s.cluster inside).fen && !((s.cluster other).fen && decide ((s.cluster other).cdam = (s.cluster inside).cdam) && (s.cluster other).cdam.isSome) &&
    decide (inside ≠ other)
/-- The boundary of a fenced cofferdam lies between two routers: `p` is inside and `q` is not. (DEDUCED: log entry 25) -/
def State.boundary (s : State) (p q : Nat) : Bool :=
  match s.logicalAt p, s.logicalAt q with
  | some a, some b => s.fencedApart a b
  | some a, none => (s.cluster a).fen
  | none, _ => false
/-- R382: a flit is returned to its sender. -/
def State.returned (s : State) (m : Msg) (fenced : Bool) (loc : Loc) : Msg :=
  { m with nack := true, fnc := m.fnc || fenced, dest := (s.physOf m.src).getD m.src, loc := loc }

/-- A flit leaves by a port: over the mesh, or into a link's transmit interface. The boundary routers of a fenced cofferdam pass
none: one that would leave is discarded, one from outside is returned with FNC (R405, R445). (DEDUCED: log entry 25) -/
def State.leaveBy (s : State) (p d q id : Nat) : State :=
  let s := s.noteSeen p id
  if s.boundary p q then s.dropMsg id
  else if s.boundary q p then s.modMsg id (fun m => s.returned m true (.port p d s.cycle))
  else if crossing p q d then s.modMsg id (fun m => { m with loc := .iface (s.linkOf p q d) p q (oppositeDir d) s.cycle })
  else s.modMsg id (fun m => { m with loc := .port q (oppositeDir d) s.cycle })

/-- The port that a flit takes among free ones: a productive one, X before Y, else any other. A flit that is on its way back
does not turn to a fence. (DEDUCED: log entries 25, 58) -/
def State.choosePort (s : State) (p : Nat) (m : Msg) (free : List Nat) : Option (Nat × Nat) :=
  let opens := (free.filterMap (fun d => (s.portOpen p d m).map (fun q => (d, q)))).filter (fun x => !(m.nack && s.boundary x.2 p))
  let good := fun (x : Nat × Nat) => decide (s.dist x.2 m.dest < s.dist p m.dest)
  let x := opens.filter (fun x => decide (x.1 % 2 = 1))
  let y := opens.filter (fun x => decide (x.1 % 2 = 0))
  ((x ++ y).find? good).or opens.head?

/-- The logical position to which a flit travels. -/
def Msg.goal (m : Msg) : Nat := if m.nack then m.src else m.ldest
/-- R383: KIND values that the hardware creates none of. -/
def reservedKind (k : BitVec 6) : Bool := k == 0 || decide (0x17 < k.toNat)
/-- A flit at its destination router: one of a reserved kind is dropped and counted (R383); one whose destination has moved
while it travelled is bounced, or translated again (R88, R266); any other is taken by the local port, where AGE stops (R380). -/
def State.eject (s : State) (p id : Nat) (m : Msg) : State :=
  if reservedKind m.kind then (s.dropMsg id).orphaned (clusterOf m.ldest)
  else if s.physFrom (dieOf p) m.goal ≠ some p then
    s.modMsg id (fun m => { (if m.nack then m else s.returned m false m.loc) with loc := .inject p s.cycle, out := some s.cycle })
  else s.modMsg id (fun m => { m with loc := .ejected p, out := some s.cycle })

/-- R378: the outputs of the arriving flits, in rank order: `eject` ejection ports and the mesh ports `free` are left. -/
def State.route (s : State) (p : Nat) : List InFlit → Nat → List Nat → State × List Nat
  | [], _, free => (s, free)
  | f :: r, eject, free =>
    if f.2.2.dest = p ∧ eject ≠ 0 then State.route (s.eject p f.1 f.2.2) p r (eject - 1) free
    else match s.choosePort p f.2.2 free with
      | some (d, q) => State.route (s.leaveBy p d q f.1) p r eject (free.erase d)
      | none => State.route s p r eject free

/-- R365: an earlier flit of the cluster for the same core and channel is parked. (DEDUCED: log entry 59) -/
def State.behindParked (s : State) (m : Msg) : Bool :=
  s.msgs.any (fun p => (match p.2.loc with
    | .parked c _ => decide (c = clusterOf m.src)
    | _ => false) && p.2.sameGoal m && decide (p.2.sq < m.sq))

/-- The flit that a router would inject: the one that has waited longest. -/
def State.injectable (s : State) (p : Nat) : Option (Nat × Msg) :=
  (s.msgs.filter (fun x => match x.2.loc with
    | .inject q _ => decide (q = p) && !s.behindParked x.2
    | _ => false)).foldl (fun (best : Option (Nat × Msg)) x => match best with
      | some b => (match x.2.loc, b.2.loc with
        | .inject _ i, .inject _ j => if i < j then some x else some b
        | _, _ => some b)
      | none => some x) none

/-- R379: the router may not inject: a neighbour has signalled that its injection waits. Of two neighbours that both wait, the
one that signalled first, at equal times that of the lower position, goes first. (DESIGN CHOICE: log entry 96) -/
def State.paused (s : State) (p : Nat) : Bool :=
  (List.range 4).any (fun d => match s.neighbour p d with
    | some q => match (s.router q).starving, (s.router p).starving with
      | none, _ => false
      | some _, none => true
      | some a, some b => decide (a < b ∨ (a = b ∧ q < p))
    | none => false)

/-- R365: a flit is parked in its sender's cluster. (DEDUCED: log entry 59) -/
def State.park (s : State) (id : Nat) : State :=
  s.modMsg id (fun m => { m with
    nack := false, fnc := false, bounces := m.bounces + 1, loc := .parked (clusterOf m.src) (s.cycle + backOff (m.bounces + 1)) })

/-- R380, R382: the header of a flit that is injected: DEST is translated by the die's copy of the table (R88); BORN and AGE start,
but for a returned flit, whose AGE goes on where it stood when it left the fabric. -/
def State.injectedFlit (s : State) (m : Msg) (dest : Nat) : Msg :=
  if m.nack then { m with dest := dest, injected := m.injected + (s.cycle - m.out.getD s.cycle), out := none }
  else { m with dest := dest, injected := s.cycle, out := none, born := BitVec.ofNat 32 s.timeNs }

/-- R378, R379: one flit is injected. A flit that leaves a fenced cofferdam is discarded (R445); one whose destination is not
mapped is parked (R88). -/
def State.inject (s : State) (p id : Nat) (m : Msg) (free : List Nat) : State :=
  let done := fun (s : State) => s.modRouter p (fun r => { r with starving := none })
  if !m.nack && s.fencedApart (clusterOf m.src) (clusterOf m.ldest) then done (s.dropMsg id)
  else match s.physFrom (dieOf p) m.goal with
    | none => done (s.park id)
    | some dest =>
      let m1 := s.injectedFlit m dest
      let s1 := { s with msgs := KMap.set s.msgs id m1 }
      match s1.matchFor p m1 with
      | some (h, v) => done (s1.pairUp p h id v)
      | none => match s1.tryHold p id m1 with
        | some s2 => done s2
        | none => match s1.choosePort p m1 free with
          | some (d, q) => done (s1.leaveBy p d q id)
          | none => s

/-! ### The ends of a link, as its routers drive them (R386, R388) -/

/-- A link's number for LSEQ and a packet's place among those that follow a number. -/
def seqFrom (a b : Nat) : Nat := (b + 4096 - a) % 4096
/-- R388: the transmitter takes the receiver's cumulative acknowledgement. -/
def State.takeAcks (s : State) (l : Nat) : State := if (s.link l).acked = (s.link l).rxSeq then s else s.modLink l (fun k => { k with acked := k.rxSeq })
/-- The packet that has waited longest in a link's interface. -/
def State.firstIface (s : State) (l : Nat) : Option (Nat × Msg) :=
  (s.onIface l).foldl (fun (best : Option (Nat × Msg)) x => match best with
    | some b => (match x.2.loc, b.2.loc with
      | .iface _ _ _ _ i, .iface _ _ _ _ j => if i < j then some x else some b
      | _, _ => some b)
    | none => some x) none
/-- R387, R388: packets of a link's interface are sent, in order, while the replay buffer of 64 has room. -/
def State.transmit (s : State) (l : Nat) : Nat → State
  | 0 => s
  | fuel + 1 =>
    let k := s.link l
    match s.firstIface l with
    | none => s
    | some (id, _) =>
      if 64 ≤ seqFrom k.acked k.txSeq then s
      else State.transmit ((s.modMsg id (fun m => match m.loc with
        | .iface _ near far dir _ => { m with loc := .link l near far dir k.txSeq s.cycle k.width false }
        | _ => m)).modLink l (fun k => { k with txSeq := (k.txSeq + 1) % 4096 })) l fuel
/-- R388: an accepted packet, reassembled, enters the torus at its edge router: the packets of a link in LSEQ order, one at a
port in a cycle. -/
def State.enterFrom (s : State) (p l : Nat) : State :=
  match (s.onRecv l).find? (fun x => (s.onRecv l).all (fun y => match x.2.loc, y.2.loc with
    | .recv _ _ _ a, .recv _ _ _ b => decide (a = b ∨ seqFrom a b < 2048)
    | _, _ => false)) with
  | some (id, m) => match m.loc with
    | .recv _ far dir _ => if far = p then s.modMsg id (fun m => { m with loc := .port far dir s.cycle }) else s
    | _ => s
  | none => s
/-- The links into which a router's interface packets go, and those whose packets stand before it. -/
def State.linksOut (s : State) (p : Nat) : List Nat :=
  (s.msgs.filterMap (fun x => match x.2.loc with
    | .iface l near _ _ _ => if near = p then some l else none
    | _ => none)).dedup
def State.linksIn (s : State) (p : Nat) : List Nat :=
  (s.msgs.filterMap (fun x => match x.2.loc with
    | .recv l far _ _ => if far = p then some l else none
    | _ => none)).dedup
/-- What a router's links do in a cycle. -/
def State.driveLinks (s : State) (p : Nat) : State :=
  let s1 := (s.linksOut p).foldl (fun s l => (s.takeAcks l).transmit l 5) s
  (s1.linksIn p).foldl (fun s l => s.enterFrom p l) s1

/-- R375, R378: a router moves its flits, once in a cycle; its links are driven first. -/
def execRouterCycle (pos : Nat) (s : State) : Host.Outcome State Fault Refusal :=
  .next <|
    if s.cycle < (s.router pos).ran then s
    else
      let s0 := s.driveLinks pos
      let s1 := (s0.pairInputs pos (s0.inputs pos)).modRouter pos (fun r => { r with ran := s.cycle + 1 })
      let r := s1.route pos ((s1.inputs pos).foldl (fun l f => s1.rankInsert f l) []) 2 [0, 1, 2, 3]
      match r.1.injectable pos with
      | some x => if r.1.paused pos then r.1 else r.1.inject pos x.1 x.2 r.2
      | none => r.1

/-- R379: a router whose injection has waited 128 cycles makes its neighbours pause. -/
def execInjectionStarvation (pos : Nat) (s : State) : Host.Outcome State Fault Refusal :=
  .next <| match s.injectable pos with
    | some x => match x.2.loc with
      | .inject _ since => if since + 128 ≤ s.cycle ∧ (s.router pos).starving = none then s.modRouter pos (fun r => { r with starving := some s.cycle }) else s
      | _ => s
    | none => s

/-! ### Bounce and park (R365, R366, R445) -/

/-- The event by which a destination takes a flit of a kind that it may refuse (R365); a bulk message waits, once a block
has been posted for it. -/
def State.takeFlit (s : State) (id : Nat) (m : Msg) : Option (Host.Outcome State Fault Refusal) :=
  match m.body with
  | .image _ _ _ => some (execImageArrival id s)
  | .tagw _ _ _ _ => some (execTagRequestAtHome id s)
  | .chan _ _ _ _ => some (execChannelOpAtHome id s)
  | .msg _ _ => some (execChannelMessageArrival id s)
  | .bulk _ ch _ _ => if (KMap.find (s.core m.ldest).posted ch).isNone then some (execBulkMessagePlacement id s) else none
  | .proxy r => if homeOf r.pa = .host then none else some (execProxyContinuation id s)
  | .engc _ _ _ _ _ => some (execRemoteCommandArrival id s)
  | .mcast _ _ _ _ => some (execMcastNode id s)
  | .contrib _ _ _ _ _ _ => some (execContribArrival id s)
  | _ => none

/-- R365, R425: the destination cannot accept the flit: it stands there in its turn, and the event that would take it leaves
it, or it falls out and finds the park region full, or its context beyond the 64 entries of the table. -/
def State.refusesFlit (s : State) (id : Nat) (m : Msg) : Bool :=
  (s.fallsOut m && (s.parkFull (clusterOf m.ldest) || (s.switchedFlit m && !(s.cluster (clusterOf m.ldest)).saved.contains (m.domid, m.cin)))) ||
  (s.arrived id).isSome && (match s.takeFlit id m with
    | some (.next s1) => (KMap.find s1.msgs id).isSome
    | _ => false)

/-- The register that a MIGR takes. -/
def migrTake (iw : Word) : Option Reg :=
  match decode iw with
  | .instr (.migr _ a) => if a.take then some a.reg else none
  | _ => none
/-- A thread as it stood before the MIGR that sent its image: at its PC, not retired, and its operand not taken. -/
def Thread.unmigrate (t : Thread) : Thread :=
  let t1 := { t with pc := t.pc - 8, retired := t.retired - 1 }
  match migrTake t.iw with
  | some r => t1.setFull r true
  | none => t1
/-- R261: a thread whose image a fenced cofferdam has turned back has not left: it traps FENCED, at a MIGR with its PC. Its
resting state is what it reads back when it has a slot again (R83). (DEDUCED: log entry 59) -/
def State.imageBack (s : State) (tid : Nat) (m : Msg) : State :=
  let s1 := s.modThread tid (fun t => { (if t.whyCause = 2 then t.unmigrate else t) with
    place := .runq (clusterOf m.src) (some m.src) false, seq := s.nextId })
  let t := s1.thread tid
  (((s1.bumpId.takeTrap tid 0x0E (BitVec.ofNat 64 m.ldest) t.pc t.iw).rest tid).modThread tid (fun x => { x with resting := true }))

/-- A remote matrix command that has been turned back (R226). -/
def engcCmd (who : Asker) (b : MxBlock) (cl : Clauses) (core : Nat) : MxCmd :=
  { blk := b, clauses := cl, acc := 0, domid := who.domid, cin := who.cin, tag := who.tag, sup := who.sup, tid := who.tid
    core := core, remote := true, met := true }

/-- R366, R445: a flit turned back by a fenced cofferdam has come back to its sender, which sees FENCED. Multicast copies
are parked (R392), and so is what a fence on the way to another cluster has turned back and nobody waits on here. (DEDUCED: log entry 25) -/
def State.fencedBack (s : State) (id : Nat) (m : Msg) : State :=
  let s1 := s.dropMsg id
  match m.body with
  | .read who _ _ _ | .feqry who _ | .write who _ _ _ | .writes who _ _ | .tagw who _ _ _ | .chan who _ _ _ => s1.answer who (.fail 0x0E)
  | .wtch who line =>
    -- no watch has been registered, so the line is not armed (R347)
    (if s.asks who then s1.modThread who.tid (fun t => { t with mon := { t.mon with lines := t.mon.lines.filter (fun l => decide (l ≠ line)) } })
    else s1).answer who (.fail 0x0E)
  | .proxy r => s1.answer r.who (.fail 0x0E)
  | .msg who _ => match who with
    | some w => s1.answer w (.value 0x0E)
    | none => s1
  | .bulk who _ _ _ => s1.answer who (.value 0x0E)
  | .image tid _ (some who) => ((s1.launchUnjoin (s1.thread tid).launch tid).dropThread tid).answer who (.value 0x0E0000)
  | .image tid _ none => s1.imageBack tid m
  | .engc who _ b cl core => s1.mxReject core (engcCmd who b cl core) 0x0E false
  | .setup who _ gid _ done => (s1.dropTrestles m.domid m.cin gid done).answer who (.value 0x0E)
  | .mcast _ _ _ _ => s.park id
  | .contrib _ _ _ _ _ _ | .signal _ | .resp _ _ => if (s.cluster (clusterOf m.ldest)).fen then s1 else s.park id

/-- The asker whose instruction waits for the flit's answer (R366). -/
def Body.asker : Body → Option Asker
  | .tagw who _ _ _ | .chan who _ _ _ => some who
  | .proxy r => some r.who
  | .msg who _ => who
  | _ => none
/-- The destination of a flit as SENDOVF reports it: the channel address of a message, else the position (R315, R366). -/
def Msg.destWord (m : Msg) : Word :=
  match m.body.chanNo with
  | some c => chanWord m.ldest c
  | none => BitVec.ofNat 64 m.ldest
/-- What SENDOVF reports in TADDR: TASK for a graph's task message (R315), else the flit's destination. -/
def Pend.ovfAddr (p : Pend) (m : Msg) : Word :=
  match p.fin, m.body with
  | .graph _ _, .msg _ _ => p.addr
  | _, _ => m.destWord
/-- R366: a refused flit has come back. It is parked; where the park region is exhausted and its instruction still waits, the
instruction traps SENDOVF and the flit is gone; where no instruction waits, it stands until there is room. (DEDUCED: log entry 59) -/
def State.parkBack (s : State) (id : Nat) (m : Msg) : State :=
  if !s.parkFull (clusterOf m.src) then s.park id
  else match m.body.asker with
    | none => s
    | some who =>
      let t := s.thread who.tid
      match t.pend with
      | some p => if s.asks who && decide (p.tok = who.tok) then (s.dropMsg id).takeTrap who.tid 0x0F (p.ovfAddr m) t.pc t.iw else s
      | none => s

/-- R365, R366, R382: a flit that its destination refuses is returned to its sender, and is parked or answered there. -/
def execFlitNack (msg : Nat) (fenced : Bool) (s : State) : Host.Outcome State Fault Refusal :=
  .next <| match KMap.find s.msgs msg with
    | none => s
    | some m => match m.loc with
      | .ejected p =>
        if m.nack then (if m.fnc then s.fencedBack msg m else s.parkBack msg m)
        else
          let back := s.modMsg msg (fun m => s.returned m fenced (.inject p s.cycle))
          let cl := clusterOf m.ldest
          if fenced then
            if s.fencedApart cl (clusterOf m.src) then back else if (s.cluster cl).fen then s.dropMsg msg else s
          else if s.refusesFlit msg m then back else s
      | _ => s

/-- R365: a parked flit is re-sent when its delay is over; its age starts again. -/
def execParkedFlitResend (msg : Nat) (s : State) : Host.Outcome State Fault Refusal :=
  .next <| match KMap.find s.msgs msg with
    | none => s
    | some m => match m.loc with
      | .parked _ till =>
        if till ≤ s.cycle then s.modMsg msg (fun m => { m with loc := .inject ((s.physOf m.src).getD m.src) s.cycle }) else s
      | _ => s

/-! ### Links (R386 to R390) -/

/-- A packet's LSEQ; the cycle of its last transmission. -/
def linkSeq (m : Msg) : Nat :=
  match m.loc with
  | .link _ _ _ _ q _ _ _ => q
  | _ => 0
def linkSent (m : Msg) : Nat :=
  match m.loc with
  | .link _ _ _ _ _ t _ _ => t
  | _ => 0
/-- A packet's last transmission has been discarded. -/
def Msg.lose (m : Msg) : Msg :=
  match m.loc with
  | .link l a b d q t w _ => { m with loc := .link l a b d q t w true }
  | _ => m
/-- A packet is transmitted again, at the present width. -/
def Msg.resend (m : Msg) (now : Nat) (width : BitVec 2) : Msg :=
  match m.loc with
  | .link l a b d q _ _ _ => { m with loc := .link l a b d q now width false }
  | _ => m
/-- Every packet of a link, changed. (DEDUCED: log entry 87) -/
def State.modPackets (s : State) (l : Nat) (f : Msg → Msg) : State := (s.onLink l).foldl (fun s p => s.modMsg p.1 f) s

/-- R388: the next packet on a link reaches the receiver, with a correct CRC (`packetOk` of the beats that arrive) or not. The
receiver accepts it into one of its 8 receive entries; a packet that it discards takes the later ones with it. (DEDUCED: log entry 87) -/
def execLinkPacketReceive (link : Nat) (crcOk : Bool) (s : State) : Host.Outcome State Fault Refusal :=
  .next <|
    let k := s.link link
    match (s.onLink link).find? (fun p => decide (linkSeq p.2 = k.rxSeq)) with
    | none => s
    | some (id, m) => match m.loc with
      | .link _ _ far dir lseq sent _ lost =>
        if lost || decide (s.cycle ≤ sent) then s
        else if crcOk && decide ((s.onRecv link).length < 8) then
          (s.modMsg id (fun m => { m with loc := .recv link far dir lseq })).modLink link (fun k => { k with rxSeq := (k.rxSeq + 1) % 4096 })
        else (s.modPackets link Msg.lose).modLink link (fun k => { k with nak := k.nak || !crcOk })
      | _ => s

/-- R388: every packet that the receiver has not accepted is sent again. -/
def State.replay (s : State) (l : Nat) : State := s.modPackets l (fun m => m.resend s.cycle (s.link l).width)
/-- R388: the oldest packet has gone 512 cycles without an acknowledgement: all are sent again. -/
def execLinkReplayTimeout (link : Nat) (s : State) : Host.Outcome State Fault Refusal :=
  .next <|
    if (s.onLink link).any (fun p => decide (linkSeq p.2 = (s.link link).rxSeq) && decide (linkSent p.2 + 512 ≤ s.cycle)) then s.replay link
    else s
/-- R388: a negative acknowledgement makes the transmitter send again. -/
def execLinkNegativeAck (link : Nat) (s : State) : Host.Outcome State Fault Refusal :=
  .next <| if (s.link link).nak then (s.replay link).modLink link (fun k => { k with nak := false }) else s
/-- R389: the packet that is being sent on a link in this cycle: the latest. -/
def State.sending (s : State) (l : Nat) : Option Nat :=
  ((s.onLink l).find? (fun p => decide (linkSent p.2 = s.cycle) && decide ((linkSeq p.2 + 1) % 4096 = (s.link l).txSeq))).map Prod.fst
/-- R389: a link changes its width: ×16, ×8 or ×4. A reduction that a lane failure forces may come in the middle of a packet: the
receiver gets a part of it, which fails its CRC, and the transmitter sends it again at the new width; whether it does is a
free choice. Any other change comes between packets; an increase is the request of the service pair, after the retest. (DEDUCED: log entry 87) -/
def execLinkWidthChange (link : Nat) (width : BitVec 2) (s : State) : Host.Outcome State Fault Refusal :=
  .next <|
    if width = 3 ∨ (s.link link).failed ∨ (s.link link).width = width then s
    else
      let s1 := s.modLink link (fun k => { k with width := width })
      if width.toNat ≤ (s.link link).width.toNat then s1
      else match s.sending link with
        | some id =>
          if Config.freeNat s.free % 2 = 0 then s1.bumpFree
          else (s1.bumpFree.modMsg id Msg.lose).modLink link (fun k => { k with nak := true })
        | none => s1

/-- The edge positions of a package towards a direction. -/
def State.edge (s : State) (pkg d : Nat) : List Nat :=
  let x0 := 48 * (pkg % 8)
  let y0 := 48 * (pkg / 8)
  let top := if (s.pkg pkg).variant = 1 then 23 else 47
  (List.range 48).map (fun i => match d with
    | 0 => posOf (x0 + i) (y0 + top)
    | 1 => posOf (x0 + 47) (y0 + i)
    | 2 => posOf (x0 + i) y0
    | _ => posOf x0 (y0 + i))
/-- R390: the number of the other direction of a link. -/
def State.reverseLink (s : State) (l : Nat) : Option Nat :=
  let d := l % 32 / 8
  (s.edge (l / 32) d).findSome? (fun p => match s.neighbour p d with
    | some q => if crossing p q d ∧ s.linkOf p q d = l then some (s.linkOf q p (oppositeDir d)) else none
    | none => none)
/-- R390: one direction of a link fails: every packet that the receiver has not accepted returns to its sender as NACK; what is
on its way back already goes on (R382). (DEDUCED: log entry 87) -/
def State.failOne (s : State) (l : Nat) : State :=
  ((s.onIface l ++ s.onLink l).foldl (fun s p => match p.2.loc with
    | .iface _ near _ dir _ | .link _ near _ dir _ _ _ _ => s.modMsg p.1 (fun m => s.returned m false (.port near (oppositeDir dir) 0))
    | _ => s) s).modLink l (fun k => { k with failed := true })
/-- R390: a link that cannot hold ×4 fails, in both directions. (DEDUCED: log entry 87) -/
def execLinkFail (link : Nat) (s : State) : Host.Outcome State Fault Refusal :=
  .next <| match s.reverseLink link with
    | some r => (s.failOne link).failOne r
    | none => s.failOne link

end Sys2Proof.Machine
end

