-- ==== Sys2Proof/Machine/Kill.lean ====
section
/-! DEFINITION. Kill and containment (20): incarnations (R436 to R439), KILL and its marker wave (R440, R441), RCLF (R442,
R443), cofferdams (R444 to R446), the strikes that they cause (R447), and WIPE (R452). -/

namespace Sys2Proof.Machine

/-! ### Endpoints and incarnations (R436, R437, R439) -/

/-- R437: the clusters whose endpoints lie in a range, port clusters included. -/
def State.endpointsIn (s : State) (r : Word) : List Nat :=
  (s.diesPresent.flatMap (fun d => (List.range 36).map (fun c => d * 64 + c))).filter (rectMeets r)

/-- NEXT of a context (R439). -/
def State.next (s : State) (dom : BitVec 12) : BitVec 16 := KMap.getD s.nextCin dom.toNat 0
/-- FLOOR of a context (R439). -/
def State.floor (s : State) (dom : BitVec 12) : BitVec 16 := KMap.getD s.floorCin dom.toNat 0
/-- The incarnation issued after another. -/
def cinAfter (c : BitVec 16) : BitVec 16 := if c = 0xFFFF then 1 else c + 1
/-- R439: an incarnation is issued; none is refused with WRAP. -/
def State.issueCin (s : State) (dom : BitVec 12) : Option (BitVec 16 × State) :=
  let n := cinAfter (s.next dom)
  if n = s.floor dom then none
  else some (n, { s with nextCin := KMap.set s.nextCin dom.toNat n, reclaimed := s.reclaimed.filter (fun d => decide (d ≠ dom.toNat)) })
/-- An endpoint's entry is written. -/
def State.setLive (s : State) (cl : Nat) (dom : BitVec 12) (n : BitVec 16) : State :=
  s.modCluster cl (fun c => { c with live := if n = 0 then KMap.erase c.live dom.toNat else KMap.set c.live dom.toNat n })

/-- How many incarnations after FLOOR one was issued. -/
def issuedAfter (floor c : BitVec 16) : Nat := if floor.toNat ≤ c.toNat then c.toNat - floor.toNat else c.toNat + 65535 - floor.toNat
/-- R439: FLOOR once an RCLF of system scope has found the given live entries. -/
def State.newFloor (s : State) (dom : BitVec 12) (found : List (BitVec 16)) : BitVec 16 :=
  match found with
  | [] => s.next dom
  | c :: r => r.foldl (fun a b => if issuedAfter (s.floor dom) b < issuedAfter (s.floor dom) a then b else a) c

/-! ### What a wave ends at a cluster (R441) -/

/-- A kill, reset or reclaim ends work of these contexts and incarnations. -/
abbrev Old := BitVec 12 → BitVec 16 → Bool

/-- The cluster at which a thread's context is held. -/
def Thread.heldAt (t : Thread) : Option Nat :=
  match t.place with
  | .slot c _ | .built c _ | .saved c _ => some (clusterOf c)
  | .runq c _ _ | .parked c | .frozen c => some c
  | .flight _ | .ended => none

/-- A strike on the launch of a thread that a reset kills (R447). -/
def State.strike (s : State) (l : Option Nat) : State :=
  match l with
  | none => s
  | some id => match KMap.find s.launches id with
    | none => s
    | some x => { s with launches := KMap.set s.launches id { x with struck := true } }

/-- A thread is killed; by a reset, its launch is struck. -/
def State.killThread (s : State) (strikes : Bool) (tid : Nat) : State :=
  (if strikes then s.strike (s.thread tid).launch else s).endThread tid true

/-- A flit is discarded, with the thread whose image it carries. -/
def State.discardFlit (s : State) (strikes : Bool) (id : Nat) : State :=
  match KMap.find s.msgs id with
  | none => s
  | some m =>
    let s1 := s.dropMsg id
    match m.body with
    | .image tid _ _ => s1.killThread strikes tid
    | _ => s1

/-- The flit is kept at a cluster: held for pairing, parked or fallen out. -/
def Msg.keptAt (m : Msg) (cl : Nat) : Bool :=
  match m.loc with
  | .held p _ | .port p 4 _ => decide (clusterOf p = cl)
  | .parked c _ | .fallen c | .stalled c _ => decide (c = cl)
  | _ => false

/-- R214: the matrix engine of a core: old commands and operations are discarded; when the owner's context is ended the
ownership goes and every tile is +0. -/
def Matrix.purge (m : Matrix) (old : Old) : Matrix :=
  let dead := fun (c : MxCmd) => old c.domid c.cin
  let m1 := { m with
    remote := m.remote.filter (fun c => !dead c), rejects := m.rejects.filter (fun r => !dead r.1), ops := m.ops.filter (fun o => !old o.domid o.cin)
    shadow := match m.shadow with
      | .pending c => if dead c then .empty else .pending c
      | x => x }
  let m2 := match m1.active with
    | some c => if dead c then { m1 with active := none, result := none, done := 0, nx := false, nv := false, ofl := false, stall := none, pinned := [], copy := [] } else m1
    | none => m1
  match m2.owner with
  | some o =>
    if old o.domid o.cin then
      { m2.release with tiles := [], shadow := .empty }
    else m2
  | none => m2

/-- R281, R294: a copy queue without its old commands. -/
def CopyQueue.purge (x : CopyQueue) (old : Old) : CopyQueue :=
  let keep := x.cmds.filter (fun c => !old c.domid c.cin)
  { x with
    cmds := keep
    told := match x.cmds with
      | c :: _ => if old c.domid c.cin then [] else x.told
      | [] => x.told
    stall := match x.cmds with
      | c :: _ => if old c.domid c.cin then none else x.stall
      | [] => x.stall }
/-- The queue's head command is old. -/
def CopyQueue.headOld (x : CopyQueue) (old : Old) : Bool :=
  match x.cmds with
  | c :: _ => old c.domid c.cin
  | [] => false

/-- R116, R294, R369, R405: what a core holds of the old contexts. -/
def Core.purge (c : Core) (old : Old) : Core :=
  let c1 := (c.queues.filter (fun q => q.2.headOld old)).foldl (fun (c : Core) q => c.killItem q.1) c
  { c1 with
    queues := c.queues.map (fun q => (q.1, q.2.purge old))
    mx := c.mx.purge old
    posted := c.posted.filter (fun p => !old p.2.domid p.2.cin)
    parkedMsgs := c.parkedMsgs.filter (fun m => !old m.domid m.cin)
    mcast := c.mcast.filter (fun m => !old m.domid m.cin)
    barriers := c.barriers.map (fun b => (b.1, if old b.2.domid b.2.cin then { gen := b.2.gen + 1 } else b.2)) }

/-- R333, R356, R360, R341: waiters and requests at the homes of a cluster, and its trestles. -/
def Cluster.purge (c : Cluster) (old : Old) (gone : Nat → Bool) : Cluster :=
  { c with
    tagWait := c.tagWait.filter (fun w => !old w.who.domid w.who.cin)
    chanWait := c.chanWait.filter (fun w => !old w.who.domid w.who.cin)
    atoms := c.atoms.filter (fun r => !old r.who.domid r.who.cin)
    proxies := c.proxies.filter (fun r => !old r.2.who.domid r.2.who.cin)
    trestles := c.trestles.filter (fun e => !old e.domid e.cin)
    sems := c.sems.map (fun x => (x.1, { x.2 with waiters := x.2.waiters.filter (fun w => !gone w.1) })) }

/-- The packages that a launch names (R98). -/
def Launch.pmask (x : Launch) : Word := x.words.getD 9 0
/-- The launch names two or more packages (R106). -/
def Launch.multi (x : Launch) : Bool := x.pmask &&& (x.pmask - 1) != 0
/-- A multi-package launch that has not started is cancelled when `c` holds (R108). -/
def Launch.cancelIf (x : Launch) (c : Bool) : Launch := if c && x.multi && x.ts.isNone && decide (x.state ≠ .over) then { x with cancelled := true } else x
/-- The launch's rectangles meet a cluster. -/
def Launch.meets (x : Launch) (cl : Nat) : Bool := x.stages.any (fun r => rectMeets r cl)

/-- R280: a stalled head command that is about to be discarded no longer holds back those that wait for room in its queue. -/
def State.unstallOld (s : State) (cl : Nat) (old : Old) : State :=
  (s.cores.filter (fun p => decide (clusterOf p.1 = cl))).foldl (fun s p =>
    (p.2.queues.filter (fun q => q.2.headOld old)).foldl (fun s q => s.unstall p.1 q.1) s) s
/-- R356: the waiters of a cluster's semaphores that stand first now are served. -/
def State.serveSemas (s : State) (cl : Nat) : State :=
  (s.cluster cl).sems.foldl (fun s x => s.serveSema cl x.1 (x.2.waiters.length + 1)) s

/-- R441: everything of the old contexts is ended at a cluster. `strikes` on a reset. -/
def State.purge (s : State) (cl : Nat) (old : Old) (strikes : Bool) : State :=
  let gone := fun (tid : Nat) => old (s.thread tid).domid (s.thread tid).cin
  let s1 := (s.unstallOld cl old).dropWalks cl old
  let s2 : State := { s1 with cores := s1.cores.map (fun p => if clusterOf p.1 = cl then
      (p.1, { p.2.purge old with barriers := (p.2.purge old).barriers.map (fun b => (b.1, { b.2 with waiters := b.2.waiters.filter (fun w => !gone w) })) })
    else p) }
  let s3 := (s2.modCluster cl (fun c => c.purge old gone)).serveSemas cl
  let s4 : State := if cl % 64 = 33 then { s3 with calls := s3.calls.filter (fun c => !(decide (dieOf c.who.core = cl / 64) && old c.who.domid c.who.cin)) } else s3
  let s5 : State := { s4 with launches := s4.launches.map (fun p => (p.1, p.2.cancelIf (old p.2.domid p.2.cin && p.2.meets cl))) }
  let flits := (s5.msgs.filter (fun p => p.2.keptAt cl && old p.2.domid p.2.cin)).map Prod.fst
  let s6 := flits.foldl (fun s id => s.discardFlit strikes id) s5
  let ths := (s6.threads.filter (fun p => decide (p.2.heldAt = some cl) && decide (p.1 < scarabBase) && old p.2.domid p.2.cin)).map Prod.fst
  let s7 := ths.foldl (fun s tid => s.killThread strikes tid) s6
  (s7.cores.filter (fun p => decide (clusterOf p.1 = cl))).foldl (fun s p => (List.range 9).foldl (fun s q => s.headTest p.1 q) s) s7

/-! ### KILL (R440) -/

/-- What a privileged instruction of this chapter needs. -/
def sysNeed (srcs : List Src) (d : Reg) : Need := { ext := .sys, priv := true, srcs := srcs, dests := [d], outside := true }

/-- The checks of R440, and a range none of whose clusters is fenced, or a value for gd. -/
def State.onContext (_s : State) (d r : Word) (f : BitVec 12 → Res) : Res :=
  if d.extractLsb' 12 52 != 0 || d = 0 then .trap cDescbad d
  else if !rectOk r then .trap cDescbad r
  else f (d.setWidth 12)
  where
  /-- A code in bits [23:16] with a value below it. -/
  codeWord (code : Nat) (v : BitVec 16) : Word := BitVec.ofNat 64 (65536 * code + v.toNat)

/-- A marker wave starts: it carries the incarnation `n` to every endpoint of the range. -/
def State.startWave (s : State) (t : Thread) (d : Reg) (dom : BitVec 12) (n : BitVec 16) (r : Word) : Res :=
  match s.endpointsIn r with
  | [] => .ok (s.write s.cur d (n.setWidth 64))
  | l =>
    let s1 := s.awaitReg s.cur d 8 false false 0 0
    .ok { s1.bumpId with kills := s1.kills ++ [⟨s1.nextId, dom, n, l, t.asker s.cur s.nextId false⟩] }

/-- R440: `kill` and `kill.z`. -/
def State.killIssue (s : State) (t : Thread) (d : Reg) (ctx r : Word) (zero : Bool) : Res :=
  s.onContext ctx r fun dom =>
    if (s.endpointsIn r).any (fun cl => (s.cluster cl).fen) then .ok (s.write s.cur d (State.onContext.codeWord 0x0E 0))
    else if zero then s.startWave t d dom 0 r
    else match s.issueCin dom with
      | none => .ok (s.write s.cur d (State.onContext.codeWord 0x25 (s.next dom)))
      | some (n, s1) => s1.startWave t d dom n r

/-- R440. (DEDUCED: log entry 24) -/
def execKill (g : Guard) (d : Reg) (a b : Src) (s : State) : Host.Outcome State Fault Refusal :=
  run s g (sysNeed [a, b] d) fun s t => s.killIssue t d (t.reg a.reg) (t.reg b.reg) false
/-- R440: the context stops being live. -/
def execKillZ (g : Guard) (d : Reg) (a b : Src) (s : State) : Host.Outcome State Fault Refusal :=
  run s g (sysNeed [a, b] d) fun s t => s.killIssue t d (t.reg a.reg) (t.reg b.reg) true

/-- R440, R441: a wave passes a cluster; the last acknowledgement answers. (DEDUCED: log entry 24) -/
def execKillMarkerPass (wave cluster : Nat) (s : State) : Host.Outcome State Fault Refusal :=
  .next <| match s.kills.find? (fun w => decide (w.id = wave)) with
    | none => s
    | some w =>
      if !w.left.contains cluster then s
      else
        let left := w.left.filter (fun c => decide (c ≠ cluster))
        let s1 := (s.setLive cluster w.domid w.cin).purge cluster (fun d c => d == w.domid && c != w.cin) false
        if left.isEmpty then
          { s1 with kills := s1.kills.filter (fun x => decide (x.id ≠ wave)) }.answer w.who (.value (w.cin.setWidth 64))
        else { s1 with kills := s1.kills.map (fun x => if x.id = wave then { x with left := left } else x) }

/-! ### RCLF (R442, R443) -/

/-- R442. -/
def execRclf (g : Guard) (d : Reg) (a b : Src) (s : State) : Host.Outcome State Fault Refusal :=
  run s g (sysNeed [a, b] d) fun s t =>
    let r := t.reg b.reg
    s.onContext (t.reg a.reg) r fun dom =>
      let s1 := s.awaitReg s.cur d 8 false false 0 0
      .ok { s1.bumpId with fences := s1.fences ++ [⟨s1.nextId, dom, r, 0, [], false, t.asker s.cur s.nextId false⟩] }

/-- Clusters of a range that are not fenced. -/
def State.reclaimed_ (s : State) (r : Word) : List Nat := (s.endpointsIn r).filter (fun cl => !(s.cluster cl).fen)
/-- Work of a context under an incarnation other than the entry at its destination is still on its way to, or in, the range. (DEDUCED: log entry 24) -/
def State.busyFor (s : State) (dom : BitVec 12) (r : Word) : Bool :=
  s.msgs.any (fun p => p.2.domid == dom && !s.isLive (clusterOf p.2.ldest) p.2.domid p.2.cin &&
    (rectMeets r (clusterOf p.2.ldest) || rectMeets r (clusterOf p.2.src)))

/-- R442, R439: a reclaim is complete: FLOOR, and the answer. -/
def State.reclaimDone (s : State) (f : Fence) : State :=
  let s1 : State := { s with fences := s.fences.filter (fun x => decide (x.id ≠ f.id)) }
  let s2 : State := if rectSys f.range then
      { s1 with
        floorCin := KMap.set s1.floorCin f.domid.toNat (s1.newFloor f.domid f.found)
        reclaimed := if (s.endpointsIn f.range).all (fun cl => s.liveCin cl f.domid == 0) then insertN s1.reclaimed f.domid.toNat else s1.reclaimed }
    else s1
  s2.answer f.who (.value (if f.skipped then 0x0E else 0))

/-- R442: one wave over the range. (DEDUCED: log entry 24) -/
def execRclfWave (fence : Nat) (s : State) : Host.Outcome State Fault Refusal :=
  .next <| match s.fences.find? (fun f => decide (f.id = fence)) with
    | none => s
    | some f =>
      let cls := s.reclaimed_ f.range
      let seen := cls.any (fun cl => (s.cluster cl).seen.contains f.domid.toNat)
      let s0 := cls.foldl (fun s cl => s.modCluster cl (fun c => { c with seen := c.seen.filter (fun d => decide (d ≠ f.domid.toNat)) })) s
      let skipped := f.skipped || (s.endpointsIn f.range).any (fun cl => (s.cluster cl).fen)
      let put := fun (s : State) (x : Fence) => { s with fences := s.fences.map (fun y => if y.id = x.id then x else y) }
      if f.waves = 0 then
        let found := (cls.map (fun cl => s.liveCin cl f.domid)).filter (fun c => decide (c ≠ 0))
        put (cls.foldl (fun s cl => s.purge cl (fun d c => d == f.domid && c != s.liveCin cl f.domid) false) s0)
          { f with waves := 1, found := found, skipped := skipped }
      else if !seen && !s.busyFor f.domid f.range then s0.reclaimDone { f with skipped := skipped }
      else put s0 { f with waves := f.waves + 1, skipped := skipped }

/-! ### Cofferdams (R444 to R446) -/

/-- The rectangle of a cluster. -/
def ownRect (cl : Nat) : Word :=
  let x := posX (clusterPos cl)
  let y := posY (clusterPos cl)
  rectMk x y (x + 3) (y + 3)
/-- CDAM's rectangle (R444). -/
def State.cdamOf (s : State) (cl : Nat) : Word := (s.cluster cl).cdam.getD (ownRect cl)
/-- R445: the clusters inside a rectangle that form the cofferdam of that name. -/
def State.cofferdam (s : State) (v : Word) : List Nat :=
  if rectSys v || rectBad v then [] else (s.endpointsIn v).filter (fun cl => s.cdamOf cl == v)
/-- The rectangle covers whole clusters (R420). (DEDUCED: log entry 69) -/
def rectWhole (v : Word) : Bool :=
  decide (rectX0 v % 4 = 0) && decide (rectY0 v % 4 = 0) && decide ((rectX1 v + 1) % 4 = 0) && decide ((rectY1 v + 1) % 4 = 0)

/-- R465: STATUS of a call is written, and the call is no longer outstanding. -/
def State.callEnd (s : State) (c : Call) (result : Option Word) (status : Word) : State :=
  let put := fun (s : State) (off : Nat) (v : Word) =>
    let s1 := (s.shadowFor c.who.domid c.who.shadow c.pa).getD s
    let q := s1.viewOf c.who.domid c.who.shadow (c.pa + off)
    (s1.perform q 8 v.toNat true).tagChanged (homeCluster (pkgOf c.who.core) (homeOf c.pa)) q (homePos (pkgOf c.who.core) (homeOf c.pa))
  let s1 : State := { s with calls := s.calls.filter (fun x => decide (x.id ≠ c.id)) }
  let s2 := match result with
    | some v => put s1 48 v
    | none => s1
  let s3 := put s2 56 status
  if s3.asks c.who then s3.modThread c.who.tid (fun t => { t with calls := t.calls.filter (fun x => decide (x ≠ c.id)) }) else s3

/-- R445 step 2: requests from outside that a cluster has accepted and not answered are answered FENCED. (DEDUCED: log entry 25) -/
def State.answerFenced (s : State) (inside : List Nat) (cl : Nat) : State :=
  let out := fun (w : Asker) => !inside.contains (clusterOf w.core)
  let c := s.cluster cl
  let whos := (c.tagWait.map (·.who) ++ c.chanWait.map (·.who) ++ c.atoms.map (·.who)).filter out
  let s1 := whos.foldl (fun s w => s.answer w (.fail 0x0E)) s
  let bars := (s.cores.filter (fun p => decide (clusterOf p.1 = cl))).flatMap (fun p => p.2.barriers.flatMap (fun b => b.2.waiters))
  let s2 := (bars.filter (fun tid => !inside.contains (s.thread tid).cluster)).foldl (fun s tid =>
    match (s.thread tid).pend with
    | some p => s.takeTrap tid 0x0E p.addr (s.thread tid).pc (s.thread tid).iw
    | none => s) s1
  let rem := (s.cores.filter (fun p => decide (clusterOf p.1 = cl))).flatMap (fun p => (p.2.mx.remote.filter (fun m =>
    !inside.contains (clusterOf m.core))).map (fun m => (p.1, m)))
  let s3 := rem.foldl (fun s p => s.mxReject p.1 p.2 0x0E false) s2
  if cl % 64 = 33 then
    let s4 := (s3.calls.filter (fun x => decide (dieOf x.who.core = cl / 64))).foldl (fun s x => s.callEnd x none 0x0E) s3
    if cl / 64 = die0 (pkgOfDie (cl / 64)) then
      let k := pkgOfDie (cl / 64)
      let s4 : State := { s4 with launches := s4.launches.map (fun p => (p.1, p.2.cancelIf (bit p.2.pmask k || decide (p.2.pkg = k)))) }
      let p := s4.pkg k
      ((p.reqs ++ p.resv).filterMap (·.who) ++ p.qctl.map (·.who)).foldl (fun s w => s.answer w (.fail 0x0E))
        (s4.setPkg k { p with reqs := [], resv := [], qctl := [] })
    else s4
  else s3

/-- Memory, tags and poison of a range zeroed, with tags full. -/
def State.zeroRange (s : State) (a n : Nat) : State :=
  let out := fun (x : Nat) => decide (x < a ∨ a + n ≤ x)
  { s with mem := s.mem.filter (fun c => out c.1), empties := s.empties.filter out, poison := s.poison.filter out }

/-- Where the TCM window of a core begins. -/
def tcmOf (core : Nat) : Nat := tcmBase + toLevel core * 262144

/-- R445 step 4: a core as its reset leaves it; what the service pairs have set up stays. (DEDUCED: log entry 35) -/
def State.resetCore (s : State) (core : Nat) : State :=
  let c := s.core core
  let r := Core.reset (isPylon core)
  ({ s with threads := KMap.erase s.threads (scarabBase + core) }.setCore core
    { r with extDir := c.extDir, tcmOwner := c.tcmOwner, marginal := c.marginal, bin := c.bin, temp := c.temp, disabled := c.disabled
             barriers := c.barriers }).zeroRange
    (tcmOf core) 262144
/-- R445 step 4: a cluster's own state as its reset leaves it. -/
def State.resetCluster (s : State) (cl : Nat) : State :=
  let c := s.cluster cl
  ((clusterCores cl).foldl State.resetCore s).setCluster cl
      { live := c.live, orphan := c.orphan, cdam := c.cdam, fen := c.fen, spOwner := c.spOwner, shadowReserve := c.shadowReserve
        nextWid := c.nextWid, candFloor := c.candFloor }
    |>.zeroRange (poolOf cl) 8388608

/-- R445 step 5: every context with an entry inside takes a new incarnation there; one that cannot is no longer live. -/
def State.renewInside (s : State) (cls : List Nat) : State :=
  let doms := (cls.flatMap (fun cl => (s.cluster cl).live.map Prod.fst)).dedup
  doms.foldl (fun s d =>
    let dom := BitVec.ofNat 12 d
    let r := match s.issueCin dom with
      | some r => r
      | none => (0, s)
    cls.foldl (fun s cl => if s.liveCin cl dom = 0 then s else s.setLive cl dom r.1) r.2) s

/-- R445: the steps on a cofferdam: fence, answers, reset, new incarnations. (DEDUCED: log entry 25) -/
def State.coffer (s : State) (cls : List Nat) : State :=
  let s1 := cls.foldl (fun s cl => s.modCluster cl (fun c => { c with fen := true })) s
  let s2 := cls.foldl (fun s cl => s.answerFenced cls cl) s1
  let s3 := cls.foldl (fun s cl => s.purge cl (fun _ _ => true) true) s2
  let framed := (s3.threads.filter (fun p => decide (p.1 < scarabBase) && cls.any (fun cl => decide (poolOf cl ≤ p.2.tframe.toNat ∧
    p.2.tframe.toNat < poolOf cl + 8388608)) && decide (p.2.place ≠ .ended))).map Prod.fst
  let s4 := framed.foldl (fun s tid => s.killThread true tid) s3
  (cls.foldl State.resetCluster s4).renewInside cls

/-- A code for gd; nothing is written when the issuing thread has been killed with its cofferdam. -/
def State.writeIf (s : State) (d : Reg) (v : Word) : Res :=
  if (KMap.find s.threads s.cur).isSome then .ok (s.write s.cur d v) else .gone s

/-- R445. (DEDUCED: log entry 25) -/
def execCoff (g : Guard) (d : Reg) (a : Src) (s : State) : Host.Outcome State Fault Refusal :=
  run s g (sysNeed [a] d) fun s t =>
    let cls := s.cofferdam (t.reg a.reg)
    if !rectOk (t.reg a.reg) then .trap cDescbad (t.reg a.reg)
    else if cls.isEmpty then .ok (s.write s.cur d 0x01)
    else if cls.any (fun cl => (s.cluster cl).fen || (s.cluster cl).armed.isSome) then .ok (s.write s.cur d 0x24)
    else (s.coffer cls).writeIf d 0
/-- R444. -/
def execCoffDef (g : Guard) (d : Reg) (a : Src) (s : State) : Host.Outcome State Fault Refusal :=
  run s g (sysNeed [a] d) fun s t =>
    let v := t.reg a.reg
    if rectSys v || rectBad v || !rectWhole v then .trap cDescbad v
    else
      let cls := s.endpointsIn v
      if cls.any (fun cl => (s.cluster cl).fen) then .ok (s.write s.cur d 0x24)
      else .ok ((cls.foldl (fun s cl => s.modCluster cl (fun c => { c with cdam := some v })) s).write s.cur d 0)
/-- R446. -/
def execCoffLift (g : Guard) (d : Reg) (a : Src) (s : State) : Host.Outcome State Fault Refusal :=
  run s g (sysNeed [a] d) fun s t =>
    let cls := (s.cofferdam (t.reg a.reg)).filter (fun cl => (s.cluster cl).fen)
    if !rectOk (t.reg a.reg) then .trap cDescbad (t.reg a.reg)
    else if cls.isEmpty then .ok (s.write s.cur d 0x01)
    else .ok ((cls.foldl (fun s cl => s.modCluster cl (fun c => { c with fen := false })) s).write s.cur d 0)

/-- R447: an error in a unit that serves several cofferdams strikes the launches of the contexts that are live there. -/
def State.strikeLive (s : State) (cl : Nat) : State :=
  { s with launches := s.launches.map (fun p =>
    if s.liveCin cl p.2.domid != 0 && decide (p.2.state ≠ .over) then (p.1, { p.2 with struck := true }) else p) }

/-- R458: an EVENT entry for the host. -/
def State.event (s : State) (pkg kind : Nat) (ws : List Word) : State := s.bumpId.toHost pkg (ringWord 8 s.nextId kind :: ws)

/-- R445, R447: the hardware fences and resets the cofferdam that contains an uncorrectable error, and reports it to the
service pair of the die; the host learns of it. -/
def execUncorrectableError (cluster : Nat) (s : State) : Host.Outcome State Fault Refusal :=
  .next <|
    if !s.diePresent (cluster / 64) || decide (36 ≤ cluster % 64) then s
    else
      let cls := s.cofferdam (s.cdamOf cluster)
      let s1 := if 33 ≤ cluster % 64 then s.strikeLive cluster else s
      let s2 := if (s.cluster cluster).fen then s1 else s1.coffer cls
      (s2.svc (cluster / 64) ⟨2, BitVec.ofNat 64 cluster, s.cdamOf cluster, []⟩).event (pkgOfDie (cluster / 64)) 2 [BitVec.ofNat 64 cluster]

/-! ### WIPE (R452) -/

/-- WIPE line by line from `va`: the state, how many lines were wiped before it stopped, and why it stopped. (DEDUCED: log entry 26) -/
def State.wipe (s : State) (c : Ctx) (va : Nat) : Nat → Nat → State × Nat × Option Nat × Option Word
  | 0, k => (s, k, none, none)
  | n + 1, k =>
    let a := BitVec.ofNat 64 va
    let host := match (s.resolve c a .store true).2 with
      | .at pa _ => decide (hostBase ≤ pa)
      | .fail f => decide (f = cHosterr)
      | .absent => false
    if host then (s, k, some cProt, none)
    else match s.writeRange c va 128 0 true with
      | .ok s1 _ => State.wipe s1 c (va + 128) n (k + 1)
      | .bad s1 f _ => (s1, k, some (engineCause f), none)
      | .absent s1 v => (s1, k, none, some v)

/-- R452. (DEDUCED: log entry 26) -/
def execWipe (g : Guard) (d : Reg) (a b : Src) (s : State) : Host.Outcome State Fault Refusal :=
  run s g (sysNeed [a, b] d) fun s t =>
    let p := t.reg a.reg
    let n := t.reg b.reg
    if p.extractLsb' 0 7 != 0 then .trap cAlign p
    else if n.extractLsb' 0 7 != 0 || decide (1099511627776 < n.toNat) then .trap cDescbad n
    else match s.wipe t.ctx p.toNat (n.toNat / 128) 0 with
      | (s1, _, _, some v) => .gone (s1.pageFault s.cur v 1)
      | (s1, k, f, none) => .ok (s1.write s.cur d (BitVec.ofNat 64 (256 * k + f.getD 0)))

end Sys2Proof.Machine
end

