-- ==== Sys2Proof/Machine/Launch.lean ====
section
/-! DEFINITION. Launch (04: R95 to R112; 06: R156 to R160): packets and their checks, queues and acceptance, building and
starting threads, multi-package starts, completion, strikes and replays (R447 to R451), QCTL and REPL. -/

namespace Sys2Proof.Machine

/-! ### Launch units and queues -/

/-- The logical position of a package's launch unit: the port cluster of its logical die 0. -/
def unitPos (pkg : Nat) : Nat := posAt (die0 pkg) 33 0
/-- The time base as a launch unit reads it. -/
def State.unitTime (s : State) (pkg : Nat) : Word := s.timeAt (die0 pkg)
/-- A queue's record. -/
def State.lqueue (s : State) (pkg q : Nat) : LQueue := KMap.getD (s.pkg pkg).queues q {}
def State.modLQueue (s : State) (pkg q : Nat) (f : LQueue → LQueue) : State :=
  s.modPkg pkg (fun p => { p with queues := KMap.set p.queues q (f (KMap.getD p.queues q {})) })

/-- Fields of QCFG (R96). -/
def LQueue.en (q : LQueue) : Bool := bit q.qcfg 63
def LQueue.torn (q : LQueue) : Bool := bit q.qcfg 62
def LQueue.qpri (q : LQueue) : Nat := (q.qcfg.extractLsb' 60 2).toNat
def LQueue.sup (q : LQueue) : Bool := bit q.qcfg 59
def LQueue.dom (q : LQueue) : BitVec 12 := q.qcfg.extractLsb' 32 12
def LQueue.gen (q : LQueue) : BitVec 32 := q.qcfg.extractLsb' 0 32

/-- A launch's record. -/
def State.launch (s : State) (id : Nat) : Option Launch := KMap.find s.launches id
def State.modLaunch (s : State) (id : Nat) (f : Launch → Launch) : State :=
  match KMap.find s.launches id with
  | some x => { s with launches := KMap.set s.launches id (f x) }
  | none => s

/-- R356: a launch that becomes the head of a queue has its clause tested. -/
def State.testHead (s : State) (pkg q : Nat) : State :=
  match (s.lqueue pkg q).ready with
  | id :: _ => s.modLaunch id (fun x => if s.clauseHolds x.cluster (launchClauses (x.words.getD 11 0)) then { x with met := true } else x)
  | [] => s

/-! ### Packets (R98, R99) -/

/-- Fields of a packet by its words. -/
def pkComplete (ws : List Word) : Bool := bit (ws.getD 8 0) 52
def pkAnchor (ws : List Word) : Bool := bit (ws.getD 8 0) 51
def pkReplay (ws : List Word) : Bool := bit (ws.getD 8 0) 50
def pkQueue (ws : List Word) : Nat := ((ws.getD 10 0).extractLsb' 32 6).toNat
def pkGen (ws : List Word) : BitVec 32 := (ws.getD 10 0).extractLsb' 0 32
def pkTpc (ws : List Word) : Nat := ((ws.getD 14 0).extractLsb' 0 3).toNat

/-- A rectangle of a stage: valid under R94, SYS = 0. -/
def stageOk (r : Word) : Bool := !rectSys r && !rectBad r
/-- Packages that a mask names. -/
def packagesOf (mask : Word) : List Nat := (List.range 64).filter (fun p => bit mask p)
/-- RECORD passes its own check. -/
def pkRecordOk (ws : List Word) : Bool := (ws.getD 12 0).extractLsb' 0 6 == 0 && ws.getD 12 0 != 0

/-- R98: the checks of a packet at acceptance. -/
def State.packetOk (s : State) (ws : List Word) : Bool :=
  let w := fun i => ws.getD i 0
  (w 0).extractLsb' 0 3 == 0 && stageOk (w 1) && (w 2).extractLsb' 0 7 == 0 && (w 8).extractLsb' 53 11 == 0 && w 9 != 0 &&
    (packagesOf (w 9)).all (fun p => s.pkgPresent p && s.diePresent (die0 p)) && (w 10).extractLsb' 38 26 == 0 && (w 11).extractLsb' 26 38 == 0 &&
    (!pkComplete ws || pkRecordOk ws) && (!pkReplay ws || ((w 13).extractLsb' 0 7 == 0 && w 13 != 0)) &&
    (w 14).extractLsb' 3 61 == 0 && decide (pkTpc ws ≠ 0) && (!pkAnchor ws || decide (pkTpc ws ≤ 4)) && w 15 == 0

/-- The part that two rectangles share, if any. -/
def rectMeet (a b : Word) : Option Word :=
  let r := rectMk (Nat.max (rectX0 a) (rectX0 b)) (Nat.max (rectY0 a) (rectY0 b)) (Nat.min (rectX1 a) (rectX1 b)) (Nat.min (rectY1 a) (rectY1 b))
  if rectBad r then none else some r
/-- Two stages name one present compute core (R99). -/
def State.stagesMeet (s : State) (a b : Word) : Bool :=
  match rectMeet a b with
  | none => false
  | some r => (s.coresOf r).any (fun p => !isPylon p)
/-- Some two of the stages meet. -/
def State.anyMeet (s : State) : List Word → Bool
  | [] => false
  | a :: r => r.any (s.stagesMeet a) || State.anyMeet s r

/-- R99: the stages that a map adds to RECT0; none when the map fails its checks. -/
def State.stagesOf (s : State) (rect0 : Word) (map : List Word) : Option (List Word) :=
  let last := ((map.getD 0 0).extractLsb' 0 4).toNat
  let rects := (map.drop 1).take last
  if (map.getD 0 0).extractLsb' 4 60 != 0 || decide (last = 0) || !rects.all stageOk || !((map.drop 1).drop last).all (fun w => w == 0) ||
    s.anyMeet (rect0 :: rects) then none
  else some (rect0 :: rects)

/-! ### Completion records (R104) and refusals (R101) -/

/-- R104: the record of a launch that ends now. -/
def recordWords (replays late status : Nat) (start fin threads killed : Word) : List Word :=
  [BitVec.ofNat 64 (65536 * Nat.min replays 255 + 256 * Nat.min late 255 + status), start, fin, threads, killed, 0, 0, 0]
/-- Words as a little-endian number. -/
def packetNat (ws : List Word) : Nat := ws.foldr (fun w n => w.toNat + n * 2 ^ 64) 0
/-- R103: words 1 to 7, then word 0, each with its tag full; a write that fails is dropped. -/
def State.writeRecord (s : State) (c : Ctx) (at_ : Word) (ws : List Word) : Got Unit :=
  match s.writeRange c (at_.toNat + 8) 56 (packetNat ws / 2 ^ 64) with
  | .absent s1 va => .absent s1 va
  | .bad s1 _ _ => .ok s1 ()
  | .ok s1 _ =>
    match s1.writeRange c at_.toNat 8 (ws.getD 0 0).toNat with
    | .absent s2 va => .absent s2 va
    | .ok s2 _ | .bad s2 _ _ => .ok s2 ()

/-- R96, R101: a code and address in QSTAT, when the queue belongs to the packet's context. -/
def State.queueStat (s : State) (pkg q : Nat) (dom : BitVec 12) (code : BitVec 8) (addr : Word) : State :=
  if (s.lqueue pkg q).dom = dom then s.modLQueue pkg q (fun x => { x with qstat := code ++ addr.extractLsb' 0 56 }) else s

/-- What becomes of a request when the launch unit takes it up. -/
inductive Accepted
  /-- accepted or refused with a code: the request is over -/
  | over (s : State) (q : Nat) (code : Nat)
  /-- its queue, of this number over all packages, has no room -/
  | full (goal : Nat)
  /-- an absent page stalls the unit -/
  | stall (s : State)

/-- An access of a launch unit stalls: a page fault goes to the service pair, once (R100). -/
def State.unitStall (s : State) (pkg : Nat) (c : Ctx) (access : Nat) (va : Word) : State := s.svcOnce (die0 pkg) (faultWords c access va)

/-- R101: a packet is refused by the unit of a package: QSTAT, record, signal clause. -/
def State.refusePacket (s : State) (pkg : Nat) (c : Ctx) (cluster : Nat) (addr : Word) (ws : List Word) (code : Nat) (signal : Bool) : Accepted :=
  let q := pkQueue ws
  let s1 := s.queueStat pkg q c.domid (BitVec.ofNat 8 code) addr
  if !signal then .over s1 q code
  else
    let fin := fun (s : State) => Accepted.over (s.signal cluster (launchClauses (ws.getD 11 0))) q code
    if pkComplete ws && pkRecordOk ws then
      match s1.writeRecord c (ws.getD 12 0) (recordWords 0 0 code 0 (s.unitTime pkg) 0 0) with
      | .absent _ va => .stall (s.unitStall pkg c 1 va)
      | .ok s2 _ | .bad s2 _ _ => fin s2
    else fin s1

/-! ### The save area of a replayable launch (R100) -/

/-- The 4 KiB at ARGS by pages: address and length. (DEDUCED: log entry 27) -/
def State.argParts (s : State) (args : Nat) : List (Nat × Nat) :=
  let stop := if bit (BitVec.ofNat 64 args) 55 then args + 4096 else match s.walk args with
    | .leaf _ size => (args / size + 1) * size
    | .fail _ => (args / 65536 + 1) * 65536
  if args + 4096 ≤ stop then [(args, 4096)] else [(args, stop - args), (stop, args + 4096 - stop)]

/-- What reading ARGS gives: its bytes, zero where a page fails, and which parts were read. -/
def State.readArgs (s : State) (c : Ctx) (args : Nat) : List (Nat × Nat) → Nat → Nat × Nat → Got (Nat × Nat)
  | [], _, r => .ok s r
  | p :: l, k, (v, bits) =>
    match s.readRange c p.1 p.2 with
    | .absent s1 va => .absent s1 va
    | .bad s1 _ _ => State.readArgs s1 c args l (k + 1) (v, bits)
    | .ok s1 x => State.readArgs s1 c args l (k + 1) (v + x * 256 ^ (p.1 - args), bits + 2 ^ k)

/-- R100: the first 4 KiB at ARGS, for the save area, with which parts were read. -/
def State.savedArgs (s : State) (c : Ctx) (ws : List Word) : Got (Nat × Nat) :=
  let args := (ws.getD 3 0).toNat
  if args = 0 then .ok s (0, 0) else s.readArgs c args (s.argParts args) 0 (0, 0)
/-- R100: the packet and what was read at ARGS are copied to the save area. -/
def State.saveArea (s : State) (c : Ctx) (ws : List Word) (r : Nat × Nat) : Got Unit :=
  s.writeRange c (ws.getD 13 0).toNat 4225 (packetNat (ws.take 16) + r.1 * 256 ^ 128 + r.2 * 256 ^ 4224)

/-! ### Acceptance (R100, R101, R105, R106, R157) -/

/-- GEN is behind QGEN (R106). -/
def genBehind (gen qgen : BitVec 32) : Bool := decide (1 ≤ (qgen - gen).toNat) && decide ((qgen - gen).toNat < 2147483648)

/-- Why the queue of a package refuses a packet, if it does: its code. -/
def State.queueRefuses (s : State) (pkg : Nat) (ws : List Word) (dom : BitVec 12) (multi host : Bool) : Option Nat :=
  let q := s.lqueue pkg (pkQueue ws)
  if !host && q.dom != dom then some 5
  else if !q.en || q.torn then some 2
  else if multi && genBehind (pkGen ws) q.gen then some 1
  else none

/-- The launch of an accepted packet. -/
def newLaunch (pkg : Nat) (r : LaunchReq) (c : Ctx) (ws stages : List Word) : Launch where
  pkg := pkg
  cluster := r.cluster
  addr := r.packet
  words := ws
  stages := stages
  domid := c.domid
  cin := c.cin
  sup := c.sup
  host := r.who.isNone
  seq := r.seq
  state := .accepted
  members := []
  alive := 0
  threads := 0
  killed := 0
  replays := 0
  late := 0
  start := 0
  ts := none
  arrived := []
  lastArrival := 0
  placed := packagesOf (ws.getD 9 0)
  builtOn := []
  released := []
  told := []
  cancelled := false
  struck := false
  met := false
  status := 0

/-- A single-package packet is placed in the queue of its package. -/
def State.placeSingle (s : State) (pkg target : Nat) (r : LaunchReq) (c : Ctx) (ws stages : List Word) : State :=
  let id := s.nextId
  (({ s.bumpId with launches := KMap.set s.launches id (newLaunch pkg r c ws stages) }.modLQueue target (pkQueue ws)
    (fun q => { q with ready := q.ready ++ [id] })).testHead target (pkQueue ws))
/-- R106, R157: a copy of a multi-package packet reaches a package: it is held aside, bounced by a full list, or refused, which
cancels the start. The issuing package's unit, on whose port the host's request stands, does not refuse that one FOREIGN. (DEDUCED: log entry 27) -/
def State.placeCopy (s : State) (id p : Nat) : State :=
  match s.launch id with
  | none => s
  | some x =>
    let q := pkQueue x.words
    let k := (((x.resend.find? (fun r => decide (r.1 = p))).map (fun r => r.2.1)).getD 0) + 1
    let s1 := s.modLaunch id (fun x => { x with resend := x.resend.filter (fun r => decide (r.1 ≠ p)) })
    match s.queueRefuses p x.words x.domid true (x.host && decide (p = x.pkg)) with
    | none =>
      if 8 ≤ (s.lqueue p q).held.length then s1.modLaunch id (fun x => { x with resend := x.resend ++ [(p, k, s.cycle + backOff k)] })
      else s1.modLQueue p q (fun y => { y with held := y.held ++ [id] })
    | some 5 => s1.modLaunch id (fun x => { x with cancelled := true })
    | some code => (s1.queueStat p q x.domid (BitVec.ofNat 8 code) x.addr).modLaunch id (fun x => { x with cancelled := true })
/-- A multi-package packet is multicast to its packages (R106). (DEDUCED: log entry 27) -/
def State.placeMulti (s : State) (pkg : Nat) (r : LaunchReq) (c : Ctx) (ws stages : List Word) : State :=
  let id := s.nextId
  (packagesOf (ws.getD 9 0)).foldl (fun s p => s.placeCopy id p)
    { s.bumpId with launches := KMap.set s.launches id (newLaunch pkg r c ws stages) }
/-- R157: a queue has no room for a request, or earlier ones wait for it. -/
def State.queueFull (s : State) (pkg target q : Nat) (r : LaunchReq) : Bool :=
  decide (16 ≤ (s.lqueue target q).ready.length) ||
    ((s.pkg pkg).resv.takeWhile (fun x => decide (x.id ≠ r.id))).any (fun x => decide (x.goal = some (64 * target + q)))

/-- R100, R101: a checked packet is placed, or refused by a queue. -/
def State.placePacket (s : State) (pkg : Nat) (r : LaunchReq) (c : Ctx) (ws stages : List Word) : Accepted :=
  let mask := packagesOf (ws.getD 9 0)
  let q := pkQueue ws
  let refuse := fun (p code : Nat) => if code = 5 then Accepted.over s q 5 else s.refusePacket p c r.cluster r.packet ws code true
  let save := fun (k : State → State) =>
    if pkReplay ws then
      match s.savedArgs c ws with
      | .bad s1 _ _ => s1.refusePacket pkg c r.cluster r.packet ws 1 true
      | .absent s1 va => .stall (s1.unitStall pkg c 0 va)
      | .ok s1 args => match s1.saveArea c ws args with
        | .ok s2 _ => Accepted.over (k s2) q 0
        | .bad _ _ _ => s.refusePacket pkg c r.cluster r.packet ws 1 true
        | .absent s2 va => .stall (s2.unitStall pkg c 1 va)
    else Accepted.over (k s) q 0
  match mask with
  | [target] =>
    match s.queueRefuses target ws c.domid false r.who.isNone with
    | some code => refuse target code
    | none => if s.queueFull pkg target q r then .full (64 * target + q) else save (fun s => s.placeSingle pkg target r c ws stages)
  | _ =>
    match if mask.contains pkg then s.queueRefuses pkg ws c.domid true r.who.isNone else none with
    | some code => refuse pkg code
    | none => save (fun s => s.placeMulti pkg r c ws stages)

/-- The rights of a request: of the issuing thread, or for a host LAUNCH of the queue that word 10 names (R458). -/
def State.requestCtx (s : State) (pkg : Nat) (r : LaunchReq) : Got Ctx :=
  match r.who with
  | some w => .ok s (unitCtx (unitPos pkg) w.domid w.cin w.tag w.sup)
  | none =>
    match s.readRange (unitCtx (unitPos pkg) 0 0 0 true) (r.packet.toNat + 80) 8 with
    | .ok s1 v =>
      let q := s1.lqueue pkg ((BitVec.ofNat 64 v).extractLsb' 32 6).toNat
      .ok s1 (unitCtx (unitPos pkg) q.dom (s1.liveCin (clusterOf (unitPos pkg)) q.dom) 0 q.sup)
    | .bad s1 f a => .bad s1 f a
    | .absent s1 a => .absent s1 a

/-- R100, R101: the launch unit takes up a request. A host's packet is read where its entry says, at any alignment, and one that
could not be read answers with queue 0. (DEDUCED: log entry 27) -/
def State.takeRequest (s : State) (pkg : Nat) (r : LaunchReq) : Accepted :=
  let host := unitCtx (unitPos pkg) 0 0 0 true
  match s.requestCtx pkg r with
  | .bad s1 _ _ => .over s1 0 1
  | .absent s1 va => .stall (s1.unitStall pkg host 0 va)
  | .ok s1 c =>
    match s1.readRange c r.packet.toNat 128 with
    | .absent s2 va => .stall (s2.unitStall pkg c 0 va)
    | .bad s2 _ _ =>
      match r.who with
      | some _ => .over s2 0 1
      | none => match s2.readRange host (r.packet.toNat + 80) 8 with
        | .ok s3 v =>
          let q := ((BitVec.ofNat 64 v).extractLsb' 32 6).toNat
          .over (s3.queueStat pkg q c.domid 1 r.packet) q 1
        | .bad s3 _ _ => .over s3 0 1
        | .absent s3 va => .stall (s3.unitStall pkg host 0 va)
    | .ok s2 v =>
      let ws := (List.range 16).map (wordAt v)
      let bad := s2.refusePacket pkg c r.cluster r.packet ws 1 true
      if !s2.packetOk ws then bad
      else if ws.getD 2 0 = 0 then s2.placePacket pkg r c ws [ws.getD 1 0]
      else match s2.readRange c (ws.getD 2 0).toNat 128 with
        | .absent s3 va => .stall (s3.unitStall pkg c 0 va)
        | .bad _ _ _ => bad
        | .ok s3 m => match s3.stagesOf (ws.getD 1 0) ((List.range 16).map (wordAt m)) with
          | none => bad
          | some stages => s3.placePacket pkg r c ws stages

/-- The answer to a LAUNCH: to the thread, or as the reply 0x81 to the host (R156, R458). -/
def State.launchAnswer (s : State) (pkg : Nat) (r : LaunchReq) (q code : Nat) : State :=
  match r.who with
  | some w => s.answer w (.value <| BitVec.ofNat 64 (256 * q + code))
  | none => s.toHost pkg [ringWord 0x81 r.seq.toNat code]

/-- Requests of one thread, and those of the host, are taken up in their order. -/
def LaunchReq.same (a b : LaunchReq) : Bool :=
  match a.who, b.who with
  | some x, some y => decide (x.tid = y.tid)
  | none, none => true
  | _, _ => false

/-- R157, R365: a request that the reservation list has no room for goes back to its issuer's cluster, where it is parked and
re-sent with back-off; one that finds that park region full, or a host's, stands until there is room. -/
def State.bounceRequest (s : State) (pkg : Nat) (r : LaunchReq) : State :=
  match r.who with
  | none => s
  | some w =>
    if r.till.isNone && s.parkFull (clusterOf w.core) then s
    else s.modPkg pkg (fun p => { p with reqs := p.reqs.map (fun x =>
      if x.id = r.id then { x with bounces := x.bounces + 1, till := some (s.cycle + backOff (x.bounces + 1)) } else x) })

/-- R100, R157: the launch unit takes up a request that has reached it. It is accepted or refused; a request to a full queue
joins the reservation list while that has room, else it is bounced. A stale request is dropped (R436). -/
def execLaunchPacketAccept (pkg req : Nat) (s : State) : Host.Outcome State Fault Refusal :=
  .next <|
    let p := s.pkg pkg
    match p.reqs.find? (fun r => decide (r.id = req)) with
    | none => s
    | some r =>
      let gone := s.modPkg pkg (fun p => { p with reqs := p.reqs.filter (fun x => decide (x.id ≠ req)) })
      let stale := match r.who with
        | some w => !s.isLive (clusterOf (unitPos pkg)) w.domid w.cin
        | none => false
      let fenced := (s.cluster (clusterOf (unitPos pkg))).fen
      if stale then gone
      else if fenced then (match r.who with
        | some w => gone.answer w (.fail 0x0E)
        | none => s)
      else if r.till.any (fun c => decide (s.cycle < c)) || (p.reqs.takeWhile (fun x => decide (x.id ≠ req))).any (fun x => x.same r) then s
      else match s.takeRequest pkg r with
        | .over s1 q code =>
          (s1.modPkg pkg (fun p => { p with reqs := p.reqs.filter (fun x => decide (x.id ≠ req)) })).launchAnswer pkg r q code
        | .full goal =>
          if p.resv.length < 64 then gone.modPkg pkg (fun p => { p with resv := p.resv ++ [{ r with till := none, goal := some goal }] })
          else s.bounceRequest pkg r
        | .stall s1 => s1

/-- R157: the first request of the reservation list that can be placed or refused; those behind a stalled one wait. -/
def State.placeReserved (s : State) (pkg : Nat) : List LaunchReq → State
  | [] => s
  | r :: l => match s.takeRequest pkg r with
    | .over s1 q code => (s1.modPkg pkg (fun p => { p with resv := p.resv.filter (fun x => decide (x.id ≠ r.id)) })).launchAnswer pkg r q code
    | .full _ => State.placeReserved s pkg l
    | .stall s1 => s1
/-- R157. -/
def execLaunchReservationPlace (pkg : Nat) (s : State) : Host.Outcome State Fault Refusal := .next (s.placeReserved pkg (s.pkg pkg).resv)

/-! ### Building threads (R109 to R111) -/

/-- The present compute cores of a rectangle in named packages, by ascending Y, then X; a marginal core counts as absent
(R480). -/
def State.stageCores (s : State) (mask r : Word) : List Nat :=
  (List.range (rectY1 r + 1 - rectY0 r)).flatMap (fun j => ((List.range (rectX1 r + 1 - rectX0 r)).map (fun i =>
    posOf (rectX0 r + i) (rectY0 r + j))).filter (fun p => s.corePresent p && !isPylon p && bit mask (pkgOf p) && !(s.core p).marginal))
/-- R109: stage, core and k of every thread, in the order of thread indices. -/
def State.threadPlan (s : State) (x : Launch) : List (Nat × Nat) :=
  ((List.range x.stages.length).zip x.stages).flatMap (fun st => (s.stageCores x.pmask st.2).flatMap (fun core =>
    List.replicate (pkTpc x.words) (st.1, core)))

/-- R111: a thread of a launch before it has its tag and frame. -/
def launched (s : State) (id : Nat) (x : Launch) (q : LQueue) (i n stage core : Nat) : Thread :=
  let w := fun k => x.words.getD k 0
  { Thread.blank with
    g := (((Thread.blank.g.set 0 (w 3)).set 1 (BitVec.ofNat 64 i)).set 2 (BitVec.ofNat 64 n)).set 3 (BitVec.ofNat 64 (stage * 4294967296 + pkgOf core))
    pc := w 0, fa := (w 8).extractLsb' 0 24, fb := (w 8).extractLsb' 24 24, fsh := #v[w 4, w 5, w 6, w 7]
    prio := (w 8).extractLsb' 48 2, anc := pkAnchor x.words, sup := q.sup, domid := q.dom, cin := s.liveCin (clusterOf core) q.dom
    tvec := q.qtvec, wlim := q.qwlim, rnd := BitVec.ofNat 32 (i + 1), launch := some id, place := .built core (pkAnchor x.words) }

/-- A thread is built in the park region of its cluster. -/
def State.buildThread (s : State) (id : Nat) (x : Launch) (q : LQueue) (n : Nat) (e : Nat × Nat × Nat) : State :=
  let tid := s.nextId
  ((s.bumpId.setThread tid (launched s id x q e.1 n e.2.1 e.2.2)).equip tid (clusterOf e.2.2)).modLaunch id (fun x =>
    { x with alive := x.alive + 1, threads := x.threads + 1, members := x.members ++ [tid] })

/-- The threads that a package builds: index, stage, core. -/
def planFor (plan : List (Nat × Nat)) (pkg : Nat) : List (Nat × Nat × Nat) :=
  ((List.range plan.length).zip plan).filter (fun e => decide (pkgOf e.2.2 = pkg))
/-- Every cluster has frames for its threads: a launch that would not find them is not eligible. (DEDUCED: log entry 27) -/
def State.framesFor (s : State) (l : List (Nat × Nat × Nat)) : Bool :=
  (l.map (fun e => clusterOf e.2.2)).dedup.all (fun cl =>
    decide ((s.framesUsed cl).dedup.length + (l.filter (fun e => decide (clusterOf e.2.2 = cl))).length ≤ (s.cluster cl).bnd0.toNat * 128))

/-- R109, R110: a package builds its threads of a launch. -/
def State.buildOn (s : State) (id pkg : Nat) : State :=
  match s.launch id with
  | none => s
  | some x =>
    let plan := s.threadPlan x
    ((planFor plan pkg).foldl (fun s e => s.buildThread id x (s.lqueue pkg (pkQueue x.words)) plan.length e) s).modLaunch id (fun x =>
      { x with builtOn := x.builtOn ++ [pkg] })

/-- Threads of a launch that a package has built and not released. -/
def State.builtIn (s : State) (id pkg : Nat) : List Nat :=
  (s.threads.filter (fun p => decide (p.2.launch = some id) && (match p.2.place with
    | .built c _ => decide (pkgOf c = pkg)
    | _ => false))).map Prod.fst

/-- R107 step 5, R110, R112: built threads are released as arrivals at their cores; each start acts as an acquire. One that a
full park region refuses stays built. -/
def State.releaseOn (s : State) (id pkg : Nat) : State :=
  (s.builtIn id pkg).foldl (fun s tid =>
    match (s.thread tid).place with
    | .built c a => ((s.acquire c sysScope).arrive tid (clusterOf c) (some c) a).getD s
    | _ => s) s

/-! ### Starting (R97, R106, R107) -/

/-- A replayable launch of the context runs already (R448). -/
def State.replayHeld (s : State) (id : Nat) (x : Launch) : Bool :=
  pkReplay x.words && s.launches.any (fun p => decide (p.1 ≠ id) && pkReplay p.2.words && p.2.domid == x.domid &&
    (p.2.state == .built || p.2.state == .running || p.2.state == .replaying))
/-- R97, R102: the head packet of a queue, if it is eligible. -/
def State.eligible (s : State) (pkg q : Nat) : Option (Nat × Launch) :=
  match (s.lqueue pkg q).ready with
  | [] => none
  | id :: _ => match s.launch id with
    | none => none
    | some x =>
      if x.met && !x.cancelled && !x.builtOn.contains pkg && !s.replayHeld id x && s.framesFor (planFor (s.threadPlan x) pkg) then some (id, x) else none
/-- R97: the queue that the unit serves next: the lowest class, round-robin within it, after the queue of that class that was
served last. -/
def State.nextQueue (s : State) (pkg : Nat) : Option Nat :=
  let ready := (List.range 64).filter (fun q => (s.eligible pkg q).isSome)
  (List.range 4).findSome? (fun k =>
    let last := (s.pkg pkg).rr.getD k 63
    ((List.range 64).map (fun i => (last + 1 + i) % 64)).find? (fun q => decide ((s.lqueue pkg q).qpri = k) && ready.contains q))

/-- A launch is no longer in a queue. -/
def State.unqueue (s : State) (id pkg q : Nat) : State :=
  (s.modLQueue pkg q (fun x => { x with ready := x.ready.filter (fun i => decide (i ≠ id)), held := x.held.filter (fun i => decide (i ≠ id)) })).testHead pkg q

/-- A package releases its threads of a launch: QGEN advances, but not at a replay (R106, R449). -/
def State.startOn (s : State) (id pkg : Nat) (x : Launch) (ts : Nat) : State :=
  let q := pkQueue x.words
  let s1 := s.modLaunch id (fun x => { x with
    state := .running, start := if x.start = 0 then ts else x.start, released := x.released ++ [pkg] })
  let s2 := if x.replays = 0 then
      s1.modLQueue pkg q (fun y => { y with qcfg := (y.qcfg &&& ~~~0xFFFFFFFF#64) ||| (y.gen + 1).setWidth 64 })
    else s1
  (s2.unqueue id pkg q).releaseOn id pkg

/-- R97: the eligible head packet of the queue whose turn it is starts. A single-package launch runs at once; a package of a
multi-package launch builds its threads and waits for START (R107); one for which no core qualifies waits for nothing (R109). -/
def execLaunchStart (pkg q : Nat) (s : State) : Host.Outcome State Fault Refusal :=
  .next <|
    if s.nextQueue pkg ≠ some q then s
    else match s.eligible pkg q with
      | none => s
      | some (id, x) =>
        let s1 := (s.buildOn id pkg).modPkg pkg (fun p => { p with rr := p.rr.set (s.lqueue pkg q).qpri q })
        if x.multi && (s.threadPlan x).isEmpty then s1.startOn id pkg x (s.unitTime pkg).toNat
        else if x.multi then s1.modLaunch id (fun x => { x with state := .built })
        else ((s1.modLaunch id (fun x => { x with state := .running, start := (s.unitTime pkg).toNat, released := [pkg] })).unqueue id pkg q).releaseOn id pkg

/-- A copy of a multi-package packet that is to be re-sent to a queue now (R106, R365). -/
def State.copyDue (s : State) (pkg q : Nat) : Option Nat :=
  (s.launches.find? (fun p => decide (pkQueue p.2.words = q) && !p.2.cancelled &&
    p.2.resend.any (fun r => decide (r.1 = pkg) && decide (r.2.2 ≤ s.cycle)))).map Prod.fst
/-- R106: a packet held aside whose GEN equals QGEN moves to the head of the queue; a copy that has been bounced comes again. -/
def execMultiPackageHoldRelease (pkg q : Nat) (s : State) : Host.Outcome State Fault Refusal :=
  .next <|
    let x := s.lqueue pkg q
    match s.copyDue pkg q with
    | some id => s.placeCopy id pkg
    | none => match x.held.find? (fun id => match s.launch id with
      | some l => pkGen l.words == x.gen && !l.cancelled
      | none => false) with
    | none => s
    | some id => (s.modLQueue pkg q (fun x => { x with held := x.held.filter (fun i => decide (i ≠ id)), ready := id :: x.ready })).testHead pkg q

/-- R107 steps 2 and 3: an arrival reaches the issuing unit; the last one gives the start time. -/
def execLaunchArrival (launch pkg : Nat) (s : State) : Host.Outcome State Fault Refusal :=
  .next <| match s.launch launch with
    | none => s
    | some x =>
      if x.state ≠ .built ∨ x.cancelled ∨ x.ts.isSome ∨ !x.builtOn.contains pkg ∨ x.arrived.contains pkg then s
      else
        let now := (s.unitTime x.pkg).toNat
        let all := x.placed.all (fun p => decide (p = pkg) || x.arrived.contains p)
        s.modLaunch launch (fun x => { x with arrived := x.arrived ++ [pkg], lastArrival := now, ts := if all then some (now + 1000) else none })

/-- R107 steps 4 and 6: START reaches a package; one that it reaches after TS releases at once and is late. -/
def execLaunchStartMessage (launch pkg : Nat) (s : State) : Host.Outcome State Fault Refusal :=
  .next <| match s.launch launch with
    | none => s
    | some x => match x.ts with
      | none => s
      | some ts =>
        if x.told.contains pkg || !x.placed.contains pkg then s
        else if ts < (s.unitTime pkg).toNat then
          (s.modLaunch launch (fun x => { x with told := x.told ++ [pkg], late := x.late + 1 })).startOn launch pkg x ts
        else s.modLaunch launch (fun x => { x with told := x.told ++ [pkg] })

/-- R107 step 5: at TS a package releases its threads. Threads that could not be placed are tried again. -/
def execStartTimeRelease (launch pkg : Nat) (s : State) : Host.Outcome State Fault Refusal :=
  .next <| match s.launch launch with
    | none => s
    | some x =>
      if x.released.contains pkg then s.releaseOn launch pkg
      else match x.ts with
        | none => s
        | some ts => if x.told.contains pkg && decide (ts ≤ (s.unitTime pkg).toNat) then s.startOn launch pkg x ts else s

/-- R108: a cancelled start: threads that have been built and copies that are held are discarded; the launch ends with
STARTFAIL. -/
def execStartBarrierCancel (launch : Nat) (s : State) : Host.Outcome State Fault Refusal :=
  .next <| match s.launch launch with
    | none => s
    | some x =>
      if !x.cancelled || x.ts.isSome || decide (x.state = .committing) then s
      else
        let s1 := (x.placed.flatMap (fun p => s.builtIn launch p)).foldl State.dropThread s
        let s2 := x.placed.foldl (fun s p => s.unqueue launch p (pkQueue x.words)) s1
        s2.modLaunch launch (fun x => { x with state := .committing, alive := 0, status := 4 })

/-! ### Retirement (R103, R451) -/

/-- The rights with which a launch's unit works. -/
def Launch.ctx (x : Launch) : Ctx := unitCtx (unitPos x.pkg) x.domid x.cin 0 x.sup

/-- Some store or engine write of a launch's threads has neither been performed nor dropped. -/
def State.launchBusy (s : State) (id : Nat) (x : Launch) : Bool :=
  let mine := fun (tid : Nat) => x.members.contains tid
  s.msgs.any (fun p => match p.2.body with
    | .write w _ _ _ | .writes w _ _ | .tagw w _ _ _ | .chan w _ _ _ | .bulk w _ _ _ | .engc w _ _ _ _ => mine w.tid
    | .proxy r => mine r.who.tid
    | _ => false) ||
  s.clusters.any (fun p => p.2.atoms.any (fun r => mine r.who.tid)) ||
  s.cores.any (fun p => p.2.queues.any (fun q => q.2.cmds.any (fun c => decide (c.launch = some id))) ||
    p.2.mx.commands.any (fun c => mine c.tid) || p.2.mx.ops.any (fun o => mine o.tid))

/-- R451: a vault makes a shadow the content of its granule, as one write. -/
def State.commitShadow (s : State) (g : ShadowGranule) : State :=
  ((s.copyGranule g.frame g.base).noteWrite g.base 65536).zeroRange g.frame 65536
/-- The shadows of a launch are discarded (R449). -/
def State.discardShadows (s : State) (id : Nat) : State :=
  let mine := s.shadows.filter (fun g => decide (g.launch = id))
  { (mine.foldl (fun s g => s.zeroRange g.frame 65536) s) with shadows := s.shadows.filter (fun g => decide (g.launch ≠ id)) }
/-- R451: all shadows of a launch are committed. -/
def State.commitShadows (s : State) (id : Nat) : State :=
  { ((s.shadows.filter (fun g => decide (g.launch = id))).foldl State.commitShadow s) with
    shadows := s.shadows.filter (fun g => decide (g.launch ≠ id)) }

/-- The status with which a launch ends (R104, R447, R451). -/
def Launch.finalStatus (x : Launch) : Nat := if x.status ≠ 0 then x.status.toNat else if x.killed = 0 then 0 else 3

/-- R103, R451: the launch ends: shadows, record, signal. (DEDUCED: log entry 27) -/
def State.retireLaunch (s : State) (id : Nat) (x : Launch) : State :=
  let s1 := if x.finalStatus = 0 then s.commitShadows id else s.discardShadows id
  let fin := fun (s : State) => { s with launches := KMap.erase s.launches id }.signal x.cluster (launchClauses (x.words.getD 11 0))
  if pkComplete x.words && pkRecordOk x.words then
    match s1.writeRecord x.ctx (x.words.getD 12 0) (recordWords x.replays x.late x.finalStatus (BitVec.ofNat 64 x.start) (s.unitTime x.pkg)
      (BitVec.ofNat 64 x.threads) (BitVec.ofNat 64 x.killed)) with
    | .absent _ va => s.unitStall x.pkg x.ctx 1 va
    | .ok s2 _ | .bad s2 _ _ => fin s2
  else fin s1

/-- R103: a launch whose threads have all ended, and whose writes have been performed or dropped, retires; so does one that
has been flushed or cancelled. -/
def execLaunchRetire (launch : Nat) (s : State) : Host.Outcome State Fault Refusal :=
  .next <| match s.launch launch with
    | none => s
    | some x =>
      let ended := decide (x.state = .committing) ||
        (decide (x.state = .running) && decide (x.alive = 0) && !x.struck && x.placed.all (fun p => x.released.contains p))
      if ended && !s.launchBusy launch x then s.retireLaunch launch x else s

/-! ### Queues torn down or changed (R108, R160, R447) -/

/-- R160, R447: the packets of a queue that have not started end FLUSHED, or are refused with another code. A multi-package
launch whose copy is refused is cancelled, in the issuing package's own queue too, and ends STARTFAIL. (DEDUCED: log entry 27) -/
def State.flushPacket (s : State) (pkg q code : Nat) (id : Nat) : State :=
  match s.launch id with
  | none => s
  | some x =>
    if x.ts.isSome then s
    else
      let s1 := s.queueStat pkg q x.domid (BitVec.ofNat 8 code) x.addr
      if x.multi then s1.modLaunch id (fun x => { x with cancelled := true })
      else (s1.unqueue id pkg q).modLaunch id (fun x => { x with state := .committing, status := BitVec.ofNat 8 code })
/-- Every packet of a queue that has not started is flushed. -/
def State.flushQueue (s : State) (pkg q : Nat) : State :=
  let x := s.lqueue pkg q
  (x.ready ++ x.held).foldl (fun s id => s.flushPacket pkg q 2 id) s

/-- R447: a launch's queues are torn down on every package that it names. (DEDUCED: log entry 27) -/
def State.tearDown (s : State) (x : Launch) : State :=
  (packagesOf x.pmask).foldl (fun s p =>
    let q := pkQueue x.words
    (s.modLQueue p q (fun y => { y with qcfg := y.qcfg ||| 0x4000000000000000, qstat := 3#8 ++ x.addr.extractLsb' 0 56 })).flushQueue p q) s

/-- What a core holds for the members of a launch is discarded (R449). -/
def Core.endFor (c0 : Core) (id : Nat) (mine : Nat → Bool) : Core :=
  let heads := c0.queues.filter (fun q => match q.2.cmds with
    | c :: _ => decide (c.launch = some id)
    | [] => false)
  let c := heads.foldl (fun (c : Core) q => c.killItem q.1) c0
  let onArray := c.mx.active.any (fun y => mine y.tid)
  { c with
    queues := c.queues.map (fun q => (q.1, { q.2 with
      stall := if heads.any (fun h => decide (h.1 = q.1)) then none else q.2.stall
      told := if heads.any (fun h => decide (h.1 = q.1)) then [] else q.2.told
      cmds := q.2.cmds.filter (fun y => decide (y.launch ≠ some id)) }))
    barriers := c.barriers.map (fun b => (b.1, { b.2 with waiters := b.2.waiters.filter (fun w => !mine w) }))
    mx := { c.mx with
      remote := c.mx.remote.filter (fun y => !mine y.tid), rejects := c.mx.rejects.filter (fun r => !mine r.1.tid), ops := c.mx.ops.filter (fun o => !mine o.tid)
      shadow := match c.mx.shadow with
        | .pending y => if mine y.tid then .empty else .pending y
        | y => y
      active := c.mx.active.filter (fun y => !mine y.tid)
      result := if onArray then none else c.mx.result
      stall := if onArray then none else c.mx.stall
      pinned := if onArray then [] else c.mx.pinned
      copy := if onArray then [] else c.mx.copy
      done := if onArray then 0 else c.mx.done } }

/-- R441, R449: the threads of a launch are ended, with their engine work. -/
def State.endMembers (s : State) (id : Nat) (x : Launch) : State :=
  let mine := fun (tid : Nat) => x.members.contains tid
  let s1 : State := { s with
    clusters := s.clusters.map (fun p => (p.1, { p.2 with
      walks := p.2.walks.filter (fun q => !mine q.tid)
      watches := p.2.watches.filter (fun w => !(p.2.walk.any (fun k => decide (k.wid = w.wid) && mine k.req.tid)))
      walk := p.2.walk.filter (fun w => !mine w.req.tid)
      tagWait := p.2.tagWait.filter (fun w => !mine w.who.tid), chanWait := p.2.chanWait.filter (fun w => !mine w.who.tid)
      atoms := p.2.atoms.filter (fun r => !mine r.who.tid)
      sems := p.2.sems.map (fun y => (y.1, { y.2 with waiters := y.2.waiters.filter (fun w => !mine w.1) })) }))
    cores := s.cores.map (fun p => (p.1, p.2.endFor id mine)) }
  let s1 := (s1.clusters.map Prod.fst).foldl State.serveSemas s1
  let ths := (s1.threads.filter (fun p => decide (p.2.launch = some id) && decide (p.2.place ≠ .ended))).map Prod.fst
  ths.foldl (fun s tid => s.endThread tid true) s1

/-- R447, R449: a strike tears down the queues of a launch that is not replayable, or starts a replay; at the eighth replay
the launch ends KILLED. (DEDUCED: log entries 27, 28) -/
def execLaunchStrike (launch : Nat) (s : State) : Host.Outcome State Fault Refusal :=
  .next <| match s.launch launch with
    | none => s
    | some x =>
      if !x.struck then s
      else
        let s1 := s.modLaunch launch (fun x => { x with struck := false })
        if !pkReplay x.words then (s1.modLaunch launch (fun x => { x with status := 3 })).tearDown x
        else if x.replays < 8 then s1.modLaunch launch (fun x => { x with state := .replaying })
        else ((s1.endMembers launch x).modLaunch launch (fun x => { x with status := 3 })).tearDown x

/-- R449 step 4: the saved parts of ARGS are restored; a part whose write fails is left. -/
def State.restoreArgs (s : State) (x : Launch) (args saved : Nat) : List (Nat × Nat) → Nat → Got Unit
  | [], _ => .ok s ()
  | p :: l, k =>
    if (saved / 256 ^ 4224).testBit k then
      match s.writeRange x.ctx p.1 p.2 (saved / 256 ^ (128 + (p.1 - args)) % 256 ^ p.2) with
      | .absent s1 va => .absent s1 va
      | .ok s1 _ | .bad s1 _ _ => State.restoreArgs s1 x args saved l (k + 1)
    else State.restoreArgs s x args saved l (k + 1)

/-- R449 steps 3 to 6: shadows are discarded, ARGS is restored, the threads are built again from the saved packet, and the
launch waits for its start barrier. (DEDUCED: log entry 28) -/
def State.replayBuild (s : State) (id : Nat) (x : Launch) : State :=
  let s0 := s.discardShadows id
  let area := match s0.readRange x.ctx (x.words.getD 13 0).toNat 4225 with
    | .ok s1 v => (s1, v)
    | .bad s1 _ _ | .absent s1 _ => (s1, packetNat x.words)
  let saved := (List.range 16).map (wordAt area.2)
  let ws := (List.range 16).map (fun i => if 9 ≤ i ∧ i ≤ 13 then x.words.getD i 0 else saved.getD i 0)
  let args := (x.words.getD 3 0).toNat
  match if args = 0 then .ok area.1 () else area.1.restoreArgs x args area.2 (s.argParts args) 0 with
  | .absent _ va => s.unitStall x.pkg x.ctx 1 va
  | .ok s1 _ | .bad s1 _ _ =>
    x.placed.foldl (fun s p => s.buildOn id p) (s1.modLaunch id (fun x => { x with
      words := ws, state := .built, alive := 0, threads := 0, killed := 0, members := [], replays := Nat.min (x.replays + 1) 255, builtOn := []
      arrived := [], ts := none, told := [], released := [] }))

/-- R449: a replay ends the threads, waits for their writes, and builds the launch again. (DEDUCED: log entry 28) -/
def execLaunchReplay (launch : Nat) (s : State) : Host.Outcome State Fault Refusal :=
  .next <| match s.launch launch with
    | none => s
    | some x =>
      if x.state ≠ .replaying then s
      else if s.threads.any (fun p => decide (p.2.launch = some launch) && decide (p.2.place ≠ .ended)) then s.endMembers launch x
      else if s.launchBusy launch x then s
      else s.replayBuild launch x

/-! ### LAUNCH and LSYNC (R156, R158) -/

/-- R156. -/
def execLaunch (g : Guard) (d : Reg) (a : Src) (s : State) : Host.Outcome State Fault Refusal :=
  run s g { ext := .sys, srcs := [a], dests := [d], outside := true } fun s t =>
    let p := t.reg a.reg
    if p.extractLsb' 0 7 != 0 then .trap cAlign p
    else match s.resolve t.ctx p .load with
      | (_, .fail c) => .trap c p
      | (s1, _) =>
        if !t.domReleased then .wait .domain false 0
        else
          let who := t.asker s.cur s1.nextId false
          let s2 := (s1.awaitReg s.cur d 8 false false 0 0).modThread s.cur (fun t => { t with asks := t.asks ++ [(who.tok, true)] })
          .ok (s2.bumpId.modPkg (pkgOf t.core) (fun k => { k with reqs := k.reqs ++ [⟨s2.nextId, p, some who, 0, t.cluster, 0, none, none⟩] }))

/-- R158. -/
def execLsync (g : Guard) (s : State) : Host.Outcome State Fault Refusal :=
  run s g { ext := .sys, outside := true } fun s t => if t.asks.any (fun x => x.2) then .wait .lsync true 0 else .ok s

/-! ### QCTL (R159, R160) -/

/-- A QCTL request is sent to the launch unit that ga names. -/
def State.qctlIssue (s : State) (t : Thread) (d : Reg) (form : Nat) (sel val : Word) : Res :=
  let pkg := (sel.extractLsb' 8 6).toNat
  if sel.extractLsb' 14 50 != 0 || !s.pkgPresent pkg then .trap cDescbad sel
  else
    let who := t.asker s.cur s.nextId false
    let s1 := (s.awaitReg s.cur d 8 false false 0 0).modThread s.cur (fun t => { t with asks := t.asks ++ [(who.tok, false)] })
    .ok (s1.modPkg pkg (fun k => { k with qctl := k.qctl ++ [⟨who, form, sel, val⟩] }))
/-- R159. -/
def execQctl (g : Guard) (d : Reg) (a : Src) (s : State) : Host.Outcome State Fault Refusal :=
  run s g { ext := .sys, srcs := [a], dests := [d], outside := true } fun s t => s.qctlIssue t d 0 (t.reg a.reg) 0
/-- R159. -/
def execQctlWr (g : Guard) (d : Reg) (a b : Src) (s : State) : Host.Outcome State Fault Refusal :=
  run s g (sysNeed [a, b] d) fun s t => s.qctlIssue t d 1 (t.reg a.reg) (t.reg b.reg)
/-- R159. -/
def execQctlRst (g : Guard) (d : Reg) (a : Src) (s : State) : Host.Outcome State Fault Refusal :=
  run s g (sysNeed [a] d) fun s t => s.qctlIssue t d 2 (t.reg a.reg) 0

/-- R96: a queue's register by number. -/
def LQueue.reg (q : LQueue) (k : Nat) : Word :=
  match k with
  | 0 => q.qcfg
  | 1 => q.qtvec
  | 2 => q.qwlim
  | _ => q.qstat

/-- QCFG as a write leaves it: TORN keeps its value and bits [58:44] are zero (R96, R159). -/
def qcfgWritten (old v : Word) : Word := (v &&& ~~~0x47FFF00000000000#64) ||| (old &&& 0x4000000000000000#64)

/-- R160: a write of QCFG with its side effects. -/
def State.writeQcfg (s : State) (pkg q : Nat) (v : Word) : State :=
  let old := s.lqueue pkg q
  let n := qcfgWritten old.qcfg v
  let s1 := if old.en && !bit n 63 || n.extractLsb' 32 12 != old.dom then s.flushQueue pkg q else s
  let s2 := s1.modLQueue pkg q (fun x => { x with qcfg := n })
  let gen := n.extractLsb' 0 32
  if gen = old.gen then s2
  else ((s2.lqueue pkg q).held.filter (fun id => match s2.launch id with
      | some x => genBehind (pkGen x.words) gen
      | none => false)).foldl (fun s id => s.flushPacket pkg q 1 id) s2

/-- R159, R160: a launch unit serves the first QCTL request, between two packets. -/
def execQctlWriteApply (pkg : Nat) (s : State) : Host.Outcome State Fault Refusal :=
  .next <| match (s.pkg pkg).qctl with
    | [] => s
    | r :: l =>
      let s0 := s.modPkg pkg (fun p => { p with qctl := l })
      let q := (r.sel.extractLsb' 0 6).toNat
      let k := (r.sel.extractLsb' 6 2).toNat
      let x := s.lqueue pkg q
      let own := decide (x.dom = r.who.domid) || r.who.sup
      if !s.isLive (clusterOf (unitPos pkg)) r.who.domid r.who.cin then s0
      else if (s.cluster (clusterOf (unitPos pkg))).fen then s0.answer r.who (.fail 0x0E)
      else match r.form with
        | 0 => s0.answer r.who (.value <| if own then x.reg k else 0)
        | 1 =>
          let s1 := match k with
            | 0 => s0.writeQcfg pkg q r.val
            | 1 => s0.modLQueue pkg q (fun x => { x with qtvec := r.val })
            | 2 => s0.modLQueue pkg q (fun x => { x with qwlim := r.val })
            | _ => s0
          s1.answer r.who (.value (x.reg k))
        | _ => (s0.modLQueue pkg q (fun x => { x with qcfg := x.qcfg &&& ~~~0x4000000000000000#64, qstat := 0 })).answer r.who (.value x.qcfg)

/-! ### REPL (R450) -/

/-- The replayable launch of the issuing package that has a save address, if it has started. -/
def State.replFind (s : State) (t : Thread) (save : Word) : Option (Nat × Launch) :=
  s.launches.find? (fun p => decide (p.2.pkg = pkgOf t.core) && pkReplay p.2.words && p.2.words.getD 13 0 == save &&
    decide (p.2.state ≠ .accepted) && (decide (p.2.state ≠ .committing) || decide (p.2.status = 0)))
/-- R450: the state that `repl.q` reads. -/
def Launch.replState (x : Launch) : Nat :=
  match x.state with
  | .running => 1
  | .replaying => 2
  | .built => if x.replays = 0 then 0 else 2
  | .committing => 3
  | .accepted | .over => 0

/-- R450. -/
def execRepl (g : Guard) (d : Reg) (a : Src) (s : State) : Host.Outcome State Fault Refusal :=
  run s g (sysNeed [a] d) fun s t =>
    let v := t.reg a.reg
    if v.extractLsb' 0 7 != 0 then .trap cAlign v
    else match s.replFind t v with
      | some (id, x) =>
        if x.state = .running then .ok ((s.modLaunch id (fun x => { x with state := .replaying })).write s.cur d 0)
        else .ok (s.write s.cur d 1)
      | none => .ok (s.write s.cur d 1)
/-- R450. -/
def execReplQ (g : Guard) (d : Reg) (a : Src) (s : State) : Host.Outcome State Fault Refusal :=
  run s g (sysNeed [a] d) fun s t =>
    let v := t.reg a.reg
    if v.extractLsb' 0 7 != 0 then .trap cAlign v
    else .ok (s.write s.cur d (match s.replFind t v with
      | some (_, x) => BitVec.ofNat 64 (if x.replState = 0 then 0 else 65536 * x.replays + x.replState)
      | none => 0))

/-! ### The thermal ranking table (R147, R161) -/

/-- R161. -/
def execThrm (g : Guard) (d : Reg) (a : Src) (s : State) : Host.Outcome State Fault Refusal :=
  run s g { ext := .sys, srcs := [a], dests := [d], outside := true } fun s t =>
    let i := (t.reg a.reg).toNat
    .ok (s.write s.cur d (if 35 < i then 0 else KMap.getD (s.die (dieOf t.core)).rank i 0))
/-- R161: bits [63:18] and [7:6] are stored as zero. -/
def execThrmSet (g : Guard) (a b : Src) (s : State) : Host.Outcome State Fault Refusal :=
  run s g { ext := .sys, priv := true, srcs := [a, b], outside := true } fun s t =>
    let i := (t.reg a.reg).toNat
    if 35 < i then .ok s
    else .ok (s.modDie (dieOf t.core) (fun x => { x with rank := KMap.set x.rank i (t.reg b.reg &&& 0x3FF3F) }))

end Sys2Proof.Machine
end

