-- ==== Sys2Proof/Machine/Tags.lean ====
section
/-! DEFINITION. LDF, STF, FESET, FEQRY, LDA, STL and FENCE (14: R331 to R336). -/

namespace Sys2Proof.Machine

/-! ### LDF and STF (R331, R332) -/

/-- What the answer of a store through a base register does (R412). -/
def storeFin (base : Reg) : Fin := if base = .g 14 then .stack else .nothing

/-- LDF or STF at a home where its thread stands: served at once, or a waiter of the home's list. -/
def State.tagLocal (s : State) (tid : Nat) (a : Word) (w : TagWaiter) (fin : Fin) (now : State → Res) : Res :=
  let v := w.loc s
  let ready := match w.op with
    | .ldf _ => s.tagFull v
    | .stf wait _ => !(wait && s.tagFull v)
    | .feset _ => true
  let cl := (s.thread tid).cluster
  if ready then now s
  else if (s.cluster cl).tagWait.length < 64 then
    .pend ((s.modCluster cl (fun c => { c with tagWait := c.tagWait ++ [w] })).pendOn tid .answer true fin none a)
  else .wait (.room cl) true a

/-- R332: LDF. -/
def execLdf (g : Guard) (z : Size) (e : Bool) (d : Reg) (m : MemOp) (s : State) : Host.Outcome State Fault Refusal :=
  run s g (memNeed (MemOp.srcs m) [] [d] true) fun s t =>
    let a := MemOp.ea t m
    let n := Size.bytes z
    s.access s.cur a n .load fun s1 pa leaf =>
      let h := homeOf pa
      let w : TagWaiter := ⟨t.asker s.cur s1.nextId (leafShadow leaf), .ldf e, pa, n⟩
      if h = .host then .trap cProt a
      else if homeLocal t.core h then
        s1.tagLocal s.cur a w (.reg d n false) fun s1 =>
          let v := s1.viewOf t.domid (leafShadow leaf) pa
          if s1.poisoned v n then .trap cPoison a
          else if e && (s1.shadowFor t.domid (leafShadow leaf) pa).isNone then .gone (s1.pageFault s.cur a 1)
          else
            let x := BitVec.ofNat 64 (s1.peek v n)
            let s2 := if e then
                let s2 := (s1.shadowFor t.domid (leafShadow leaf) pa).getD s1
                let v2 := s2.viewOf t.domid (leafShadow leaf) pa
                (s2.setTag v2 false).tagChanged t.cluster (wordOf v2) (homePos (pkgOf t.core) h)
              else s1
            .ok (s2.write s.cur d x)
      else if migrates t h leaf true then s1.goHome s.cur h 0
      else s1.requestOr t (homePos (pkgOf t.core) h) <|
        .pend (((s1.pendOn s.cur .answer true (.reg d n false) none a).pendLine s.cur pa).request t (homePos (pkgOf t.core) h) kTagw
          (.tagw w.who w.op pa n))

/-- R332: STF; a plain one of an anchored thread is a sent store (R331). -/
def execStf (g : Guard) (z : Size) (e : Bool) (d : Reg) (m : MemOp) (s : State) : Host.Outcome State Fault Refusal :=
  run s g (memNeed (MemOp.srcs m) [d] [] true) fun s t =>
    let a := MemOp.ea t m
    let n := Size.bytes z
    let x := lowBytes (t.reg d) n
    s.access s.cur a n .store fun s1 pa leaf =>
      let h := homeOf pa
      let w : TagWaiter := ⟨t.asker s.cur s1.nextId (leafShadow leaf), .stf e x, pa, n⟩
      if h = .host then .trap cProt a
      else if !homeLocal t.core h && migrates t h leaf false then s1.goHome s.cur h 0
      else if (s1.shadowFor t.domid (leafShadow leaf) pa).isNone then .gone (s1.pageFault s.cur a 1)
      else if homeLocal t.core h then
        s1.tagLocal s.cur a w (storeFin m.base.reg) fun s1 =>
          let s2 := s1.performFor t.domid (leafShadow leaf) pa n x.toNat true
          .ok ((s2.tagChanged t.cluster (w.loc s2) (homePos (pkgOf t.core) h)).stackStore s.cur m.base.reg)
      else if e then
        s1.requestOr t (homePos (pkgOf t.core) h) <| .pend (((s1.pendOn s.cur .answer true (storeFin m.base.reg) none a).pendLine s.cur pa).request t (homePos (pkgOf t.core) h) kTagw
          (.tagw w.who w.op pa n))
      else
        let s2 := (s1.modThread s.cur (fun t => { t with await := t.await ++ [⟨s1.nextId, .store, false, 0, pa⟩] })).bumpId
        .ok (((s2.dropCand t.cluster (lineOf pa)).request t (homePos (pkgOf t.core) h) kTagw (.tagw w.who w.op pa n)).stackStore
          s.cur m.base.reg)

/-! ### FESET and FEQRY (R334) -/

/-- The words of a FESET, checked one by one in ascending order: their physical addresses and shadowing, in runs of words
that follow each other at one home. -/
def State.fesetWords (s : State) (c : Ctx) (a : Word) (runs : List (Nat × Nat × Bool)) : Nat → State × Sum (List (Nat × Nat × Bool)) Res
  | 0 => (s, .inl runs.reverse)
  | k + 1 =>
    match s.resolve c a .store with
    | (s1, .fail f) => (s1, .inr (.trap f a))
    | (s1, .absent) => (s1, .inr (.gone (s1.pageFault s1.cur a 1)))
    | (s1, .at pa leaf) =>
      let sh := leafShadow leaf
      if homeOf pa = .host then (s1, .inr (.trap cProt a))
      else if (s1.shadowFor c.domid sh pa).isNone then (s1, .inr (.gone (s1.pageFault s1.cur a 1)))
      else
        let runs1 := match runs with
          | (p, n, h) :: r => if p + 8 * n = pa && h == sh && homeOf p == homeOf pa then (p, n + 1, h) :: r else (pa, 1, sh) :: runs
          | [] => [(pa, 1, sh)]
        State.fesetWords s1 c (a + 8) runs1 k

/-- R334: FESET sends each run of words to its home; the slot is not ready until every home has acknowledged. -/
def execFeset (g : Guard) (full : Bool) (d : Reg) (m : MemOp) (s : State) : Host.Outcome State Fault Refusal :=
  run s g (memNeed (MemOp.srcs m) [d] [] true) fun s t =>
    let a := MemOp.ea t m
    let k : Word := if d = .z then 1 else t.reg d
    if a.toNat % 8 ≠ 0 then .trap cAlign a
    else if 65536 < k.toNat then .trap cDescbad k
    else match s.fesetWords t.ctx a [] k.toNat with
      | (_, .inr r) => r
      | (s1, .inl runs) =>
        let here := runs.filter (fun r => homeLocal t.core (homeOf r.1))
        let away := runs.filter (fun r => !homeLocal t.core (homeOf r.1))
        let s2 := here.foldl (fun s2 r =>
          s2.setTags t.cluster (t.asker s.cur 0 r.2.2) full (homePos (pkgOf t.core) (homeOf r.1)) r.1 r.2.1) s1
        if away.isEmpty then .ok s2
        else
          let tok := s2.nextId
          let s3 := (s2.pendOn s.cur .answer false .nothing none a).modThread s.cur (fun t =>
            { t with pend := t.pend.map (fun p => { p with more := away.length - 1 }) })
          .pend (away.foldl (fun s4 r => s4.request t (homePos (pkgOf t.core) (homeOf r.1)) kTagw
            (.tagw (t.asker s.cur tok r.2.2) (.feset full) r.1 r.2.1)) s3)

/-- R334: FEQRY is performed at the home as LD is. -/
def execFeqry (g : Guard) (d : Reg) (m : MemOp) (s : State) : Host.Outcome State Fault Refusal :=
  run s g (memNeed (MemOp.srcs m) [] [d] false) fun s t =>
    let a := MemOp.ea t m
    s.access s.cur a 8 .load fun s1 pa leaf =>
      let h := homeOf pa
      let v := s1.viewOf t.domid (leafShadow leaf) pa
      if homeLocal t.core h then
        .ok (s1.write s.cur d (BitVec.ofNat 64 ((if s1.tagFull v then 1 else 0) + (if s1.poisoned v 8 then 2 else 0))))
      else if migrates t h leaf true then s1.goHome s.cur h 0
      else .ok ((s1.awaitReg s.cur d 8 false true a pa).request t (homePos (pkgOf t.core) h) kRead
        (.feqry (t.asker s.cur s1.nextId (leafShadow leaf)) pa))

/-! ### LDA, STL, FENCE (R335, R336) -/

/-- R335: LDA. The scope is checked first; the read bypasses candidates, and the acquire, which waits for earlier reads (R326),
follows it. -/
def execLda (g : Guard) (z : Size) (d : Reg) (base : Src) (disp : BitVec 24) (sc : Scope) (s : State) :
    Host.Outcome State Fault Refusal :=
  run s g (memNeed (base :: Scope.srcs sc) [] [d] true) fun s t =>
    let r := Scope.val t sc
    let a := baseDisp t base disp
    let n := Size.bytes z
    match t.wait with
    | some (.acquire v) => .ok ((s.write s.cur d (extend v n false)).acquire t.core r)
    | _ =>
    if !rectOk r then .trap cDescbad r
    else s.access s.cur a n .load fun s1 pa leaf =>
      let h := homeOf pa
      if homeLocal t.core h then
        let v := BitVec.ofNat 64 (s1.view t (leafShadow leaf) pa n)
        if s1.poisoned (s1.viewOf t.domid (leafShadow leaf) pa) n then .trap cPoison a
        else if !t.readsDone then .wait (.acquire v) false a
        else .ok ((s1.write s.cur d v).acquire t.core r)
      else if migrates t h leaf true then s1.goHome s.cur h 0
      else if t.storing pa n then .wait (.ownStore pa) false a
      else .pend (((s1.pendOn s.cur .answer false (.reg d n false) (some r) a).pendLine s.cur pa).request t (homePos (pkgOf t.core) h) kRead
        (.read (t.asker s.cur s1.nextId (leafShadow leaf)) pa n false))

/-- R335: STL: a release, then a store as ST. -/
def execStl (g : Guard) (z : Size) (d : Reg) (base : Src) (disp : BitVec 24) (sc : Scope) (s : State) :
    Host.Outcome State Fault Refusal :=
  run s g (memNeed (base :: Scope.srcs sc) [d] [] true) fun s t =>
    let r := Scope.val t sc
    let a := baseDisp t base disp
    let n := Size.bytes z
    if !rectOk r then .trap cDescbad r
    else s.access s.cur a n .store fun s1 pa leaf =>
      if !t.released r then .wait (.release r) false a
      else s1.storeNow s.cur a pa n leaf (lowBytes (t.reg d) n) base.reg

/-- R336: a release, an acquire, or the release then the acquire, of a scope. -/
def execFence (g : Guard) (k : FenceKind) (sc : Scope) (s : State) : Host.Outcome State Fault Refusal :=
  run s g (memNeed (Scope.srcs sc) [] [] true) fun s t =>
    let r := Scope.val t sc
    if !rectOk r then .trap cDescbad r
    else match k with
      | .rel => if t.released r then .ok s else .wait (.release r) false 0
      | .acq => if t.readsDone then .ok (s.acquire t.core r) else .wait .reads false 0
      | .ar => if t.released r then .ok (s.acquire t.core r) else .wait (.release r) false 0

end Sys2Proof.Machine
end

