-- ==== Sys2Proof/Machine/System.lean ====
section
/-! DEFINITION. System instructions: TRAP, RETT, SPRD, SPWR and TIME (19: R415 to R419), the boundary registers (10: R241),
PLBINV and XLINV (R264, R265), SYSC, SYSW and HALT (22: R465 to R469). -/

namespace Sys2Proof.Machine

/-! ### TRAP, RETT, TIME -/

/-- What an unprivileged system instruction needs. -/
def plainSys (srcs : List Src) (dests : List Reg) (outside : Bool) : Need := { ext := .sys, srcs := srcs, dests := dests, outside := outside }

/-- R417: the cause is SOFT with the code in bits [15:8], and TPC is the address after the TRAP. -/
def execTrap (g : Guard) (code : BitVec 8) (s : State) : Host.Outcome State Fault Refusal :=
  run s g (plainSys [] [] true) fun s t => .gone (s.takeTrap s.cur ((code.setWidth 64 <<< 8) ||| 0x1C) 0 (t.pc + 8) s.iword)

/-- R418. -/
def execRett (g : Guard) (n : Bool) (s : State) : Host.Outcome State Fault Refusal :=
  run s g (plainSys [] [] true) fun s t =>
    let target := t.returnPc n
    if target.extractLsb' 0 3 != 0 then .trap cAlign target else .jump (s.returnTrap s.cur) target

/-- R419. -/
def execTime (g : Guard) (d : Reg) (s : State) : Host.Outcome State Fault Refusal :=
  run s g (plainSys [] [d] false) fun s t => .ok (s.write s.cur d (s.timeAt (dieOf t.core)))

/-! ### Special registers (R415) -/

/-- R416: THMETA. -/
def Thread.thmeta (t : Thread) : Word :=
  (t.tag.setWidth 64 <<< 48) ||| (t.cin.setWidth 64 <<< 32) ||| (t.domid.setWidth 64 <<< 20) ||| (t.prio.setWidth 64 <<< 18)

/-- R415: the value of a special register, as SPRD reads it. -/
def State.sprVal (s : State) (t : Thread) : Spr → Word
  | .tcause => t.tcause
  | .taddr => t.taddr
  | .tpc => t.tpc
  | .tvec => t.tvec
  | .tframe => t.tframe
  | .wlim => t.wlim
  | .rndseed => t.rnd.setWidth 64
  | .mode => s.mode t
  | .domid => t.domid.setWidth 64
  | .cinv => (s.liveCin t.cluster t.domid).setWidth 64
  | .thmeta => t.thmeta
  | .cycle => s.cycleOf t
  | .retired => t.retired
  | .typebase => KMap.getD s.typebase t.domid.toNat 0
  | .pwin => s.pwin.setWidth 64
  | .fpint => (s.core t.core).fpint
  | .xlbase => s.xlbase
  | .bnd0 => (s.cluster t.cluster).bnd0.setWidth 64
  | .bnd1 => (s.cluster t.cluster).bnd1.setWidth 64
  | .bnd2 => (s.cluster t.cluster).bnd2.setWidth 64

/-- R415, R419. -/
def execSprd (g : Guard) (d : Reg) (r : Spr) (s : State) : Host.Outcome State Fault Refusal :=
  run s g (plainSys [] [d] false) fun s t => .ok (s.write s.cur d (s.sprVal t r))

/-- R415: registers that SPWR writes in supervisor mode only. (DEDUCED: log entry 40) -/
def sprPriv : Spr → Bool
  | .tframe | .pwin | .fpint | .xlbase | .bnd0 | .bnd1 | .bnd2 => true
  | .tcause | .taddr | .tpc | .tvec | .wlim | .rndseed | .mode | .domid | .cinv | .thmeta | .cycle | .retired | .typebase => false

/-- R434: FPINT takes effect at the next agreed point; on a core that is not paired, at once. -/
def State.setFpint (s : State) (t : Thread) (v : Word) : State :=
  s.modCore t.core (fun c => if c.pair.isSome then { c with fpintNext := some v } else { c with fpint := v })

/-- R415: the effect of SPWR. An SPWR of RETIRED leaves the value as the count after it has retired; CYCLE counts on from
the next cycle. The boundary registers, XLBASE and TYPEBASE have forms of their own. (DEDUCED: log entry 39) -/
def State.sprWrite (s : State) (t : Thread) (r : Spr) (v : Word) : Res :=
  let put := fun (f : Thread → Thread) => Res.ok (s.modThread s.cur f)
  match r with
  | .tcause => put (fun t => { t with tcause := v &&& 0xFFFF })
  | .taddr => put (fun t => { t with taddr := v })
  | .tpc => put (fun t => { t with tpc := v })
  | .tvec => put (fun t => { t with tvec := v })
  | .tframe => put (fun t => { t with tframe := v })
  | .wlim => put (fun t => { t with wlim := v })
  | .rndseed => put (fun t => { t with rnd := v.setWidth 32 })
  | .cycle => put (fun t => { t with cyc := v, cycAt := s.now t.core + 1 })
  | .retired => put (fun t => { t with retired := v - 1 })
  | .pwin => if v.extractLsb' 6 58 != 0 then .trap cDescbad v else .ok { s with pwin := v.setWidth 6 }
  | .fpint => if v.toNat < 1024 ∨ 65536 < v.toNat then .trap cDescbad v else .ok (s.setFpint t v)
  | .mode | .domid | .cinv | .thmeta | .typebase | .xlbase | .bnd0 | .bnd1 | .bnd2 => .trap 0x01 s.iword

/-- R415, R419. (DEDUCED: log entry 40) -/
def execSpwr (g : Guard) (r : Spr) (a : Src) (s : State) : Host.Outcome State Fault Refusal :=
  run s g { ext := .sys, priv := sprPriv r, srcs := [a], outside := true } fun s t => s.sprWrite t r (t.reg a.reg)

/-- R65: TYPEBASE of the thread's context, throughout the domain. -/
def execSpwrTypebase (g : Guard) (a : Src) (s : State) : Host.Outcome State Fault Refusal :=
  run s g (plainSys [a] [] true) fun s t =>
    let v := t.reg a.reg
    if v.extractLsb' 56 2 != 0 || v.extractLsb' 0 4 != 0 then .trap cDescbad v
    else .ok { s with typebase := if v = 0 then KMap.erase s.typebase t.domid.toNat else KMap.set s.typebase t.domid.toNat v }

/-- R250: every copy of XLBASE. -/
def execSpwrXlbase (g : Guard) (a : Src) (s : State) : Host.Outcome State Fault Refusal :=
  run s g { ext := .sys, priv := true, srcs := [a], outside := true } fun s t =>
    let v := t.reg a.reg
    if v.extractLsb' 46 18 != 0 || v.extractLsb' 1 12 != 0 then .trap cDescbad v else .ok { s with xlbase := v }

/-! ### The boundary registers (R241) -/

/-- BND0 to BND2 with one of them replaced. -/
def Cluster.bndsWith (c : Cluster) (n : BitVec 2) (v : BitVec 8) : Nat × Nat × Nat :=
  (if n = 0 then v.toNat else c.bnd0.toNat, if n = 1 then v.toNat else c.bnd1.toNat, if n = 2 then v.toNat else c.bnd2.toNat)

/-- The park region of a size holds what it holds now: trap frames, and images and flits. (DESIGN CHOICE: log entry 9) -/
def State.parkFits (s : State) (cl granules : Nat) : Bool :=
  (s.framesUsed cl).all (fun f => decide (f < granules * 128)) && decide (s.parkUsed cl ≤ Config.parkRoom granules)

/-- R241: the conditions on a write of a boundary register. -/
def State.bndOk (s : State) (cl : Nat) (n : BitVec 2) (v : Word) : Bool :=
  let b := (s.cluster cl).bndsWith n (v.setWidth 8)
  v.extractLsb' 8 56 == 0 && decide (2 ≤ b.1) && decide (b.1 ≤ b.2.1) && decide (b.2.1 + 8 ≤ b.2.2) && decide (b.2.2 ≤ 126) &&
    (decide ((s.cluster cl).bnd0.toNat ≤ b.1) || s.parkFits cl b.1)

/-- R241: an accepted write waits; it completes when it has taken effect. -/
def execSpwrBnd (g : Guard) (n : BitVec 2) (a : Src) (s : State) : Host.Outcome State Fault Refusal :=
  run s g { ext := .sys, priv := true, srcs := [a], outside := true } fun s t =>
    let v := t.reg a.reg
    let cl := t.cluster
    if n = 3 then .trap 0x01 s.iword
    else if !s.bndOk cl n v then .trap cDescbad v
    else if (s.cluster cl).bndWrite.isSome then .wait (.bnd cl) false 0
    else .pend ((s.pendOn s.cur (.bnd cl) false .nothing none v).modCluster cl (fun c => { c with bndWrite := some (n.toNat, v.setWidth 8, s.cur) }))

/-- An engine of the cluster has a command in flight. -/
def State.enginesBusy (s : State) (cl : Nat) : Bool :=
  (s.cluster cl).walk.isSome || s.cores.any (fun p => decide (clusterOf p.1 = cl) &&
    (p.2.mx.active.isSome || !p.2.mx.ops.isEmpty || p.2.queues.any (fun q => match q.2.cmds with
      | c :: _ => c.started
      | [] => false)))

/-- R241: the write takes effect: bytes that leave the scratchpad are zero, and lines that leave the cache region are dropped. (DEDUCED: log entry 38) -/
def State.bndApply (s : State) (cl : Nat) : State :=
  let c := s.cluster cl
  match c.bndWrite with
  | none => s
  | some (n, v, tid) =>
    if s.enginesBusy cl then s
    else
      let b := c.bndsWith (BitVec.ofNat 2 n) v
      let outOld := fun (a : Nat) => decide (a < poolOf cl + c.bnd0.toNat * 65536 ∨ poolOf cl + c.bnd1.toNat * 65536 ≤ a)
      let inNew := fun (a : Nat) => decide (poolOf cl + b.1 * 65536 ≤ a ∧ a < poolOf cl + b.2.1 * 65536)
      let s1 := { s with mem := s.mem.filter (fun x => outOld x.1 || inNew x.1) }
      let s2 := s1.modCluster cl (fun c => { c with
        bnd0 := BitVec.ofNat 8 b.1, bnd1 := BitVec.ofNat 8 b.2.1, bnd2 := BitVec.ofNat 8 b.2.2, bndWrite := none, cands := [], candFloor := s.nextId })
      match (s2.thread tid).pend, (s2.thread tid).wait with
      | some p, some (.bnd _) => s2.bumpId.complete tid p 0
      | _, _ => s2.bumpId
/-- R241. -/
def execBndWriteApply (cluster : Nat) (s : State) : Host.Outcome State Fault Refusal := .next (s.bndApply cluster)

/-! ### PLBINV and XLINV (R264, R265) -/

/-- Entries of a PLB or translation cache without those whose page contains an address, or without any. -/
def dropEntries (l : List PlbEntry) (va : Option Word) : List PlbEntry :=
  match va with
  | none => []
  | some a => l.filter (fun e => !decide (e.va ≤ a.toNat ∧ a.toNat < e.va + e.size))

/-- The operand Src(A) of PLBINV and XLINV: none for `.all`. -/
def invAddr (t : Thread) (va : Option Src) : Option Word := va.map (fun x => t.reg x.reg)
/-- A fenced cluster is skipped. -/
def invCode (skipped : Bool) : Word := if skipped then 0x0E else 0

/-- R264. (DEDUCED: log entry 36) -/
def execPlbinv (g : Guard) (d : Reg) (va : Option Src) (b : Src) (s : State) : Host.Outcome State Fault Refusal :=
  run s g (sysNeed (va.toList ++ [b]) d) fun s t =>
    let r := t.reg b.reg
    if !rectOk r then .trap cDescbad r
    else
      let hit := fun (core : Nat) => rectHas r core && !(s.cluster (clusterOf core)).fen
      let s1 : State := { s with cores := s.cores.map (fun p => if hit p.1 then (p.1, { p.2 with plb := dropEntries p.2.plb (invAddr t va) }) else p) }
      let skipped := (s.clustersIn r).any (fun cl => (s.cluster cl).fen && (clusterCores cl).any (rectHas r))
      .ok (s1.write s.cur d (invCode skipped))

/-- R264: XLINV removes a cluster's translations of a page, the PLB entries of its cores, and its candidates. (DEDUCED: log entry 37) -/
def State.xlinvAt (s : State) (va : Option Word) (cl : Nat) : State :=
  let s1 := s.modCluster cl (fun c => { c with xlCache := dropEntries c.xlCache va, cands := [], candFloor := s.nextId })
  { s1.bumpId with cores := s1.cores.map (fun p => if clusterOf p.1 = cl then (p.1, { p.2 with plb := dropEntries p.2.plb va }) else p) }

/-- R264: the clusters of a rectangle that translate: those with cores, and the port clusters, whose pools are caches too (R240). -/
def State.translators (s : State) (r : Word) : List Nat := s.clustersIn r ++ (s.diesPresent.map portOf).filter (rectMeets r)

/-- R264, R265. -/
def execXlinv (g : Guard) (d : Reg) (va : Option Src) (b : Src) (s : State) : Host.Outcome State Fault Refusal :=
  run s g (sysNeed (va.toList ++ [b]) d) fun s t =>
    let r := t.reg b.reg
    if !rectOk r then .trap cDescbad r
    else
      let cls := (s.translators r).filter (fun cl => !(s.cluster cl).fen)
      let skipped := (s.translators r).any (fun cl => (s.cluster cl).fen)
      let s1 := cls.foldl (fun s cl => s.xlinvAt (invAddr t va) cl) s
      if cls.isEmpty then .ok (s1.write s.cur d (invCode skipped))
      else
        let s2 := s1.awaitReg s.cur d 8 false false 0 0
        .ok { s2.bumpId with xlinvs := s2.xlinvs ++ [⟨s2.nextId, invAddr t va, cls, skipped, t.asker s.cur s1.nextId false⟩] }

/-- R265: a store of the cluster's paired slots that was translated before the XLINV is still gated. -/
def State.gatedEarly (s : State) (inv cluster : Nat) : Bool :=
  s.threads.any (fun p => p.2.inSlot && decide (p.2.cluster = cluster) && p.2.gated.any (fun g => !g.frame && decide (g.stamp ≤ inv)))
/-- R265: a cluster acknowledges once every request that left it under the old translation has reached its home; what such
requests have brought since is discarded with the rest. (DEDUCED: log entry 37) -/
def execXlinvUnitAck (inv cluster : Nat) (s : State) : Host.Outcome State Fault Refusal :=
  .next <| match s.xlinvs.find? (fun x => decide (x.id = inv)) with
    | none => s
    | some x =>
      let early := s.msgs.any (fun p => decide (p.1 < inv) && decide (clusterOf p.2.src = cluster) && p.2.body.target.isSome)
      if !x.left.contains cluster || early || s.gatedEarly inv cluster then s
      else
        let s := s.xlinvAt x.va cluster
        let left := x.left.filter (fun c => decide (c ≠ cluster))
        if left.isEmpty then { s with xlinvs := s.xlinvs.filter (fun y => decide (y.id ≠ inv)) }.answer x.who (.value (invCode x.skipped))
        else { s with xlinvs := s.xlinvs.map (fun y => if y.id = inv then { y with left := left } else y) }

/-! ### SYSC, SYSW, HALT (R465 to R469) -/

/-- The tag of one word emptied at its home, for a context; its waiters are served (R333). -/
def State.emptyWord (s : State) (t : Thread) (shadow : Bool) (pa : Nat) : State :=
  let s1 := (s.shadowFor t.domid shadow pa).getD s
  let q := s1.viewOf t.domid shadow pa
  let pos := homePos (pkgOf t.core) (homeOf pa)
  (s1.setTag q false).tagChanged (clusterOf pos) (wordOf q) pos

/-- R465: the service pair of the executing core's die accepts the call at once, or is fenced. (DEDUCED: log entry 41) -/
def execSysc (g : Guard) (d : Reg) (a b : Src) (s : State) : Host.Outcome State Fault Refusal :=
  run s g (plainSys [a, b] [d] true) fun s t =>
    let p := t.reg a.reg
    let tok := t.reg b.reg
    if p.extractLsb' 0 6 != 0 then .trap cAlign p
    else if tok.extractLsb' 32 32 != 0 then .trap cDescbad tok
    else s.access s.cur p 64 .store fun s1 pa leaf =>
      if 16 ≤ t.calls.length then .wait .sysc true p
      else if !t.domReleased then .wait .domain false 0
      else
        let sh := leafShadow leaf
        let s2 := (s1.emptyWord t sh (pa + 48)).emptyWord t sh (pa + 56)
        let n := BitVec.ofNat 16 t.callNo
        if (s.cluster (portOf (dieOf t.core))).fen then .ok (s2.write s.cur d (BitVec.ofNat 64 (0x0E0000 + n.toNat)))
        else
          let c : Call := ⟨s2.nextId, t.asker s.cur s2.nextId sh, p, pa, tok⟩
          .ok (({ s2.bumpId with calls := s2.calls ++ [c] }.modThread s.cur (fun t =>
            { t with calls := t.calls ++ [c.id], callNo := t.callNo + 1 })).write s.cur d (n.setWidth 64))

/-- R467: SYSW waits for STATUS as LDF does, and then performs an acquire of domain scope. -/
def execSysw (g : Guard) (d : Reg) (a : Src) (s : State) : Host.Outcome State Fault Refusal :=
  run s g (plainSys [a] [d] true) fun s t =>
    let p := t.reg a.reg
    let va := p + 56
    match t.wait with
    | some (.acquire v) => .ok ((s.acquire t.core sysScope).write s.cur d v)
    | _ =>
    if p.extractLsb' 0 6 != 0 then .trap cAlign p
    else s.access s.cur va 8 .load fun s1 pa leaf =>
      let h := homeOf pa
      let w : TagWaiter := ⟨t.asker s.cur s1.nextId (leafShadow leaf), .ldf false, pa, 8⟩
      if h = .host then .trap cProt va
      else if homeLocal t.core h then
        let v := s1.viewOf t.domid (leafShadow leaf) pa
        if !s1.tagFull v then
          if (s1.cluster t.cluster).tagWait.length < 64 then
            .pend ((s1.pendOn s.cur .answer true (.reg d 8 false) (some sysScope) va).modCluster t.cluster (fun c => { c with tagWait := c.tagWait ++ [w] }))
          else .wait (.room t.cluster) true va
        else if s1.poisoned v 8 then .trap cPoison va
        else if !t.readsDone then .wait (.acquire (s1.peekW v)) false va
        else .ok ((s1.acquire t.core sysScope).write s.cur d (s1.peekW v))
      else if migrates t h leaf true then s1.goHome s.cur h 0
      else s1.requestOr t (homePos (pkgOf t.core) h) <|
        .pend ((s1.pendOn s.cur .answer true (.reg d 8 false) (some sysScope) va).request t (homePos (pkgOf t.core) h) kTagw
          (.tagw w.who w.op pa 8))

/-- R469: HALT freezes the thread in its record cluster, with its PC past the HALT; the message of kind SVC carries the
code, and the host learns of it as EVENT 3. -/
def State.halt (s : State) (tid : Nat) (code : BitVec 8) : State :=
  let t := s.thread tid
  let s1 := (s.retire tid (t.pc + 8)).leave tid (.frozen t.recordCluster)
  ((s1.modThread tid (fun t => { t with wait := none, since := none })).svc (t.recordCluster / 64)
    ⟨code.toNat, BitVec.ofNat 64 tid, t.tframe, []⟩).event (pkgOfDie (t.recordCluster / 64)) 3 [t.thmeta]
/-- R469; a roaming thread leaves its slot once nothing is awaited (R81). -/
def execHalt (g : Guard) (code : BitVec 8) (s : State) : Host.Outcome State Fault Refusal :=
  run s g { ext := .sys, priv := true, outside := true } fun s t =>
    if !t.anc && !t.drained then .wait .drain false 0 else .gone (s.halt s.cur code)

end Sys2Proof.Machine
end

