-- ==== Sys2Proof/Machine/Schedule.lean ====
section
/-! DEFINITION. The barrel (06: R140 to R143), and thermal slot control and displacement (R147 to R149). -/

namespace Sys2Proof.Machine

/-! ### Waits that are over (R141) -/

/-- A register number of R15 is full in a thread, or bears an error mark, and awaits no response. -/
def Thread.regReady (t : Thread) (n : Nat) : Bool :=
  let full := if n < 16 then t.gFull.getLsbD n else if n < 48 then t.vFull.getLsbD (n - 16) else if n < 56 then t.mFull.getLsbD (n - 48) else true
  t.marks.any (fun m => decide (m.reg = n)) || (full && !t.await.any (fun a => match a.dest with
    | .reg r _ _ => decide (r = n)
    | .lane r _ => decide (16 + r = n)
    | .store | .none => false))

/-- The opcode of the instruction that the slot has not completed. -/
def Thread.opcode (t : Thread) : Nat := (t.iw.extractLsb' 56 8).toNat

/-- The wait of R81, R153 or R155 for what an instruction must leave behind: EXIT and `anch.r` wait for less than a migration. -/
def State.drainOver (s : State) (tid : Nat) : Bool :=
  let t := s.thread tid
  if t.opcode = 0x54 then !t.awaitsReg
  else if t.opcode = 0x56 ∧ t.anc then
    !t.await.any (fun a => match a.dest with
      | .lane _ _ => true
      | _ => false) && !(s.core t.core).mx.busyFor tid
  else t.drained

/-- R402: a flit has been injected: it no longer waits at its router. -/
def State.injected (s : State) (id : Nat) : Bool :=
  match (KMap.find s.msgs id).map Msg.loc with
  | some (.inject _ _) => false
  | _ => true

/-- R141: the condition for which a slot is not ready has ended. (DEDUCED: log entry 67) -/
def State.waitOver (s : State) (tid : Nat) : Why → Bool
  | .reg l => l.all (s.thread tid).regReady
  | .trig => (s.thread tid).mon.trig || decide ((s.thread tid).mon.lines.length < 4)
  | .queue q => decide ((s.queue (s.thread tid).core q).cmds.length < queueRoom q)
  | .tile n => if n < 4 then !(s.core (s.thread tid).core).mx.locked n else decide ((s.core (s.thread tid).core).mx.ops.length < 4)
  | .mxOwner =>
    let m := (s.core (s.thread tid).core).mx
    m.owner.isNone && m.active.isNone && m.remote.isEmpty
  | .mxShadow => (s.core (s.thread tid).core).mx.pending.isNone
  | .clause _ _ _ met _ => met
  | .mxIdle => !(s.core (s.thread tid).core).mx.works tid
  | .lsync => !(s.thread tid).asks.any (fun x => x.2)
  | .launches => !(s.thread tid).asked
  | .drain => s.drainOver tid
  | .release sc => (s.thread tid).released sc
  | .domain => (s.thread tid).domReleased
  | .stores => (s.thread tid).stored
  | .ownStore pa => !(s.thread tid).storing (wordOf pa) 8
  | .item q => (s.queue (s.thread tid).core q).stall.isNone
  | .cred gid =>
    match s.trestle (s.thread tid).core (s.thread tid).domid (s.thread tid).cin (BitVec.ofNat 16 gid) with
    | some e => decide (roundsFrom e.own e.done < 2)
    | none => false
  | .crcvMc gid => (s.core (s.thread tid).core).mcast.any (fun x =>
      decide (x.gid.toNat = gid) && x.domid == (s.thread tid).domid && x.cin == (s.thread tid).cin)
  | .crcvRed gid =>
    match s.trestle (s.thread tid).core (s.thread tid).domid (s.thread tid).cin (BitVec.ofNat 16 gid) with
    | some e => e.results.any (fun r => decide (r.1 = e.read))
    | none => false
  | .sysc => decide ((s.thread tid).calls.length < 16)
  | .yield till => decide (till ≤ s.now (s.thread tid).core)
  | .inject id => s.injected id
  | .acquire _ => (s.thread tid).readsDone
  | .work => !(s.core (s.thread tid).core).work.isEmpty
  | .strm n room => (s.thread tid).strmRoom n room
  | .bnd cl => (s.cluster cl).bndWrite.isNone
  | .reads => (s.thread tid).readsDone
  | .room cl => decide ((s.cluster cl).tagWait.length < 64)
  | .bank cl pa => s.bankRoom cl pa && !s.parkFull cl
  | .record cl => !s.parkFull cl
  | .away cl => !s.switchedFrom cl (s.thread tid).domid (s.thread tid).cin
  | .answer | .sem _ _ | .barrier _ _ _ _ | .mwait _ | .page | .anch | .graph | .exchange => false

/-! ### Stops -/

/-- R474: in life-cycle state SCRAPPED no thread of a package runs. -/
def State.mayRun (s : State) (core : Nat) : Bool := decide ((s.pkg (pkgOf core)).lcs ≠ 5)

/-- R140, R141: the thread of a slot that can issue in this cycle. (DEDUCED: log entry 66) -/
def State.readySlot (s : State) (core slot : Nat) : Option Nat :=
  match s.occupant core slot with
  | none => none
  | some tid =>
    let t := s.thread tid
    let held := decide (slot ≠ 7) && ((s.stopping (clusterOf core) && !t.wait.any Why.finishing) || s.stopped (clusterOf core))
    let loading := (s.core core).loading.any (fun p => decide (p.1 = slot))
    let ends := match t.wait with
      | some w => s.waitOver tid w
      | none => true
    if held || loading || t.resting || t.pend.isSome || !ends || !s.mayRun core || (s.cluster (clusterOf core)).fen then none else some tid

/-! ### The choice (R142) -/

/-- WCTR of a slot. -/
def Core.wctrOf (c : Core) (slot : Nat) : Nat := KMap.getD c.wctr slot 0
/-- The first of the slots after a pointer, ascending and wrapping. -/
def afterPtr (ptr : Nat) (slots : List Nat) : Option Nat := ((List.range 8).map (fun i => (ptr + 1 + i) % 8)).find? slots.contains

/-- R142 steps 1 to 3: the chosen slot, and whether it was promoted; `ready` lists slots with their priority classes. (DEDUCED: log entry 66) -/
def Core.choose (c : Core) (ready : List (Nat × Nat)) : Option (Nat × Bool) :=
  let promoted := (ready.filter (fun r => decide (64 ≤ c.wctrOf r.1))).map Prod.fst
  if promoted.isEmpty then
    match (List.range 4).find? (fun k => ready.any (fun r => decide (r.2 = k))) with
    | none => none
    | some k => (afterPtr (c.classPtr.getD k 0) ((ready.filter (fun r => decide (r.2 = k))).map Prod.fst)).map (fun n => (n, false))
  else (afterPtr c.promPtr promoted).map (fun n => (n, true))

/-- R142 step 4: pointers and wait counters at the end of the cycle. (DEDUCED: log entry 66) -/
def Core.chosen (c : Core) (ready : List (Nat × Nat)) (pick : Option (Nat × Bool)) (now : Nat) : Core :=
  let c1 := { c with
    selAt := some now
    before := some (c.selAt, c.wctr, c.classPtr, c.promPtr)
    wctr := (ready.filter (fun r => decide (pick.map Prod.fst ≠ some r.1))).map (fun r => (r.1, Nat.min (c.wctrOf r.1 + 1) 127)) }
  match pick with
  | none => c1
  | some (n, true) => { c1 with promPtr := n }
  | some (n, false) => { c1 with classPtr := match (ready.find? (fun r => decide (r.1 = n))) with
    | some r => c.classPtr.set r.2 n
    | none => c.classPtr }

/-- The ready slots of a core with their classes, rising. -/
def State.readySlots (s : State) (core : Nat) : List (Nat × Nat) :=
  (slotsOf core).filterMap (fun k => (s.readySlot core k).map (fun tid => (k, (s.thread tid).prio.toNat)))

/-- The cycles of a core that had passed before the present cycle of package 0's cores began. -/
def State.nowBefore (s : State) (core : Nat) : Nat :=
  if isPylon core then s.pylon.last else if (s.core core).bin = 2 then s.slow.last else s.cycle - 1
/-- The barrel of a core has not chosen in one of its cycles that have begun (R142, R143). -/
def State.maySelect (s : State) (core : Nat) : Bool := (s.core core).selAt.all (fun c => decide (c < s.now core))
/-- The cycle of the core for which the barrel chooses next. -/
def State.selectCycle (s : State) (core : Nat) : Nat :=
  match (s.core core).selAt with
  | some c => Nat.min (s.now core) (Nat.max (c + 1) (s.nowBefore core + 1))
  | none => s.now core
/-- R142: once in a core cycle the barrel chooses the slot that issues. -/
def State.select (s : State) (core : Nat) : State :=
  let ready := s.readySlots core
  let pick := (s.core core).choose ready
  let s1 := s.modCore core (fun c => c.chosen ready pick (s.selectCycle core))
  { s1 with issue := pick.bind (fun p => s.readySlot core p.1) }
/-- R142. -/
def execBarrelSelect (core : Nat) (s : State) : Host.Outcome State Fault Refusal :=
  .next (if s.issue.isSome || !s.corePresent core || !s.maySelect core then s else s.select core)

/-! ### Thermal control (R147 to R149) -/

/-- R147: an entry of the ranking table. -/
def rankEntry (v : Bool) (temp cl : Nat) : Word := BitVec.ofNat 64 ((if v then 65536 else 0) + 256 * Nat.min temp 255 + cl % 64)
/-- Clusters by temperature, coolest first, lower positions first among equals. -/
def coolest (temps : List Nat) : List Nat → List Nat
  | [] => []
  | c :: r =>
    let place := fun (l : List Nat) => l.takeWhile (fun x => decide (temps.getD x 0 < temps.getD c 0 ∨ (temps.getD x 0 = temps.getD c 0 ∧ x < c)))
    let l := coolest temps r
    place l ++ c :: l.drop (place l).length

/-- The core of a cluster that is the hottest: its sensor is outside the model, which makes a free choice. (DESIGN CHOICE: log entry 55) -/
def State.hottestOf (s : State) (cl : Nat) : Nat :=
  let l := clusterCores cl
  l.getD (Config.freeNat (s.free + cl) % l.length) 0
/-- R147: the port cluster rewrites the entries whose PIN is 0; `temps` gives the temperature of the hottest core of each cluster
position. The cores' own sensors are read at the same time (R148): the others are no hotter. (DESIGN CHOICE: log entry 55) -/
def State.rankRewrite (s : State) (die : Nat) (temps : List Nat) : State :=
  let present := (List.range 32).filter (fun c => s.clusterPresent (die * 64 + c))
  let order := (coolest temps present).map (fun c => (c, true)) ++ (((List.range 36).filter (fun c => !present.contains c)).map (fun c => (c, false)))
  let put := fun (m : KMap Word) (r : Nat) => match order[r]? with
    | some (c, v) => if bit (KMap.getD m r 0) 17 then m else KMap.set m r (rankEntry v (temps.getD c 0) c)
    | none => m
  let s1 := s.modDie die (fun d => { d with rank := (List.range 36).foldl put d.rank, ranked := s.timeNs })
  (present.flatMap (fun c => clusterCores (die * 64 + c))).foldl (fun s k =>
    let hottest := temps.getD (clusOf k) 0
    let temp := if (s.hottestOf (clusterOf k)) = k then hottest else Config.freeNat (s.free + 262144 + k) % (hottest + 1)
    s.modCore k (fun c => { c with
      temp := temp
      hotAt := if temp ≤ (s.die die).hot then none else c.hotAt
      coolAt := if (s.die die).cool ≤ temp then none else if c.coolAt.isSome then c.coolAt else some s.timeNs })) s1 |> fun s2 =>
    { s2 with free := s2.free + 524288 }
/-- R147. (DESIGN CHOICE: log entry 55) -/
def execThermalRankRewrite (die : Nat) (temps : List Nat) (s : State) : Host.Outcome State Fault Refusal :=
  .next (if s.diePresent die && decide ((s.die die).ranked + 1000000 ≤ s.timeNs) then s.rankRewrite die temps else s)

/-- R148: the slot that a hot core disables next, if any. -/
def State.slotToDisable (s : State) (core : Nat) : Option Nat :=
  let c := s.core core
  let on := (List.range 7).filter (fun k => !c.disabled.contains k)
  let roaming := fun (k : Nat) => match s.occupant core k with
    | some tid => !(s.thread tid).anc
    | none => true
  if on.length ≤ 2 then none
  else match [6, 5, 4].find? on.contains with
    | some k => some k
    | none => [3, 2, 1, 0].find? (fun k => on.contains k && roaming k)

/-- R148, R435: a core above its hot threshold disables a slot, one each 10,000 ns; an occupied one is marked. (DESIGN CHOICE: log entry 55) -/
def execSlotDisable (core : Nat) (s : State) : Host.Outcome State Fault Refusal :=
  .next <|
    let c := s.core core
    let due := match c.hotAt with
      | some t => decide (t + 10000 ≤ s.timeNs)
      | none => true
    let kept := (c.marked.bind (s.occupant core)).any (fun tid => (s.thread tid).anc)
    if kept then s.modCore core (fun c => { c with marked := none })
    else if isPylon core || !s.corePresent core || decide (c.temp ≤ (s.die (dieOf core)).hot) || !due || c.marked.isSome || s.stopping (clusterOf core) ||
        s.stopped (clusterOf core) then s
    else match s.slotToDisable core with
      | none => s
      | some k =>
        if (s.occupant core k).isNone then s.modCore core (fun c => { c with disabled := k :: c.disabled, hotAt := some s.timeNs })
        else s.modCore core (fun c => { c with marked := some k, hotAt := some s.timeNs })

/-- R148: a core that has been below its cool threshold for 100,000 ns re-enables a slot each 100,000 ns, the last disabled
first. -/
def execSlotReenable (core : Nat) (s : State) : Host.Outcome State Fault Refusal :=
  .next <|
    let c := s.core core
    match c.coolAt, c.disabled with
    | some t, _ :: r => if t + 100000 ≤ s.timeNs then s.modCore core (fun c => { c with disabled := r, coolAt := some s.timeNs }) else s
    | _, _ => s

/-- R149: the cluster that receives a displaced thread: the lowest rank with V = 1 other than the core's own. -/
def State.coolCluster (s : State) (core : Nat) : Option Nat :=
  let d := dieOf core
  ((List.range 36).map (fun r => KMap.getD (s.die d).rank r 0)).findSome? (fun e =>
    if bit e 16 && decide ((e.extractLsb' 0 6).toNat ≠ clusOf core) then some (d * 64 + (e.extractLsb' 0 6).toNat) else none)

/-- R148, R149, R480: the thread of a marked slot, or a roaming one of a marginal core, leaves at an instruction boundary at
which it awaits nothing; a marked slot is then disabled. -/
def execThermalDisplacement (tid : Nat) (s : State) : Host.Outcome State Fault Refusal :=
  .next <|
    let t := s.thread tid
    let c := s.core t.core
    let due := decide (c.marked = some t.slot) || c.marginal
    if !t.inSlot || t.anc || !due || (s.readySlot t.core t.slot).isNone then s
    else
      let res := match s.coolCluster t.core with
        | some cl => s.migrate tid (clusterPos cl) true 4 0 t.pc
        | none => s.toQueue tid false t.pc false true
      match res with
      | .gone s1 => s1
      | _ => s

end Sys2Proof.Machine
end

