-- ==== Sys2Proof/Machine/Pair.lean ====
section
/-! DEFINITION. Paired cores (19: R428 to R431, R434): coupling and uncoupling, exchanges of fingerprints, rollback. The two
copies of a slot are one thread of the model, since they do the same work; whether they agree at an exchange is what the
event says. -/

namespace Sys2Proof.Machine

/-! ### Exchanges (R430, R431) -/

/-- One hour in ns. -/
abbrev pairHour : Nat := 3600000000000
/-- The disagreements of the last hour. -/
def State.recentDisagreements (s : State) (core : Nat) : List Nat :=
  (s.core core).disagreements.filter (fun x => decide (s.timeNs < x + pairHour))
/-- The paired slots of a core that hold a thread. (DEDUCED: log entry 29) -/
def State.pairedSlots (s : State) (core : Nat) : List (Nat × Nat) :=
  (List.range 7).filterMap (fun k => (s.occupant core k).map (fun tid => (k, tid)))

/-- R430: the point where a slot stands is agreed: its gated stores are performed in program order, those of a trap record with
their tags full. (DESIGN CHOICE: log entry 90) -/
def State.agreeGated (s : State) (tid : Nat) : State :=
  let t := s.thread tid
  let s1 := s.modThread tid (fun t => { t with gated := [] })
  let s2 := t.gated.foldl (fun s g => if g.frame then s.putWords g.pa [g.v] else s.store tid g.pa g.n g.shadow g.v) s1
  s2.agree tid

/-- The thread waits no longer for an exchange. -/
def Thread.exchanged (t : Thread) : Thread := if t.wait = some .exchange then { t with wait := none, since := none } else t

/-- R431: a slot rolls back to its checkpoint: its registers are restored, its gated stores discarded, and it no longer awaits
what it has asked for since. -/
def State.rollBack (s : State) (tid : Nat) : State :=
  let t := s.thread tid
  match KMap.find (s.core t.core).ckpts t.slot with
  | none => s
  | some k => s.setThread tid { k with
      place := t.place, seq := t.seq, cyc := t.cyc, cycAt := t.cycAt, mon := t.mon, intr := t.intr, asks := t.asks, calls := t.calls
      await := k.await.filter (fun a => t.await.any (fun b => decide (b.tok = a.tok)))
      gated := [], finger := 0, wait := none, since := none, pend := none }
/-- R433: a slot that has gone beyond its last agreed point rolls back to it. -/
def State.rollBackIf (s : State) (tid : Nat) : State := if s.unagreed (s.thread tid) then s.rollBack tid else s

/-! ### Uncoupling (R431, R434) -/

/-- The TCM of a core copied to another. (DEDUCED: log entry 30) -/
def State.copyTcm (s : State) (from_ dest : Nat) : State :=
  (List.range 4).foldl (fun s j => (s.copyGranule (tcmOf from_ + 65536 * j) (tcmOf dest + 65536 * j)).noteWrite (tcmOf dest + 65536 * j) 65536) s
/-- The even core of a pair and its partner are uncoupled; the odd core's TCM keeps its contents. -/
def State.uncouple (s : State) (even odd : Nat) : State :=
  ((s.modCore even (fun c => { c with pair := none, ckpts := [], fpint := c.fpintNext.getD c.fpint, fpintNext := none })).modCore odd
    (fun c => { c with pair := none })).copyTcm even odd

/-- R431: a slot that an uncoupling after three disagreements leaves on the even core: it is at its checkpoint and traps PAIRDIV. The
instruction word of the record is not stated. (DESIGN CHOICE: log entry 32) -/
def State.pairTrap (s : State) (even tid : Nat) : State :=
  let s1 := s.unwait tid
  let s2 := if (s1.thread tid).wait = some .graph then s1.walkSuspend (clusterOf even) tid else s1
  let s3 := s2.rollBack tid
  s3.bumpFree.takeTrap tid 0x16 (BitVec.ofNat 64 even) (s3.thread tid).pc s3.freeWord

/-- R431: a disagreement is counted, and what differed is undone; at the third within an hour both cores become marginal and the
pair is uncoupled. -/
def State.disagree (s : State) (even odd : Nat) (undo : State → State) : State :=
  let times := s.timeNs :: s.recentDisagreements even
  let s1 := undo (s.modCore even (fun c => { c with disagreements := times }))
  if times.length < 3 then s1
  else
    let s2 := (s1.pairedSlots even).foldl (fun s p => s.pairTrap even p.2) s1
    ((s2.uncouple even odd).modCore even (fun c => { c with marginal := true })).modCore odd (fun c => { c with marginal := true })

/-- R430, R431: the exchange of a slot of a paired core. (DEDUCED: log entry 29) -/
def State.exchange (s : State) (core tid : Nat) (agree : Bool) : State :=
  match (s.core core).pair with
  | some (odd, true) =>
    if agree then (s.agreeGated tid).modThread tid Thread.exchanged
    else (s.disagree core odd (fun s => s.rollBack tid)).modThread tid Thread.exchanged
  | _ => s
/-- R430: the copies of a slot have reached the point that asked for an exchange. (DEDUCED: log entry 29) -/
def execFingerprintExchange (core slot : Nat) (agree : Bool) (s : State) : Host.Outcome State Fault Refusal :=
  .next <| match s.occupant core slot with
    | none => s
    | some tid => if decide ((s.thread tid).wait = some .exchange) && s.paired (s.thread tid) then s.exchange core tid agree else s

/-! ### Matrix commands (R432) -/

/-- R432: the CRC of a tile's elements, row by row. -/
def Matrix.tileCrc (m : Matrix) (t : Nat) : Word := (List.range 2048).foldl (fun c k => crcBytes c (m.elem (2048 * t + k)).toNat 4) 0
/-- R432: the command on the array starts again from the tile's copy. -/
def Matrix.restart (m : Matrix) (t : Nat) : Matrix :=
  { m with
    tiles := m.tiles.filter (fun p => decide (p.1 < 2048 * t)) ++ m.copy ++ m.tiles.filter (fun p => decide (2048 * (t + 1) ≤ p.1))
    result := none, done := 0, nx := false, nv := false, ofl := false, pinned := [] }
/-- The CRC that the even engine computes of the tile of its command on the array. -/
def State.engineCrc (s : State) (core : Nat) : Word :=
  let m := (s.core core).mx
  match (s.core core).pair, m.active with
  | some _, some c => m.tileCrc c.blk.tile
  | _, _ => 0
/-- R224, R432: the command on the array completes; on a paired core only once its tile's CRC is the odd engine's, whose agreement is
a free choice: otherwise it runs again, and the disagreement counts. (DEDUCED: log entries 29, 73) -/
def execMxCommandComplete (core : Nat) (s : State) : Host.Outcome State Fault Refusal :=
  .next <|
    let m := (s.core core).mx
    match (s.core core).pair, m.active, m.result with
    | some (other, true), some c, some _ =>
      if m.stall.isSome then s
      else if Config.oddEngine s.free (s.engineCrc core) = s.engineCrc core then s.bumpFree.mxComplete core
      else s.bumpFree.disagree core other (fun s => s.modMx core (fun m => m.restart c.blk.tile))
    | _, _, _ => s.mxComplete core

/-! ### PAIR, FPCK (R428, R434) -/

/-- R428: a position that PAIR accepts: a present compute core with even X, whose neighbour is present. -/
def State.pairOk (s : State) (p : Word) : Bool :=
  s.coreOperand p && !isPylon p.toNat && decide (posX p.toNat % 2 = 0) && s.corePresent (p.toNat + 1)
/-- A gang switch has saved the core and not restored it. -/
def State.coreAway (s : State) (core : Nat) : Bool := s.gangs.any (fun g => (KMap.find g.cores core).isSome)
/-- R428: why a pair is not coupled. -/
def State.pairBusy (s : State) (even : Nat) : Bool :=
  !(s.pairedSlots (even + 1)).isEmpty || (s.core (even + 1)).mx.owner.isSome ||
    [even, even + 1].any (fun k => (s.core k).pair.isSome || (s.core k).marginal || s.coreAway k)
/-- R428: the cores are coupled: the odd core takes a copy of the even one, and the present point of every slot is agreed. -/
def State.couple (s : State) (even : Nat) : State :=
  let s1 := s.copyTcm even (even + 1)
  let s2 := (s1.modCore even (fun c => { c with pair := some (even + 1, true), ckpts := [] })).modCore (even + 1) (fun c =>
    { c with pair := some (even, false) })
  (s2.pairedSlots even).foldl (fun s p => s.agree p.2) s2

/-- R428. -/
def execPair (g : Guard) (d : Reg) (a : Src) (s : State) : Host.Outcome State Fault Refusal :=
  run s g (sysNeed [a] d) fun s t =>
    let p := t.reg a.reg
    if !s.pairOk p then .trap cDescbad p
    else if (s.cluster (clusterOf p.toNat)).fen then .ok (s.write s.cur d 0x0E)
    else if s.pairBusy p.toNat then .ok (s.write s.cur d 0x24)
    else .ok ((s.couple p.toNat).write s.cur d 0)

/-- R434: every slot of a pair exchanges fingerprints; whether the copies agree is open, and a slot that already stands at an
agreed point has nothing to compare. -/
def State.exchangeAll (s : State) (even : Nat) : State :=
  (s.pairedSlots even).foldl (fun s p =>
    if s.unagreed (s.thread p.2) then s.bumpFree.exchange even p.2 (Config.freeNat s.free % 2 = 0) else s) s
/-- R434. -/
def execPairOff (g : Guard) (d : Reg) (a : Src) (s : State) : Host.Outcome State Fault Refusal :=
  run s g (sysNeed [a] d) fun s t =>
    let p := t.reg a.reg
    if !s.pairOk p then .trap cDescbad p
    else match (s.core p.toNat).pair with
      | some (odd, true) =>
        let s1 := s.exchangeAll p.toNat
        if (s1.core p.toNat).pair.isSome then .ok ((s1.uncouple p.toNat odd).write s.cur d 0)
        else if t.core = p.toNat then .gone s1
        else .ok (s1.write s.cur d 0)
      | _ => .ok (s.write s.cur d 1)
/-- R434. -/
def execFpck (g : Guard) (d : Reg) (s : State) : Host.Outcome State Fault Refusal :=
  run s g (sysNeed [] d) fun s t =>
    if s.paired t then
      .ok (s.write s.cur d (BitVec.ofNat 64 (2 ^ 63 + Nat.min 255 (s.recentDisagreements t.core).length * 2 ^ 48 + t.retired.toNat % 2 ^ 48)))
    else .ok (s.write s.cur d 0)

end Sys2Proof.Machine
end

