-- ==== Sys2Proof/Machine/Gang.lean ====
section
/-! DEFINITION. The gang switch (19: R420 to R427, R433): GANG arms the clusters of a rectangle; each stops and saves, takes what
falls out, restores another partition, and starts. The save area holds the images of TCMs and scratchpads; the rest of what is
saved, whose place in the save area is not architected, is the record of the switch. -/

namespace Sys2Proof.Machine

/-! ### Blocks and save areas (R420, R421) -/

/-- The number of a cluster position within a rectangle: ascending logical Y, then X. -/
def gangIndex (rect : Word) (cl : Nat) : Nat :=
  let x := posX (clusterPos cl)
  let y := posY (clusterPos cl)
  (y - rectY0 rect) / 4 * ((rectX1 rect + 1 - rectX0 rect) / 4) + (x - rectX0 rect) / 4
/-- The cluster positions of a rectangle. -/
def gangCount (rect : Word) : Nat := (rectX1 rect + 1 - rectX0 rect) / 4 * ((rectY1 rect + 1 - rectY0 rect) / 4)
/-- The block of a cluster in a save area. -/
def gangBlock (area : Nat) (rect : Word) (cl : Nat) : Nat := area + 0x10000 + 0x1000000 * gangIndex rect cl
/-- A rectangle that R420 allows. (DEDUCED: log entry 69) -/
def gangRect (r : Word) : Bool := !rectSys r && !rectBad r && rectWhole r
/-- R420, R421: the fields of a gang block. -/
def gangBlockOk (w : Nat → Word) : Bool :=
  w 0 >>> 60 == 11 && (w 0).extractLsb' 1 59 == 0 && gangRect (w 1) && (w 3).extractLsb' 0 16 == 0 &&
    (if bit (w 0) 0 then (w 4).extractLsb' 0 16 == 0 && w 4 != w 3 else w 4 == 0) && (w 5).extractLsb' 0 3 == 0 && w 6 == 0 && w 7 == 0
/-- Word 0 of the header of a save area. -/
def gangHeader (valid : Bool) : Word := (12#64 <<< 60) ||| (if valid then 1 else 0)

/-- A save area's 64 KiB granules. -/
def gangGranules (area : Nat) (rect : Word) : List Nat := (List.range (1 + 256 * gangCount rect)).map (fun i => area + 65536 * i)
/-- The first granule of a save area that may not be written by an engine of the context: its cause and address. -/
def State.areaFault (s : State) (c : Ctx) (l : List Nat) : Option (Nat × Word) :=
  l.findSome? (fun va => match (s.resolve c (BitVec.ofNat 64 va) .store).2 with
    | .fail f => some (f, BitVec.ofNat 64 va)
    | _ => none)

/-! ### GANG (R422) -/

/-- R422: every cluster of the rectangle is armed; one whose time base has passed TIME is late (R423). -/
def State.arm (s : State) (t : Thread) (w : Nat → Word) (header : Nat) : State :=
  let cls := s.clustersIn (w 1)
  let g : Gang := {
    id := s.nextId, rect := w 1, time := (w 2).toNat, outsa := (w 3).toNat, insa := if bit (w 0) 0 then some (w 4).toNat else none
    status := (w 5).toNat, who := t.asker s.cur s.nextId false, header := header, clusters := cls, stopped := [], restored := []
    late := (cls.filter (fun cl => decide ((w 2).toNat ≤ (s.timeAt (cl / 64)).toNat))).length, lastReport := 0, ts := none, done := false
    threads := [], pairs := [], images := [], cores := [], parts := [], empties := [] }
  let s1 : State := { s.bumpId with gangs := s.gangs ++ [g] }
  cls.foldl (fun s cl => s.modCluster cl (fun c => { c with armed := some g.id })) s1

/-- R422: what follows the checks of the block. -/
def State.gangArm (s : State) (t : Thread) (d : Reg) (b : Word) (w : Nat → Word) : Res :=
  match s.areaFault t.engine (gangGranules (w 3).toNat (w 1)) with
  | some (f, va) => .trap f va
  | none =>
    let cls := s.clustersIn (w 1)
    if cls.any (fun cl => (s.cluster cl).fen) then .ok (s.write s.cur d 0x0E)
    else if cls.any (fun cl => (s.cluster cl).armed.isSome) then .ok (s.write s.cur d 0x24)
    else match s.resolve t.engine (w 3) .store with
      | (s1, .at pa _) => .ok ((s1.arm t w pa).write s.cur d 0)
      | (s1, .absent) => .gone (s1.pageFault s.cur (w 3) 1)
      | (_, .fail f) => .trap f b

/-- R422. (DEDUCED: log entry 33) -/
def execGang (g : Guard) (d : Reg) (a : Src) (s : State) : Host.Outcome State Fault Refusal :=
  run s g (sysNeed [a] d) fun s t =>
    let b := t.reg a.reg
    if b.extractLsb' 0 6 != 0 then .trap cAlign b
    else t.afterStores <| s.readBlock t.ctx b 64 false fun s1 v =>
      let w := wordAt v
      if !gangBlockOk w then .trap cDescbad b
      else if bit (w 0) 0 then s1.readBlock t.ctx (w 4) 16 false fun s2 h =>
        if wordAt h 0 != gangHeader true || wordAt h 1 != w 1 then .trap cDescbad b else s2.gangArm t d b w
      else s1.gangArm t d b w

/-! ### The stop (R423, R424) -/

/-- Threads in the slots of clusters, the scarab threads apart. -/
def State.slotThreads (s : State) (cls : List Nat) : List Nat :=
  (s.threads.filter (fun p => decide (p.1 < scarabBase) && p.2.inSlot && cls.contains p.2.cluster)).map Prod.fst
/-- R423: the contexts present on the cores of a switch's rectangle: those saved and those still in slots. -/
def State.gangContexts (s : State) (g : Gang) : List (BitVec 12 × BitVec 16) :=
  (g.pairs.map (·.2) ++ (s.slotThreads g.clusters).map (fun tid => ((s.thread tid).domid, (s.thread tid).cin))).dedup

/-- R423, R424, R304, R341: the thread may be saved: its sent stores have been acknowledged, a release in progress has been
completed, and its walk stands at a line. -/
def State.savable (s : State) (cl tid : Nat) : Bool :=
  let t := s.thread tid
  t.stored && s.walkStoppable cl tid && (match t.wait with
    | some w => !w.finishing
    | none => true)

/-- R424: what becomes of the wait of a thread that is saved: a SEMW, a walk, and every wait for something of the core or
cluster is left and the instruction issues again; an MWAIT returns INTR, or TIMEOUT when that has passed (R348); a request that has been sent stays pending. -/
def State.saveWait (s : State) (cl tid : Nat) : State :=
  let t := s.thread tid
  match t.pend, t.wait with
  | some _, some (.sem _ _) => s.modThread tid (fun t => { t with pend := none, wait := none, since := none })
  | some _, some (.mwait d) =>
    if d.any (fun d => decide (d ≤ s.nowOf t)) && !t.mon.trig then (s.mwake tid mwTimeout).modThread tid (fun t => { t with since := none })
    else s.modThread tid (fun t => { t with pend := none, wait := none, since := none, intr := true })
  | some _, some .graph => (s.walkSuspend cl tid).modThread tid (fun t => { t with since := none })
  | some _, _ => s.modThread tid (fun t => { t with since := none })
  | none, some .page => s.modThread tid (fun t => { t with since := none })
  | none, _ => s.modThread tid (fun t => { t with wait := none, since := none })

/-- R421, R426: the images of a cluster: physical source, address in the save area, and owner. -/
def State.gangImages (s : State) (area : Nat) (rect : Word) (cl : Nat) : List (Nat × Nat × Option (BitVec 12)) :=
  if !isCompute cl then []
  else
    let b := gangBlock area rect cl
    let k := s.cluster cl
    (clusterCores cl).flatMap (fun core => (List.range 4).map (fun j =>
      (tcmOf core + 65536 * j, b + 0x80000 * coreNoOf core + 65536 * j, (s.core core).tcmOwner))) ++
    ((List.range k.bnd1.toNat).filter (fun gr => decide (k.bnd0.toNat ≤ gr))).map (fun gr =>
      (poolOf cl + 65536 * gr, b + 0x800000 + 65536 * gr, k.spOwner))

/-- The physical addresses of images; the address of the first page that is not there. -/
def State.imagePages (s : State) (c : Ctx) (k : Acc) : List (Nat × Nat × Option (BitVec 12)) → Except Word (List (Nat × Nat × Option (BitVec 12)))
  | [] => .ok []
  | (src, va, o) :: r =>
    match (s.resolve c (BitVec.ofNat 64 va) k).2 with
    | .at pa _ => match s.imagePages c k r with
      | .ok l => .ok ((src, pa, o) :: l)
      | .error x => .error x
    | _ => .error (BitVec.ofNat 64 va)

/-- The rights with which a switch reaches its save areas: those of the thread that issued it. (DEDUCED: log entry 33) -/
def Gang.ctx (g : Gang) : Ctx := engineCtx g.who.core g.who.domid g.who.cin g.who.tag g.who.sup
/-- The unit number of a gang switch in fault messages. (DEDUCED: log entry 60) -/
abbrev uGang : Nat := 12
/-- A page of a save area is not there: the switch waits for it (R422, R255). -/
def State.gangStall (s : State) (g : Gang) (va : Word) : State := s.stallMsg g.who.core uGang g.ctx va

/-- R424: what is saved of a core: the matrix engine, barriers, routing-channel entries, posted blocks and parked messages of
the saved contexts, deliveries, and the pairing. A page that the engine waits for is asked for again. -/
def Core.saved (c : Core) (dom : BitVec 12 → Bool) : Core :=
  { Core.reset false with
    pair := c.pair, mcast := c.mcast.filter (fun m => dom m.domid), parkedMsgs := c.parkedMsgs.filter (fun m => dom m.domid)
    mx := { c.mx with stall := none, asked := false, ops := c.mx.ops.map (fun o => { o with stall := none }) }
    barriers := c.barriers.filter (fun b => dom b.2.domid), chans := c.chans.filter (fun e => dom e.2.dom)
    posted := c.posted.filter (fun e => dom e.2.domid) }
/-- R424: what a core keeps when the rest is saved. -/
def Core.rest (c : Core) (dom : BitVec 12 → Bool) : Core :=
  { c with
    pair := none, mcast := c.mcast.filter (fun m => !dom m.domid), parkedMsgs := c.parkedMsgs.filter (fun m => !dom m.domid)
    mx := { accNo := c.mx.accNo }
    barriers := c.barriers.map (fun b => (b.1, if dom b.2.domid then { gen := b.2.gen + 1 } else b.2))
    chans := c.chans.filter (fun e => !dom e.2.dom), posted := c.posted.filter (fun e => !dom e.2.domid) }
/-- R424: what is saved of a cluster: semaphores, without their waiters, and BND0 to BND2. -/
def Cluster.savedPart (c : Cluster) : Cluster :=
  { bnd0 := c.bnd0, bnd1 := c.bnd1, bnd2 := c.bnd2, sems := c.sems.map (fun x => (x.1, { x.2 with waiters := [] })) }
/-- R424, R425: a cluster after its save: the scarab threads' waits stay, and the contexts join its table of 64. -/
def Cluster.afterSave (c : Cluster) (ctxs : List (BitVec 12 × BitVec 16)) : Cluster :=
  { c with
    sems := c.sems.map (fun x => (x.1, { waiters := x.2.waiters.filter (fun w => decide (scarabBase ≤ w.1)) }))
    saved := (c.saved ++ ctxs.filter (fun p => !c.saved.contains p)).take 64 }

/-- R424: a thread leaves its place for the saved partition. -/
def State.saveThread (s : State) (cl tid : Nat) : State :=
  let t := s.thread tid
  match t.place with
  | .slot c k => (s.saveWait cl tid).leave tid (.saved c k)
  | _ => s.modThread tid (fun t => { t with place := .saved (clusterPos cl) 8, since := none })

/-- R423, R433: the pairs of a cluster at its stop: each slot goes back to its last agreed point, and the pairs part. -/
def State.partPairs (s : State) (cl : Nat) : State :=
  (clusterCores cl).foldl (fun s k => match (s.core k).pair with
    | some (odd, true) => ((s.pairedSlots k).foldl (fun s p => s.rollBackIf p.2) s).uncouple k odd
    | _ => s) s
/-- The pairs of a cluster, kept with what is saved (R433). -/
def State.pairsOf (s : State) (cl : Nat) : KMap (Nat × Bool) := (clusterCores cl).filterMap (fun k => (s.core k).pair.map (fun p => (k, p)))

/-- The record of the switch is changed. -/
def State.modGang (s : State) (id : Nat) (f : Gang → Gang) : State := { s with gangs := s.gangs.map (fun g => if g.id = id then f g else g) }
/-- The record of a switch. -/
def State.gang (s : State) (id : Nat) : Option Gang := s.gangs.find? (fun g => decide (g.id = id))

/-- R423, R424: a cluster is saved, its images going to the given places. (DEDUCED: log entry 33) -/
def State.saveCluster (s : State) (g : Gang) (cl : Nat) (imgs : List (Nat × Nat × Option (BitVec 12))) : State :=
  let ctxs := s.gangContexts g
  let dom := fun (d : BitVec 12) => ctxs.any (fun p => p.1 == d)
  let pairs := s.pairsOf cl
  let s1 := s.partPairs cl
  let tids := s1.slotThreads [cl] ++ (s1.threads.filter (fun p => ctxs.contains (p.2.domid, p.2.cin) && (match p.2.place with
    | .runq c _ _ | .parked c | .frozen c => decide (c = cl)
    | _ => false))).map Prod.fst
  let places := tids.map (fun tid => (tid, (s1.thread tid).place))
  let s2 := tids.foldl (fun s tid => s.saveThread cl tid) s1
  let inImage := fun (x : Nat) => imgs.any (fun i => decide (i.1 ≤ x ∧ x < i.1 + 65536))
  let s3 := imgs.foldl (fun s i => ((s.copyGranule i.1 i.2.1).fillTags i.2.1 65536).noteWrite i.2.1 65536) s2
  let mine := s3.cores.filter (fun p => decide (clusterOf p.1 = cl))
  let kept := mine.map (fun p => (p.1, { p.2.saved dom with pair := KMap.find pairs p.1 }))
  let s4 : State := { s3 with cores := s3.cores.map (fun p => (p.1, if clusterOf p.1 = cl then p.2.rest dom else p.2)) }
  let s5 := s4.modCluster cl (fun c => c.afterSave ctxs)
  let flits := (s5.msgs.filter (fun p => match p.2.loc with
    | .parked c _ => decide (c = cl) && ctxs.contains (p.2.domid, p.2.cin)
    | _ => false)).map Prod.fst
  let s6 := flits.foldl (fun s id => s.modMsg id (fun m => { m with loc := .fallen cl })) s5
  s6.modGang g.id (fun g => { g with
    stopped := g.stopped ++ [cl], threads := g.threads ++ places, pairs := g.pairs ++ ctxs.map (fun p => (cl, p))
    images := g.images ++ imgs.filterMap (fun i => match i.2.2 with
      | some d => if dom d then some (i.1, i.2.1, d) else none
      | none => none)
    empties := g.empties ++ s2.empties.filter inImage
    cores := kept.foldl (fun m p => KMap.set m p.1 p.2) g.cores
    parts := KMap.set g.parts cl (s3.cluster cl).savedPart })

/-- R423. (DEDUCED: log entry 33) -/
def execGangStop (gang cluster : Nat) (s : State) : Host.Outcome State Fault Refusal :=
  .next <| match s.gang gang with
    | none => s
    | some g =>
      let ready := (s.slotThreads [cluster]).all (s.savable cluster)
      if !g.clusters.contains cluster || g.stopped.contains cluster || decide ((s.cluster cluster).armed ≠ some gang) || !s.stopping cluster || !ready then s
      else match s.imagePages g.ctx .store (s.gangImages g.outsa g.rect cluster) with
        | .error va => s.gangStall g va
        | .ok imgs => s.saveCluster g cluster imgs

/-! ### Fall-outs (R425) -/

/-- R425: the flit stands at a cluster from which its context, or the memory that it asks for, is switched out, and the park
region takes it. -/
def execGangFallOut (msg : Nat) (s : State) : Host.Outcome State Fault Refusal :=
  .next <| match KMap.find s.msgs msg with
    | none => s
    | some m => match m.loc with
      | .ejected _ =>
        if m.nack || (s.cluster (clusterOf m.ldest)).fen || !s.fallsOut m || s.refusesFlit msg m then s
        else s.modMsg msg (fun m => { m with loc := .fallen (clusterOf m.ldest) })
      | _ => s

/-! ### The restore (R427) -/

/-- The switch that saved the partition at INSA: the latest whose save area it is. -/
def State.gangSource (s : State) (g : Gang) : Option Gang :=
  match g.insa with
  | none => none
  | some va => match (s.resolve g.ctx (BitVec.ofNat 64 va) .load).2 with
    | .at pa _ => s.gangs.reverse.find? (fun x => x.done && decide (x.header = pa) && x.rect == g.rect && decide (x.id ≠ g.id))
    | _ => none

/-- R427, R424: a saved thread returns to its slot, or to the run queue targeting its core; what it waits for is counted anew. -/
def State.restoreThread (s : State) (cl tid : Nat) (old : Place) : State :=
  let t := s.thread tid
  if (KMap.find s.threads tid).isNone then s
  else if !s.isLive cl t.domid t.cin then s.endThread tid true
  else
    let now := match old with
      | .slot c _ | .runq _ (some c) _ => s.now c
      | _ => s.cycle
    let since := if t.wait.isSome && t.counted then some now else none
    match old with
    | .slot c k =>
      if (s.occupant c k).isNone && !(s.core c).disabled.contains k then
        (s.modThread tid (fun t => { t with resting := true, since := since })).enterSlot tid c k
      else (s.modThread tid (fun t => { t with place := .runq cl (some c) t.anc, seq := s.nextId, resting := true, since := since })).bumpId
    | p => s.modThread tid (fun t => { t with place := p, since := since })

/-- What a core holds again after a restore. (DEDUCED: log entry 35) -/
def Core.restored (c x : Core) : Core :=
  { c with
    pair := x.pair, mx := { x.mx with accNo := Nat.max x.mx.accNo c.mx.accNo }, mcast := x.mcast ++ c.mcast, parkedMsgs := x.parkedMsgs ++ c.parkedMsgs
    barriers := x.barriers.foldl (fun m b => KMap.set m b.1 b.2) c.barriers
    chans := x.chans.foldl (fun m b => KMap.set m b.1 b.2) c.chans, posted := x.posted.foldl (fun m b => KMap.set m b.1 b.2) c.posted }

/-- R427: what the record of the saving switch gives back to a cluster. -/
def State.restorePart (s : State) (r : Gang) (cl : Nat) : State :=
  let part := KMap.getD r.parts cl {}
  let back := (r.pairs.filter (fun p => decide (p.1 = cl))).map (·.2)
  let s1 := s.modCluster cl (fun c => { c with
    sems := part.sems, bnd0 := part.bnd0, bnd1 := part.bnd1, bnd2 := part.bnd2, saved := c.saved.filter (fun p => !back.contains p) })
  let s2 := (r.cores.filter (fun p => decide (clusterOf p.1 = cl))).foldl (fun s p => s.modCore p.1 (fun c => c.restored p.2)) s1
  let s3 := (r.threads.filter (fun p => decide ((s.thread p.1).place ≠ .ended) && decide ((s.thread p.1).cluster = cl))).foldl
    (fun s p => s.restoreThread cl p.1 p.2) s2
  s3.modGang r.id (fun x => { x with pairs := x.pairs.filter (fun p => decide (p.1 ≠ cl)) })

/-- R330: the tags of a granule that has been loaded are those that it had when it was saved. -/
def State.restoreTags (s : State) (r : Gang) (a : Nat) : State :=
  let s1 := s.fillTags a 65536
  { s1 with empties := (r.empties.filter (fun x => decide (a ≤ x ∧ x < a + 65536))).foldl insertN s1.empties }

/-- R427: a cluster's block of INSA is loaded. Redirection to its images ends first (R426). (DEDUCED: log entry 33) -/
def State.restoreCluster (s : State) (g : Gang) (cl : Nat) (imgs : List (Nat × Nat × Option (BitVec 12))) : State :=
  let src := s.gangSource g
  let s1 := match src with
    | some r => s.modGang r.id (fun x => { x with images := x.images.filter (fun i => decide (homeCluster (pkgOf (clusterPos cl)) (homeOf i.1) ≠ cl)) })
    | none => s
  let s2 := imgs.foldl (fun (s : State) (i : Nat × Nat × Option (BitVec 12)) => (s.copyGranule i.2.1 i.1).noteWrite i.1 65536) s1
  let s3 := match src with
    | some r => ((imgs.map Prod.fst).foldl (fun s a => State.restoreTags s r a) s2).restorePart r cl
    | none => s2
  let s4 := (s3.modCluster cl (fun c => { c with cands := [], candFloor := s3.nextId })).bumpId
  let now := (s4.timeAt (dieOf (posOf (rectX0 g.rect) (rectY0 g.rect)))).toNat
  s4.modGang g.id (fun g =>
    let done := g.restored ++ [cl]
    { g with restored := done, lastReport := now, ts := if g.clusters.all done.contains then some (now + 1000) else none })

/-- R427. The scratchpad that is loaded is the one of the saved bounds. -/
def execGangRestore (gang cluster : Nat) (s : State) : Host.Outcome State Fault Refusal :=
  .next <| match s.gang gang with
    | none => s
    | some g => match g.insa with
      | none => s
      | some area =>
        if g.done || !g.stopped.contains cluster || g.restored.contains cluster then s
        else
          let sized := match s.gangSource g with
            | some r =>
              let part := KMap.getD r.parts cluster {}
              s.modCluster cluster (fun c => { c with bnd0 := part.bnd0, bnd1 := part.bnd1 })
            | none => s
          match s.imagePages g.ctx .load (sized.gangImages area g.rect cluster) with
          | .error va => s.gangStall g va
          | .ok imgs => s.restoreCluster g cluster imgs

/-! ### The start (R427) -/

/-- A word written for a switch, with its tag full: the state, or the address of the page that is not there. A write that is
refused is dropped. (DEDUCED: log entry 34) -/
def State.gangWrite (s : State) (g : Gang) (va : Nat) (v : Word) : Except Word State :=
  match s.writeRange g.ctx va 8 v.toNat with
  | .ok s1 _ => .ok s1
  | .bad s1 _ _ => .ok s1
  | .absent _ x => .error x

/-- R427: fall-outs of contexts that are there again are re-injected, with AGE 0. -/
def State.reinject (s : State) (cls : List Nat) : State :=
  let back := (s.msgs.filter (fun p => match p.2.loc with
    | .fallen c => cls.contains c && !s.fallsOut p.2
    | _ => false)).map Prod.fst
  back.foldl (fun s id => s.modMsg id (fun m => { m with injected := s.cycle, out := none, loc := .inject ((s.physOf m.ldest).getD m.ldest) s.cycle })) s

/-- The status word (R427): LATE, CLUS and CODE 0. -/
def Gang.statusWord (g : Gang) : Word := BitVec.ofNat 64 (g.late % 65536 * 4294967296 + g.clusters.length % 65536 * 65536)

/-- R427: OUTSA is marked valid, INSA is marked not valid, the status is written, and the switch is over. -/
def State.gangEnd (s : State) (g : Gang) : Except Word State := do
  let src := s.gangSource g
  let s1 := ((s.perform (g.header + 8) 8 g.rect.toNat true).perform (g.header + 16) 8 g.time true).perform g.header 8 (gangHeader true).toNat true
  let s2 ← match g.insa with
    | some va => s1.gangWrite g va (gangHeader false)
    | none => .ok s1
  let s3 ← s2.gangWrite g g.status g.statusWord
  let s4 := g.clusters.foldl (fun s cl => s.modCluster cl (fun c => { c with armed := none })) s3
  let s5 := s4.modGang g.id (fun g => { g with done := true })
  let s6 : State := match src with
    | some r => { s5 with gangs := s5.gangs.filter (fun x => decide (x.id ≠ r.id)) }
    | none => s5
  .ok (s6.reinject g.clusters)

/-- R427: START: every cluster has been saved and, where a partition is restored, its time base has reached TS. -/
def execGangStart (gang : Nat) (s : State) : Host.Outcome State Fault Refusal :=
  .next <| match s.gang gang with
    | none => s
    | some g =>
      let due := match g.insa, g.ts with
        | none, _ => true
        | some _, none => g.clusters.isEmpty
        | some _, some ts => g.clusters.all (fun cl => decide (ts ≤ (s.timeAt (cl / 64)).toNat))
      if g.done || !g.clusters.all g.stopped.contains || !due then s
      else match s.gangEnd g with
        | .error va => s.gangStall g va
        | .ok s1 => s1

end Sys2Proof.Machine
end

