-- ==== Sys2Proof/Machine/Port.lean ====
section
/-! DEFINITION. The host's apertures through BAR2 (R460, R329) and wakes for absent pages (R255, R256). -/

namespace Sys2Proof.Machine

/-! ### Apertures (R460) -/

/-- The unit number of the host port in fault messages. (DEDUCED: log entry 60) -/
abbrev uPort : Nat := 11
/-- A host access that a port performs: the window's context and address; none when the window is closed, its register has
nonzero reserved bits, or the mailbox is not served (R460, R479). -/
def State.aperAddr (s : State) (pkg off : Nat) : Option (Ctx × Word) :=
  let p := s.pkg pkg
  let r := KMap.getD p.aper (off / 2 ^ 36) 0
  if !p.ready || !decide (off < 2 ^ 40) || !bit r 63 || (r.extractLsb' 32 31 != 0) then none
  else
    let dom := r.extractLsb' 20 12
    some (unitCtx (unitPos pkg) dom (s.liveCin (clusterOf (unitPos pkg)) dom) (BitVec.ofNat 16 uPort) false,
      BitVec.ofNat 64 ((r.extractLsb' 0 20).toNat * 2 ^ 36 + off % 2 ^ 36))

/-- Kinds of answer to a host access: data, Completer Abort, Unsupported Request. -/
abbrev haData : Nat := 0
abbrev haAbort : Nat := 1
abbrev haUnsupported : Nat := 2

/-- R460: an access is checked and performed at its home, in user mode and with host tags ignored: the state and the answer; none
when its page is absent, or its shadow has no frame (R448). (DEDUCED: log entry 51) -/
def State.aperture (s : State) (c : Ctx) (va : Word) (n : Nat) (val : Option Word) : Option (State × Nat × Word) :=
  if va.toNat % n ≠ 0 then some (s, haAbort, 0)
  else match s.resolve c va (if val.isSome then .store else .load) with
    | (s1, .fail _) => some (s1, haAbort, 0)
    | (_, .absent) => none
    | (s1, .at pa leaf) =>
      if s1.fencedFrom c.core pa then some (s1, haAbort, 0)
      else match val with
        | none =>
          let q := s1.viewOf c.domid (leafShadow leaf) pa
          if s1.poisoned q n then some (s1, haAbort, 0) else some (s1, haData, BitVec.ofNat 64 (s1.peek q n))
        | some v =>
          if (s1.shadowFor c.domid (leafShadow leaf) pa).isNone then none
          else some (s1.performFor c.domid (leafShadow leaf) pa n v.toNat false, haData, 0)

/-- A read's answer reaches the host; a write has none. -/
def State.hostAnswer (s : State) (pkg : Nat) (read : Bool) (a : Nat × Word) : State :=
  if read then s.modPkg pkg (fun p => { p with answers := a :: p.answers }) else s
/-- R329: a write that waits holds back everything that comes after it at the port. -/
def Package.portBusy (p : Package) : Bool := p.stalled.any (fun x => x.2.2.2.1.isSome)

/-- A host access arrives at the port (R460): it is performed, or waits in the port's park region. (DEDUCED: log entry 51) -/
def State.hostAccess (s : State) (pkg off n : Nat) (val : Option Word) : State :=
  let wait := fun (s : State) => s.bumpId.modPkg pkg (fun p => { p with stalled := p.stalled ++ [(s.nextId, off, n, val, s.timeNs)] })
  if !s.pkgPresent pkg then s
  else match s.aperAddr pkg off with
    | none => s.modPkg pkg (fun p => { p with answers := (haUnsupported, 0) :: p.answers })
    | some (c, va) =>
      if (s.pkg pkg).portBusy then wait s
      else match s.aperture c va n val with
        | some (s1, a) => s1.hostAnswer pkg val.isNone a
        | none => (wait s).stallMsg (unitPos pkg) uPort c va

/-- R460. -/
def execHostApertureRead (pkg off : Nat) (size : Size) (s : State) : Host.Outcome State Fault Refusal :=
  .next (s.hostAccess pkg off (Size.bytes size) none)
/-- R460. -/
def execHostApertureWrite (pkg off : Nat) (size : Size) (val : BitVec 64) (s : State) : Host.Outcome State Fault Refusal :=
  .next (s.hostAccess pkg off (Size.bytes size) (some val))

/-- The operation of a host AtomicOp. -/
def hostAop : HostAop → AtomOp
  | .fetchAdd => .add
  | .swap => .xchg
  | .cas => .cas
/-- R460, R337: an AtomicOp of the host performed at the home; none when its page is absent. (DEDUCED: log entry 51) -/
def State.apertureAtomic (s : State) (c : Ctx) (va : Word) (n : Nat) (op : AtomOp) (val cmp : Word) : Option (State × Nat × Word) :=
  match s.aperture c va n none with
  | some (_, 0, old) =>
    let new := op.app n old (extend val n false) (extend cmp n false)
    (match (s.resolve c va .store).2 with
      | .at pa _ => if hostBase ≤ pa then some (s, haAbort, 0) else match new with
        | some x => (s.aperture c va n (some x)).map (fun r => if r.2.1 = haData then (r.1, haData, old) else r)
        | none => some (s, haData, old)
      | .fail _ => some (s, haAbort, 0)
      | .absent => none)
  | r => r
/-- R460. While its page is absent, or an earlier write waits, the port does not take the operation. -/
def execHostApertureAtomic (pkg off : Nat) (op : HostAop) (wide : Bool) (val cmp : BitVec 64) (s : State) : Host.Outcome State Fault Refusal :=
  .next <|
    if !s.pkgPresent pkg then s
    else match s.aperAddr pkg off with
      | none => s.hostAnswer pkg true (haUnsupported, 0)
      | some (c, va) =>
        if (s.pkg pkg).portBusy then s
        else match s.apertureAtomic c va (if wide then 8 else 4) (hostAop op) val cmp with
          | some (s1, a) => s1.hostAnswer pkg true a
          | none => s.stallMsg (unitPos pkg) uPort c va

/-- R460: a read that has waited 4,000,000 ns for its page. -/
def execApertureReadTimeout (pkg req : Nat) (s : State) : Host.Outcome State Fault Refusal :=
  .next <| match (s.pkg pkg).stalled.find? (fun x => decide (x.1 = req)) with
    | some (_, _, _, none, t0) =>
      if t0 + 4000000 ≤ s.timeNs then
        (s.modPkg pkg (fun p => { p with stalled := p.stalled.filter (fun x => decide (x.1 ≠ req)) })).hostAnswer pkg true (haAbort, 0)
      else s
    | _ => s

/-- A wake reaches a port: accesses whose pages are there now are performed in their order; with a cause, the first that still
lacks its page fails. -/
def State.portRetry (s : State) (pkg : Nat) (code : BitVec 8) : List (Nat × Nat × Nat × Option Word × Nat) → State
  | [] => s
  | (id, off, n, val, _) :: r =>
    let gone := fun (s : State) => s.modPkg pkg (fun p => { p with stalled := p.stalled.filter (fun x => decide (x.1 ≠ id)) })
    let res := match s.aperAddr pkg off with
      | none => some (s, haUnsupported, 0)
      | some (c, va) => s.aperture c va n val
    match res with
    | some (s1, a) => State.portRetry ((gone s1).hostAnswer pkg val.isNone a) pkg code r
    | none =>
      if code ≠ 0 then (gone s).hostAnswer pkg val.isNone (haAbort, 0)
      else if val.isSome then s
      else State.portRetry s pkg code r

/-! ### Wakes (R255, R256) -/

/-- The causes that a wake may carry: 0 to retry, NOMAP, PROT or XLATE. (DEDUCED: log entry 56) -/
def wakeCode (code : BitVec 8) : Bool := code == 0 || decide (code.toNat = cNomap) || decide (code.toNat = cProt) || decide (code.toNat = cXlate)

/-- The contexts for which a unit of a core waits for absent pages (R256). -/
def State.unitWaits (s : State) (core unit : Nat) : List (BitVec 12 × BitVec 16) :=
  let mx := (s.core core).mx
  if unit ≤ 8 then
    if (s.queue core unit).stall.isSome then ((s.queue core unit).cmds.take 1).map (fun c => (c.domid, c.cin)) else []
  else if unit = uMatrix then if mx.stall.isSome then mx.active.toList.map (fun c => (c.domid, c.cin)) else []
  else if unit = uTacc then (mx.ops.filter (fun o => o.stall.isSome)).map (fun o => (o.domid, o.cin))
  else if unit = uReject then if mx.asked then mx.rejects.map (fun r => (r.1.domid, r.1.cin)) else []
  else if unit = uPort then (s.pkg (pkgOf core)).stalled.filterMap (fun x => (s.aperAddr (pkgOf core) x.2.1).map (fun a => (a.1.domid, a.1.cin)))
  else if unit = uGang then (s.gangs.filter (fun g => !g.done && decide (g.who.core = core))).map (fun g => (g.who.domid, g.who.cin))
  else if unit = uBulk then (s.core core).posted.map (fun b => (b.2.domid, b.2.cin))
  else []
/-- R224, R280, R460: a wake for a context reaches a unit that an absent page has stalled: it goes on, or ends with the cause. A gang
switch and the placement of a bulk message look for their pages by themselves. (DEDUCED: log entry 56) -/
def State.wakeUnit (s : State) (core unit : Nat) (dom : BitVec 12) (cin : BitVec 16) (code : BitVec 8) : State :=
  let e := BitVec.ofNat 8 (engineCause code.toNat)
  if !(s.unitWaits core unit).contains (dom, cin) then s.orphaned (clusterOf core)
  else if unit ≤ 8 then
    let s1 := s.unstall core unit
    if code = 0 then s1 else s1.copyEnd core unit e
  else if unit = uMatrix then s.modMx core (fun m => { m with stall := none, result := if code = 0 then m.result else some e })
  else if unit = uReject then s.mxRejects core (decide (code ≠ 0))
  else if unit = uTacc then
    match (s.core core).mx.ops.find? (fun o => o.stall.isSome && o.domid == dom && o.cin == cin) with
    | none => s
    | some o =>
      if code = 0 then s.modMx core (fun m => { m with ops := m.ops.map (fun x => if x.acc = o.acc then { x with stall := none } else x) })
      else s.opDone core o e o.fl
  else if unit = uPort then s.portRetry (pkgOf core) code (s.pkg (pkgOf core)).stalled
  else s

/-- A launch unit waits for pages for a context; it looks for them by itself (R100). -/
def State.launchWaits (s : State) (core : Nat) (dom : BitVec 12) (cin : BitVec 16) : Bool :=
  let p := s.pkg (pkgOf core)
  decide (core = unitPos (pkgOf core)) && ((p.reqs ++ p.resv).any (fun r => match r.who with
    | some w => w.domid == dom && w.cin == cin
    | none => true) || s.launches.any (fun x => decide (x.2.pkg = pkgOf core) && x.2.domid == dom && x.2.cin == cin))

/-- R256: the thread that waits for an absent page under a context and tag at a cluster. -/
def State.pageWaiter (s : State) (cl : Nat) (dom : BitVec 12) (cin tag : BitVec 16) : Option Nat :=
  (s.threads.find? (fun p => p.2.wait == some .page && p.2.domid == dom && p.2.cin == cin && p.2.tag == tag && decide (p.2.heldAt = some cl))).map Prod.fst
/-- R256: a wake reaches a context that waits for an absent page: a parked image joins its cluster's run queue, an anchored
slot becomes ready; a cause other than 0 is trapped when the instruction issues. -/
def State.wakeThread (s : State) (tid : Nat) (code : BitVec 8) : State :=
  let s1 := s.modThread tid (fun t => { t with wait := none, since := none, wakeCause := code })
  match (s.thread tid).place with
  | .parked cl => (s1.modThread tid (fun t => { t with place := .runq cl none false, seq := s.nextId })).bumpId
  | _ => s1
/-- R256: the two words of a wake. One that matches no waiting context is dropped and counted. (DEDUCED: log entry 56) -/
def execWake (w0 w1 : Word) (s : State) : Host.Outcome State Fault Refusal :=
  .next <|
    let dom := w0.extractLsb' 52 12
    let cin := w0.extractLsb' 36 16
    let tag := w0.extractLsb' 20 16
    let core := (w0.extractLsb' 2 18).toNat
    let code := w1.setWidth 8
    if w1 >>> 8 != 0 || !wakeCode code then s
    else if w0.extractLsb' 0 2 == 3 then s.wakeUnit core tag.toNat dom cin code
    else match s.pageWaiter (clusterOf core) dom cin tag with
      | some tid => s.wakeThread tid code
      | none => if s.launchWaits core dom cin then s else s.orphaned (clusterOf core)

end Sys2Proof.Machine
end

