-- ==== Sys2Proof/Machine/Reset.lean ====
section
/-! DEFINITION. Resets of a package (23: R477, R479): a package reset, by itself, after a trip, or after a life-cycle change
(R474); and a function-level reset of port 0. -/

namespace Sys2Proof.Machine

/-- The cluster lies in a package. -/
def inPkg (pkg cl : Nat) : Bool := decide (pkgOfDie (cl / 64) = pkg)
/-- Where a flit is, in a cluster. -/
def Msg.cluster (m : Msg) : Nat :=
  match m.loc with
  | .inject p _ | .port p _ _ | .held p _ | .ejected p | .iface _ p _ _ _ | .link _ p _ _ _ _ _ _ | .recv _ p _ _ => clusterOf p
  | .parked c _ | .fallen c | .stalled c _ => c
/-- A byte of a package's SRAM or DRAM. -/
def inPkgMem (pkg a : Nat) : Bool := decide (a < shadowBase) && inPkg pkg (homeCluster 0 (homeOf a))

/-- A package's record after a boot: its parts' constants, keys and storage stay, as does what the host has seen (R479, R473). (DEDUCED: log entry 53) -/
def Package.booted (p : Package) : Package :=
  { Package.reset with
    variant := p.variant, storage := p.storage, lcs := p.lcs, nonce := p.nonce, ownerKey := p.ownerKey, hostKeys := p.hostKeys
    meas := bootMeasurements p.lcs.toNat, msix := p.msix, answers := p.answers, spdm := p.spdm }

/-- Waves and invalidations without a package's clusters; one that waits for nothing more is answered. (DEDUCED: log entry 91) -/
def State.waves (s : State) (pkg : Nat) : State :=
  let out := fun (l : List Nat) => l.filter (fun c => !inPkg pkg c)
  let kills := (s.kills.filter (fun w => decide (pkgOf w.who.core ≠ pkg))).map (fun w => { w with left := out w.left })
  let xls := (s.xlinvs.filter (fun w => decide (pkgOf w.who.core ≠ pkg))).map (fun w => { w with left := out w.left })
  let s1 : State := { s with
    kills := kills.filter (fun w => !w.left.isEmpty), xlinvs := xls.filter (fun w => !w.left.isEmpty)
    fences := s.fences.filter (fun f => decide (pkgOf f.who.core ≠ pkg)) }
  let s2 := (kills.filter (fun w => w.left.isEmpty)).foldl (fun s w => s.answer w.who (.value (w.cin.setWidth 64))) s1
  (xls.filter (fun w => w.left.isEmpty)).foldl (fun s w => s.answer w.who (.value (invCode w.skipped))) s2

/-- What the domain keeps for all its packages returns to its reset values with logical die 0 (R439, R415); the time base starts
again when the package is the whole domain (R478). (DEDUCED: log entry 53) -/
def State.domainReset (s : State) (pkg : Nat) : State :=
  let s1 : State := if pkg = 0 then { s with xlbase := 0, pwin := 0, typebase := [], nextCin := [], floorCin := [], reclaimed := [] } else s
  if s.pkgsX * s.pkgsY = 1 then { s1 with timeNs := 0, tick := 0 } else s1

/-- R89: the dies of a package that boots load the placement table that the service pairs hold. (DEDUCED: log entry 53) -/
def State.copyPlace (s : State) (pkg : Nat) : State :=
  if s.place.isEmpty then s
  else ((List.range 256).filter (fun d => decide (pkgOfDie d = pkg) && s.diePresent d)).foldl (fun s d =>
    s.modDie d (fun x => { x with table := s.place })) s
/-- R479: a package reset: its threads, flits and launches are gone, its SRAM and DRAM are zero with their tags full, and every
unit has its reset value. Cores keep what self-test and rebinning have found out about them (R480). (DEDUCED: log entry 53) -/
def State.resetPackage (s : State) (pkg : Nat) : State :=
  let threads := (s.threads.filter (fun q => q.2.heldAt.any (inPkg pkg))).map Prod.fst
  let s1 := threads.foldl (fun s tid => s.killThread false tid) s
  let flits := (s1.msgs.filter (fun q => inPkg pkg q.2.cluster)).map Prod.fst
  let s2 := flits.foldl (fun s id => s.discardFlit false id) s1
  let ours := (s2.launches.filter (fun q => decide (q.2.pkg = pkg))).map Prod.fst
  let s3 := (ours.foldl (fun s id => s.discardShadows id) s2).waves pkg
  let s4 : State := { s3 with
    threads := s3.threads.filter (fun q => !(decide (scarabBase ≤ q.1) && decide (pkgOf (q.1 - scarabBase) = pkg)))
    cores := s3.cores.filterMap (fun q =>
      if pkgOf q.1 ≠ pkg then some q
      else if q.2.marginal || q.2.bin != 0 then some (q.1, { Core.reset (isPylon q.1) with marginal := q.2.marginal, bin := q.2.bin })
      else none)
    clusters := s3.clusters.filter (fun q => !inPkg pkg q.1)
    dies := (s3.dies.filter (fun q => decide (pkgOfDie q.1 ≠ pkg))).map (fun q =>
      (q.1, { q.2 with table := q.2.table.filter (fun r => decide (pkgOfDie r.1 ≠ pkg)) }))
    launches := (s3.launches.filter (fun q => decide (q.2.pkg ≠ pkg))).map (fun q => (q.1, q.2.cancelIf (q.2.placed.contains pkg)))
    gangs := s3.gangs.filter (fun g => decide (pkgOf g.who.core ≠ pkg) && !g.clusters.any (inPkg pkg))
    calls := s3.calls.filter (fun c => decide (pkgOf c.who.core ≠ pkg)), place := s3.place.filter (fun q => decide (pkgOfDie q.1 ≠ pkg))
    mem := s3.mem.filter (fun c => !inPkgMem pkg c.1), empties := s3.empties.filter (fun a => !inPkgMem pkg a)
    poison := s3.poison.filter (fun a => !inPkgMem pkg a), shadows := s3.shadows.filter (fun g => !inPkgMem pkg g.base)
    links := s3.links.filter (fun q => decide (q.1 / 32 ≠ pkg)), routers := s3.routers.filter (fun q => decide (pkgOf q.1 ≠ pkg)) }
  ((s4.modPkg pkg Package.booted).copyPlace pkg).domainReset pkg

/-- R479: power-on or a conventional reset of port 0. -/
def execPackageReset (pkg : Nat) (s : State) : Host.Outcome State Fault Refusal := .next (if s.pkgPresent pkg then s.resetPackage pkg else s)

/-- R477: a sensor has reached 115 °C: the cofferdams of every die are fenced and reset, then the package. -/
def execThermalTrip (pkg : Nat) (s : State) : Host.Outcome State Fault Refusal :=
  .next <|
    if !s.pkgPresent pkg then s
    else
      let cls := (s.endpointsIn sysScope).filter (inPkg pkg)
      (cls.foldl (fun s cl => if (s.cluster cl).fen then s else s.coffer (s.cofferdam (s.cdamOf cl))) s).resetPackage pkg

/-- R479: a function-level reset of port 0 clears H2DBASE to D2HHEAD and discards entries that have not been taken. -/
def execFunctionLevelReset (pkg : Nat) (s : State) : Host.Outcome State Fault Refusal :=
  .next <|
    if !s.pkgPresent pkg then s
    else s.modPkg pkg (fun p => { p with
      h2dBase := 0, h2dTail := 0, h2dHead := 0, h2dSeen := 0, d2hBase := 0, d2hTail := 0, d2hHead := 0 })

end Sys2Proof.Machine
end

