-- ==== Sys2Proof/Machine/Signature.lean ====
section
/-! DEFINITION. Ed25519 signatures (R1, R471, R474), verified as RFC 8032 (pure) has it: the curve's arithmetic over natural numbers
modulo the prime of its field. -/

namespace Sys2Proof.Machine

/-- The prime of the curve's field, and the order of its base point. -/
def curveP : Nat := 2 ^ 255 - 19
def curveL : Nat := 2 ^ 252 + 27742317777372353535851937790883648493
/-- The curve's constant, −121665 / 121666. -/
def curveD : Nat := 37095705934669439343138083508754565189542113879843219016388785533085940283555

/-- A power modulo the field's prime; `bits` bounds the width of the exponent. -/
def curvePow : (bits base exp : Nat) → Nat
  | 0, _, _ => 1
  | bits + 1, base, exp =>
    let half := curvePow bits (base * base % curveP) (exp / 2)
    if exp % 2 = 1 then base * half % curveP else half
/-- A negated element of the field. -/
def curveNeg (a : Nat) : Nat := (curveP - a % curveP) % curveP

/-- A point in extended coordinates: x = X / Z, y = Y / Z, x y = T / Z. -/
structure CurvePoint where
  x : Nat
  y : Nat
  z : Nat
  t : Nat
deriving DecidableEq, Repr

/-- The sum of two points. -/
def CurvePoint.add (p q : CurvePoint) : CurvePoint :=
  let a := (p.y + curveNeg p.x) * (q.y + curveNeg q.x) % curveP
  let b := (p.y + p.x) * (q.y + q.x) % curveP
  let c := p.t * 2 * curveD * q.t % curveP
  let d := p.z * 2 * q.z % curveP
  let e := b + curveNeg a
  let f := d + curveNeg c
  let g := d + c
  let h := b + a
  ⟨e * f % curveP, g * h % curveP, f * g % curveP, e * h % curveP⟩
/-- A multiple of a point; `bits` bounds the width of the factor. -/
def CurvePoint.mul : (bits : Nat) → (k : Nat) → CurvePoint → CurvePoint
  | 0, _, _ => ⟨0, 1, 1, 0⟩
  | bits + 1, k, p =>
    let twice := CurvePoint.mul bits (k / 2) (p.add p)
    if k % 2 = 1 then p.add twice else twice
/-- Two points are the same. -/
def CurvePoint.same (p q : CurvePoint) : Bool :=
  decide (p.x * q.z % curveP = q.x * p.z % curveP) && decide (p.y * q.z % curveP = q.y * p.z % curveP)

/-- The point that 32 bytes encode, as a little-endian number: y, and the sign of x in the top bit. (PRESUMED: log entry 14) -/
def pointOf (n : Nat) : Option CurvePoint :=
  let y := n % 2 ^ 255
  let sign := n / 2 ^ 255
  let u := (y * y + curveNeg 1) % curveP
  let v := (curveD * y * y + 1) % curveP
  let v3 := v * v * v % curveP
  let x0 := u * v3 * curvePow 255 (u * v3 * v3 * v % curveP) ((curveP - 5) / 8) % curveP
  let root :=
    if v * x0 * x0 % curveP = u then some x0
    else if v * x0 * x0 % curveP = curveNeg u then some (x0 * curvePow 255 2 ((curveP - 1) / 4) % curveP)
    else none
  match root with
  | none => none
  | some x =>
    if curveP ≤ y || decide (x = 0 ∧ sign = 1) then none
    else
      let x1 := if x % 2 = sign then x else curveNeg x
      some ⟨x1, y, 1, x1 * y % curveP⟩
/-- The base point. -/
def curveBase : CurvePoint :=
  let x := 15112221349535400772501151409588531511454012693041857206046113283949847762202
  let y := 46316835694926478169428394003475163141307993866256225615783033603165251855960
  ⟨x, y, 1, x * y % curveP⟩

/-- Bytes as the words of memory that hold them. -/
def wordsOf (l : List Byte) : List Word :=
  (List.range (l.length / 8)).map (fun i => BitVec.ofNat 64 (bytesNat l / 2 ^ (64 * i)))

/-- RFC 8032, 5.1.7: a signature of 64 bytes on a message of whole words verifies under a key of 32 bytes. (PRESUMED: log entry 14) -/
def signatureValid (key message sig : List Byte) : Bool :=
  let r := sig.take 32
  let s := bytesNat (sig.drop 32)
  match pointOf (bytesNat key), pointOf (bytesNat r) with
  | some a, some rp =>
    let k := sha512Words (wordsOf (r ++ key ++ message)) % curveL
    decide (key.length = 32 ∧ sig.length = 64 ∧ s < curveL) &&
      (CurvePoint.mul 256 (8 * s) curveBase).same ((CurvePoint.mul 4 8 rp).add (CurvePoint.mul 256 (8 * k) a))
  | _, _ => false

end Sys2Proof.Machine
end

