-- ==== Sys2Proof/Machine/Mailbox.lean ====
section
/-! DEFINITION. The host's mailbox (R457 to R459): registers, rings and their entries; extent capabilities (R471, R472); the
life cycle and SPDM (R474). -/

namespace Sys2Proof.Machine

/-! ### Rings (R457, R458) -/

/-- Bytes of host memory from a bus address. -/
def State.hostBytes (s : State) (a n : Nat) : List Byte := (List.range n).map (fun i => s.byte (hostBase + a + i))
/-- A word of host memory. -/
def State.hostWord (s : State) (a : Nat) : Word := s.peekW (hostBase + a)

/-- The device may take an entry: the mailbox is served, and a doorbell covers one (R458, R479). -/
def State.untaken (s : State) (pkg : Nat) : Bool :=
  let p := s.pkg pkg
  s.pkgPresent pkg && p.ready && p.h2dHead != p.h2dSeen && !(s.cluster (clusterOf (unitPos pkg))).fen
/-- A word of the entry that the device takes next. -/
def State.entryWord (s : State) (pkg i : Nat) : Word :=
  s.hostWord ((s.pkg pkg).h2dBase.toNat + 64 * (s.pkg pkg).h2dHead.toNat + 8 * i)
/-- TYPE, SEQ and ARG of an entry. -/
def entryType (w : Word) : Nat := (w.extractLsb' 56 8).toNat
def entrySeq (w : Word) : BitVec 16 := w.extractLsb' 32 16
def entryArg (w : Word) : Nat := (w.extractLsb' 0 32).toNat
/-- The head entry is taken. -/
def State.taken (s : State) (pkg : Nat) : State := s.modPkg pkg (fun p => { p with h2dHead := p.h2dHead + 1 })
/-- The device acts on its head entry when that has a type: `f` is given word 0. -/
def State.onEntry (s : State) (pkg ty : Nat) (f : Word → State) : State :=
  let w := s.entryWord pkg 0
  if s.untaken pkg && decide (entryType w = ty) then f w else s
/-- A reply: type, the entry's SEQ, ARG. -/
def State.replyTo (s : State) (pkg ty : Nat) (w : Word) (arg : Nat) : State := s.toHost pkg [ringWord ty (entrySeq w).toNat arg]

/-- R458: a host write to H2DTAIL. Before the mailbox is served the value is only stored (R479). -/
def execH2dDoorbell (pkg : Nat) (tail : BitVec 8) (s : State) : Host.Outcome State Fault Refusal :=
  .next (if s.pkgPresent pkg then s.modPkg pkg (fun p => { p with h2dTail := tail, h2dSeen := tail }) else s)

/-- Messages that a full ring has held back go out while it has room. -/
def State.release (s : State) (pkg : Nat) : List (List Word) → State
  | [] => s
  | ws :: r =>
    if (s.pkg pkg).d2hFull then s
    else State.release ((s.modPkg pkg (fun p => { p with d2hHeldBack := [] })).toHost pkg ws |>.modPkg pkg (fun p => { p with d2hHeldBack := r })) pkg r

/-- R457: a host write to a register of BAR0 other than H2DTAIL; unlisted and read-only offsets ignore it. A ring lies at a
multiple of 16 KiB. (DEDUCED: log entry 50) -/
def execRegisterWrite (pkg off : Nat) (val : BitVec 64) (s : State) : Host.Outcome State Fault Refusal :=
  .next <|
    if !s.pkgPresent pkg then s
    else if off = 0x010 then s.modPkg pkg (fun p => { p with h2dBase := val &&& ~~~0x3FFF })
    else if off = 0x028 then s.modPkg pkg (fun p => { p with d2hBase := val &&& ~~~0x3FFF })
    else if off = 0x038 then
      let s1 := s.modPkg pkg (fun p => { p with d2hHead := val.setWidth 8 })
      s1.release pkg (s1.pkg pkg).d2hHeldBack
    else if 0x100 ≤ off ∧ off < 0x180 ∧ off % 8 = 0 then
      s.modPkg pkg (fun p => { p with aper := KMap.set p.aper ((off - 0x100) / 8) val })
    else s

/-! ### Entries (R458, R459) -/

/-- R458: a host LAUNCH: the launch unit of the package reads, checks and places the packet; a full queue puts it aside. The
clauses act on compute cluster 0 of logical die 0 of the package. -/
def execMbLaunch (pkg : Nat) (s : State) : Host.Outcome State Fault Refusal :=
  .next (s.onEntry pkg 1 fun w =>
    let r : LaunchReq := ⟨s.nextId, s.entryWord pkg 1, none, entrySeq w, die0 pkg * 64, 0, none, none⟩
    match s.bumpId.takeRequest pkg r with
    | .over s1 q code => (s1.taken pkg).launchAnswer pkg r q code
    | .full goal =>
      if (s.pkg pkg).resv.length < 64 then (s.bumpId.taken pkg).modPkg pkg (fun p => { p with resv := p.resv ++ [{ r with goal := some goal }] }) else s
    | .stall s1 => { s1 with nextId := s.nextId })

/-- R471: the fields of a capability that may be loaded. (DEDUCED: log entry 48) -/
def capOk (w : Nat → Word) : Bool :=
  w 0 >>> 60 == 14 && (w 0).extractLsb' 28 32 == 0 && decide (1 ≤ (w 2).toNat ∧ (w 2).toNat ≤ 2 ^ 40) && (w 3).extractLsb' 2 62 == 0 &&
    (w 5).extractLsb' 2 62 == 0 && w 6 == 0 && w 7 == 0
/-- R471: a capability as it is kept. -/
def capOf (w : Nat → Word) : Extent :=
  ⟨(w 0).extractLsb' 16 12, (w 0).extractLsb' 0 16, (w 1).toNat, (w 2).toNat, bit (w 3) 1, bit (w 3) 0, (w 4).toNat⟩
/-- R472: the status of a load, 0 when the capability is loaded. (DEDUCED: log entries 14, 48) -/
def State.capStatus (s : State) (pkg a : Nat) : Nat :=
  let w := fun (i : Nat) => s.hostWord (a + 8 * i)
  if !capOk w then 2
  else match KMap.find (s.pkg pkg).hostKeys ((w 5).extractLsb' 0 2).toNat with
    | none => 3
    | some key => if signatureValid key (s.hostBytes a 64) (s.hostBytes (a + 64) 64) then 0 else 1
/-- R472. -/
def execCapload (pkg : Nat) (s : State) : Host.Outcome State Fault Refusal :=
  .next (s.onEntry pkg 2 fun w =>
    let a := (s.entryWord pkg 1).toNat
    let code := s.capStatus pkg a
    let cap := capOf (fun i => s.hostWord (a + 8 * i))
    let s1 := if code = 0 then s.modPkg pkg (fun p => { p with extents := KMap.set p.extents (entryArg w % 256) cap }) else s
    (s1.taken pkg).replyTo pkg 0x82 w code)
/-- R458, R472. -/
def execCapdrop (pkg : Nat) (s : State) : Host.Outcome State Fault Refusal :=
  .next (s.onEntry pkg 3 fun w =>
    ((s.modPkg pkg (fun p => { p with extents := KMap.erase p.extents (entryArg w % 256) })).taken pkg).replyTo pkg 0x83 w 0)

/-- R459: an agent request fails: HOSTERR at the requesting instruction. -/
def State.agentFail (s : State) (pkg : Nat) (r : AtomReq) : State := s.reply r.who (homePos pkg .host) kData (.fail 0x0D)
/-- R458, R459: ARG 1 registers the agent and 0 removes it, which fails its outstanding requests. (DEDUCED: log entry 49) -/
def execAgentreg (pkg : Nat) (s : State) : Host.Outcome State Fault Refusal :=
  .next (s.onEntry pkg 4 fun w =>
    let s1 := if entryArg w = 1 then s.modPkg pkg (fun p => { p with agent := true })
      else if entryArg w = 0 then
        (s.pkg pkg).agentReqs.foldl (fun s q => s.agentFail pkg q.2.1) (s.modPkg pkg (fun p => { p with agent := false, agentReqs := [] }))
      else s
    (s1.taken pkg).replyTo pkg 0x84 w 0)
/-- R459: the agent's answer to the request that SEQ names: the old value, or a failure. -/
def execAgentrsp (pkg : Nat) (s : State) : Host.Outcome State Fault Refusal :=
  .next (s.onEntry pkg 6 fun w =>
    let s1 := s.taken pkg
    match (s.pkg pkg).agentReqs.find? (fun q => decide (q.1 % 65536 = (entrySeq w).toNat)) with
    | none => s1
    | some (id, r, _) =>
      let s2 := s1.modPkg pkg (fun p => { p with agentReqs := p.agentReqs.filter (fun q => decide (q.1 ≠ id)) })
      if entryArg w = 0 then s2.reply r.who (homePos pkg .host) kData (.value (extend (s.entryWord pkg 1) r.n false))
      else s2.agentFail pkg r)

/-- R458: types that the device does not know are answered 0xFF. -/
def execUnknownEntry (pkg : Nat) (s : State) : Host.Outcome State Fault Refusal :=
  .next <|
    let w := s.entryWord pkg 0
    if s.untaken pkg && !([1, 2, 3, 4, 6, 7].contains (entryType w)) then (s.taken pkg).replyTo pkg 0xFF w (entryType w) else s

/-! ### The life cycle (R474) -/

/-- R474: the key with which a request is checked: Ryllaum's for the step to PROVISION, else the owner's, if one is fused. -/
def Package.lcKey (p : Package) (target : Nat) : Option (List Byte) := if target = 2 then some Config.firmwareKey else p.ownerKey
/-- R474: the request in the head entry is accepted. (DEDUCED: log entries 14, 47) -/
def State.lcOk (s : State) (pkg : Nat) (w : Word) : Bool :=
  let p := s.pkg pkg
  let e := s.entryWord pkg
  let target := entryArg w
  let at_ := p.h2dBase.toNat + 64 * p.h2dHead.toNat
  let msg := s.hostBytes (at_ + 8) 32 ++ (if target = 2 then s.hostBytes (e 4).toNat 32 else [])
  (decide (target = p.lcs.toNat + 1 ∧ target ≤ 5) || (decide (target = 5) && p.lcs != 5)) && e 1 == BitVec.ofNat 64 target &&
    decide (target < 256) && (decide (target = 2) || e 4 == 0) && p.nonce != some (e 3) && (!decide (target = 2) || p.ownerKey.isNone) &&
    (match p.lcKey target with
      | some key => signatureValid key msg (s.hostBytes (e 5).toNat 64)
      | none => false)
/-- A launch of the package, or one that has built threads on it, is running. -/
def State.launchesOn (s : State) (pkg : Nat) : Bool :=
  s.launches.any (fun q => (decide (q.2.pkg = pkg) || q.2.placed.contains pkg) && q.2.state != .over)
/-- R474: what a package keeps of an accepted request: the state, the nonce, and the owner key that PROVISION fuses; SCRAPPED
destroys every key. -/
def Package.lifeCycle (p : Package) (target : Nat) (nonce : Word) (key : List Byte) : Package :=
  let p1 := { p with lcs := BitVec.ofNat 8 target, nonce := some nonce }
  if target = 2 then { p1 with ownerKey := some key }
  else if target = 5 then { p1 with ownerKey := none, hostKeys := [] }
  else p1
/-- R474: an accepted change waits until no launch is running, then wipes all memory and resets the package. -/
def execLcreq (pkg : Nat) (s : State) : Host.Outcome State Fault Refusal :=
  .next (s.onEntry pkg 7 fun w =>
    if !s.lcOk pkg w then (s.taken pkg).replyTo pkg 0x87 w 1
    else if s.launchesOn pkg then s
    else
      let key := s.hostBytes (s.entryWord pkg 4).toNat 32
      (((s.taken pkg).replyTo pkg 0x87 w 0).modPkg pkg (fun p => p.lifeCycle (entryArg w) (s.entryWord pkg 3) key)).resetPackage pkg)

/-- R474: the response to a request of SPDM, by their codes: VERSION, CAPABILITIES, ALGORITHMS, DIGESTS, CERTIFICATE,
CHALLENGE_AUTH, MEASUREMENTS; any other request, and one that needs the AliasID key where there is none, is answered ERROR. (PRESUMED: log entry 46) -/
def spdmResponse (lcs code : BitVec 8) : BitVec 8 :=
  let alias_ := lcs == 2 || lcs == 3
  if code = 0x84 then 0x04
  else if code = 0xE1 then 0x61
  else if code = 0xE3 then 0x63
  else if code = 0x81 && alias_ then 0x01
  else if code = 0x82 && alias_ then 0x02
  else if code = 0x83 && alias_ then 0x03
  else if code = 0xE0 && alias_ then 0x60
  else 0x7F
/-- R474. (PRESUMED: log entry 46) -/
def execSpdmRequest (pkg : Nat) (code : BitVec 8) (s : State) : Host.Outcome State Fault Refusal :=
  .next (if s.pkgPresent pkg then s.modPkg pkg (fun p => { p with spdm := p.spdm ++ [spdmResponse p.lcs code] }) else s)

end Sys2Proof.Machine
end

