-- ==== Sys2Proof/Machine/Service.lean ====
section
/-! DEFINITION. What the service pairs do by themselves (22, 23): heartbeats and the leader (R461), threads resumed (R463), calls
executed (R465, R466), clocks and the time base (R477, R478), marginal cores (R480, R481), the placement table (R89, R90),
extension directories (R131), the management interfaces (R248), contexts made live (R439), and errors of data (R258). -/

namespace Sys2Proof.Machine

/-! ### Heartbeats and the leader (R461) -/

/-- R461: a die's heartbeat is valid at another: the last one arrived less than 3,500,000 ns before. -/
def State.beatValid (s : State) (at_ from_ : Nat) : Bool := decide (s.timeNs < KMap.getD (s.die at_).beats from_ 0 + 3500000)
/-- The service pair of a die works: the die is present and its port cluster is not fenced. -/
def State.serving (s : State) (die : Nat) : Bool := s.diePresent die && !(s.cluster (portOf die)).fen
/-- The dies present other than one. -/
def State.otherDies (s : State) (die : Nat) : List Nat := s.diesPresent.filter (fun d => decide (d ≠ die))

/-- R461: every 1,000,000 ns a heartbeat goes to every other die. (DEDUCED: log entry 42) -/
def execHeartbeatSend (die : Nat) (s : State) : Host.Outcome State Fault Refusal :=
  .next <|
    if !s.serving die || decide (s.timeNs < (s.die die).sent + 1000000) then s
    else ((s.otherDies die).foldl (fun s d => s.modDie d (fun x => { x with beats := KMap.set x.beats die s.timeNs })) s).modDie die
      (fun x => { x with sent := s.timeNs })

/-- R462, R468: at a takeover, a call that was accepted and not committed is LOST, one that was committed stays; which calls were
committed is open. -/
def State.replayJournal (s : State) : State :=
  s.calls.foldl (fun s c => if Config.freeNat s.free % 2 = 0 then s.bumpFree.callEnd c none 0x26 else s.bumpFree) s
/-- The kind of an announcement among messages of kind SVC: the model's number. (DEDUCED: log entry 42) -/
abbrev svcAnnounce : Nat := 3
/-- R461: a die takes over: the old leader's port cluster is fenced, the journal replayed, and the new EGEN announced. (DEDUCED: log entry 42) -/
def State.takeOver (s : State) (die : Nat) : State :=
  let old := portOf (s.die die).leader
  let s1 := if (s.cluster old).fen then s else s.coffer (s.cofferdam (s.cdamOf old))
  let egen := (s1.die die).egen + 1
  let s2 := s1.replayJournal.modDie die (fun d => { d with egen := egen, leader := die })
  let m : SvcMsg := ⟨svcAnnounce, BitVec.ofNat 64 die, egen.setWidth 64, []⟩
  ((s2.otherDies die).foldl (fun s d => s.svc d m) s2).event (pkgOfDie die) 1 [BitVec.ofNat 64 die, egen.setWidth 64]
/-- R461: the leader's heartbeat is no longer valid, and this die is the lowest other die with a valid one. -/
def execHeartbeatTimeout (die : Nat) (s : State) : Host.Outcome State Fault Refusal :=
  .next <|
    let old := (s.die die).leader
    let lower := (s.otherDies die).any (fun d => decide (d < die) && decide (d ≠ old) && s.beatValid die d)
    if !s.serving die || decide (old = die) || s.beatValid die old || lower then s else s.takeOver die

/-- R461: an announcement is accepted with a higher EGEN, or an equal one and a lower die number; a die whose announcement is
rejected withdraws. (DEDUCED: log entry 42) -/
def execLeaderAnnouncement (die from_ : Nat) (egen : BitVec 32) (s : State) : Host.Outcome State Fault Refusal :=
  .next <|
    let d := s.die die
    let m : SvcMsg := ⟨svcAnnounce, BitVec.ofNat 64 from_, egen.setWidth 64, []⟩
    if !s.serving die || !d.svc.contains m then s
    else
      let s1 := s.modDie die (fun d => { d with svc := d.svc.erase m })
      if d.egen.toNat < egen.toNat ∨ (d.egen = egen ∧ from_ < d.leader) then s1.modDie die (fun d => { d with egen := egen, leader := from_ })
      else s1.modDie from_ (fun x => if x.egen = egen ∧ x.leader = from_ then { x with egen := d.egen, leader := d.leader } else x)

/-! ### Threads resumed (R463) -/

/-- R463: a frozen or halted thread goes on at a new PC, or its own, with INH cleared, from its record cluster's run queue. -/
def State.resume (s : State) (tid : Nat) (pc : Word) : State :=
  let t := s.thread tid
  let s1 := s.putWords (t.tframe.toNat + 296) [0]
  (s1.modThread tid (fun t => { t with
    inh := false, pc := if pc = 0 then t.pc else pc, place := .runq t.recordCluster none t.anc, seq := s.nextId, resting := true
    wait := none, since := none })).bumpId
/-- R463: word 0 names the thread as the fault message of R256 does; a message that matches no frozen thread is an orphan. -/
def execThreadResumeMessage (w0 w1 : BitVec 64) (s : State) : Host.Outcome State Fault Refusal :=
  .next <|
    let orphan := s.orphaned (clusterOf (w0.extractLsb' 2 18).toNat)
    let hit := s.threads.find? (fun p => p.2.domid == w0.extractLsb' 52 12 && p.2.cin == w0.extractLsb' 36 16 && p.2.tag == w0.extractLsb' 20 16 &&
      (match p.2.place with
        | .frozen _ => true
        | _ => false))
    if w1.extractLsb' 0 3 != 0 || w0.extractLsb' 0 2 != 0 then orphan
    else match hit with
      | some (tid, _) => s.resume tid w1
      | none => orphan

/-! ### Calls (R465, R466) -/

/-- R466: an earlier call that must be executed wholly before this one. -/
def Call.before (a b : Call) : Bool :=
  a.who.domid == b.who.domid && a.who.cin == b.who.cin &&
    ((a.token == b.token && a.token != 0) || (decide (a.who.tid = b.who.tid) && (a.token == 0 || b.token == 0)))
/-- R464: word 0 of the block is a call's. -/
def State.callOk (s : State) (c : Call) : Bool :=
  let w := s.peekW (s.viewOf c.who.domid c.who.shadow c.pa)
  w >>> 60 == 13 && w.extractLsb' 16 44 == 0
/-- R464: a status of Lovar OS: 0x00 or 0x40 to 0x7F, and bits above as it defines them. (DESIGN CHOICE: log entry 15) -/
def callStatus (k : Nat) (w : Word) : Word := (w &&& ~~~0xFF) ||| BitVec.ofNat 64 (if k % 65 = 0 then 0 else 63 + k % 65)
/-- R466, R468: the service side executes a call: RESULT, then STATUS. What the call does is Lovar OS's. (DESIGN CHOICE: log entry 15) -/
def execSyscallExecute (call : Nat) (s : State) : Host.Outcome State Fault Refusal :=
  .next <| match s.calls.find? (fun c => decide (c.id = call)) with
    | none => s
    | some c =>
      if (s.calls.takeWhile (fun x => decide (x.id ≠ call))).any (fun x => x.before c) then s
      else if !s.isLive (portOf (dieOf c.who.core)) c.who.domid c.who.cin then { s with calls := s.calls.filter (fun x => decide (x.id ≠ call)) }
      else if !s.callOk c then s.callEnd c none 0x1A
      else { s with free := s.free + 3 }.callEnd c (some (Config.callResult s.free)) (callStatus (Config.freeNat (s.free + 1)) (Config.freeWord (s.free + 2)))

/-! ### Clocks (R477, R478) -/

/-- R477: once in 1,000,000 ns the clock of a package falls by 100 MHz above 2,800 W, to no less than 2,000 MHz, and rises by
100 MHz once the power is 5 % below. (DESIGN CHOICE: log entry 44) -/
def execPowerThrottle (pkg watts : Nat) (s : State) : Host.Outcome State Fault Refusal :=
  .next <|
    let p := s.pkg pkg
    if !s.pkgPresent pkg || decide (s.timeNs < p.throttled + 1000000) then s
    else
      let clock := if 2800 < watts then Nat.max 2000 (p.clock - 100) else if watts ≤ 2660 then Nat.min 2700 (p.clock + 100) else p.clock
      s.setPkg pkg { p with clock := clock, throttled := s.timeNs }

/-- R478, R419: a die's correction becomes `ns`, within 4 ns of its leader's, when no reading of it decreases. (DESIGN CHOICE: log entry 43) -/
def execTimeBaseCorrection (die : Nat) (ns : Int) (s : State) : Host.Outcome State Fault Refusal :=
  .next <|
    let lead := (s.die (s.die die).leader).skew
    if s.serving die && decide ((s.die die).leader ≠ die) && decide ((s.die die).skew ≤ ns) && decide (lead - 4 ≤ ns ∧ ns ≤ lead + 4) then
      s.modDie die (fun d => { d with skew := ns })
    else s

/-! ### Marginal cores and spares (R480 to R482, R89, R90) -/

/-- R480. -/
def execCoreMarginal (core : Nat) (s : State) : Host.Outcome State Fault Refusal :=
  .next (if s.corePresent core && !isPylon core then s.modCore core (fun c => { c with marginal := true }) else s)

/-- A core as good as new: its disagreements are forgotten, and entries that wait for it may enter (R481). -/
def State.readmit (s : State) (core : Nat) (bin : BitVec 2) : State :=
  s.modCore core (fun c => { c with marginal := false, bin := bin, disagreements := [] })
/-- The spare cluster positions of a die that no logical cluster uses (R89, R482). (DEDUCED: log entry 45) -/
def State.sparesOf (s : State) (die : Nat) : List Nat :=
  [34, 35].filter (fun p => s.diesPresent.all (fun d => decide ((s.placeRow d).pdie ≠ (s.placeRow die).pdie) ||
    (List.range 33).all (fun c => decide ((s.cmap d c).2 ≠ p))))
/-- R89, R90: a row of the placement table is written, in the table of the service pairs and in every die's copy, which each port
cluster acknowledges at once. (DEDUCED: log entry 88) -/
def State.writePlace (s : State) (die : Nat) (row : PlaceRow) : State :=
  s.diesPresent.foldl (fun s d => s.modDie d (fun r => { r with table := KMap.set r.table die row })) { s with place := KMap.set s.place die row }
/-- R89: a CMAP entry is written. -/
def State.setCmap (s : State) (die c : Nat) (e : Bool × Nat) : State :=
  s.writePlace die { s.placeRow die with cmap := KMap.set (s.placeRow die).cmap c e }
/-- R90 step 1: the work of a cluster has been stopped, by a fence or by a gang switch. -/
def State.halted (s : State) (cl : Nat) : Bool :=
  (s.cluster cl).fen || s.gangs.any (fun g => !g.done && g.stopped.contains cl)
/-- R90: a logical die may be moved to a physical one: its work is stopped, and no other logical die stands there. -/
def State.dieMay (s : State) (die : Nat) (v : Bool) (pdie : Nat) : Bool :=
  (s.clustersOf die).all s.halted &&
    (!v || (s.diePhysical pdie && s.diesPresent.all (fun d => decide (d = die) || decide ((s.placeRow d).pdie ≠ pdie))))
/-- R90: a CMAP entry may be written: the cluster's work is stopped, and a compute cluster moves to a spare position that no
logical cluster uses. -/
def State.cmapMay (s : State) (die c : Nat) (pos : Nat) : Bool :=
  decide (c < 33) && s.halted (die * 64 + c) && (decide ((s.cmap die c).2 = pos) || (decide (c < 32) && (s.sparesOf die).contains pos))
/-- R90: a cluster moves to another physical position, whose cores have not worn. -/
def State.moveCluster (s : State) (die c : Nat) (e : Bool × Nat) : State :=
  (clusterCores (die * 64 + c)).foldl (fun s k => if (KMap.find s.cores k).isSome then s.readmit k 0 else s) (s.setCmap die c e)
/-- R481: a core fails both bins: its cluster, once stopped (R90), moves to a spare one, or the core is absent and entries that
wait for it go to the lowest-numbered core that is left. (DEDUCED: log entry 45) -/
def State.retireCore (s : State) (core : Nat) : State :=
  match s.sparesOf (dieOf core) with
  | p :: _ => if s.halted (clusterOf core) then s.moveCluster (dieOf core) (clusOf core) (true, p) else s
  | [] =>
    let s1 := s.modCore core (fun c => { c with bin := 3 })
    let next := (clusterCores (clusterOf core)).find? (fun k => s1.corePresent k && !(s1.core k).marginal)
    { s1 with threads := s1.threads.map (fun p => match p.2.place with
      | .runq cl (some k) a => if k = core ∧ next.isSome then (p.1, { p.2 with place := .runq cl next a }) else p
      | _ => p) }
/-- R481: rebinning, once only the scarab thread is left on a marginal core. (DEDUCED: log entry 45) -/
def execRebinning (core : Nat) (bin1 bin2 : Bool) (s : State) : Host.Outcome State Fault Refusal :=
  .next <|
    let c := s.core core
    if !c.marginal || c.bin == 3 || c.pair.isSome || (List.range 7).any (fun k => (s.occupant core k).isSome) then s
    else if bin1 then s.readmit core 1
    else if bin2 then s.readmit core 2
    else s.retireCore core

/-- R89, R90: the service pairs rewrite a word of the placement table, for a unit whose work has been stopped. (DEDUCED: log entry 88) -/
def execPlacementSwap (die : Nat) (entry : PlaceEntry) (s : State) : Host.Outcome State Fault Refusal :=
  .next <|
    if 256 ≤ die then s
    else match entry with
      | .die v pdie => if s.dieMay die v pdie.toNat then s.writePlace die { s.placeRow die with valid := v, pdie := pdie.toNat } else s
      | .cmap c v pos =>
        if !s.cmapMay die c pos.toNat then s
        else if (s.cmap die c).2 = pos.toNat then s.setCmap die c (v, pos.toNat)
        else s.moveCluster die c (v, pos.toNat)

/-! ### Management (R131, R248, R148, R470, R448, R438) -/

/-- R131: a core with a slot that takes roaming threads and lists the extension. -/
def State.listsRoaming (s : State) (core ext : Nat) : Bool :=
  (slotsOf core).any (fun k => slotTakes core k false && bit (s.extList core k) ext)
/-- Routers with those that one hop reaches from them, failed links not used. -/
def State.spread (s : State) (l : List Nat) : List Nat :=
  l.foldl (fun acc p => (List.range 4).foldl (fun acc d => match s.neighbour p d with
    | some q => if crossing p q d && (s.link (s.linkOf p q d)).failed then acc else insertN acc q
    | none => acc) acc) l
/-- The hops from one of `reach` to a router, failed links not used; more than any path has where there is none. (DESIGN CHOICE: log entry 68) -/
def State.hops (s : State) (dest : Nat) : Nat → List Nat → Nat
  | 0, _ => 0
  | fuel + 1, reach => if reach.contains dest then 0 else 1 + State.hops s dest fuel (s.spread reach)
/-- The distance of R131 between the physical positions of two cores (R376), failed links not used. -/
def State.coreDist (s : State) (a b : Nat) : Nat :=
  let p := (s.physOf a).getD a
  let q := (s.physOf b).getD b
  if s.links.any (fun l => l.2.failed) then s.hops q (s.tilesX * s.tilesY) [p] else s.dist p q
/-- R131: the first candidate is preferred: nearer to `core`, then lower Y, then lower X. -/
def State.nearer (s : State) (core a b : Nat) : Bool :=
  decide (s.coreDist core a < s.coreDist core b ∨ (s.coreDist core a = s.coreDist core b ∧ a < b))
/-- R131: the core nearest to `core` among those that list the extension for roaming threads. -/
def State.searchTarget (s : State) (core ext : Nat) : Option Nat :=
  ((s.diesPresent.flatMap s.clustersOf).flatMap clusterCores).foldl (fun best k =>
    if s.corePresent k && s.listsRoaming k ext then match best with
      | some b => if s.nearer core k b then some k else best
      | none => some k
    else best) none
/-- R131: an entry that the service pair may write: the nearest core's. -/
def State.dirEntryOk (s : State) (core ext : Nat) (v : Bool) (pos : BitVec 18) : Bool :=
  match s.searchTarget core ext with
  | some k => v && decide (pos.toNat = k)
  | none => !v
/-- R131: an entry of a core's extension directory. -/
def execExtensionDirectoryWrite (core ext : Nat) (v : Bool) (pos : BitVec 18) (s : State) : Host.Outcome State Fault Refusal :=
  .next (if s.corePresent core && decide (ext < 31) && s.dirEntryOk core ext v pos then
    s.modCore core (fun c => { c with extDir := KMap.set c.extDir ext (if v then some pos.toNat else none) })
  else s)

/-- R248: a write of the management interfaces. (DESIGN CHOICE: log entry 4) -/
def State.manage (s : State) : MgmtWrite → State
  | .tcmOwner core dom => if s.corePresent core && !isPylon core then s.modCore core (fun c => { c with tcmOwner := some dom }) else s
  | .scratchOwner cl dom => if s.clusterPresent cl then s.modCluster cl (fun c => { c with spOwner := some dom }) else s
  | .deckGrant die seg dom => if s.diePresent die && decide (seg < 128) then s.modDie die (fun d => { d with deckOwner := KMap.set d.deckOwner seg dom }) else s
  | .hotThreshold die x => s.modDie die (fun d => { d with hot := x })
  | .coolThreshold die x => s.modDie die (fun d => { d with cool := x })
  | .storageTarget target dev => { s with packages := (List.range 64).foldl (fun m p => if s.pkgPresent p then
      KMap.set m p (let r := s.pkg p; { r with targets := match dev with
        | some d => KMap.set r.targets target.toNat d
        | none => KMap.erase r.targets target.toNat }) else m) s.packages }
  | .shadowReserve cl n => if isCompute cl then s.modCluster cl (fun c => { c with shadowReserve := n }) else s
  | .orphanClear cl => s.modCluster cl (fun c => { c with orphan := 0 })
/-- R248. -/
def execManagementWrite (w : MgmtWrite) (s : State) : Host.Outcome State Fault Refusal := .next (s.manage w)

/-- R439: a context may be made live: no endpoint holds an entry for it, and an RCLF of system scope has covered what was issued. -/
def State.mayGoLive (s : State) (dom : BitVec 12) : Bool :=
  s.clusters.all (fun p => KMap.getD p.2.live dom.toNat 0 == 0) && (s.next dom == 0 || s.reclaimed.contains dom.toNat)
/-- R439. -/
def execMakeContextLive (dom : BitVec 12) (s : State) : Host.Outcome State Fault Refusal :=
  .next <|
    if !s.mayGoLive dom then s
    else match s.issueCin dom with
      | none => s
      | some (n, s1) =>
        (s1.endpointsIn sysScope).foldl (fun s cl => s.setLive cl dom n) { s1 with floorCin := KMap.set s1.floorCin dom.toNat n }

/-- R258: an uncorrectable error marks a word of DRAM or deck poisoned. -/
def execDramDataError (addr : Nat) (s : State) : Host.Outcome State Fault Refusal :=
  .next <|
    let here := match homeOf addr with
      | .vault cl => s.diePresent (cl / 64)
      | .deck d _ => s.diePresent d && decide (addr < deckBase + 34359738368)
      | .tcm _ | .pool _ | .host => false
    if here && !s.poison.contains (wordOf addr) then { s with poison := s.poison ++ [wordOf addr] } else s

end Sys2Proof.Machine
end

