-- ==== Sys2Proof/Machine/Auto.lean ====
section
/-! DEFINITION. What the domain does by itself, in a fixed order (95): the events whose surroundings supply nothing, routers, the
barrels, and the passing of a cycle. An event that has nothing to do leaves the state as it is. -/

namespace Sys2Proof.Machine

/-! ### Events that may be pending -/

/-- What an event does: a meaning of the dispatch, with its arguments. -/
abbrev Event := State → Host.Outcome State Fault Refusal


/-- Events of a thread. -/
def threadEvents (tid : Nat) : List Event :=
  [execSlotLoadDone tid, execRestingStateReload tid, execMonitorTrigger tid, execMwaitTimeout tid, execWaitlimExpiry tid, execThermalDisplacement tid]
/-- The event by which a flit is taken at its destination. -/
def takeEvents (id : Nat) (m : Msg) : List Event :=
  match m.body with
  | .image _ _ _ => [execImageArrival id]
  | .read _ _ _ _ | .feqry _ _ | .write _ _ _ _ | .writes _ _ _ => [execHomeReadWrite id]
  | .proxy _ => [execProxyContinuation id]
  | .tagw _ _ _ _ => [execTagRequestAtHome id]
  | .chan _ _ _ _ => [execChannelOpAtHome id]
  | .msg _ _ => [execChannelMessageArrival id]
  | .bulk _ _ _ _ => [execBulkMessagePlacement id]
  | .engc _ _ _ _ _ => [execRemoteCommandArrival id]
  | .mcast _ _ _ _ => [execMcastNode id]
  | .contrib _ _ _ _ _ _ => [execContribArrival id]
  | .setup _ _ _ _ _ => [execSetupArrival id]
  | .wtch _ _ => [execWatchRegistrationAck id]
  | .signal _ | .resp _ _ => [execResponseArrival id, execStoreAck id]
/-- Events of a flit. -/
def msgEvents (id : Nat) (m : Msg) : List Event :=
  match m.loc with
  | .ejected _ => takeEvents id m ++ [execGangFallOut id, execFlitNack id true, execFlitNack id false]
  | .held _ _ => [execPairHoldExpiry id]
  | .parked _ _ => [execParkedFlitResend id]
  | .stalled _ _ => [execBulkMessagePlacement id]
  | .inject p _ => [execInjectionStarvation p]
  | .port _ _ _ | .iface _ _ _ _ _ | .link _ _ _ _ _ _ _ _ | .recv _ _ _ _ | .fallen _ => []
/-- Events of a core. -/
def coreEvents (core : Nat) (c : Core) : List Event :=
  (slotsOf core).map (execSlotFill core) ++ (List.range 8).map (fun k => execFingerprintExchange core k true) ++
    c.queues.flatMap (fun q => [execCustItemEnqueue core q.1, execCpyCommandStart core q.1, execStorageBlockCheck core q.1, execArenaPlacement core q.1] ++
      (match q.2.cmds with
        | x :: _ => x.out.map (execStorageBlockComplete core q.1)
        | [] => []) ++ [execCpyCommandComplete core q.1]) ++
    [execTazPerform core, execTaccRow core, execMxCommandStart core, execMxCommandComplete core, execSlotDisable core, execSlotReenable core]
/-- Events of a cluster. -/
def clusterEvents (cl : Nat) (c : Cluster) : List Event :=
  [execBndWriteApply cl] ++ c.atoms.map (fun r => execAtomicReservationGrant (wordOf r.pa)) ++
    [execGraphWalkStart cl, execGraphLineRead cl, execGraphSweep cl, execGraphWalkComplete cl] ++ c.trestles.map (fun e => execTrestleCombine cl e.gid.toNat)
/-- Events of a package's launch unit, mailbox and ports. -/
def packageEvents (pkg : Nat) (p : Package) : List Event :=
  [execQctlWriteApply pkg, execLaunchReservationPlace pkg] ++ p.reqs.map (fun r => execLaunchPacketAccept pkg r.id) ++
    p.queues.flatMap (fun q => [execMultiPackageHoldRelease pkg q.1, execLaunchStart pkg q.1]) ++
    [execMbLaunch pkg, execCapload pkg, execCapdrop pkg, execAgentreg pkg, execAgentrsp pkg, execLcreq pkg, execUnknownEntry pkg] ++
    p.agentReqs.map (fun q => execAgentTimeout q.1) ++ p.stalled.map (fun x => execApertureReadTimeout pkg x.1)
/-- Events of a launch. -/
def launchEvents (id : Nat) (x : Launch) : List Event :=
  [execStartBarrierCancel id, execLaunchStrike id, execLaunchReplay id] ++
    (packagesOf x.pmask).flatMap (fun p => [execLaunchArrival id p, execLaunchStartMessage id p, execStartTimeRelease id p]) ++ [execLaunchRetire id]
/-- Events of a die's service pair. -/
def dieEvents (die : Nat) (d : Die) : List Event :=
  [execHeartbeatSend die, execHeartbeatTimeout die] ++ d.svc.filterMap (fun m =>
    if m.kind = svcAnnounce then some (execLeaderAnnouncement die m.w0.toNat (m.w1.setWidth 32)) else none)

/-- The links that carry packets. -/
def State.busyLinks (s : State) : List Nat :=
  (s.msgs.filterMap (fun p => match p.2.loc with
    | .link l _ _ _ _ _ _ _ => some l
    | _ => none)).dedup
/-- The routers that hold flits. -/
def State.busyRouters (s : State) : List Nat :=
  (s.msgs.filterMap (fun p => match p.2.loc with
    | .inject q _ | .port q _ _ | .held q _ | .iface _ q _ _ _ | .recv _ q _ _ => some q
    | _ => none)).dedup

/-- Every event that may be pending, in the order in which the model takes them. -/
def State.events (s : State) : List Event :=
  (s.clusters.filter (fun p => !p.2.tagWait.isEmpty)).map (fun p t => .next (t.settleTags p.1)) ++
    (s.cores.filter (fun p => !p.2.parkedMsgs.isEmpty)).map (fun p t => .next (t.resumeParked p.1)) ++
    (s.clusters.filter (fun p => !p.2.proxies.isEmpty)).map (fun p t => .next (t.placeProxy p.1)) ++ s.msgs.flatMap (fun p => msgEvents p.1 p.2) ++ s.threads.flatMap (fun p => threadEvents p.1) ++
    s.cores.flatMap (fun p => coreEvents p.1 p.2) ++ s.clusters.flatMap (fun p => clusterEvents p.1 p.2) ++
    s.packages.flatMap (fun p => packageEvents p.1 p.2) ++ s.launches.flatMap (fun p => launchEvents p.1 p.2) ++
    s.kills.flatMap (fun w => w.left.map (execKillMarkerPass w.id)) ++ s.fences.map (fun f => execRclfWave f.id) ++
    s.xlinvs.flatMap (fun x => x.left.map (execXlinvUnitAck x.id)) ++
    s.gangs.flatMap (fun g => g.clusters.flatMap (fun c => [execGangStop g.id c, execGangRestore g.id c]) ++ [execGangStart g.id]) ++
    s.calls.map (fun c => execSyscallExecute c.id) ++ s.diesPresent.flatMap (fun d => dieEvents d (s.die d)) ++
    s.busyLinks.flatMap (fun l => [execLinkNegativeAck l, execLinkPacketReceive l true, execLinkReplayTimeout l]) ++ s.busyRouters.map execRouterCycle

/-- An event is pending: it does something. (DESIGN CHOICE: log entry 1) -/
def State.pending (s : State) (e : Event) : Bool :=
  match e s with
  | .next t => decide (t ≠ s)
  | .fault _ | .refused _ => true

/-! ### Barrels and time -/

/-- A core whose barrel has not chosen in this cycle. -/
def State.selectable (s : State) : Option Nat :=
  ((s.threads.filterMap (fun p => if p.2.inSlot then some p.2.core else none)) ++ s.cores.map Prod.fst).find? (fun k =>
    s.corePresent k && s.maySelect k)

/-- A clock of `mhz` goes on by a cycle of one of `clock` MHz. -/
def CoreClock.pass (c : CoreClock) (mhz clock : Nat) : CoreClock :=
  { now := c.now + (c.tick + mhz) / clock, last := c.now, tick := (c.tick + mhz) % clock }
/-- R140, R291, R478: a core cycle passes: elements leave the buffers of streams; the time base, the clock of the pylon cores (R91) and that of bin 2 (R481) go on with it at
the clock of package 0. (DESIGN CHOICE: log entries 1, 71) -/
def State.advance (s : State) : State :=
  let clock := (s.pkg 0).clock
  let s := s.streamsMove
  { s with
    cycle := s.cycle + 1, timeNs := s.timeNs + (s.tick + 1000) / clock, tick := (s.tick + 1000) % clock
    pylon := s.pylon.pass 3200 clock, slow := s.slow.pass 2400 clock }

/-- R474: every package of the domain is SCRAPPED, so that no thread runs. (DESIGN CHOICE: log entry 54) -/
def State.dead (s : State) : Bool := (List.range 64).all (fun p => !s.pkgPresent p || decide ((s.pkg p).lcs = 5))

/-- What the domain does by itself, when no event is on the agenda and no instruction has been chosen. (DESIGN CHOICE: log entries 1, 54) -/
def State.auto (s : State) : Host.Outcome State Fault Refusal :=
  match s.events.find? s.pending with
  | some e => e s
  | none => match s.selectable with
    | some k => execBarrelSelect k s
    | none => if s.dead then .fault .scrapped else .next s.advance

end Sys2Proof.Machine
end

