-- ==== Sys2Proof/Machine/Atomics.lean ====
section
/-! DEFINITION. The atomics AADD, ALOG, AMNX, AXCH, ACAS and AFADD (14: R337 to R340). -/

namespace Sys2Proof.Machine

/-- R337, R338: an atomic. A roaming thread executes it at its home after migrating there; an anchored thread, a roaming
one on a page with N = 1, and any thread for the deck sends a proxy continuation; host memory is the port's (R340). (DEDUCED: log entry 52) -/
def State.runAtomic (s : State) (g : Guard) (op : AtomOp) (wide : Bool) (d : Reg) (base : Src) (disp : BitVec 24) (b : Src)
    (reads : List Reg) : Host.Outcome State Fault Refusal :=
  run s g (memNeed [base, b] reads [d] true) fun s t =>
    let a := baseDisp t base disp
    let n := if wide then 8 else 4
    let x := lowBytes (t.reg b.reg) n
    let c := lowBytes (if reads.isEmpty then 0 else t.reg d) n
    s.access s.cur a n .store fun s1 pa leaf =>
      let h := homeOf pa
      let pos := homePos (pkgOf t.core) h
      let roams := match h with
        | .tcm _ | .pool _ | .vault _ => migrates t h leaf false && !homeLocal t.core h
        | .deck _ _ | .host => false
      if roams then s1.goHome s.cur h 1
      else if (s1.shadowFor t.domid (leafShadow leaf) pa).isNone then .gone (s1.pageFault s.cur a 1)
      else
        let r : AtomReq := ⟨t.asker s.cur s1.nextId (leafShadow leaf), op, pa, n, x, c⟩
        let go := s1.pendOn s.cur .answer false (.reg d n false) none a
        if homeLocal t.core h then
          if !s1.bankRoom t.cluster pa then .wait (.bank t.cluster pa) false a
          else if t.anc then
            match go.enterProxy t.cluster r with
            | some s2 => .pend s2
            | none => .wait (.bank t.cluster pa) false a
          else if (s1.cluster t.cluster).atoms.any (fun q => decide (wordOf q.pa = wordOf pa)) then
            .pend (go.reserve t.cluster r)
          else
            let v := s1.viewOf t.domid (leafShadow leaf) pa
            if s1.poisoned v n then .trap cPoison a
            else
              let old := BitVec.ofNat 64 (s1.peek v n)
              let s2 := match op.app n old x c with
                | some y => s1.performFor t.domid (leafShadow leaf) pa n y.toNat false
                | none => s1
              .ok (s2.write s.cur d old)
        else s1.requestOr t pos (.pend ((go.pendLine s.cur pa).request t pos kProxy (.proxy r)))

/-- R337: old + b. -/
def execAadd (g : Guard) (x : Bool) (d : Reg) (base : Src) (disp : BitVec 24) (b : Src) (s : State) :
    Host.Outcome State Fault Refusal := s.runAtomic g .add x d base disp b []
/-- R337: a logical operation. -/
def execAlog (g : Guard) (op : LogOp) (x : Bool) (d : Reg) (base : Src) (disp : BitVec 24) (b : Src) (s : State) :
    Host.Outcome State Fault Refusal := s.runAtomic g (.log op) x d base disp b []
/-- R337: minimum or maximum. -/
def execAmnx (g : Guard) (op : MnxOp) (x : Bool) (d : Reg) (base : Src) (disp : BitVec 24) (b : Src) (s : State) :
    Host.Outcome State Fault Refusal := s.runAtomic g (.mnx op) x d base disp b []
/-- R337: exchange. -/
def execAxch (g : Guard) (x : Bool) (d : Reg) (base : Src) (disp : BitVec 24) (b : Src) (s : State) :
    Host.Outcome State Fault Refusal := s.runAtomic g .xchg x d base disp b []
/-- R337: compare and swap against G[D], which it waits on (R338). -/
def execAcas (g : Guard) (x : Bool) (d : Reg) (base : Src) (disp : BitVec 24) (b : Src) (s : State) :
    Host.Outcome State Fault Refusal := s.runAtomic g .cas x d base disp b [d]
/-- R337: floating add, rounded RNE, no flag. -/
def execAfadd (g : Guard) (x : Bool) (d : Reg) (base : Src) (disp : BitVec 24) (b : Src) (s : State) :
    Host.Outcome State Fault Refusal := s.runAtomic g .fadd x d base disp b []

end Sys2Proof.Machine
end

