-- ==== Sys2Proof/Machine/Fetch.lean ====
section
/-! DEFINITION. Fetching an instruction word (R119, R134 step 1, R138, R257), the traps of words that are not instructions
(R129, R135), and placing a word where the next step fetches. -/

namespace Sys2Proof.Machine

/-- How a fetch ends: the word, or the state after a fault or a park. -/
inductive Fetched
  | word (s : State) (w : Word)
  | gone (s : State)

/-- The line of a physical address as a core fetches it: the one that its instruction cache holds, when the free choice uses
that, otherwise the home's (R138, R322). (DEDUCED: log entries 12, 75) -/
def State.codeLine (s : State) (t : Thread) (pa : Nat) (shadow : Bool) : Nat :=
  match KMap.find (s.core t.core).icache (lineOf pa) with
  | some l => if Config.useHeld s.free then l else s.peek (s.viewOf t.domid shadow (lineOf pa)) 128
  | none => s.peek (s.viewOf t.domid shadow (lineOf pa)) 128
/-- The word at a physical address in its line. -/
def lineWord (line pa : Nat) : Word := BitVec.ofNat 64 (line / 256 ^ (pa - lineOf pa))

/-- R257: the fetch of the word at the PC of a thread in a slot. (DEDUCED: log entry 75) -/
def State.fetchWord (s : State) (tid : Nat) : Fetched :=
  let t := s.thread tid
  if t.pc.toNat % 8 ≠ 0 then .gone (s.takeTrap tid (BitVec.ofNat 64 cAlign) t.pc t.pc 0)
  else match s.resolve t.ctx t.pc .fetch with
    | (_, .fail c) => .gone (s.takeTrap tid (BitVec.ofNat 64 c) t.pc t.pc 0)
    | (s1, .absent) =>
      if t.wakeCause ≠ 0 then .gone (s.takeTrap tid (t.wakeCause.setWidth 64) t.pc t.pc 0)
      else .gone ({ s1 with iword := 0 }.pageFault tid t.pc 2)
    | (s1, .at pa leaf) =>
      if s1.poisoned (s1.viewOf t.domid (leafShadow leaf) pa) 8 then .gone (s1.takeTrap tid (BitVec.ofNat 64 cPoison) t.pc t.pc 0)
      else
        let l := s1.codeLine t pa (leafShadow leaf)
        .word ({ s1 with free := s1.free + 1 }.modCore t.core (fun c => { c with icache := KMap.set c.icache (lineOf pa) l })) (lineWord l pa)

/-- R129, R132: a word of the extension range, whose guard alone has been checked. -/
def State.extRange (s : State) (id : Nat) (g : Guard) : State :=
  let t := s.thread s.cur
  if t.flag (g.extractLsb' 0 3) = g.getLsbD 3 then s.retire s.cur (t.pc + 8)
  else s.finish [] false (s.extSearch s.cur id)

/-- R135: a word that fails the encoding checks traps ILLEGAL. (DEDUCED: log entry 31) -/
def State.illegal (s : State) : State := s.trapHere 0x01 s.iword

/-- The thread that `withFetchWord` uses: in slot 0 of core (0, 0), supervisor, anchored. (DESIGN CHOICE: log entry 7) -/
def loaderThread (t : Thread) : Thread :=
  { t with place := .slot 0 0, sup := true, anc := true, pc := BitVec.ofNat 64 tcmBase, wait := none, pend := none }

/-- The machine with a word stored where its next step fetches: in the TCM of core (0, 0), for thread 0 of slot 0. (DESIGN CHOICE: log entry 7) -/
def State.placeWord (s : State) (w : Word) : State :=
  ((({ s with agenda := [], issue := some 0 }.modThread 0 loaderThread).modCore 0
    (fun c => { c with icache := KMap.erase c.icache (lineOf tcmBase) })).clearPoison tcmBase 8).poke tcmBase 8 w.toNat

end Sys2Proof.Machine
end

