-- ==== Sys2Proof/Machine/Dispatch.lean ====
section
/-! DEFINITION. The dispatch: one arm for each constructor of `Instr`, which calls its meaning. -/

namespace Sys2Proof.Machine

/-- What one instruction or one event does (R134; 95). -/
def exec (i : Instr) (s : State) : Host.Outcome State Fault Refusal :=
  match i with
  | .add g h d a b => Sys2Proof.Machine.execAdd g h d a b s
  | .sub g h d a b => Sys2Proof.Machine.execSub g h d a b s
  | .mul g h d a b => Sys2Proof.Machine.execMul g h d a b s
  | .mulh g h d a b => Sys2Proof.Machine.execMulh g h d a b s
  | .mulhn g h d a b => Sys2Proof.Machine.execMulhn g h d a b s
  | .div g h d a b => Sys2Proof.Machine.execDiv g h d a b s
  | .divn g h d a b => Sys2Proof.Machine.execDivn g h d a b s
  | .rem g h d a b => Sys2Proof.Machine.execRem g h d a b s
  | .remn g h d a b => Sys2Proof.Machine.execRemn g h d a b s
  | .and g h d a b => Sys2Proof.Machine.execAnd g h d a b s
  | .or g h d a b => Sys2Proof.Machine.execOr g h d a b s
  | .xor g h d a b => Sys2Proof.Machine.execXor g h d a b s
  | .andn g h d a b => Sys2Proof.Machine.execAndn g h d a b s
  | .shl g h d a b => Sys2Proof.Machine.execShl g h d a b s
  | .shr g h d a b => Sys2Proof.Machine.execShr g h d a b s
  | .sar g h d a b => Sys2Proof.Machine.execSar g h d a b s
  | .rot g h d a b => Sys2Proof.Machine.execRot g h d a b s
  | .min g h d a b => Sys2Proof.Machine.execMin g h d a b s
  | .max g h d a b => Sys2Proof.Machine.execMax g h d a b s
  | .minn g h d a b => Sys2Proof.Machine.execMinn g h d a b s
  | .maxn g h d a b => Sys2Proof.Machine.execMaxn g h d a b s
  | .clz g h d a => Sys2Proof.Machine.execClz g h d a s
  | .ctz g h d a => Sys2Proof.Machine.execCtz g h d a s
  | .popc g h d a => Sys2Proof.Machine.execPopc g h d a s
  | .brev g h d a => Sys2Proof.Machine.execBrev g h d a s
  | .bswp g h d a => Sys2Proof.Machine.execBswp g h d a s
  | .ext g h sg d a b => Sys2Proof.Machine.execExt g h sg d a b s
  | .dep g h d a b c => Sys2Proof.Machine.execDep g h d a b c s
  | .sel g h neg fl d a b => Sys2Proof.Machine.execSel g h neg fl d a b s
  | .lea g h d m => Sys2Proof.Machine.execLea g h d m s
  | .movw g d imm => Sys2Proof.Machine.execMovw g d imm s
  | .movh g d imm => Sys2Proof.Machine.execMovh g d imm s
  | .cmp g cc fd a b => Sys2Proof.Machine.execCmp g cc fd a b s
  | .flop g op fd nx fx ny fy => Sys2Proof.Machine.execFlop g op fd nx fx ny fy s
  | .pwrd g f d => Sys2Proof.Machine.execPwrd g f d s
  | .pwwr g f a => Sys2Proof.Machine.execPwwr g f a s
  | .br g imm => Sys2Proof.Machine.execBr g imm s
  | .brl g d imm => Sys2Proof.Machine.execBrl g d imm s
  | .jmp g a imm => Sys2Proof.Machine.execJmp g a imm s
  | .jmpl g d a imm => Sys2Proof.Machine.execJmpl g d a imm s
  | .loop g d imm => Sys2Proof.Machine.execLoop g d imm s
  | .nop g => Sys2Proof.Machine.execNop g s
  | .fadd g sg rm d a b => Sys2Proof.Machine.execFadd g sg rm d a b s
  | .fsub g sg rm d a b => Sys2Proof.Machine.execFsub g sg rm d a b s
  | .fmul g sg rm d a b => Sys2Proof.Machine.execFmul g sg rm d a b s
  | .ffma g sg rm d a b c => Sys2Proof.Machine.execFfma g sg rm d a b c s
  | .fdiv g sg rm d a b => Sys2Proof.Machine.execFdiv g sg rm d a b s
  | .fsqrt g sg rm d a => Sys2Proof.Machine.execFsqrt g sg rm d a s
  | .fmin g sg d a b => Sys2Proof.Machine.execFmin g sg d a b s
  | .fmax g sg d a b => Sys2Proof.Machine.execFmax g sg d a b s
  | .fcmp g cc sg fd a b => Sys2Proof.Machine.execFcmp g cc sg fd a b s
  | .fcvt g rm dt ty d a => Sys2Proof.Machine.execFcvt g rm dt ty d a s
  | .fsgn g sg op d a b => Sys2Proof.Machine.execFsgn g sg op d a b s
  | .fcls g sg d a => Sys2Proof.Machine.execFcls g sg d a s
  | .ld g z x d m => Sys2Proof.Machine.execLd g z x d m s
  | .st g z d m => Sys2Proof.Machine.execSt g z d m s
  | .ldf g z e d m => Sys2Proof.Machine.execLdf g z e d m s
  | .stf g z e d m => Sys2Proof.Machine.execStf g z e d m s
  | .feset g full d m => Sys2Proof.Machine.execFeset g full d m s
  | .feqry g d m => Sys2Proof.Machine.execFeqry g d m s
  | .lda g z d base disp sc => Sys2Proof.Machine.execLda g z d base disp sc s
  | .stl g z d base disp sc => Sys2Proof.Machine.execStl g z d base disp sc s
  | .fetch g z x d m => Sys2Proof.Machine.execFetch g z x d m s
  | .pref g m => Sys2Proof.Machine.execPref g m s
  | .migr g a => Sys2Proof.Machine.execMigr g a s
  | .home g d a => Sys2Proof.Machine.execHome g d a s
  | .cord g d op => Sys2Proof.Machine.execCord g d op s
  | .spawn g d a b c => Sys2Proof.Machine.execSpawn g d a b c s
  | .exit g => Sys2Proof.Machine.execExit g s
  | .yield g => Sys2Proof.Machine.execYield g s
  | .yieldRq g => Sys2Proof.Machine.execYieldRq g s
  | .anch g => Sys2Proof.Machine.execAnch g s
  | .anchR g => Sys2Proof.Machine.execAnchR g s
  | .marm g m => Sys2Proof.Machine.execMarm g m s
  | .marmClr g => Sys2Proof.Machine.execMarmClr g s
  | .mwait g d a => Sys2Proof.Machine.execMwait g d a s
  | .binit g a b c => Sys2Proof.Machine.execBinit g a b c s
  | .barv g d a => Sys2Proof.Machine.execBarv g d a s
  | .barvQ g d a => Sys2Proof.Machine.execBarvQ g d a s
  | .barw g a b => Sys2Proof.Machine.execBarw g a b s
  | .barwA g a => Sys2Proof.Machine.execBarwA g a s
  | .bdrop g a => Sys2Proof.Machine.execBdrop g a s
  | .semi g n b v => Sys2Proof.Machine.execSemi g n b v s
  | .sema g n b v => Sys2Proof.Machine.execSema g n b v s
  | .semr g d n => Sys2Proof.Machine.execSemr g d n s
  | .semw g n b v => Sys2Proof.Machine.execSemw g n b v s
  | .aadd g x d base disp b => Sys2Proof.Machine.execAadd g x d base disp b s
  | .alog g op x d base disp b => Sys2Proof.Machine.execAlog g op x d base disp b s
  | .amnx g op x d base disp b => Sys2Proof.Machine.execAmnx g op x d base disp b s
  | .axch g x d base disp b => Sys2Proof.Machine.execAxch g x d base disp b s
  | .acas g x d base disp b => Sys2Proof.Machine.execAcas g x d base disp b s
  | .afadd g x d base disp b => Sys2Proof.Machine.execAfadd g x d base disp b s
  | .fence g k sc => Sys2Proof.Machine.execFence g k sc s
  | .push g pr d m => Sys2Proof.Machine.execPush g pr d m s
  | .pop g pr d m => Sys2Proof.Machine.execPop g pr d m s
  | .chinit g d m => Sys2Proof.Machine.execChinit g d m s
  | .send g d a b n => Sys2Proof.Machine.execSend g d a b n s
  | .sendm g d a b c => Sys2Proof.Machine.execSendm g d a b c s
  | .recv g a ch => Sys2Proof.Machine.execRecv g a ch s
  | .chbind g a b ch => Sys2Proof.Machine.execChbind g a b ch s
  | .trdy g r h d a => Sys2Proof.Machine.execTrdy g r h d a s
  | .vadd g sat t rm k d a b => Sys2Proof.Machine.execVadd g sat t rm k d a b s
  | .vsub g sat t rm k d a b => Sys2Proof.Machine.execVsub g sat t rm k d a b s
  | .vmul g sat t rm k d a b => Sys2Proof.Machine.execVmul g sat t rm k d a b s
  | .vfma g t rm k d a b c => Sys2Proof.Machine.execVfma g t rm k d a b c s
  | .vfms g t rm k d a b c => Sys2Proof.Machine.execVfms g t rm k d a b c s
  | .vfnma g t rm k d a b c => Sys2Proof.Machine.execVfnma g t rm k d a b c s
  | .vmin g t k d a b => Sys2Proof.Machine.execVmin g t k d a b s
  | .vmax g t k d a b => Sys2Proof.Machine.execVmax g t k d a b s
  | .vabs g sat t k d a => Sys2Proof.Machine.execVabs g sat t k d a s
  | .vneg g sat t k d a => Sys2Proof.Machine.execVneg g sat t k d a s
  | .vdiv g t rm k d a b => Sys2Proof.Machine.execVdiv g t rm k d a b s
  | .vsqrt g t rm k d a => Sys2Proof.Machine.execVsqrt g t rm k d a s
  | .vrcp g t rm k d a => Sys2Proof.Machine.execVrcp g t rm k d a s
  | .vrsq g t rm k d a => Sys2Proof.Machine.execVrsq g t rm k d a s
  | .vexp2 g t rm k d a => Sys2Proof.Machine.execVexp2 g t rm k d a s
  | .vlog2 g t rm k d a => Sys2Proof.Machine.execVlog2 g t rm k d a s
  | .vand g t k d a b => Sys2Proof.Machine.execVand g t k d a b s
  | .vor g t k d a b => Sys2Proof.Machine.execVor g t k d a b s
  | .vxor g t k d a b => Sys2Proof.Machine.execVxor g t k d a b s
  | .vshl g t k d a b => Sys2Proof.Machine.execVshl g t k d a b s
  | .vshr g t k d a b => Sys2Proof.Machine.execVshr g t k d a b s
  | .vcmp g cc t k d a b => Sys2Proof.Machine.execVcmp g cc t k d a b s
  | .vsel g t k d a b c => Sys2Proof.Machine.execVsel g t k d a b c s
  | .vmov g t k d a => Sys2Proof.Machine.execVmov g t k d a s
  | .vbcst g t k d a => Sys2Proof.Machine.execVbcst g t k d a s
  | .vgetl g t d a b => Sys2Proof.Machine.execVgetl g t d a b s
  | .vputl g t d a b => Sys2Proof.Machine.execVputl g t d a b s
  | .vperm g t k d a b => Sys2Proof.Machine.execVperm g t k d a b s
  | .vrot g t k d a b => Sys2Proof.Machine.execVrot g t k d a b s
  | .vcvt g hi dt ty rm k d a => Sys2Proof.Machine.execVcvt g hi dt ty rm k d a s
  | .vqnt g cd t rm k d a => Sys2Proof.Machine.execVqnt g cd t rm k d a s
  | .vdqnt g cd t rm k d a => Sys2Proof.Machine.execVdqnt g cd t rm k d a s
  | .vred g op t rm k d a => Sys2Proof.Machine.execVred g op t rm k d a s
  | .vscan g op t rm k d a => Sys2Proof.Machine.execVscan g op t rm k d a s
  | .vld g t d m => Sys2Proof.Machine.execVld g t d m s
  | .vst g t d m => Sys2Proof.Machine.execVst g t d m s
  | .vlds g t d m => Sys2Proof.Machine.execVlds g t d m s
  | .vsts g t d m => Sys2Proof.Machine.execVsts g t d m s
  | .vgth g t k sc d a b => Sys2Proof.Machine.execVgth g t k sc d a b s
  | .vsct g t k sc d a b => Sys2Proof.Machine.execVsct g t k sc d a b s
  | .mops g op d a => Sys2Proof.Machine.execMops g op d a s
  | .vidx g t k step d a => Sys2Proof.Machine.execVidx g t k step d a s
  | .vdot g t rm k d a b => Sys2Proof.Machine.execVdot g t rm k d a b s
  | .mxset g a => Sys2Proof.Machine.execMxset g a s
  | .mxrun g cl => Sys2Proof.Machine.execMxrun g cl s
  | .mxsend g a b cl => Sys2Proof.Machine.execMxsend g a b cl s
  | .tard g t rm k d tile row => Sys2Proof.Machine.execTard g t rm k d tile row s
  | .tawr g k a tile row => Sys2Proof.Machine.execTawr g k a tile row s
  | .taz g tile cl => Sys2Proof.Machine.execTaz g tile cl s
  | .taq g wt d => Sys2Proof.Machine.execTaq g wt d s
  | .fmtld g op => Sys2Proof.Machine.execFmtld g op s
  | .mxcap g d a => Sys2Proof.Machine.execMxcap g d a s
  | .tacc g tile a b => Sys2Proof.Machine.execTacc g tile a b s
  | .cpy g q dec cd a b cl => Sys2Proof.Machine.execCpy g q dec cd a b cl s
  | .cpyx g a b cl => Sys2Proof.Machine.execCpyx g a b cl s
  | .strm g wr sm a => Sys2Proof.Machine.execStrm g wr sm a s
  | .strcGet g d sm => Sys2Proof.Machine.execStrcGet g d sm s
  | .strcPut g sm a => Sys2Proof.Machine.execStrcPut g sm a s
  | .strcEnd g sm => Sys2Proof.Machine.execStrcEnd g sm s
  | .strcQ g d sm => Sys2Proof.Machine.execStrcQ g d sm s
  | .cpq g d q => Sys2Proof.Machine.execCpq g d q s
  | .cpcan g d q => Sys2Proof.Machine.execCpcan g d q s
  | .scout g a q => Sys2Proof.Machine.execScout g a q s
  | .stor g wr q a b cl => Sys2Proof.Machine.execStor g wr q a b cl s
  | .gcopy g d a b => Sys2Proof.Machine.execGcopy g d a b s
  | .gsend g d a b => Sys2Proof.Machine.execGsend g d a b s
  | .gcmp g d a b => Sys2Proof.Machine.execGcmp g d a b s
  | .ghash g d a b => Sys2Proof.Machine.execGhash g d a b s
  | .gfree g d a b => Sys2Proof.Machine.execGfree g d a b s
  | .gtype g d a p => Sys2Proof.Machine.execGtype g d a p s
  | .gqry g d a => Sys2Proof.Machine.execGqry g d a s
  | .cjoin g d a => Sys2Proof.Machine.execCjoin g d a s
  | .cjoinQ g d a => Sys2Proof.Machine.execCjoinQ g d a s
  | .cjoinLv g d a => Sys2Proof.Machine.execCjoinLv g d a s
  | .cred g op a b c => Sys2Proof.Machine.execCred g op a b c s
  | .cmcst g a b c => Sys2Proof.Machine.execCmcst g a b c s
  | .crcvMc g d a b => Sys2Proof.Machine.execCrcvMc g d a b s
  | .crcvRed g d a b => Sys2Proof.Machine.execCrcvRed g d a b s
  | .bsget g d n => Sys2Proof.Machine.execBsget g d n s
  | .bspeek g d n => Sys2Proof.Machine.execBspeek g d n s
  | .bsput g a n => Sys2Proof.Machine.execBsput g a n s
  | .bsaln g out k => Sys2Proof.Machine.execBsaln g out k s
  | .bsfls g => Sys2Proof.Machine.execBsfls g s
  | .qwait g => Sys2Proof.Machine.execQwait g s
  | .qtake g d => Sys2Proof.Machine.execQtake g d s
  | .qdone g a => Sys2Proof.Machine.execQdone g a s
  | .sysc g d a b => Sys2Proof.Machine.execSysc g d a b s
  | .sysw g d a => Sys2Proof.Machine.execSysw g d a s
  | .trap g code => Sys2Proof.Machine.execTrap g code s
  | .rett g n => Sys2Proof.Machine.execRett g n s
  | .sprd g d r => Sys2Proof.Machine.execSprd g d r s
  | .spwr g r a => Sys2Proof.Machine.execSpwr g r a s
  | .spwrTypebase g a => Sys2Proof.Machine.execSpwrTypebase g a s
  | .spwrXlbase g a => Sys2Proof.Machine.execSpwrXlbase g a s
  | .spwrBnd g n a => Sys2Proof.Machine.execSpwrBnd g n a s
  | .time g d => Sys2Proof.Machine.execTime g d s
  | .launch g d a => Sys2Proof.Machine.execLaunch g d a s
  | .qctl g d a => Sys2Proof.Machine.execQctl g d a s
  | .qctlWr g d a b => Sys2Proof.Machine.execQctlWr g d a b s
  | .qctlRst g d a => Sys2Proof.Machine.execQctlRst g d a s
  | .kill g d a b => Sys2Proof.Machine.execKill g d a b s
  | .killZ g d a b => Sys2Proof.Machine.execKillZ g d a b s
  | .rclf g d a b => Sys2Proof.Machine.execRclf g d a b s
  | .gang g d a => Sys2Proof.Machine.execGang g d a s
  | .plbinv g d va b => Sys2Proof.Machine.execPlbinv g d va b s
  | .xlinv g d va b => Sys2Proof.Machine.execXlinv g d va b s
  | .pair g d a => Sys2Proof.Machine.execPair g d a s
  | .pairOff g d a => Sys2Proof.Machine.execPairOff g d a s
  | .fpck g d => Sys2Proof.Machine.execFpck g d s
  | .coff g d a => Sys2Proof.Machine.execCoff g d a s
  | .coffDef g d a => Sys2Proof.Machine.execCoffDef g d a s
  | .coffLift g d a => Sys2Proof.Machine.execCoffLift g d a s
  | .lsync g => Sys2Proof.Machine.execLsync g s
  | .wipe g d a b => Sys2Proof.Machine.execWipe g d a b s
  | .halt g code => Sys2Proof.Machine.execHalt g code s
  | .extl g d => Sys2Proof.Machine.execExtl g d s
  | .thrm g d a => Sys2Proof.Machine.execThrm g d a s
  | .thrmSet g a b => Sys2Proof.Machine.execThrmSet g a b s
  | .repl g d a => Sys2Proof.Machine.execRepl g d a s
  | .replQ g d a => Sys2Proof.Machine.execReplQ g d a s
  | .bndWriteApply cluster => Sys2Proof.Machine.execBndWriteApply cluster s
  | .qctlWriteApply pkg => Sys2Proof.Machine.execQctlWriteApply pkg s
  | .barrelSelect core => Sys2Proof.Machine.execBarrelSelect core s
  | .slotLoadDone tid => Sys2Proof.Machine.execSlotLoadDone tid s
  | .slotFill core slot => Sys2Proof.Machine.execSlotFill core slot s
  | .imageArrival msg => Sys2Proof.Machine.execImageArrival msg s
  | .restingStateReload tid => Sys2Proof.Machine.execRestingStateReload tid s
  | .thermalRankRewrite die temps => Sys2Proof.Machine.execThermalRankRewrite die temps s
  | .slotDisable core => Sys2Proof.Machine.execSlotDisable core s
  | .slotReenable core => Sys2Proof.Machine.execSlotReenable core s
  | .thermalDisplacement tid => Sys2Proof.Machine.execThermalDisplacement tid s
  | .waitlimExpiry tid => Sys2Proof.Machine.execWaitlimExpiry tid s
  | .mwaitTimeout tid => Sys2Proof.Machine.execMwaitTimeout tid s
  | .monitorTrigger tid => Sys2Proof.Machine.execMonitorTrigger tid s
  | .watchRegistrationAck msg => Sys2Proof.Machine.execWatchRegistrationAck msg s
  | .responseArrival msg => Sys2Proof.Machine.execResponseArrival msg s
  | .storeAck msg => Sys2Proof.Machine.execStoreAck msg s
  | .homeReadWrite msg => Sys2Proof.Machine.execHomeReadWrite msg s
  | .tagRequestAtHome msg => Sys2Proof.Machine.execTagRequestAtHome msg s
  | .proxyContinuation msg => Sys2Proof.Machine.execProxyContinuation msg s
  | .atomicReservationGrant addr => Sys2Proof.Machine.execAtomicReservationGrant addr s
  | .hostAtomic msg answer => Sys2Proof.Machine.execHostAtomic msg answer s
  | .agentTimeout req => Sys2Proof.Machine.execAgentTimeout req s
  | .wake w0 w1 => Sys2Proof.Machine.execWake w0 w1 s
  | .xlinvUnitAck inv cluster => Sys2Proof.Machine.execXlinvUnitAck inv cluster s
  | .launchPacketAccept pkg req => Sys2Proof.Machine.execLaunchPacketAccept pkg req s
  | .launchReservationPlace pkg => Sys2Proof.Machine.execLaunchReservationPlace pkg s
  | .launchStart pkg q => Sys2Proof.Machine.execLaunchStart pkg q s
  | .multiPackageHoldRelease pkg q => Sys2Proof.Machine.execMultiPackageHoldRelease pkg q s
  | .launchArrival launch pkg => Sys2Proof.Machine.execLaunchArrival launch pkg s
  | .launchStartMessage launch pkg => Sys2Proof.Machine.execLaunchStartMessage launch pkg s
  | .startTimeRelease launch pkg => Sys2Proof.Machine.execStartTimeRelease launch pkg s
  | .startBarrierCancel launch => Sys2Proof.Machine.execStartBarrierCancel launch s
  | .launchRetire launch => Sys2Proof.Machine.execLaunchRetire launch s
  | .launchStrike launch => Sys2Proof.Machine.execLaunchStrike launch s
  | .launchReplay launch => Sys2Proof.Machine.execLaunchReplay launch s
  | .channelMessageArrival msg => Sys2Proof.Machine.execChannelMessageArrival msg s
  | .placementSwap die entry => Sys2Proof.Machine.execPlacementSwap die entry s
  | .extensionDirectoryWrite core ext v pos => Sys2Proof.Machine.execExtensionDirectoryWrite core ext v pos s
  | .cpyCommandStart core q => Sys2Proof.Machine.execCpyCommandStart core q s
  | .cpyCommandComplete core q => Sys2Proof.Machine.execCpyCommandComplete core q s
  | .custItemEnqueue core q => Sys2Proof.Machine.execCustItemEnqueue core q s
  | .arenaPlacement core q => Sys2Proof.Machine.execArenaPlacement core q s
  | .bulkMessagePlacement msg => Sys2Proof.Machine.execBulkMessagePlacement msg s
  | .storageBlockCheck core q => Sys2Proof.Machine.execStorageBlockCheck core q s
  | .storageBlockComplete core q block => Sys2Proof.Machine.execStorageBlockComplete core q block s
  | .mxCommandStart core => Sys2Proof.Machine.execMxCommandStart core s
  | .mxCommandComplete core => Sys2Proof.Machine.execMxCommandComplete core s
  | .remoteCommandArrival msg => Sys2Proof.Machine.execRemoteCommandArrival msg s
  | .tazPerform core => Sys2Proof.Machine.execTazPerform core s
  | .taccRow core => Sys2Proof.Machine.execTaccRow core s
  | .graphWalkStart cluster => Sys2Proof.Machine.execGraphWalkStart cluster s
  | .graphLineRead cluster => Sys2Proof.Machine.execGraphLineRead cluster s
  | .graphSweep cluster => Sys2Proof.Machine.execGraphSweep cluster s
  | .graphWalkComplete cluster => Sys2Proof.Machine.execGraphWalkComplete cluster s
  | .channelOpAtHome msg => Sys2Proof.Machine.execChannelOpAtHome msg s
  | .pairMatch held msg => Sys2Proof.Machine.execPairMatch held msg s
  | .pairHoldExpiry msg => Sys2Proof.Machine.execPairHoldExpiry msg s
  | .routerCycle pos => Sys2Proof.Machine.execRouterCycle pos s
  | .injectionStarvation pos => Sys2Proof.Machine.execInjectionStarvation pos s
  | .flitNack msg fenced => Sys2Proof.Machine.execFlitNack msg fenced s
  | .parkedFlitResend msg => Sys2Proof.Machine.execParkedFlitResend msg s
  | .linkPacketReceive link crcOk => Sys2Proof.Machine.execLinkPacketReceive link crcOk s
  | .linkReplayTimeout link => Sys2Proof.Machine.execLinkReplayTimeout link s
  | .linkNegativeAck link => Sys2Proof.Machine.execLinkNegativeAck link s
  | .linkWidthChange link width => Sys2Proof.Machine.execLinkWidthChange link width s
  | .linkFail link => Sys2Proof.Machine.execLinkFail link s
  | .mcastNode msg => Sys2Proof.Machine.execMcastNode msg s
  | .mcastDelivery core msg => Sys2Proof.Machine.execMcastDelivery core msg s
  | .setupArrival msg => Sys2Proof.Machine.execSetupArrival msg s
  | .contribArrival msg => Sys2Proof.Machine.execContribArrival msg s
  | .trestleCombine cluster group => Sys2Proof.Machine.execTrestleCombine cluster group s
  | .gangStop gang cluster => Sys2Proof.Machine.execGangStop gang cluster s
  | .gangFallOut msg => Sys2Proof.Machine.execGangFallOut msg s
  | .gangRestore gang cluster => Sys2Proof.Machine.execGangRestore gang cluster s
  | .gangStart gang => Sys2Proof.Machine.execGangStart gang s
  | .fingerprintExchange core slot agree => Sys2Proof.Machine.execFingerprintExchange core slot agree s
  | .killMarkerPass wave cluster => Sys2Proof.Machine.execKillMarkerPass wave cluster s
  | .rclfWave fence => Sys2Proof.Machine.execRclfWave fence s
  | .uncorrectableError cluster => Sys2Proof.Machine.execUncorrectableError cluster s
  | .h2dDoorbell pkg tail => Sys2Proof.Machine.execH2dDoorbell pkg tail s
  | .mbLaunch pkg => Sys2Proof.Machine.execMbLaunch pkg s
  | .capload pkg => Sys2Proof.Machine.execCapload pkg s
  | .capdrop pkg => Sys2Proof.Machine.execCapdrop pkg s
  | .agentreg pkg => Sys2Proof.Machine.execAgentreg pkg s
  | .agentrsp pkg => Sys2Proof.Machine.execAgentrsp pkg s
  | .lcreq pkg => Sys2Proof.Machine.execLcreq pkg s
  | .unknownEntry pkg => Sys2Proof.Machine.execUnknownEntry pkg s
  | .hostApertureRead pkg off size => Sys2Proof.Machine.execHostApertureRead pkg off size s
  | .hostApertureWrite pkg off size val => Sys2Proof.Machine.execHostApertureWrite pkg off size val s
  | .hostApertureAtomic pkg off op wide val cmp => Sys2Proof.Machine.execHostApertureAtomic pkg off op wide val cmp s
  | .apertureReadTimeout pkg req => Sys2Proof.Machine.execApertureReadTimeout pkg req s
  | .registerWrite pkg off val => Sys2Proof.Machine.execRegisterWrite pkg off val s
  | .heartbeatSend die => Sys2Proof.Machine.execHeartbeatSend die s
  | .heartbeatTimeout die => Sys2Proof.Machine.execHeartbeatTimeout die s
  | .leaderAnnouncement die from_ egen => Sys2Proof.Machine.execLeaderAnnouncement die from_ egen s
  | .threadResumeMessage w0 w1 => Sys2Proof.Machine.execThreadResumeMessage w0 w1 s
  | .syscallExecute call => Sys2Proof.Machine.execSyscallExecute call s
  | .powerThrottle pkg watts => Sys2Proof.Machine.execPowerThrottle pkg watts s
  | .thermalTrip pkg => Sys2Proof.Machine.execThermalTrip pkg s
  | .timeBaseCorrection die ns => Sys2Proof.Machine.execTimeBaseCorrection die ns s
  | .packageReset pkg => Sys2Proof.Machine.execPackageReset pkg s
  | .functionLevelReset pkg => Sys2Proof.Machine.execFunctionLevelReset pkg s
  | .coreMarginal core => Sys2Proof.Machine.execCoreMarginal core s
  | .rebinning core bin1 bin2 => Sys2Proof.Machine.execRebinning core bin1 bin2 s
  | .spdmRequest pkg code => Sys2Proof.Machine.execSpdmRequest pkg code s
  | .servicePairIntrWake tid => Sys2Proof.Machine.execServicePairIntrWake tid s
  | .managementWrite w => Sys2Proof.Machine.execManagementWrite w s
  | .makeContextLive dom => Sys2Proof.Machine.execMakeContextLive dom s
  | .dramDataError addr => Sys2Proof.Machine.execDramDataError addr s

end Sys2Proof.Machine
end

