-- ==== Sys2Proof/Machine/Step.lean ====
section
/-! DEFINITION. The one step of the domain: the next event of the agenda, else the instruction of the thread that the
barrel chose, else the next pending event in a fixed order, else a barrel, else the passing of a cycle. -/

namespace Sys2Proof.Machine

/-- A decoded word issues for thread `s.cur` (R134). -/
def issueWord (s : State) (w : Word) : Host.Outcome State Fault Refusal :=
  match decode w with
  | .instr i => exec i s
  | .extRange id g => .next (s.extRange id g)
  | .illegal _ => .next s.illegal

/-- One step. (DESIGN CHOICE: log entry 1) -/
def step (s : State) : Host.Outcome State Fault Refusal :=
  match s.agenda with
  | e :: r => exec e { s with agenda := r }
  | [] =>
    match s.issue with
    | some tid =>
      match { s with issue := none, cur := tid }.fetchWord tid with
      | .word s1 w => issueWord { s1 with iword := w } w
      | .gone s1 => .next s1
    | none => s.auto

/-- `s` with an instruction word stored where the next step fetches it: the low `nbits` bits of `w`. (DESIGN CHOICE: log entry 7) -/
def State.withFetchWord (s : State) (nbits w : Nat) : State := s.placeWord (BitVec.ofNat 64 (w % 2 ^ nbits))

end Sys2Proof.Machine
end

