-- ==== Sys2Proof/Safety.lean ====
section
/-! DEFINITION. The terms in which statements are made: memory in canonical form, when an instruction executes (R134), and
what a state holds after an instruction that only writes registers of its thread. -/

namespace Sys2Proof.Machine

/-- Memory is in canonical form: addresses strictly rising, and no byte listed that an unlisted address reads as. -/
abbrev State.memOk (s : State) : Prop := Memory.wf s.mem

/-- The running thread's record. -/
abbrev State.me (s : State) : Thread := s.thread s.cur

/-- R120: the guard of an instruction lets it execute: the flag that it names, or with its high bit set the flag's inverse. -/
def Thread.guardOk (t : Thread) (g : Guard) : Bool := t.flag (g.extractLsb' 0 3) != g.getLsbD 3

/-- R134: the instruction of the running thread with guard `g` and needs `n` executes now: no exchange of a paired slot is
due, no cause waits, the guard holds, the slot lists the extension, the thread has the privilege and the anchor that the form
needs, every source is full with good parity, and no destination awaits a response. -/
def State.runs (s : State) (g : Guard) (n : Need) : Bool :=
  !s.exchangeDue s.me && s.me.wakeCause == 0 && s.me.guardOk g && s.listed s.me n.ext &&
    (!n.priv || s.me.sup) && (!n.anc || s.me.anc) &&
    (srcRegs n.srcs ++ n.reads).all (fun r => s.me.full r && !s.me.bad.contains (regNum r)) &&
    n.dests.all (fun r => !s.me.awaited r) && (!n.outside || !s.unagreed s.me)

/-- The registers taken by an instruction with these sources, but for its destinations (R19). -/
def takesOf (srcs : List Src) (dests : List Reg) : List Reg := (takeRegs srcs).filter (fun r => !dests.contains r)

/-- The register has a full bit. -/
def Reg.tagged : Reg → Bool
  | .g _ | .v _ | .m _ => true
  | .z | .pw | .ip | .sm _ => false

/-- What a completed instruction writes in its thread: one scalar and one vector register, pw, the rounding generator, the
registers that it takes, and the PC. -/
structure Out where
  reg : Reg := .z
  val : Word := 0
  vreg : Reg := .z
  vec : BitVec 1024 := 0
  pw : BitVec 32
  rnd : BitVec 32
  takes : List Reg
  pc : Word

/-- The fields of a thread's record that `Thread.After` leaves to itself or to its other clauses. -/
def Thread.mask (t : Thread) (u : Thread) : Thread :=
  { t with
    g := u.g, gFull := u.gFull, v := u.v, vFull := u.vFull, m := u.m, mFull := u.mFull, pw := u.pw, pc := u.pc, rnd := u.rnd
    retired := u.retired, wait := u.wait, since := u.since, pend := u.pend, wakeCause := u.wakeCause, whyCause := u.whyCause
    bad := u.bad, marks := u.marks, finger := u.finger, agreed := u.agreed }

/-- The thread `b` is what an instruction that wrote `o` and retired leaves of `a`: every register is unchanged but those of
`o`; a written register is full, and a taken one empty; every special register but CYCLE's like is unchanged. -/
structure Thread.After (a b : Thread) (o : Out) : Prop where
  g : ∀ n (h : n < 16), b.g[n] = if o.reg = .g ⟨n, h⟩ then o.val else a.g[n]
  v : ∀ n (h : n < 32), b.v[n] = if o.vreg = .v ⟨n, h⟩ then o.vec else a.v[n]
  m : ∀ n (h : n < 8), b.m[n] = if o.reg = .m ⟨n, h⟩ then o.val.setWidth 32 else a.m[n]
  full : ∀ r : Reg, b.full r = if r = o.reg ∨ r = o.vreg then true else if Reg.tagged r = true ∧ r ∈ o.takes then false else a.full r
  pw : b.pw = if o.reg = .pw then (o.pw &&& 0xFF00F801) ||| (o.val.setWidth 32 &&& 0x00FF07FE) else o.pw
  pc : b.pc = o.pc
  rnd : b.rnd = o.rnd
  retired : b.retired = a.retired + 1
  idle : b.wait = none ∧ b.since = none ∧ b.pend = none ∧ b.wakeCause = 0
  marks : (∀ x ∈ b.bad, x ∈ a.bad) ∧ ∀ x ∈ b.marks, x ∈ a.marks
  other : b.mask a = a

/-- The fields of a core's record that serve repair and the comparison of paired copies only (R414, R428 to R430). -/
def Core.mask (c : Core) : Core := { c with log := [], ckpts := [], fpint := 0, fpintNext := none }

/-- The state `t` is `s` after an instruction of the running thread that wrote `o` and nothing else: no other thread, no
core, no message and no byte of memory is changed. -/
structure State.After (s t : State) (o : Out) : Prop where
  me : Thread.After s.me (t.thread s.cur) o
  threads : ∀ k, k ≠ s.cur → t.thread k = s.thread k
  cores : ∀ k, (t.core k).mask = (s.core k).mask
  other : { t with threads := s.threads, cores := s.cores } = s
  bytes : ∀ a, t.byte a = s.byte a

/-- The instruction completes: `exec` answers a next state that holds what `o` says and is otherwise the state before. -/
def Completes (i : Instr) (s : State) (o : Out) : Prop := ∃ t, exec i s = .next t ∧ s.After t o

/-! ### Terms of the scalar statements -/

/-- The low `w` bits of a word as a signed integer. -/
def sval (w : Nat) (x : Word) : Int := (x.setWidth w).toInt
/-- The low `w` bits of a word as an unsigned integer. -/
def uval (w : Nat) (x : Word) : Nat := x.toNat % 2 ^ w
/-- An integer reduced to `w` bits and sign-extended to a word (R168). -/
def sx (w : Nat) (n : Int) : Word := (BitVec.ofInt w n).signExtend 64
/-- `x` has the bits `p` in its low `w` places, and bit `w - 1` above them. -/
def Extended (w : Nat) (x : Word) (p : Nat → Bool) : Prop := ∀ i, i < 64 → x.getLsbD i = p (min i (w - 1))

/-- The output of an instruction that writes `x` to a scalar register and goes on at the next word. -/
def State.out (s : State) (srcs : List Src) (d : Reg) (x : Word) : Out :=
  { reg := d, val := x, pw := s.me.pw, rnd := s.me.rnd, takes := takesOf srcs [d], pc := s.me.pc + 8 }
/-- The output of an instruction that changes only pw. -/
def State.outPw (s : State) (srcs : List Src) (pw : BitVec 32) : Out :=
  { pw := pw, rnd := s.me.rnd, takes := takesOf srcs [.z], pc := s.me.pc + 8 }

/-- The instruction traps at its own word with a cause and TADDR (R411). -/
def Traps (i : Instr) (s : State) (cause : Nat) (addr : Word) : Prop := exec i s = .next (s.trapHere cause addr)

/-! ### Terms of the floating-point statements -/

/-- The generator's state after one rounding under a mode in force (R51). -/
def rndAfter (m : RM) (r : BitVec 32) : BitVec 32 := if m = .sr then rndStep r else r
/-- The generator's value that one rounding under a mode in force uses (R51). -/
def rndUsed (m : RM) (r : BitVec 32) : BitVec 32 := if m = .sr then rndStep r else 0
/-- The output of a scalar floating-point instruction that rounds once under the mode `rm`: the code and the flags `c` of the
result, the flags ORed into pw (R52). -/
def State.outFp (s : State) (srcs : List Src) (d : Reg) (rm : RM) (c : Nat × Fl) : Out :=
  { reg := d, val := BitVec.ofNat 64 c.1, pw := s.me.pw ||| c.2.bits, rnd := rndAfter (rm.eff s.me.pw) s.me.rnd
    takes := takesOf srcs [d], pc := s.me.pc + 8 }
/-- The rational number that a finite number without a remainder stands for. -/
def Ex.rat (x : Ex) : ℚ := (if x.neg then -1 else 1) * (x.man : ℚ) * (2 : ℚ) ^ x.exp

/-! ### Terms of the memory statements -/

/-- The checks of R249 let the running thread make an access of `n` bytes at `a`: the state after them, which differs from `s`
only in held translations, the physical address, and the leaf of a page. -/
def State.reach (s : State) (a : Word) (n : Nat) (k : Acc) : Option (State × Nat × Option Word) :=
  if a.toNat % n ≠ 0 then none
  else match s.resolve s.me.ctx a k with
    | (s1, .at pa leaf) => some (s1, pa, leaf)
    | (_, .fail _) | (_, .absent) => none

/-- `x` holds the `n` bytes of memory from `pa` upwards, lowest first, and above them 0 or copies of the top bit (R7, R259). -/
def Holds (s : State) (pa n : Nat) (sx : Bool) (x : Word) : Prop :=
  ∀ i, i < 64 → x.getLsbD i =
    if i < 8 * n then (s.byte (pa + i / 8)).getLsbD (i % 8) else sx && (s.byte (pa + n - 1)).getLsbD 7

/-- Byte `a` of memory after the low `n` bytes of `v` are stored from `pa` upwards. -/
def State.byteAfter (s : State) (pa n : Nat) (v : Word) (a : Nat) : Byte :=
  if pa ≤ a ∧ a < pa + n then BitVec.ofNat 8 (v.toNat / 256 ^ (a - pa)) else s.byte a

/-- The state `t` is `s` after an instruction of the running thread that wrote `o`, and whose store changed memory so that
byte `a` reads as `mem a`, the tag of the word of `a` as `tag a`, and INH as `inh` (R412): beyond registers and those bytes, only poison, monitor
triggers, and the watches of clusters may differ. -/
structure State.StoredAs (s t : State) (inh : Bool) (o : Out) (mem : Nat → Byte) (tag : Nat → Bool) : Prop where
  me : Thread.After { s.me with mon := (t.thread s.cur).mon, inh := inh } (t.thread s.cur) o
  threads : ∀ k, k ≠ s.cur → { t.thread k with mon := (s.thread k).mon } = s.thread k
  cores : ∀ k, (t.core k).mask = (s.core k).mask
  bytes : ∀ a, t.byte a = mem a
  tags : ∀ a, t.tagFull a = tag a
  other : { t with threads := s.threads, cores := s.cores, clusters := s.clusters, mem := s.mem, empties := s.empties,
                   poison := s.poison } = s

/-- INH after a completed store through a base register: the handler's first store through g14 ends its window (R412). -/
def State.inhAfter (s : State) (base : Reg) : Bool := if base = .g 14 then false else s.me.inh

/-- The state `u` is `s` but for held translations and candidate lines, the free counter and the fresh numbers. -/
structure State.Cached (s u : State) : Prop where
  cores : ∀ k, { u.core k with plb := (s.core k).plb, icache := (s.core k).icache } = s.core k
  clusters : ∀ c, { u.cluster c with
    xlCache := (s.cluster c).xlCache, cands := (s.cluster c).cands, candFloor := (s.cluster c).candFloor } = s.cluster c
  other : { u with cores := s.cores, clusters := s.clusters, free := s.free, nextId := s.nextId } = s

/-- The instruction completes like one that writes `o`, but for held translations and candidate lines. -/
def CompletesCached (i : Instr) (s : State) (o : Out) : Prop := ∃ u t, exec i s = .next t ∧ s.Cached u ∧ u.After t o

/-- The instruction completes: it leaves `u`, the state with its effect, and then what `o` says of its thread's registers; what
`o` does not say is as in `u`. -/
def CompletesAs (i : Instr) (s u : State) (o : Out) : Prop := ∃ t, exec i s = .next t ∧ u.After t o

/-- The bytes from `a` upwards are window bytes of the running thread's own core or cluster that it may access, with no
poison. -/
def State.mine (s : State) (k : Acc) (a n : Nat) : Prop :=
  ∀ x, a ≤ x → x < a + n → s.resolve s.me.ctx (BitVec.ofNat 64 x) k = (s, .at x none) ∧ homeLocal s.me.core (homeOf x) = true ∧
    s.poisoned (wordOf x) 8 = false

end Sys2Proof.Machine
end

