-- ==== Sys2Proof/Certificates/Slice0/Obligations.lean ====
section
/-! DEFINITION. The statements for the provers. -/

namespace Sys2Proof.Machine

/-! ### Scalar integer, bit-field, constant, flag and control-flow instructions -/

/-- A two-operand form of R168 completes with a result that stands in `rel` to the width and the operands. -/
def Alu2 (mk : Guard → Bool → Reg → Src → Opd → Instr) (rel : Nat → Word → Word → Word → Prop) : Prop :=
  ∀ (s : State) (g : Guard) (h : Bool) (d : Reg) (a : Src) (b : Opd), (mk g h d a b).wf = true →
    s.runs g (aluNeed d (a :: Opd.srcs b)) = true →
    ∃ x, rel (if h then 32 else 64) (s.me.reg a.reg) (Opd.val s.me b) x ∧
      Completes (mk g h d a b) s (s.out (a :: Opd.srcs b) d x)

/-- A one-operand form of R168. -/
def Alu1 (mk : Guard → Bool → Reg → Src → Instr) (rel : Nat → Word → Word → Prop) : Prop :=
  ∀ (s : State) (g : Guard) (h : Bool) (d : Reg) (a : Src), (mk g h d a).wf = true → s.runs g (aluNeed d [a]) = true →
    ∃ x, rel (if h then 32 else 64) (s.me.reg a.reg) x ∧ Completes (mk g h d a) s (s.out [a] d x)

/-- A division of R168: DIVZ with the dividend in TADDR when the divisor is 0, else the quotient or remainder. -/
def AluDiv (mk : Guard → Bool → Reg → Src → Opd → Instr) (val : Nat → Word → Word → Word) : Prop :=
  ∀ (s : State) (g : Guard) (h : Bool) (d : Reg) (a : Src) (b : Opd), (mk g h d a b).wf = true →
    s.runs g (aluNeed d (a :: Opd.srcs b)) = true →
    (uval (if h then 32 else 64) (Opd.val s.me b) ≠ 0 →
      Completes (mk g h d a b) s (s.out (a :: Opd.srcs b) d (val (if h then 32 else 64) (s.me.reg a.reg) (Opd.val s.me b)))) ∧
    (uval (if h then 32 else 64) (Opd.val s.me b) = 0 → Traps (mk g h d a b) s 0x08 (s.me.reg a.reg))

end Sys2Proof.Machine

open Sys2Proof Sys2Proof.Machine

/-- R168: the results of ADD to MULHN, of the divisions, and of MIN to MAXN, as integers; DIVZ where a divisor is 0. -/
def Obligations.ScalarArithmeticResults : Prop :=
  Alu2 .add (fun w a b x => x = sx w (sval w a + sval w b)) ∧
  Alu2 .sub (fun w a b x => x = sx w (sval w a - sval w b)) ∧
  Alu2 .mul (fun w a b x => x = sx w (sval w a * sval w b)) ∧
  Alu2 .mulh (fun w a b x => x = sx w (sval w a * sval w b / 2 ^ w)) ∧
  Alu2 .mulhn (fun w a b x => x = sx w ((uval w a * uval w b / 2 ^ w : Nat) : Int)) ∧
  AluDiv .div (fun w a b => sx w ((sval w a).tdiv (sval w b))) ∧
  AluDiv .divn (fun w a b => sx w ((uval w a / uval w b : Nat) : Int)) ∧
  AluDiv .rem (fun w a b => sx w ((sval w a).tmod (sval w b))) ∧
  AluDiv .remn (fun w a b => sx w ((uval w a % uval w b : Nat) : Int)) ∧
  Alu2 .min (fun w a b x => x = sx w (min (sval w a) (sval w b))) ∧
  Alu2 .max (fun w a b x => x = sx w (max (sval w a) (sval w b))) ∧
  Alu2 .minn (fun w a b x => x = sx w ((min (uval w a) (uval w b) : Nat) : Int)) ∧
  Alu2 .maxn (fun w a b x => x = sx w ((max (uval w a) (uval w b) : Nat) : Int))

/-- R168: the results of AND to ROT, bit by bit or as integers; a shift count is all 64 bits of the second operand. -/
def Obligations.ScalarBitwiseAndShiftResults : Prop :=
  Alu2 .and (fun w a b x => Extended w x (fun i => a.getLsbD i && b.getLsbD i)) ∧
  Alu2 .or (fun w a b x => Extended w x (fun i => a.getLsbD i || b.getLsbD i)) ∧
  Alu2 .xor (fun w a b x => Extended w x (fun i => a.getLsbD i != b.getLsbD i)) ∧
  Alu2 .andn (fun w a b x => Extended w x (fun i => a.getLsbD i && !b.getLsbD i)) ∧
  Alu2 .shl (fun w a b x => Extended w x (fun i => decide (b.toNat ≤ i) && a.getLsbD (i - b.toNat))) ∧
  Alu2 .shr (fun w a b x => Extended w x (fun i => decide (i + b.toNat < w) && a.getLsbD (i + b.toNat))) ∧
  Alu2 .sar (fun w a b x => x = sx w (if b.toNat < w then sval w a / 2 ^ b.toNat else if sval w a < 0 then -1 else 0)) ∧
  Alu2 .rot (fun w a b x => Extended w x (fun i => a.getLsbD ((i + w - b.toNat % w) % w)))

/-- R168: the counts and reversals CLZ to BSWP. R169 to R172: EXT, DEP, SEL, LEA, MOVW and MOVH. -/
def Obligations.ScalarCountReverseFieldAndAddressResults : Prop :=
  (Alu1 .clz (fun w a x => ∃ n, n ≤ w ∧ x = BitVec.ofNat 64 n ∧ (∀ i, i < n → a.getLsbD (w - 1 - i) = false) ∧
    (n < w → a.getLsbD (w - 1 - n) = true)) ∧
  Alu1 .ctz (fun w a x => ∃ n, n ≤ w ∧ x = BitVec.ofNat 64 n ∧ (∀ i, i < n → a.getLsbD i = false) ∧
    (n < w → a.getLsbD n = true)) ∧
  Alu1 .popc (fun w a x => x = BitVec.ofNat 64 ((List.range w).countP a.getLsbD)) ∧
  Alu1 .brev (fun w a x => Extended w x (fun i => a.getLsbD (w - 1 - i))) ∧
  Alu1 .bswp (fun w a x => Extended w x (fun i => a.getLsbD (w - 8 - i / 8 * 8 + i % 8)))) ∧
  ((∀ (s : State) (g : Guard) (h sg : Bool) (d : Reg) (a : Src) (b : Opd), (Instr.ext g h sg d a b).wf = true →
    s.runs g (aluNeed d (a :: Opd.srcs b)) = true →
    ∃ x, Completes (.ext g h sg d a b) s (s.out (a :: Opd.srcs b) d x) ∧
      let w := if h then 32 else 64
      let pos := (Opd.val s.me b).toNat % 64
      let len := min ((Opd.val s.me b).toNat / 256 % 128) 64
      let at_ := fun i => decide (pos + i < w) && (s.me.reg a.reg).getLsbD (pos + i)
      Extended w x (fun i => if i < len then at_ i else sg && decide (0 < len) && at_ (len - 1))) ∧
  (∀ (s : State) (g : Guard) (h : Bool) (d : Reg) (a b c : Src), (Instr.dep g h d a b c).wf = true →
    s.runs g (aluNeed d [a, b, c]) = true →
    ∃ x, Completes (.dep g h d a b c) s (s.out [a, b, c] d x) ∧
      let pos := (s.me.reg c.reg).toNat % 64
      let len := min ((s.me.reg c.reg).toNat / 256 % 128) 64
      Extended (if h then 32 else 64) x
        (fun i => if pos ≤ i ∧ i < pos + len then (s.me.reg b.reg).getLsbD (i - pos) else (s.me.reg a.reg).getLsbD i)) ∧
  (∀ (s : State) (g : Guard) (h neg : Bool) (fl : BitVec 3) (d : Reg) (a : Src) (b : Opd),
    (Instr.sel g h neg fl d a b).wf = true → s.runs g (aluNeed d (a :: Opd.srcs b)) = true →
    Completes (.sel g h neg fl d a b) s (s.out (a :: Opd.srcs b) d
      (sx (if h then 32 else 64)
        ((if s.me.flag fl = !neg then s.me.reg a.reg else Opd.val s.me b).toInt)))) ∧
  (∀ (s : State) (g : Guard) (h : Bool) (d : Reg) (m : MemOp), (Instr.lea g h d m).wf = true →
    s.runs g (aluNeed d [m.base, m.index]) = true →
    Completes (.lea g h d m) s (s.out [m.base, m.index] d (sx (if h then 32 else 64)
      ((s.me.reg m.base.reg).toInt + (s.me.reg m.index.reg).toInt * 2 ^ m.sc.toNat + m.disp.toInt)))) ∧
  (∀ (s : State) (g : Guard) (d : Reg) (imm : BitVec 42), (Instr.movw g d imm).wf = true → s.runs g (aluNeed d []) = true →
    Completes (.movw g d imm) s (s.out [] d (BitVec.ofInt 64 imm.toInt))) ∧
  (∀ (s : State) (g : Guard) (d : Reg) (imm : BitVec 22), (Instr.movh g d imm).wf = true →
    s.runs g { aluNeed d [] with reads := [d] } = true →
    Completes (.movh g d imm) s (s.out [] d (BitVec.ofNat 64 (imm.toNat * 2 ^ 42 + (s.me.reg d).toNat % 2 ^ 42)))))

/-- R173 to R175: the flag that CMP and FLOP write, the fields that PWRD reads and PWWR writes. -/
def Obligations.FlagAndPwResults : Prop :=
  (∀ (s : State) (g : Guard) (cc : ICond) (fd : BitVec 3) (a : Src) (b : Opd), (Instr.cmp g cc fd a b).wf = true →
    s.runs g (aluNeed .z (a :: Opd.srcs b)) = true →
    ∃ pw : BitVec 32, Completes (.cmp g cc fd a b) s (s.outPw (a :: Opd.srcs b) pw) ∧
      ∀ i, i < 32 → pw.getLsbD i =
        let x := s.me.reg a.reg
        let y := Opd.val s.me b
        if i = fd.toNat ∧ fd ≠ 0 then
          (match cc with
          | .eq => decide (x.toNat = y.toNat) | .ne => decide (x.toNat ≠ y.toNat)
          | .lt => decide (x.toInt < y.toInt) | .ge => decide (y.toInt ≤ x.toInt)
          | .le => decide (x.toInt ≤ y.toInt) | .gt => decide (y.toInt < x.toInt)
          | .ltn => decide (x.toNat < y.toNat) | .gen => decide (y.toNat ≤ x.toNat)
          | .len => decide (x.toNat ≤ y.toNat) | .gtn => decide (y.toNat < x.toNat)
          | .tst => decide (x.toNat &&& y.toNat ≠ 0)
          | .ntst => decide (x.toNat &&& y.toNat = 0))
        else s.me.pw.getLsbD i) ∧
  (∀ (s : State) (g : Guard) (op : FlopOp) (fd : BitVec 3) (nx : Bool) (fx : BitVec 3) (ny : Bool) (fy : BitVec 3),
    (Instr.flop g op fd nx fx ny fy).wf = true → s.runs g (aluNeed .z []) = true →
    ∃ pw : BitVec 32, Completes (.flop g op fd nx fx ny fy) s (s.outPw [] pw) ∧
      ∀ i, i < 32 → pw.getLsbD i =
        let x := xor (s.me.flag fx) nx
        let y := xor (s.me.flag fy) ny
        if i = fd.toNat ∧ fd ≠ 0 then (match op with | .and => x && y | .or => x || y | .xor => xor x y)
        else s.me.pw.getLsbD i) ∧
  (∀ (s : State) (g : Guard) (f : PwField) (d : Reg), (Instr.pwrd g f d).wf = true → s.runs g (aluNeed d []) = true →
    Completes (.pwrd g f d) s (s.out [] d (BitVec.ofNat 64
      (match f with
      | .flags => s.me.pw.toNat % 256 | .st => s.me.pw.toNat / 256 % 8 | .fpf => s.me.pw.toNat / 65536 % 32
      | .rm => s.me.pw.toNat / 2097152 % 8 | .all => s.me.pw.toNat)))) ∧
  (∀ (s : State) (g : Guard) (f : PwField) (a : Src), (Instr.pwwr g f a).wf = true → s.runs g (aluNeed .z [a]) = true →
    ∃ pw : BitVec 32, Completes (.pwwr g f a) s (s.outPw [a] pw) ∧
      ∀ i, i < 32 → pw.getLsbD i =
        let x := s.me.reg a.reg
        match f with
        | .flags => if 1 ≤ i ∧ i ≤ 7 then x.getLsbD i else s.me.pw.getLsbD i
        | .st => if 8 ≤ i ∧ i ≤ 10 then x.getLsbD (i - 8) else s.me.pw.getLsbD i
        | .fpf => if 16 ≤ i ∧ i ≤ 20 then x.getLsbD (i - 16) else s.me.pw.getLsbD i
        | .rm => if 21 ≤ i ∧ i ≤ 23 then x.getLsbD (i - 21) else s.me.pw.getLsbD i
        | .all => if (1 ≤ i ∧ i ≤ 10) ∨ (16 ≤ i ∧ i ≤ 23) then x.getLsbD i else s.me.pw.getLsbD i)

namespace Sys2Proof.Machine

/-- The end of a control transfer (R176): ALIGN with the target in TADDR when the target is not a multiple of 8, else the
output with the PC at the target. -/
def Goes (i : Instr) (s : State) (tgt : Word) (o : Out) : Prop :=
  (tgt.toNat % 8 = 0 → Completes i s { o with pc := tgt }) ∧ (tgt.toNat % 8 ≠ 0 → Traps i s 0x04 tgt)

end Sys2Proof.Machine

/-- R176: the control transfers, with their links, their targets and ALIGN, and NOP. -/
def Obligations.ControlTransferTargetsAndLinks : Prop :=
  (∀ (s : State) (g : Guard) (imm : BitVec 35), (Instr.br g imm).wf = true → s.runs g (aluNeed .z []) = true →
    Goes (.br g imm) s (BitVec.ofInt 64 (s.me.pc.toInt + 8 * imm.toInt)) (s.outPw [] s.me.pw)) ∧
  (∀ (s : State) (g : Guard) (d : Reg) (imm : BitVec 35), (Instr.brl g d imm).wf = true → s.runs g (aluNeed d []) = true →
    Goes (.brl g d imm) s (BitVec.ofInt 64 (s.me.pc.toInt + 8 * imm.toInt)) (s.out [] d (s.me.pc + 8))) ∧
  (∀ (s : State) (g : Guard) (a : Src) (imm : BitVec 21), (Instr.jmp g a imm).wf = true → s.runs g (aluNeed .z [a]) = true →
    Goes (.jmp g a imm) s (BitVec.ofInt 64 ((s.me.reg a.reg).toInt + imm.toInt)) (s.outPw [a] s.me.pw)) ∧
  (∀ (s : State) (g : Guard) (d : Reg) (a : Src) (imm : BitVec 21), (Instr.jmpl g d a imm).wf = true →
    s.runs g (aluNeed d [a]) = true →
    Goes (.jmpl g d a imm) s (BitVec.ofInt 64 ((s.me.reg a.reg).toInt + imm.toInt)) (s.out [a] d (s.me.pc + 8))) ∧
  (∀ (s : State) (g : Guard) (d : Reg) (imm : BitVec 35), (Instr.loop g d imm).wf = true →
    s.runs g { aluNeed d [] with reads := [d] } = true →
    if s.me.reg d = 1 then Completes (.loop g d imm) s (s.out [] d 0)
    else Goes (.loop g d imm) s (BitVec.ofInt 64 (s.me.pc.toInt + 8 * imm.toInt)) (s.out [] d (s.me.reg d - 1))) ∧
  (∀ (s : State) (g : Guard), (Instr.nop g).wf = true → s.runs g (aluNeed .z []) = true →
    Completes (.nop g) s (s.outPw [] s.me.pw))

/-! ### Scalar floating point -/

namespace Sys2Proof.Machine

/-- A two-operand form of R179 completes with the exact result `op` rounded once. -/
def Fp2 (mk : Guard → Bool → RM → Reg → Src → Src → Instr) (op : RM → Num → Num → Raw) : Prop :=
  ∀ (s : State) (g : Guard) (sg : Bool) (rm : RM) (d : Reg) (a b : Src), (mk g sg rm d a b).wf = true →
    s.runs g (fpNeed d [a, b]) = true →
    Completes (mk g sg rm d a b) s (s.outFp [a, b] d rm ((fpFmt sg).finish (rm.eff s.me.pw) (rndUsed (rm.eff s.me.pw) s.me.rnd)
      (op (rm.eff s.me.pw) (fpVal sg (s.me.reg a.reg)) (fpVal sg (s.me.reg b.reg)))))

end Sys2Proof.Machine

/-- R179: FADD to FMAX compute the exact result and round it once in the type, with the flags of R52 and one generator step
under .sr (R51). -/
def Obligations.ScalarFloatArithmeticRoundsOnce : Prop :=
  Fp2 .fadd addNum ∧ Fp2 .fsub (fun m x y => addNum m x y.neg) ∧ Fp2 .fmul (fun _ x y => mulNum x y) ∧
  Fp2 .fdiv (fun _ x y => divNum x y) ∧
  (∀ (s : State) (g : Guard) (sg : Bool) (rm : RM) (d : Reg) (a b c : Src), (Instr.ffma g sg rm d a b c).wf = true →
    s.runs g (fpNeed d [a, b, c]) = true →
    Completes (.ffma g sg rm d a b c) s (s.outFp [a, b, c] d rm ((fpFmt sg).finish (rm.eff s.me.pw)
      (rndUsed (rm.eff s.me.pw) s.me.rnd)
      (fmaNum (rm.eff s.me.pw) (fpVal sg (s.me.reg a.reg)) (fpVal sg (s.me.reg b.reg)) (fpVal sg (s.me.reg c.reg)))))) ∧
  (∀ (s : State) (g : Guard) (sg : Bool) (rm : RM) (d : Reg) (a : Src), (Instr.fsqrt g sg rm d a).wf = true →
    s.runs g (fpNeed d [a]) = true →
    Completes (.fsqrt g sg rm d a) s (s.outFp [a] d rm ((fpFmt sg).finish (rm.eff s.me.pw) (rndUsed (rm.eff s.me.pw) s.me.rnd)
      (sqrtNum (fpVal sg (s.me.reg a.reg)))))) ∧
  (∀ (s : State) (g : Guard) (sg : Bool) (d : Reg) (a b : Src), (Instr.fmin g sg d a b).wf = true →
    s.runs g (fpNeed d [a, b]) = true →
    Completes (.fmin g sg d a b) s (s.outFp [a, b] d .rtz ((fpFmt sg).finish .rtz 0
      (minMaxNum false (fpVal sg (s.me.reg a.reg)) (fpVal sg (s.me.reg b.reg)))))) ∧
  (∀ (s : State) (g : Guard) (sg : Bool) (d : Reg) (a b : Src), (Instr.fmax g sg d a b).wf = true →
    s.runs g (fpNeed d [a, b]) = true →
    Completes (.fmax g sg d a b) s (s.outFp [a, b] d .rtz ((fpFmt sg).finish .rtz 0
      (minMaxNum true (fpVal sg (s.me.reg a.reg)) (fpVal sg (s.me.reg b.reg))))))

/-- R180: FCVT traps FMTBAD with the register's value when a format register that it uses is invalid, and otherwise converts
the value of the source's low bits. -/
def Obligations.ScalarConvertValueOrFormatTrap : Prop :=
  ∀ (s : State) (g : Guard) (rm : RM) (dt ty : ETyp) (d : Reg) (a : Src), (Instr.fcvt g rm dt ty d a).wf = true →
    s.runs g (fpNeed d [a]) = true →
    let badA := (dt = .fna ∨ ty = .fna) ∧ fmtValid s.me.fa = false
    let badB := (dt = .fnb ∨ ty = .fnb) ∧ fmtValid s.me.fb = false
    let m := rm.eff s.me.pw
    let c := ETyp.convert s.me.fa s.me.fb dt m (rndUsed m s.me.rnd) (ETyp.num s.me.fa s.me.fb ty (s.me.reg a.reg).toNat)
    (badA ∧ ¬ badB → Traps (.fcvt g rm dt ty d a) s 0x19 (s.me.fa.setWidth 64)) ∧
    (badB ∧ ¬ badA → Traps (.fcvt g rm dt ty d a) s 0x19 (s.me.fb.setWidth 64)) ∧
    (badA ∧ badB → Traps (.fcvt g rm dt ty d a) s 0x19 (s.me.fa.setWidth 64) ∨ Traps (.fcvt g rm dt ty d a) s 0x19 (s.me.fb.setWidth 64)) ∧
    (¬ badA ∧ ¬ badB → Completes (.fcvt g rm dt ty d a) s
      { s.outFp [a] d rm (0, c.2) with val := BitVec.ofInt 64 c.1 })

/-- R126, R182: the flag that FCMP writes, and NV, which is raised even when the flag is f0. R181, R183: FSGN's sign and
magnitude, or the canonical NaN, and the one bit that FCLS sets. -/
def Obligations.ScalarFloatCompareSignAndClass : Prop :=
  (∀ (s : State) (g : Guard) (cc : FCond) (sg : Bool) (fd : BitVec 3) (a b : Src), (Instr.fcmp g cc sg fd a b).wf = true →
    s.runs g (fpNeed .z [a, b]) = true →
    ∃ pw : BitVec 32, Completes (.fcmp g cc sg fd a b) s (s.outPw [a, b] pw) ∧
      let x := fpVal sg (s.me.reg a.reg)
      let y := fpVal sg (s.me.reg b.reg)
      let nan := x.isNan || y.isNan
      let holds := match cc with
        | .eq => !nan && x.cmp y == .eq
        | .ne => nan || x.cmp y != .eq
        | .lt => !nan && x.cmp y == .lt
        | .ge => !nan && x.cmp y != .lt
        | .le => !nan && x.cmp y != .gt
        | .gt => !nan && x.cmp y == .gt
        | .un => nan
        | .ord => !nan
      let nv := match cc with
        | .eq | .ne | .un | .ord => x.isSig || y.isSig
        | .lt | .ge | .le | .gt => nan
      ∀ i, i < 32 → pw.getLsbD i = if i = fd.toNat ∧ fd ≠ 0 then holds else if i = 20 then s.me.pw.getLsbD 20 || nv else s.me.pw.getLsbD i) ∧
  ((∀ (s : State) (g : Guard) (sg : Bool) (op : SgnOp) (d : Reg) (a b : Src), (Instr.fsgn g sg op d a b).wf = true →
    s.runs g (fpNeed d [a, b]) = true →
    let top := if sg then 31 else 63
    let sa := (s.me.reg a.reg).getLsbD top
    let sb := (s.me.reg b.reg).getLsbD top
    let sign := match op with
      | .j => sb
      | .jn => !sb
      | .jx => xor sa sb
    let x := fpVal sg (s.me.reg a.reg)
    (x.isNan = true → Completes (.fsgn g sg op d a b) s
      { s.out [a, b] d (if sg then 0x7FC00000 else 0x7FF8000000000000) with
        pw := if x.isSig then s.me.pw ||| 0x100000 else s.me.pw }) ∧
    (x.isNan = false → ∃ v : Word, Completes (.fsgn g sg op d a b) s (s.out [a, b] d v) ∧
      ∀ i, i < 64 → v.getLsbD i = if i < top then (s.me.reg a.reg).getLsbD i else decide (i = top) && sign)) ∧
  (∀ (s : State) (g : Guard) (sg : Bool) (d : Reg) (a : Src), (Instr.fcls g sg d a).wf = true → s.runs g (fpNeed d [a]) = true →
    let m := if sg then 23 else 52
    let e := if sg then 8 else 11
    let x := (s.me.reg a.reg).toNat
    let neg := (s.me.reg a.reg).getLsbD (m + e)
    let exp := x / 2 ^ m % 2 ^ e
    let frac := x % 2 ^ m
    Completes (.fcls g sg d a) s (s.out [a] d (BitVec.ofNat 64 (2 ^
      (if exp = 2 ^ e - 1 then (if frac = 0 then (if neg then 0 else 7) else if 2 ^ (m - 1) ≤ frac then 9 else 8)
      else if exp = 0 then (if frac = 0 then (if neg then 3 else 4) else (if neg then 2 else 5))
      else (if neg then 1 else 6)))))))

/-! ### Loads, stores and positions -/

namespace Sys2Proof.Machine

/-- What the running thread needs to be served at its own home with `n` bytes at `a`: the checks succeed, the home is local,
and neither shadows (R448) nor the gated stores of a paired slot (R429) stand between it and memory. -/
def State.local_ (s : State) (a : Word) (n : Nat) (k : Acc) (s1 : State) (pa : Nat) (leaf : Option Word) : Prop :=
  s.reach a n k = some (s1, pa, leaf) ∧ homeLocal s.me.core (homeOf pa) = true ∧ leafShadow leaf = false ∧
    s.paired s.me = false ∧ s.me.gated = []

end Sys2Proof.Machine

/-- R7, R20, R259: a load or fetch at a local home completes: gd holds the bytes at the effective address, lowest first,
zero-extended or with the sign form sign-extended, and nothing else but the PC changes. -/
def Obligations.LocalLoadAndFetchReadMemory : Prop :=
  ∀ (s s1 : State) (g : Guard) (z : Size) (x : Bool) (d : Reg) (m : MemOp) (pa : Nat) (leaf : Option Word),
    s.runs g { ext := .base, srcs := [m.base, m.index], fills := [d] } = true →
    s.local_ (MemOp.ea s.me m) (Size.bytes z) .load s1 pa leaf → s.me.awaited d = false → s1.poisoned pa (Size.bytes z) = false →
    ∃ v, Holds s1 pa (Size.bytes z) x v ∧
      ((Instr.ld g z x d m).wf = true →
        ∃ t, exec (.ld g z x d m) s = .next t ∧ s.Cached s1 ∧ s1.After t (s.out [m.base, m.index] d v)) ∧
      ((Instr.fetch g z x d m).wf = true →
        ∃ t, exec (.fetch g z x d m) s = .next t ∧ s.Cached s1 ∧ s1.After t (s.out [m.base, m.index] d v))

/-- R259, R330, R335: ST, and STL once its release need not wait, at a local home store the low bytes of the data register at
the effective address: those bytes, no other byte of memory, and no tag. -/
def Obligations.LocalStoreWritesItsBytesOnly : Prop :=
  (∀ (s s1 : State) (g : Guard) (z : Size) (d : Reg) (m : MemOp) (pa : Nat) (leaf : Option Word),
    (Instr.st g z d m).wf = true → s.runs g { ext := .base, srcs := [m.base, m.index], reads := [d] } = true →
    s.local_ (MemOp.ea s.me m) (Size.bytes z) .store s1 pa leaf →
    ∃ t, exec (.st g z d m) s = .next t ∧ s.Cached s1 ∧
      s1.StoredAs t (s.inhAfter m.base.reg) (s.outPw [m.base, m.index] s.me.pw) (s1.byteAfter pa (Size.bytes z) (s.me.reg d)) s1.tagFull) ∧
  (∀ (s s1 : State) (g : Guard) (z : Size) (d : Reg) (base : Src) (disp : BitVec 24) (sc : Scope) (pa : Nat) (leaf : Option Word),
    (Instr.stl g z d base disp sc).wf = true →
    s.runs g { ext := .base, srcs := base :: Scope.srcs sc, reads := [d], outside := true } = true →
    rectOk (Scope.val s.me sc) = true → s.me.released (Scope.val s.me sc) = true →
    s.local_ (baseDisp s.me base disp) (Size.bytes z) .store s1 pa leaf →
    ∃ t, exec (.stl g z d base disp sc) s = .next t ∧ s.Cached s1 ∧
      s1.StoredAs t (s.inhAfter base.reg) (s.outPw (base :: Scope.srcs sc) s.me.pw)
        (s1.byteAfter pa (Size.bytes z) (s.me.reg d)) s1.tagFull)

/-- R119, R249, R331, R338: an access whose effective address is not a multiple of its size traps ALIGN with that address,
whatever the address names. -/
def Obligations.MisalignedAccessTrapsAlign : Prop :=
  (∀ (s : State) (g : Guard) (z : Size) (x : Bool) (d : Reg) (m : MemOp), (MemOp.ea s.me m).toNat % Size.bytes z ≠ 0 →
    (s.runs g { ext := .base, srcs := [m.base, m.index], fills := [d] } = true →
      Traps (.ld g z x d m) s 0x04 (MemOp.ea s.me m) ∧ Traps (.fetch g z x d m) s 0x04 (MemOp.ea s.me m)) ∧
    (s.runs g { ext := .base, srcs := [m.base, m.index], reads := [d] } = true → Traps (.st g z d m) s 0x04 (MemOp.ea s.me m)) ∧
    (s.runs g { ext := .base, srcs := [m.base, m.index], dests := [d], outside := true } = true →
      Traps (.ldf g z x d m) s 0x04 (MemOp.ea s.me m)) ∧
    (s.runs g { ext := .base, srcs := [m.base, m.index], reads := [d], outside := true } = true →
      Traps (.stf g z x d m) s 0x04 (MemOp.ea s.me m))) ∧
  (∀ (s : State) (g : Guard) (wide : Bool) (d : Reg) (base : Src) (disp : BitVec 24) (b : Src),
    (baseDisp s.me base disp).toNat % (if wide then 8 else 4) ≠ 0 →
    (s.runs g { ext := .base, srcs := [base, b], dests := [d], outside := true } = true →
      Traps (.aadd g wide d base disp b) s 0x04 (baseDisp s.me base disp) ∧
      (∀ op, Traps (.alog g op wide d base disp b) s 0x04 (baseDisp s.me base disp)) ∧
      (∀ op, Traps (.amnx g op wide d base disp b) s 0x04 (baseDisp s.me base disp)) ∧
      Traps (.axch g wide d base disp b) s 0x04 (baseDisp s.me base disp) ∧
      Traps (.afadd g wide d base disp b) s 0x04 (baseDisp s.me base disp)) ∧
    (s.runs g { ext := .base, srcs := [base, b], reads := [d], dests := [d], outside := true } = true →
      Traps (.acas g wide d base disp b) s 0x04 (baseDisp s.me base disp)))

/-- R244, R258, R323, R384: a FETCH, and a LD of an anchored thread, whose home is not local sends a READ request to that home
and leaves gd empty until the answer; the thread goes on. No byte of memory changes. R260: PREF completes whatever its
address: no register, no memory, no fault. -/
def Obligations.RemoteReadAndPrefetch : Prop :=
  (∀ (s s1 : State) (g : Guard) (z : Size) (x : Bool) (d : Reg) (m : MemOp) (pa : Nat) (leaf : Option Word),
    s.runs g { ext := .base, srcs := [m.base, m.index], fills := [d] } = true → d.isG = true →
    s.reach (MemOp.ea s.me m) (Size.bytes z) .load = some (s1, pa, leaf) → homeLocal s.me.core (homeOf pa) = false →
    s.me.storing pa (Size.bytes z) = false → s.me.gated = [] → KMap.find (s1.cluster s.me.cluster).cands (lineOf (MemOp.ea s.me m).toNat) = none →
    ∀ i, i = Instr.fetch g z x d m ∨ (i = Instr.ld g z x d m ∧ s.me.anc = true) →
      ∃ t, exec i s = .next t ∧ (t.thread s.cur).full d = false ∧ (t.thread s.cur).awaited d = true ∧
        (t.thread s.cur).pc = s.me.pc + 8 ∧ (t.thread s.cur).retired = s.me.retired + 1 ∧
        (∀ r, r ≠ d → (t.thread s.cur).reg r = if r = .ip then s.me.pc + 8 else s.me.reg r) ∧ (∀ a, t.byte a = s.byte a) ∧
        ∃ f, (s1.nextId + 1, f) ∈ t.msgs ∧ f.kind = 0x02 ∧ f.ldest = homePos (pkgOf s.me.core) (homeOf pa) ∧
          f.body = .read (s.me.asker s.cur s1.nextId (leafShadow leaf)) pa (Size.bytes z) (m.sp != 1)) ∧
  (∀ (s : State) (g : Guard) (m : MemOp), (Instr.pref g m).wf = true → s.runs g { ext := .base, srcs := [m.base, m.index] } = true →
    CompletesCached (.pref g m) s (s.outPw [m.base, m.index] s.me.pw))

/-- R261: MIGR moves a roaming thread: its image leaves as a flit to the named core, with the PC past the MIGR, the instruction
retired, and the thread's registers as they were. UNIMPL in an anchored thread, DESCBAD for a position that is no core, and
nothing for z or the thread's own core. R262, R263: HOME writes the word that says where the address is served, whatever the
address; CORD writes a position, and traps DESCBAD for a form that names none. -/
def Obligations.MigrateHomeAndCoordinates : Prop :=
  (∀ (s : State) (g : Guard) (a : Src), (Instr.migr g a).wf = true → s.runs g { ext := .base, srcs := [a] } = true →
    let p := s.me.reg a.reg
    (s.me.anc = true → Traps (.migr g a) s 0x02 s.iword) ∧
    (s.me.anc = false → a.reg = .z ∨ (s.coreOperand p = true ∧ p.toNat = s.me.core) → Completes (.migr g a) s (s.outPw [a] s.me.pw)) ∧
    (s.me.anc = false → a.reg ≠ .z → s.coreOperand p = false → Traps (.migr g a) s 0x1A p) ∧
    (s.me.anc = false → a.reg ≠ .z → s.coreOperand p = true → p.toNat ≠ s.me.core → (s.cluster (clusterOf p.toNat)).fen = true →
      Traps (.migr g a) s 0x0E p) ∧
    (s.me.anc = false → a.reg ≠ .z → s.coreOperand p = true → p.toNat ≠ s.me.core → (s.cluster (clusterOf p.toNat)).fen = false →
      s.sendOverflow s.me.core = false → s.me.marks = [] → s.unagreed s.me = false → s.me.await = [] → s.me.asks = [] →
      ∃ t, exec (.migr g a) s = .next t ∧ (t.thread s.cur).place = .flight s.nextId ∧ (t.thread s.cur).pc = s.me.pc + 8 ∧
        (t.thread s.cur).retired = s.me.retired + 1 ∧ (t.thread s.cur).g = s.me.g ∧ (t.thread s.cur).pw = s.me.pw ∧
        ∃ f, (s.nextId, f) ∈ t.msgs ∧ f.kind = 0x01 ∧ f.ldest = p.toNat ∧ f.body = .image s.cur false none)) ∧
  ((∀ (s : State) (g : Guard) (d : Reg) (a : Src), (Instr.home g d a).wf = true →
    s.runs g { ext := .base, srcs := [a], dests := [d] } = true →
    CompletesCached (.home g d a) s (s.out [a] d (s.homeWord s.me (s.me.reg a.reg)))) ∧
  (∀ (s : State) (g : Guard) (d : Reg), (Instr.cord g d .own).wf = true → s.runs g { ext := .base, dests := [d] } = true →
    Completes (.cord g d .own) s (s.out [] d (BitVec.ofNat 64 (s.me.core + s.me.slot * 2 ^ 18 + (if isPylon s.me.core then 2 ^ 21 else 0)))) ∧
    Completes (.cord g d .ownL) s (s.out [] d (BitVec.ofNat 64
      (dieOf s.me.core * 1024 + clusOf s.me.core * 16 + coreNoOf s.me.core + s.me.slot * 2 ^ 18 + (if isPylon s.me.core then 2 ^ 21 else 0))))) ∧
  (∀ (s : State) (g : Guard) (d : Reg) (a : Src), (Instr.cord g d (.cl a)).wf = true →
    s.runs g { ext := .base, srcs := [a], dests := [d] } = true →
    let p := (s.me.reg a.reg).toNat
    let l := p
    (p < 2 ^ 18 ∧ p % 512 < 384 ∧ p / 512 < 384 → Completes (.cord g d (.cl a)) s (s.out [a] d (BitVec.ofNat 64
      ((16 * (p / 512 / 24) + p % 512 / 24) * 1024 + (6 * (p / 512 % 24 / 4) + p % 512 % 24 / 4) * 16 + 4 * (p / 512 % 4) + p % 512 % 4)))) ∧
    (¬ (p < 2 ^ 18 ∧ p % 512 < 384 ∧ p / 512 < 384) → Traps (.cord g d (.cl a)) s 0x1A (s.me.reg a.reg)) ∧
    (l < 2 ^ 18 ∧ l / 16 % 64 < 36 → Completes (.cord g d (.lc a)) s (s.out [a] d (BitVec.ofNat 64
      ((24 * (l / 1024 / 16) + 4 * (l / 16 % 64 / 6) + l % 16 / 4) * 512 + 24 * (l / 1024 % 16) + 4 * (l / 16 % 64 % 6) + l % 16 % 4)))) ∧
    (¬ (l < 2 ^ 18 ∧ l / 16 % 64 < 36) → Traps (.cord g d (.lc a)) s 0x1A (s.me.reg a.reg))))

/-! ### Tags, scopes and atomics -/

namespace Sys2Proof.Machine

/-- An access that the running thread performs at its own home, where no request waits for a tag. -/
def State.quiet (s : State) (a : Word) (n : Nat) (k : Acc) (s1 : State) (pa : Nat) (leaf : Option Word) : Prop :=
  s.reach a n k = some (s1, pa, leaf) ∧ homeLocal s.me.core (homeOf pa) = true ∧ leafShadow leaf = false ∧
    (s1.cluster s.me.cluster).tagWait = []

end Sys2Proof.Machine

/-- R330 to R332, R334: at a local home LDF on a full word loads it and with .e empties it; STF stores and fills the word,
without .e whatever the tag, with .e when the word is empty; FEQRY reads the tag and the poison; FESET of one word sets its
tag. Beyond the bytes of an STF no byte of memory changes, and no other tag. -/
def Obligations.LocalTagInstructions : Prop :=
  (∀ (s s1 : State) (g : Guard) (z : Size) (e : Bool) (d : Reg) (m : MemOp) (pa : Nat) (leaf : Option Word),
    (Instr.ldf g z e d m).wf = true →
    s.runs g { ext := .base, srcs := [m.base, m.index], dests := [d], outside := true } = true →
    s.quiet (MemOp.ea s.me m) (Size.bytes z) .load s1 pa leaf → s1.tagFull pa = true → s1.poisoned pa (Size.bytes z) = false →
    ∃ v, Holds s1 pa (Size.bytes z) false v ∧ ∃ t, exec (.ldf g z e d m) s = .next t ∧ s.Cached s1 ∧
      s1.StoredAs t s.me.inh (s.out [m.base, m.index] d v) s1.byte
        (fun a => if a / 8 = pa / 8 then !e else s1.tagFull a)) ∧
  (∀ (s s1 : State) (g : Guard) (z : Size) (e : Bool) (d : Reg) (m : MemOp) (pa : Nat) (leaf : Option Word),
    (Instr.stf g z e d m).wf = true →
    s.runs g { ext := .base, srcs := [m.base, m.index], reads := [d], outside := true } = true →
    s.quiet (MemOp.ea s.me m) (Size.bytes z) .store s1 pa leaf → (e = true → s1.tagFull pa = false) →
    ∃ t, exec (.stf g z e d m) s = .next t ∧ s.Cached s1 ∧
      s1.StoredAs t (s.inhAfter m.base.reg) (s.outPw [m.base, m.index] s.me.pw)
        (s1.byteAfter pa (Size.bytes z) (s.me.reg d)) (fun a => decide (a / 8 = pa / 8) || s1.tagFull a)) ∧
  (∀ (s s1 : State) (g : Guard) (d : Reg) (m : MemOp) (pa : Nat) (leaf : Option Word), (Instr.feqry g d m).wf = true →
    s.runs g { ext := .base, srcs := [m.base, m.index], dests := [d] } = true →
    s.quiet (MemOp.ea s.me m) 8 .load s1 pa leaf →
    ∃ t, exec (.feqry g d m) s = .next t ∧ s.Cached s1 ∧ s1.After t (s.out [m.base, m.index] d
      (BitVec.ofNat 64 ((if s1.tagFull pa then 1 else 0) + (if s1.poisoned pa 8 then 2 else 0))))) ∧
  (∀ (s s1 : State) (g : Guard) (full : Bool) (m : MemOp) (pa : Nat) (leaf : Option Word), (Instr.feset g full .z m).wf = true →
    s.runs g { ext := .base, srcs := [m.base, m.index], reads := [.z], outside := true } = true →
    s.quiet (MemOp.ea s.me m) 8 .store s1 pa leaf →
    ∃ t, exec (.feset g full .z m) s = .next t ∧ s.Cached s1 ∧
      s1.StoredAs t s.me.inh (s.outPw [m.base, m.index] s.me.pw) s1.byte
        (fun a => if a / 8 = pa / 8 then full else s1.tagFull a))

/-- R326, R335, R336: LDA at a local home, once earlier reads have returned, reads as LD does, and one whose read is done but whose
acquire still waited then completes with the value read; a FENCE completes once what it
releases has been performed and what it acquires has returned. Both write no byte of memory. A scope that is no rectangle
traps DESCBAD. -/
def Obligations.AcquireReleaseAndFence : Prop :=
  (∀ (s s1 : State) (g : Guard) (z : Size) (d : Reg) (base : Src) (disp : BitVec 24) (sc : Scope) (pa : Nat) (leaf : Option Word),
    (Instr.lda g z d base disp sc).wf = true →
    s.runs g { ext := .base, srcs := base :: Scope.srcs sc, dests := [d], outside := true } = true →
    (rectOk (Scope.val s.me sc) = false → (∀ v, s.me.wait ≠ some (.acquire v)) →
      Traps (.lda g z d base disp sc) s 0x1A (Scope.val s.me sc)) ∧
    (rectOk (Scope.val s.me sc) = true → s.local_ (baseDisp s.me base disp) (Size.bytes z) .load s1 pa leaf →
      s.me.readsDone = true → (∀ v, s.me.wait ≠ some (.acquire v)) → s1.poisoned pa (Size.bytes z) = false →
      ∃ v, Holds s1 pa (Size.bytes z) false v ∧ CompletesCached (.lda g z d base disp sc) s (s.out (base :: Scope.srcs sc) d v)) ∧
    (∀ v, s.me.wait = some (.acquire v) →
      CompletesCached (.lda g z d base disp sc) s (s.out (base :: Scope.srcs sc) d (extend v (Size.bytes z) false)))) ∧
  (∀ (s : State) (g : Guard) (k : FenceKind) (sc : Scope), (Instr.fence g k sc).wf = true →
    s.runs g { ext := .base, srcs := Scope.srcs sc, outside := true } = true →
    (rectOk (Scope.val s.me sc) = false → Traps (.fence g k sc) s 0x1A (Scope.val s.me sc)) ∧
    (rectOk (Scope.val s.me sc) = true →
      (match k with
      | .rel | .ar => s.me.released (Scope.val s.me sc) = true
      | .acq => s.me.readsDone = true) →
      CompletesCached (.fence g k sc) s (s.outPw (Scope.srcs sc) s.me.pw)))

namespace Sys2Proof.Machine

/-- An atomic of `n` bytes that a roaming thread executes at its local home, with no reservation of the word ahead of it: gd
gets the old value, and the location the new one where the table of R337 writes. -/
def AtomicAtHome (mk : Guard → Bool → Reg → Src → BitVec 24 → Src → Instr) (reads : Reg → List Reg)
    (new : Nat → Word → Word → Word → Option Word) : Prop :=
  ∀ (s s1 : State) (g : Guard) (wide : Bool) (d : Reg) (base : Src) (disp : BitVec 24) (b : Src) (pa : Nat) (leaf : Option Word),
    (mk g wide d base disp b).wf = true →
    s.runs g { ext := .base, srcs := [base, b], reads := reads d, dests := [d], outside := true } = true →
    s.local_ (baseDisp s.me base disp) (if wide then 8 else 4) .store s1 pa leaf → s.me.anc = false →
    (s1.cluster s.me.cluster).atoms = [] → (s1.cluster s.me.cluster).proxies = [] → s1.poisoned pa (if wide then 8 else 4) = false →
    ∃ old, Holds s1 pa (if wide then 8 else 4) false old ∧
      ∃ t, exec (mk g wide d base disp b) s = .next t ∧ s.Cached s1 ∧
        s1.StoredAs t s.me.inh (s.out [base, b] d old)
          (match new (if wide then 8 else 4) old (s.me.reg b.reg) (s.me.reg d) with
          | some x => s1.byteAfter pa (if wide then 8 else 4) x
          | none => s1.byte) s1.tagFull

end Sys2Proof.Machine

/-- R337, R338: the atomics at their home: each reads the old value, stores the new one of the table and answers the old one;
ACAS stores only when the old value equals its comparand. R144, R337: an atomic of an anchored thread at its local home
enters the run queue there as a proxy continuation, and its slot waits for the answer. -/
def Obligations.AtomicsReadModifyWriteOrWait : Prop :=
  (AtomicAtHome .aadd (fun _ => []) (fun _ old b _ => some (old + b)) ∧
  AtomicAtHome (fun g => .alog g .and) (fun _ => []) (fun _ old b _ => some (old &&& b)) ∧
  AtomicAtHome (fun g => .alog g .or) (fun _ => []) (fun _ old b _ => some (old ||| b)) ∧
  AtomicAtHome (fun g => .alog g .xor) (fun _ => []) (fun _ old b _ => some (old ^^^ b)) ∧
  AtomicAtHome (fun g => .alog g .andn) (fun _ => []) (fun _ old b _ => some (old &&& ~~~b)) ∧
  AtomicAtHome (fun g => .amnx g .min) (fun _ => []) (fun n old b _ => some (if sval (8 * n) old ≤ sval (8 * n) b then old else b)) ∧
  AtomicAtHome (fun g => .amnx g .max) (fun _ => []) (fun n old b _ => some (if sval (8 * n) b ≤ sval (8 * n) old then old else b)) ∧
  AtomicAtHome (fun g => .amnx g .minn) (fun _ => []) (fun n old b _ => some (if uval (8 * n) old ≤ uval (8 * n) b then old else b)) ∧
  AtomicAtHome (fun g => .amnx g .maxn) (fun _ => []) (fun n old b _ => some (if uval (8 * n) b ≤ uval (8 * n) old then old else b)) ∧
  AtomicAtHome .axch (fun _ => []) (fun _ _ b _ => some b) ∧
  AtomicAtHome .acas (fun d => [d]) (fun n old b c => if uval (8 * n) old = uval (8 * n) c then some b else none) ∧
  AtomicAtHome .afadd (fun _ => []) (fun n old b _ =>
    let f := if n = 4 then f32Fmt else f64Fmt
    some (BitVec.ofNat 64 (f.finish .rne 0 (addNum .rne (f.value old.toNat) (f.value b.toNat))).1))) ∧
  (∀ (s s1 : State) (g : Guard) (wide : Bool) (d : Reg) (base : Src) (disp : BitVec 24) (b : Src) (pa : Nat) (leaf : Option Word),
    s.runs g { ext := .base, srcs := [base, b], dests := [d], outside := true } = true →
    s.local_ (baseDisp s.me base disp) (if wide then 8 else 4) .store s1 pa leaf → s.me.anc = true →
    s1.bankRoom s.me.cluster pa = true → s1.parkFull s.me.cluster = false → clusterCores s.me.cluster ≠ [] →
    ∃ t, exec (.aadd g wide d base disp b) s = .next t ∧ (t.thread s.cur).pc = s.me.pc ∧ (t.thread s.cur).retired = s.me.retired ∧
      (t.thread s.cur).wait = some .answer ∧ (∀ a, t.byte a = s1.byte a) ∧
      (t.cluster s.me.cluster).proxies = (s1.cluster s.me.cluster).proxies ++ [(s1.nextId + 1,
        ⟨s.me.asker s.cur s1.nextId false, .add, pa, if wide then 8 else 4, lowBytes (s.me.reg b.reg) (if wide then 8 else 4), 0⟩)])

/-! ### Vector computation -/

namespace Sys2Proof.Machine

/-- The generator's state after the roundings of the active elements up to element `i` (R51, R192). -/
def rndAt (m : RM) (r : BitVec 32) (on : Nat → Bool) (i : Nat) : BitVec 32 :=
  if m = .sr then rndStep^[((List.range (i + 1)).filter on).length] r else r

/-- R187, R190, R192: a vector instruction completes elementwise. Its formats are valid; element `j` of vd is `f`'s code for an
active element, computed with the generator's state at `j`, and 0 or kept as Z says for any other; the flags of the active
elements are ORed into pw; no register but vd changes, and no byte of memory. -/
def Elementwise (i : Instr) (g : Guard) (k : VMask) (t : ETyp) (fmts : List ETyp) (d : Reg) (srcs : List Src) (reads : List Reg)
    (rm : RM) (w : Thread → Nat) (lane : Thread → Nat → Lane) (f : Thread → RM → BitVec 32 → Nat → Nat × Fl) : Prop :=
  ∀ s : State, i.wf = true → s.runs g (vneed k d srcs reads) = true → badFmt s.me.fa s.me.fb fmts = none →
    let m := rm.eff s.me.pw
    let on := fun j => lane s.me j == .active
    ∃ v pw, Completes i s { vreg := d, vec := v, pw := pw, rnd := rndAt m s.me.rnd on (t.count - 1), takes := takesOf srcs [d],
                            pc := s.me.pc + 8 } ∧
      (∀ j, j < t.count → elemOf t (ETyp.cell t) v j =
        match lane s.me j with
        | .active => cellOf (ETyp.cell t) (w s.me) t.signed (f s.me m (rndAt m s.me.rnd on j) j).1
        | .zero => 0
        | .keep => elemOf t (ETyp.cell t) (s.me.vreg d) j) ∧
      (∀ b, b < 32 → pw.getLsbD b = (s.me.pw.getLsbD b ||
        (List.range t.count).any (fun j => on j && (f s.me m (rndAt m s.me.rnd on j) j).2.bits.getLsbD b)))

/-- An elementwise instruction of up to three operands of one type: `f` has the mode, the generator's state and the bits of the
three elements. -/
def Elem3 (i : Instr) (g : Guard) (k : VMask) (t : ETyp) (d : Reg) (a b c : Src) (rm : RM)
    (f : Thread → RM → BitVec 32 → Nat → Nat → Nat → Nat × Fl) : Prop :=
  Elementwise i g k t [t] d [a, b, c] [] rm (fun th => t.bits th.fa th.fb) (VMask.lane k) (fun th m r j =>
    f th m r (elemOf t (t.bits th.fa th.fb) (th.vreg a.reg) j) (vopd t (t.bits th.fa th.fb) th b j)
      (elemOf t (t.bits th.fa th.fb) (th.vreg c.reg) j))

/-- The number that an element's bits stand for. -/
def Thread.num (th : Thread) (t : ETyp) (n : Nat) : Num := t.num th.fa th.fb n
/-- An exact result rounded into a floating type: code and flags. -/
def Thread.fin (th : Thread) (t : ETyp) (m : RM) (r : BitVec 32) (x : Raw) : Nat × Fl := (t.fmt th.fa th.fb).finish m r x
/-- An integer result in its type: wrapped, or clamped to the type's range. -/
def intRes (t : ETyp) (sat : Bool) (i : Int) : Nat × Fl :=
  ((if sat then max t.lo (min t.hi i) else i) % (2 ^ t.fixedWidth : Nat) |>.toNat, {})

end Sys2Proof.Machine

/-- R192, R193: VADD to VNEG and VDIV, VSQRT elementwise: integers wrap or saturate, floating elements are exact and rounded
once, in ascending order. R194: VRCP to VLOG2 round the exact function of each active element once. -/
def Obligations.VectorElementwiseArithmeticAndFunctions : Prop :=
  ((∀ g sat t rm k d a b, Elem3 (.vadd g sat t rm k d a b) g k t d a b zSrc rm (fun th m r x y _ =>
    if t.isInt then intRes t sat (t.intOf x + t.intOf y) else th.fin t m r (addNum m (th.num t x) (th.num t y)))) ∧
  (∀ g sat t rm k d a b, Elem3 (.vsub g sat t rm k d a b) g k t d a b zSrc rm (fun th m r x y _ =>
    if t.isInt then intRes t sat (t.intOf x - t.intOf y) else th.fin t m r (addNum m (th.num t x) (th.num t y).neg))) ∧
  (∀ g sat t rm k d a b, Elem3 (.vmul g sat t rm k d a b) g k t d a b zSrc rm (fun th m r x y _ =>
    if t.isInt then intRes t sat (t.intOf x * t.intOf y) else th.fin t m r (mulNum (th.num t x) (th.num t y)))) ∧
  (∀ g t rm k d a b c, Elem3 (.vfma g t rm k d a b c) g k t d a b c rm (fun th m r x y z =>
    th.fin t m r (fmaNum m (th.num t x) (th.num t y) (th.num t z)))) ∧
  (∀ g t rm k d a b c, Elem3 (.vfms g t rm k d a b c) g k t d a b c rm (fun th m r x y z =>
    th.fin t m r (fmaNum m (th.num t x) (th.num t y) (th.num t z).neg))) ∧
  (∀ g t rm k d a b c, Elem3 (.vfnma g t rm k d a b c) g k t d a b c rm (fun th m r x y z =>
    th.fin t m r (fmaNum m (th.num t x).neg (th.num t y) (th.num t z)))) ∧
  (∀ g t rm k d a b, Elem3 (.vdiv g t rm k d a b) g k t d a b zSrc rm (fun th m r x y _ =>
    th.fin t m r (divNum (th.num t x) (th.num t y)))) ∧
  (∀ g t rm k d a, Elem3 (.vsqrt g t rm k d a) g k t d a zSrc zSrc rm (fun th m r x _ _ => th.fin t m r (sqrtNum (th.num t x)))) ∧
  (∀ g t k d a b, Elem3 (.vmin g t k d a b) g k t d a b zSrc .rtz (fun th m r x y _ =>
    if t.isInt then (if t.intOf x < t.intOf y then x else y, {}) else th.fin t m r (minMaxNum false (th.num t x) (th.num t y)))) ∧
  (∀ g t k d a b, Elem3 (.vmax g t k d a b) g k t d a b zSrc .rtz (fun th m r x y _ =>
    if t.isInt then (if t.intOf x < t.intOf y then y else x, {}) else th.fin t m r (minMaxNum true (th.num t x) (th.num t y)))) ∧
  (∀ g sat t k d a, Elem3 (.vabs g sat t k d a) g k t d a zSrc zSrc .rtz (fun th m r x _ _ =>
    if t.isInt then intRes t sat |t.intOf x| else th.fin t m r ⟨(th.num t x).abs, false, false⟩)) ∧
  (∀ g sat t k d a, Elem3 (.vneg g sat t k d a) g k t d a zSrc zSrc .rtz (fun th m r x _ _ =>
    if t.isInt then intRes t sat (- t.intOf x) else th.fin t m r ⟨(th.num t x).neg, false, false⟩))) ∧
  ((∀ g t rm k d a, Elem3 (.vrcp g t rm k d a) g k t d a zSrc zSrc rm (fun th m r x _ _ =>
    th.fin t m r (divNum (.of false 1 0) (th.num t x)))) ∧
  (∀ g t rm k d a, Elem3 (.vrsq g t rm k d a) g k t d a zSrc zSrc rm (fun th m r x _ _ => th.fin t m r (rsqrtNum (th.num t x)))) ∧
  (∀ g t rm k d a, Elem3 (.vexp2 g t rm k d a) g k t d a zSrc zSrc rm (fun th m r x _ _ => th.fin t m r (exp2Num (th.num t x)))) ∧
  (∀ g t rm k d a, Elem3 (.vlog2 g t rm k d a) g k t d a zSrc zSrc rm (fun th m r x _ _ => th.fin t m r (log2Num (th.num t x)))))

/-- R193, R195, R196: the bitwise operations and shifts, VSEL, the copies VMOV, VBCST and VIDX, elementwise and without flags. -/
def Obligations.VectorBitsShiftsAndCopiesElementwise : Prop :=
  (∀ g t k d a b, Elem3 (.vand g t k d a b) g k t d a b zSrc .rtz (fun _ _ _ x y _ => (x &&& y, {}))) ∧
  (∀ g t k d a b, Elem3 (.vor g t k d a b) g k t d a b zSrc .rtz (fun _ _ _ x y _ => (x ||| y, {}))) ∧
  (∀ g t k d a b, Elem3 (.vxor g t k d a b) g k t d a b zSrc .rtz (fun _ _ _ x y _ => (x ^^^ y, {}))) ∧
  (∀ g t k d a b, Elem3 (.vshl g t k d a (.reg b)) g k t d a b zSrc .rtz (fun _ _ _ x y _ =>
    (if y < t.fixedWidth then x * 2 ^ y % 2 ^ t.fixedWidth else 0, {}))) ∧
  (∀ g t k d a n, Elem3 (.vshl g t k d a (.imm n)) g k t d a zSrc zSrc .rtz (fun _ _ _ x _ _ =>
    (x * 2 ^ n.toNat % 2 ^ t.fixedWidth, {}))) ∧
  (∀ g t k d a b, Elem3 (.vshr g t k d a (.reg b)) g k t d a b zSrc .rtz (fun _ _ _ x y _ =>
    intRes t false (if y < t.fixedWidth then t.intOf x / 2 ^ y else if t.intOf x < 0 then -1 else 0))) ∧
  (∀ g t k d a n, Elem3 (.vshr g t k d a (.imm n)) g k t d a zSrc zSrc .rtz (fun _ _ _ x _ _ =>
    intRes t false (t.intOf x / 2 ^ n.toNat))) ∧
  (∀ g t k d a, Elem3 (.vbcst g t k d a) g k t d zSrc a zSrc .rtz (fun _ _ _ _ y _ => (y, {}))) ∧
  (∀ g t k d a b c, Elementwise (.vsel g t k d a b c) g k t [t] d [a, b, c] [] .rtz (fun th => t.bits th.fa th.fb) (VMask.lane k)
    (fun th _ _ j => (elemOf t (t.bits th.fa th.fb) (th.vreg (if (th.mreg c.reg).getLsbD j then a.reg else b.reg)) j, {}))) ∧
  (∀ g t k d a, Elementwise (.vmov g t k d a) g k t [t] d [a] [] .rtz (fun _ => ETyp.cell t) (VMask.lane k)
    (fun th _ _ j => (elemOf t (ETyp.cell t) (th.vreg a.reg) j, {}))) ∧
  (∀ g t k step d a, Elementwise (.vidx g t k step d a) g k t [t] d [a] [] .rtz (fun _ => t.fixedWidth) (VMask.lane k)
    (fun th _ _ j => intRes t false ((th.reg a.reg).toNat + (j : Int) * step.toInt)))

/-- R197 to R199, R201: VPUTL, VPERM, VROT, VCVT and VDQNT, elementwise: which source element each element comes from, and what
becomes of it. -/
def Obligations.VectorLanesPermutesAndConversionsElementwise : Prop :=
  (∀ g t d a b, Elementwise (.vputl g t d a b) g ⟨0, false⟩ t [t] d (a :: VIdx.srcs b) [d] .rtz (fun th => t.bits th.fa th.fb)
    (fun th j => if j = (VIdx.val th b).toNat then .active else .keep) (fun th _ _ _ => ((th.reg a.reg).toNat, {}))) ∧
  (∀ g t k d a b, Elementwise (.vperm g t k d a b) g k t [t] d [a, b] [] .rtz (fun th => t.bits th.fa th.fb) (VMask.lane k)
    (fun th _ _ j => (elemOf t (t.bits th.fa th.fb) (th.vreg a.reg) ((th.vreg b.reg).toNat / 2 ^ (32 * j) % 2 ^ 32 % t.count), {}))) ∧
  (∀ g t k d a b, Elementwise (.vrot g t k d a b) g k t [t] d (a :: VIdx.srcs b) [] .rtz (fun th => t.bits th.fa th.fb) (VMask.lane k)
    (fun th _ _ j => (elemOf t (t.bits th.fa th.fb) (th.vreg a.reg) ((j + (VIdx.val th b).toNat) % t.count), {}))) ∧
  (∀ g hi dt ty rm k d a, Elementwise (.vcvt g hi dt ty rm k d a) g k dt [ty, dt] d [a] [] rm (fun th => dt.bits th.fa th.fb)
    (fun th j =>
      let from_ := if ty.count = dt.count then some j else if dt.count = 16 then some ((if hi then 16 else 0) + j)
        else if (if hi then 16 else 0) ≤ j ∧ j < (if hi then 16 else 0) + 16 then some (j - (if hi then 16 else 0)) else none
      if from_ = none then .keep else VMask.lane k th j)
    (fun th m r j =>
      let src := if ty.count = dt.count then j else if dt.count = 16 then (if hi then 16 else 0) + j else j - (if hi then 16 else 0)
      let x := elemOf ty (ty.bits th.fa th.fb) (th.vreg a.reg) src
      if ty.isInt && dt.isInt then intRes dt true (ty.intOf x)
      else
        let c := ETyp.convert th.fa th.fb dt m r (ty.num th.fa th.fb x)
        ((c.1 % (2 ^ dt.bits th.fa th.fb : Nat)).toNat, c.2))) ∧
  (∀ g cd t rm k d a, Elementwise (.vdqnt g cd t rm k d a) g k t (VCodec.uses cd) d [a] [] rm (fun _ => t.fixedWidth) (VMask.lane k)
    (fun th m r j =>
      let f := VCodec.fmt th.fa th.fb cd
      let img := (th.vreg a.reg).toNat
      let c := img / 2 ^ (32 * f.width) % 256
      if c = 0 then (0, {})
      else if c = 255 then ((t.fmt th.fa th.fb).nanCode, {})
      else (t.fmt th.fa th.fb).put m r (match f.value (img / 2 ^ (f.width * j) % 2 ^ f.width) with
        | .fin e => .fin { e with exp := e.exp + c - 127 }
        | n => n)))

/-- R195, R197, R205: VCMP writes a bit for each element into md, VGETL an element into gd, and MOPS a mask. -/
def Obligations.VectorCompareGetLaneAndMaskOperations : Prop :=
  (∀ (s : State) (g : Guard) (cc : Cond) (t : ETyp) (k : VMask) (d : Reg) (a b : Src), (Instr.vcmp g cc t k d a b).wf = true →
    s.runs g (vneed k d [a, b] []) = true → badFmt s.me.fa s.me.fb [t] = none →
    ∃ x pw, Completes (.vcmp g cc t k d a b) s { s.out [a, b] d x with pw := pw } ∧
      (∀ j, j < 32 → x.getLsbD j = (decide (j < t.count) &&
        match VMask.lane k s.me j with
        | .active => (vcond cc t s.me (elemOf t (t.bits s.me.fa s.me.fb) (s.me.vreg a.reg) j) (vopd t (t.bits s.me.fa s.me.fb) s.me b j)).1
        | .zero => false
        | .keep => (s.me.mreg d).getLsbD j)) ∧
      (∀ i, i < 32 → i ≠ 20 → pw.getLsbD i = s.me.pw.getLsbD i)) ∧
  (∀ (s : State) (g : Guard) (t : ETyp) (d : Reg) (a : Src) (b : VIdx), (Instr.vgetl g t d a b).wf = true →
    s.runs g (vneed ⟨0, false⟩ d (a :: VIdx.srcs b) []) = true → badFmt s.me.fa s.me.fb [t] = none →
    let n := elemOf t (t.bits s.me.fa s.me.fb) (s.me.vreg a.reg) (VIdx.val s.me b).toNat
    Completes (.vgetl g t d a b) s (s.out (a :: VIdx.srcs b) d
      (if (VIdx.val s.me b).toNat < t.count then (if t.isInt then BitVec.ofInt 64 (t.intOf n) else BitVec.ofNat 64 n) else 0))) ∧
  (∀ (s : State) (g : Guard) (op : MopsOp) (d : Reg) (a : Src), (Instr.mops g op d a).wf = true →
    s.runs g (vneed ⟨0, false⟩ d (a :: MopsOp.srcs op) []) = true →
    ∃ x : BitVec 32, Completes (.mops g op d a) s (s.out (a :: MopsOp.srcs op) d (x.setWidth 64)) ∧
      let A := fun i => (s.me.mreg a.reg).getLsbD i
      ∀ i, i < 32 → x.getLsbD i =
        match op with
        | .and b => A i && (s.me.mreg b.reg).getLsbD i
        | .or b => A i || (s.me.mreg b.reg).getLsbD i
        | .xor b => xor (A i) ((s.me.mreg b.reg).getLsbD i)
        | .andn b => A i && !(s.me.mreg b.reg).getLsbD i
        | .not => !A i
        | .first => A i && !(List.range i).any A
        | .below => !(List.range (i + 1)).any A)

/-- R55, R58, R59, R200, R202 to R204: VQNT, VRED, VSCAN and VDOT complete with the block image, the pairwise tree, the scan and
the dot product of the active elements; an integer VRED sum and VDOT are the sums of the active elements and products. -/
def Obligations.VectorReductionsScansAndBlocks : Prop :=
  (∀ (s : State) (g : Guard) (cd : VCodec) (t : ETyp) (rm : RM) (k : VMask) (d : Reg) (a : Src), (Instr.vqnt g cd t rm k d a).wf = true →
    s.runs g (vneed k d [a] []) = true → badFmt s.me.fa s.me.fb (VCodec.uses cd) = none →
    let f := VCodec.fmt s.me.fa s.me.fb cd
    let q := quantBlock f (rm.eff s.me.pw) ((List.range 32).map (fun i =>
      if VMask.on k s.me i then some (t.num s.me.fa s.me.fb (elemOf t t.fixedWidth (s.me.vreg a.reg) i)) else none)) ⟨{}, s.me.rnd⟩
    Completes (.vqnt g cd t rm k d a) s
      { vreg := d, vec := BitVec.ofNat 1024 ((q.2.2.foldr (fun e n => e + n * 2 ^ f.width) 0) + q.2.1 * 2 ^ (32 * f.width)),
        pw := s.me.pw ||| q.1.fl.bits, rnd := q.1.rnd, takes := takesOf [a] [d], pc := s.me.pc + 8 }) ∧
  (∀ (s : State) (g : Guard) (op : RedOp) (t : ETyp) (rm : RM) (k : VMask) (d : Reg) (a : Src), (Instr.vred g op t rm k d a).wf = true →
    s.runs g (vneed k d [a] []) = true → badFmt s.me.fa s.me.fb [t] = none →
    let r := redTree (RedOp.combine op t s.me (rm.eff s.me.pw)) (ETyp.logCount t) (actives t k s.me (s.me.vreg a.reg)) ⟨{}, s.me.rnd⟩
    Completes (.vred g op t rm k d a) s
      { s.out [a] d (elemWord t (t.bits s.me.fa s.me.fb) (r.2.getD (RedOp.empty op t s.me.fa s.me.fb))) with
        pw := s.me.pw ||| r.1.fl.bits, rnd := r.1.rnd } ∧
    (op = .sum → t.isInt = true → ∃ x, Completes (.vred g op t rm k d a) s (s.out [a] d x) ∧
      x = BitVec.ofInt 64 (t.intOf ((((List.range t.count).filter (VMask.on k s.me)).map (fun j =>
        elemOf t t.fixedWidth (s.me.vreg a.reg) j)).sum % 2 ^ t.fixedWidth)))) ∧
  (∀ (s : State) (g : Guard) (op : RedOp) (t : ETyp) (rm : RM) (k : VMask) (d : Reg) (a : Src), (Instr.vscan g op t rm k d a).wf = true →
    s.runs g (vneed k d [a] []) = true → badFmt s.me.fa s.me.fb [t] = none →
    let r := scanSteps (RedOp.combine op t s.me (rm.eff s.me.pw)) (ETyp.logCount t) 1 (actives t k s.me (s.me.vreg a.reg)) ⟨{}, s.me.rnd⟩
    ∃ v, Completes (.vscan g op t rm k d a) s
      { vreg := d, vec := v, pw := s.me.pw ||| r.1.fl.bits, rnd := r.1.rnd, takes := takesOf [a] [d], pc := s.me.pc + 8 } ∧
      ∀ j, j < t.count → elemOf t (ETyp.cell t) v j =
        match VMask.lane k s.me j with
        | .active => cellOf (ETyp.cell t) (t.bits s.me.fa s.me.fb) t.signed ((r.2.getD j none).getD 0)
        | .zero => 0
        | .keep => elemOf t (ETyp.cell t) (s.me.vreg d) j) ∧
  (∀ (s : State) (g : Guard) (t : ETyp) (rm : RM) (k : VMask) (d : Reg) (a b : Src), (Instr.vdot g t rm k d a b).wf = true →
    s.runs g (vneed k d [a, b] []) = true → badFmt s.me.fa s.me.fb [t] = none →
    (t.isInt = true → Completes (.vdot g t rm k d a b) s (s.out [a, b] d
      (BitVec.ofInt 64 (((List.range t.count).filter (VMask.on k s.me)).map (fun j =>
        t.intOf (elemOf t t.fixedWidth (s.me.vreg a.reg) j) * t.intOf (elemOf t t.fixedWidth (s.me.vreg b.reg) j))).sum))) ∧
    (t.isInt = false →
      let p := dotProducts t k s.me (rm.eff s.me.pw) (s.me.vreg a.reg) (s.me.vreg b.reg) ⟨{}, s.me.rnd⟩
      let r := redTree (RedOp.combine .sum t s.me (rm.eff s.me.pw)) (ETyp.logCount t) p.2 p.1
      Completes (.vdot g t rm k d a b) s { s.out [a, b] d (elemWord t (t.bits s.me.fa s.me.fb) (r.2.getD 0)) with
        pw := s.me.pw ||| r.1.fl.bits, rnd := r.1.rnd }))

/-! ### Vector memory -/

namespace Sys2Proof.Machine

/-- A vector load whose active elements are whole bytes at `addr`, in memory of the thread's own core or cluster, completes:
each active element is the bytes at its address, lowest first, extended to its cell. -/
def LoadsElements (i : Instr) (g : Guard) (t : ETyp) (k : VMask) (d : Reg) (srcs : List Src) (addr : Thread → Nat → Nat) : Prop :=
  ∀ s : State, i.wf = true → t.isNarrow = false → s.runs g (vmemNeed k srcs [] [d]) = true → s.paired s.me = false → s.me.gated = [] →
    (∀ j, j < t.count → VMask.on k s.me j = true →
      addr s.me j % (t.fixedWidth / 8) = 0 ∧ s.mine .load (addr s.me j) (t.fixedWidth / 8)) →
    ∃ v, Completes i s { vreg := d, vec := v, pw := s.me.pw, rnd := s.me.rnd, takes := takesOf srcs [d], pc := s.me.pc + 8 } ∧
      ∀ j, j < t.count → elemOf t (ETyp.cell t) v j =
        match VMask.lane k s.me j with
        | .active => cellOf (ETyp.cell t) t.fixedWidth t.signed (s.peek (addr s.me j) (t.fixedWidth / 8))
        | .zero => 0
        | .keep => elemOf t (ETyp.cell t) (s.me.vreg d) j

/-- A vector store whose active elements are whole bytes at `addr`, in memory of the thread's own core or cluster, completes:
the bytes at an element's address that no later active element covers are the element's, every byte that no active element
covers is as before, and no tag changes. -/
def StoresElements (i : Instr) (g : Guard) (t : ETyp) (k : VMask) (d : Reg) (srcs : List Src) (base : Reg) (addr : Thread → Nat → Nat) :
    Prop :=
  ∀ s : State, i.wf = true → t.isNarrow = false → s.runs g (vmemNeed k srcs [d] []) = true → s.paired s.me = false → s.me.gated = [] →
    (∀ j, j < t.count → VMask.on k s.me j = true →
      addr s.me j % (t.fixedWidth / 8) = 0 ∧ s.mine .store (addr s.me j) (t.fixedWidth / 8)) →
    let in_ := fun j a => addr s.me j ≤ a ∧ a < addr s.me j + t.fixedWidth / 8
    ∃ u, exec i s = .next u ∧ s.StoredAs u (s.inhAfter base) (s.outPw srcs s.me.pw) u.byte s.tagFull ∧
      (∀ a, (∀ j, j < t.count → VMask.on k s.me j = true → ¬ in_ j a) → u.byte a = s.byte a) ∧
      (∀ j a, j < t.count → VMask.on k s.me j = true → in_ j a →
        (∀ l, j < l → l < t.count → VMask.on k s.me l = true → ¬ in_ l a) →
        u.byte a = BitVec.ofNat 8 (elemOf t t.fixedWidth (s.me.vreg d) j / 256 ^ (a - addr s.me j)))

end Sys2Proof.Machine

/-- R206 to R209: the vector loads of whole-byte elements: VLD from consecutive addresses, VLDS from addresses a stride apart,
VGTH from a base and the signed lanes of vb. R206 to R208, R330, R412: the vector stores of whole-byte elements, in
ascending order; VSCT is no stack access. -/
def Obligations.VectorMemoryReadsAndWritesItsElements : Prop :=
  ((∀ g t d m, LoadsElements (.vld g t d m) g t allActive d [m.base, m.index]
    (fun th j => ((MemOp.ea th m).toNat + t.fixedWidth * j / 8) % 2 ^ 64)) ∧
  (∀ g t d m, LoadsElements (.vlds g t d m) g t allActive d [m.base, m.index]
    (fun th j => (th.reg m.base.reg + m.disp.signExtend 64 + BitVec.ofNat 64 j * (th.reg m.index.reg <<< m.sc.toNat)).toNat)) ∧
  (∀ g t k sc d a b, LoadsElements (.vgth g t k sc d a b) g t k d [a, b]
    (fun th j => (th.reg a.reg + ((BitVec.ofNat 32 (laneOf (th.vreg b.reg) j)).signExtend 64 <<< sc.toNat)).toNat))) ∧
  ((∀ g t d m, StoresElements (.vst g t d m) g t allActive d [m.base, m.index] m.base.reg
    (fun th j => ((MemOp.ea th m).toNat + t.fixedWidth * j / 8) % 2 ^ 64)) ∧
  (∀ g t d m, StoresElements (.vsts g t d m) g t allActive d [m.base, m.index] m.base.reg
    (fun th j => (th.reg m.base.reg + m.disp.signExtend 64 + BitVec.ofNat 64 j * (th.reg m.index.reg <<< m.sc.toNat)).toNat)) ∧
  (∀ g t k sc d a b, StoresElements (.vsct g t k sc d a b) g t k d [a, b] .z
    (fun th j => (th.reg a.reg + ((BitVec.ofNat 32 (laneOf (th.vreg b.reg) j)).signExtend 64 <<< sc.toNat)).toNat)))

/-- R190: a vector instruction that uses an invalid format register traps FMTBAD with that register's value, before anything
else of its effect. R38, R211: FMTLD writes a valid format value to fa or fb, and traps FMTBAD with an invalid one; from a
descriptor it takes both formats and the rounding mode. -/
def Obligations.FormatRegistersAndFormatTraps : Prop :=
  (∀ (s : State) (g : Guard) (k : VMask) (d : Reg) (a b : Src) (rm : RM) (t : ETyp) (r : BitVec 24),
    badFmt s.me.fa s.me.fb [t] = some r → s.runs g (vneed k d [a, b, zSrc] []) = true →
    (∀ sat, Traps (.vadd g sat t rm k d a b) s 0x19 (r.setWidth 64) ∧ Traps (.vmul g sat t rm k d a b) s 0x19 (r.setWidth 64)) ∧
    Traps (.vdiv g t rm k d a b) s 0x19 (r.setWidth 64) ∧ Traps (.vmin g t k d a b) s 0x19 (r.setWidth 64) ∧
    Traps (.vand g t k d a b) s 0x19 (r.setWidth 64)) ∧
  ((∀ (s : State) (g : Guard) (a : Src), (Instr.fmtld g (.a a)).wf = true → s.runs g { ext := .vec, srcs := [a] } = true →
    let r : BitVec 24 := (s.me.reg a.reg).setWidth 24
    (fmtValid r = true → CompletesAs (.fmtld g (.a a)) s (s.modThread s.cur (fun t => { t with fa := r })) (s.outPw [a] s.me.pw)) ∧
    (fmtValid r = true → CompletesAs (.fmtld g (.b a)) s (s.modThread s.cur (fun t => { t with fb := r })) (s.outPw [a] s.me.pw)) ∧
    (fmtValid r = false → Traps (.fmtld g (.a a)) s 0x19 (r.setWidth 64) ∧ Traps (.fmtld g (.b a)) s 0x19 (r.setWidth 64))) ∧
  (∀ (s s1 : State) (g : Guard) (n : BitVec 2) (pa : Nat) (leaf : Option Word),
    s.runs g { ext := .vec } = true →
    let p := s.me.fsh[n.toNat]'n.isLt
    (p = 0 → Traps (.fmtld g (.fsh n)) s 0x1A 0) ∧
    (p ≠ 0 → p.toNat % 64 ≠ 0 → Traps (.fmtld g (.fsh n)) s 0x04 p) ∧
    (p ≠ 0 → p.toNat % 64 = 0 → s.local_ p 8 .load s1 pa leaf → s1.poisoned pa 8 = false → s.me.storing pa 8 = false →
      s1.fencedFrom s.me.core pa = false →
      ∃ v : Word, Holds s1 pa 8 false v ∧
        let fa : BitVec 24 := v.extractLsb' 32 24
        let fb : BitVec 24 := v.extractLsb' 8 24
        (v.toNat / 2 ^ 60 ≠ 3 → exec (.fmtld g (.fsh n)) s = .next (s.trapHere 0x1A p)) ∧
        (v.toNat / 2 ^ 60 = 3 → fmtValid fa = true → fmtValid fb = true →
          ∃ pw, s.Cached s1 ∧ CompletesAs (.fmtld g (.fsh n)) s (s1.modThread s.cur (fun t => { t with fa := fa, fb := fb }))
            (s.outPw [] pw) ∧
            ∀ i, i < 32 → pw.getLsbD i = if 21 ≤ i ∧ i ≤ 23 then v.getLsbD (i - 16) else s.me.pw.getLsbD i))))

/-! ### The matrix engine -/

namespace Sys2Proof.Machine

/-- The engine of the running thread's core. -/
abbrev State.myMx (s : State) : Matrix := (s.core s.me.core).mx

/-- The running thread owns its core's engine (R214). -/
def State.ownsMx (s : State) : Prop := ∃ o, s.myMx.owner = some o ∧ s.me.owns o = true

end Sys2Proof.Machine

/-- R215, R216, R227, R229, R232 to R235: the instructions of the engine's owner. MXSET loads the 64-byte block and the format
registers into the shadow set, MXRUN commits it, TAZ and TACC join the tile operations, TAQ reads ENGST, MXCAP makes or
withdraws a capability. Each leaves the thread's other registers and memory as they were. -/
def Obligations.MatrixOwnerInstructionsComplete : Prop :=
  (∀ (s s1 : State) (g : Guard) (a : Src) (v : Nat), (Instr.mxset g a).wf = true → s.runs g (mxNeed [a] [] []) = true → s.ownsMx →
    (s.me.reg a.reg).toNat % 64 = 0 → s.myMx.pending = none → s.me.gated = [] → s.me.stored = true →
    s.readRange s.me.ctx (s.me.reg a.reg).toNat 64 = .ok s1 v → s1.cur = s.cur →
    CompletesAs (.mxset g a) s
      (s1.modMx s.me.core (fun m => { m with shadow := .loaded ⟨(List.range 8).map (fun i => BitVec.ofNat 64 (v / 2 ^ (64 * i))), s.me.fa, s.me.fb⟩ }))
      (s.outPw [a] s.me.pw)) ∧
  (∀ (s : State) (g : Guard) (cl : Clauses) (b : MxBlock), s.runs g (mxNeed [] [] []) = true → s.ownsMx →
    s.myMx.shadow = .loaded b → s.me.gated = [] → s.me.stored = true →
    ∃ c : MxCmd, c.blk = b ∧ c.clauses = cl ∧ c.tid = s.cur ∧ c.acc = s.myMx.accNo ∧ c.remote = false ∧
      (c.met = decide (cl.wt.toNat ≤ (s.sema s.me.cluster cl.ws.toNat).count.toNat)) ∧
      CompletesAs (.mxrun g cl) s (s.modMx s.me.core (fun m => { m with shadow := .pending c, accNo := m.accNo + 1 }))
        (s.outPw [] s.me.pw)) ∧
  (∀ (s : State) (g : Guard) (cl : Clauses), s.runs g (mxNeed [] [] []) = true → s.ownsMx → s.myMx.shadow = .empty →
    Traps (.mxrun g cl) s 0x1A 0) ∧
  (∀ (s : State) (g : Guard) (tile : BitVec 2) (cl : Clauses), s.runs g (mxNeed [] [] []) = true → s.ownsMx → s.myMx.ops.length < 4 →
    ∃ o : TileOp, o.tile = tile.toNat ∧ o.chain = none ∧ o.clauses = cl ∧ o.tid = s.cur ∧ o.acc = s.myMx.accNo ∧
      CompletesAs (.taz g tile cl) s (s.modMx s.me.core (fun m => { m with accNo := m.accNo + 1, ops := m.ops ++ [o] })) (s.outPw [] s.me.pw)) ∧
  (∀ (s : State) (g : Guard) (tile : BitVec 2) (a b : Src), s.runs g { mxNeed [a, b] [] [] with outside := true } = true → s.ownsMx →
    let src := s.me.reg a.reg
    let dst := s.me.reg b.reg
    (src.toNat % 128 ≠ 0 → Traps (.tacc g tile a b) s 0x04 src) ∧
    (src.toNat % 128 = 0 → dst.toNat % 128 ≠ 0 → Traps (.tacc g tile a b) s 0x04 dst) ∧
    (src.toNat % 128 = 0 → dst.toNat % 128 = 0 → src ≠ 0 → s.recvOk s.me.core src.toNat = false → Traps (.tacc g tile a b) s 0x18 src) ∧
    (src.toNat % 128 = 0 → dst.toNat % 128 = 0 → src = 0 ∨ s.recvOk s.me.core src.toNat = true → s.myMx.ops.length < 4 →
      ∃ o : TileOp, o.tile = tile.toNat ∧ o.chain = some { src := src.toNat, dst := dst.toNat } ∧ o.tid = s.cur ∧ o.acc = s.myMx.accNo ∧
        CompletesAs (.tacc g tile a b) s (s.modMx s.me.core (fun m => { m with accNo := m.accNo + 1, ops := m.ops ++ [o] }))
          (s.outPw [a, b] s.me.pw))) ∧
  (∀ (s : State) (g : Guard) (wt : Bool) (d : Reg), (Instr.taq g wt d).wf = true → s.runs g (mxNeed [] [] [d]) = true → s.ownsMx →
    (wt = true → s.myMx.works s.cur = false) → Completes (.taq g wt d) s (s.out [] d s.myMx.engst)) ∧
  (∀ (s : State) (g : Guard) (d : Reg) (a : Src), (Instr.mxcap g d a).wf = true → s.runs g (mxNeed [a] [] [d]) = true → s.ownsMx →
    let k := s.me.reg a.reg
    (15 < k.toNat → Traps (.mxcap g d a) s 0x1A k) ∧
    (k = 0 → CompletesAs (.mxcap g d a) s (s.modMx s.me.core (fun m => { m with capv := false }))
      { s.out [a] d 0 with pc := s.me.pc + 8 }) ∧
    (k ≠ 0 → k.toNat ≤ 15 → ∃ nonce : BitVec 24, nonce ≠ s.myMx.capReg.extractLsb' 30 24 ∧
      let cap : Word := BitVec.ofNat 64 (k.toNat * 2 ^ 54 + nonce.toNat * 2 ^ 30 + s.me.domid.toNat * 2 ^ 18 + s.me.core)
      s.me.core < 2 ^ 18 →
      CompletesAs (.mxcap g d a) s (s.bumpFree.modMx s.me.core (fun m => { m with capv := true, capReg := cap })) (s.out [a] d cap)))

/-- R231: TAWR stores the active lanes of a register as bits in a row of a tile, TARD of type f32 reads a row's elements back;
both trap TARANGE for a row above 63, and read or write no other element. R230, R366: MXSEND, its clause met, sends the
block it has read with the capability to the core that the capability names; it traps SENDOVF while its cluster's park
region is exhausted. One whose clause was waited for sends the block that it had read. -/
def Obligations.MatrixTilesAndBlocks : Prop :=
  ((∀ (s : State) (g : Guard) (k : VMask) (a : Src) (tile : BitVec 2) (row : RowSel), (Instr.tawr g k a tile row).wf = true →
    s.runs g (mxNeed (a :: RowSel.srcs row) (VMask.reads k) []) = true → s.ownsMx →
    let r := RowSel.val s.me row
    (63 < r.toNat → Traps (.tawr g k a tile row) s 0x18 r) ∧
    (r.toNat ≤ 63 → s.myMx.locked tile.toNat = false → ∃ m : Matrix,
      CompletesAs (.tawr g k a tile row) s (s.modMx s.me.core (fun _ => m)) (s.outPw (a :: RowSel.srcs row) s.me.pw) ∧
      { m with tiles := s.myMx.tiles } = s.myMx ∧
      ∀ e, m.elem e = if 2048 * tile.toNat + 32 * r.toNat ≤ e ∧ e < 2048 * tile.toNat + 32 * r.toNat + 32 ∧
          VMask.on k s.me (e % 32) = true then BitVec.ofNat 32 (laneOf (s.me.vreg a.reg) (e % 32)) else s.myMx.elem e)) ∧
  (∀ (s : State) (g : Guard) (t : ETyp) (rm : RM) (k : VMask) (d : Reg) (tile : BitVec 2) (row : RowSel),
    (Instr.tard g t rm k d tile row).wf = true → s.runs g (mxNeed (RowSel.srcs row) (VMask.reads k) [d]) = true → s.ownsMx →
    let r := RowSel.val s.me row
    (63 < r.toNat → Traps (.tard g t rm k d tile row) s 0x18 r) ∧
    (r.toNat ≤ 63 → s.myMx.locked tile.toNat = false →
      let p := s.myMx.readRow tile.toNat r.toNat t k s.me (rm.eff s.me.pw) d ⟨{}, s.me.rnd⟩
      Completes (.tard g t rm k d tile row) s
        { vreg := d, vec := p.2, pw := s.me.pw ||| p.1.fl.bits, rnd := p.1.rnd,
          takes := takesOf (RowSel.srcs row) [d], pc := s.me.pc + 8 } ∧
      (t = .f32 → ∀ j, j < 32 → VMask.on k s.me j = true →
        elemOf .f32 32 p.2 j = (s.myMx.elem (2048 * tile.toNat + 32 * r.toNat + j)).toNat)))) ∧
  (∀ (s : State) (g : Guard) (a b : Src) (cl : Clauses), s.runs g { ext := .mx, srcs := [a, b], outside := true } = true →
    let cap := s.me.reg a.reg
    let pos := cap.toNat % 2 ^ 18
    (∀ (s1 : State) (v : Nat), s.me.wait = none → (s.me.reg b.reg).toNat % 64 = 0 → s.me.gated = [] → s.me.stored = true →
      s.readRange s.me.ctx (s.me.reg b.reg).toNat 64 = .ok s1 v → s1.cur = s.cur → s1.clauseHolds s.me.cluster cl = true →
      let blk : MxBlock := ⟨(List.range 8).map (fun i => BitVec.ofNat 64 (v / 2 ^ (64 * i))), s.me.fa, s.me.fb⟩
      (s1.corePresent pos = true → s1.sendOverflow s.me.core = false →
        CompletesAs (.mxsend g a b cl) s
          (s1.bumpId.request s.me pos 0x0E (.engc (s.me.asker s.cur s1.nextId false) cap blk cl s.me.core)) (s.outPw [a, b] s.me.pw)) ∧
      (s1.corePresent pos = true → s1.sendOverflow s.me.core = true → Traps (.mxsend g a b cl) s 0x0F (BitVec.ofNat 64 pos)) ∧
      (s1.corePresent pos = false → CompletesAs (.mxsend g a b cl) s (s1.orphaned s.me.cluster) (s.outPw [a, b] s.me.pw))) ∧
    (∀ k ws wt (words : List Word), s.me.wait = some (.clause k ws wt true words) → s.corePresent pos = true →
      s.sendOverflow s.me.core = false → CompletesAs (.mxsend g a b cl) s
        (s.bumpId.request s.me pos 0x0E (.engc (s.me.asker s.cur s.nextId false) cap ⟨words, s.me.fa, s.me.fb⟩ cl s.me.core)) (s.outPw [a, b] s.me.pw)))

/-- R42, R179: the sum and the product of two finite numbers are exact, and the order of two finite numbers is that of the
rationals they stand for. R42: a value that a wide format holds is its own rounding under every mode, and raises no flag.
R60: a group of finite products is summed exactly, with its scale codes, before the one group rounding. -/
def Obligations.FloatValuesAreExactBeforeOneRounding : Prop :=
  ((∀ (m : RM) (x y : Ex), x.sticky = false → y.sticky = false →
    (addNum m (.fin x) (.fin y)).nv = false ∧ ∃ z, (addNum m (.fin x) (.fin y)).num = .fin z ∧ z.sticky = false ∧ z.rat = x.rat + y.rat) ∧
  (∀ (x y : Ex), x.sticky = false → y.sticky = false →
    ∃ z, (mulNum (.fin x) (.fin y)).num = .fin z ∧ z.sticky = false ∧ z.rat = x.rat * y.rat) ∧
  (∀ (x y : Ex), (Num.fin x : Machine.Num).cmp (.fin y) = compare x.rat y.rat)) ∧
  (∀ (f : Fmt), f ∈ [f64Fmt, f32Fmt, f16Fmt, e8m7Fmt] → ∀ (code : Nat), code < 2 ^ f.width → ∀ (x : Ex), f.value code = .fin x →
    ∀ (rm : RM), rm ≠ .dyn → ∀ (r : BitVec 32), f.put rm r (.fin x) = (code, {})) ∧
  (∀ (as bs : List Ex) (ca cb : Nat), as.length = bs.length → as ≠ [] → (∀ x ∈ as ++ bs, x.sticky = false) →
    ca ≠ 0 → ca ≠ 255 → cb ≠ 0 → cb ≠ 255 →
    ∃ x, groupSum (as.map Num.fin, ca) (bs.map Num.fin, cb) = .fin x ∧ x.sticky = false ∧
      x.rat = ((List.zipWith (fun a b => a.rat * b.rat) as bs).sum) * (2 : ℚ) ^ ((ca : Int) - 127 + ((cb : Int) - 127)))

/-- R221, R222, R224, R226, R232, R235, R432: the engine's own events. A command starts when the array is free and takes its set's
block; one that ends, on a paired core with the CRC of the odd engine, leaves its code and flags in ENGST; with another CRC it is
to run again from the copy of its tile, and the disagreement is counted; a remote command with the capability joins the remote queue; TAZ
clears its tile; a TACC with neither buffer is over at once. -/
def Obligations.MatrixEngineEvents : Prop :=
  (∀ (s : State) (core : Nat) (c : MxCmd) (e : BitVec 8), (s.core core).mx.active = none → (s.core core).mx.next = some c →
    (s.core core).mx.stall = none → c.blk.shape = .error e →
    ∃ t, exec (.mxCommandStart core) s = .next t ∧ (t.core core).mx.active = some c ∧ (t.core core).mx.result = some e ∧
      (c.remote = false → (t.core core).mx.shadow = .loaded c.blk) ∧ (c.remote = true → (t.core core).mx.remote = (s.core core).mx.remote.tail) ∧
      (∀ k, (t.core core).mx.elem k = (s.core core).mx.elem k) ∧ t.mem = s.mem) ∧
  (∀ (s : State) (core : Nat) (c : MxCmd) (h : MxShape), (s.core core).mx.active = none → (s.core core).mx.next = some c →
    (s.core core).mx.stall = none → c.blk.shape = .ok h → h.k = 0 → bit (c.blk.w 0) 58 = true →
    ∃ t, exec (.mxCommandStart core) s = .next t ∧ (t.core core).mx.active = some c ∧ (t.core core).mx.result = some 0 ∧
      (∀ k, (t.core core).mx.elem k = if 2048 * c.blk.tile ≤ k ∧ k < 2048 * (c.blk.tile + 1) then 0 else (s.core core).mx.elem k)) ∧
  (∀ (s : State) (core : Nat) (c : MxCmd) (code : BitVec 8), (s.core core).mx.stall = none →
    (s.core core).mx.active = some c → (s.core core).mx.result = some code → c.blk.w 7 = 0 → c.clauses.si = 0 →
    let ends := fun (t : State) => (t.core core).mx.active = none ∧ (t.core core).mx.lastCode = code ∧
      (t.core core).mx.lnx = (s.core core).mx.nx ∧ (t.core core).mx.lnv = (s.core core).mx.nv ∧ (t.core core).mx.lof = (s.core core).mx.ofl
    let again := fun (t : State) => (t.core core).mx.active = some c ∧ (t.core core).mx.result = none ∧ (t.core core).mx.done = 0 ∧
      (t.core core).disagreements.length = (s.recentDisagreements core).length + 1 ∧
      ∀ k, 2048 * c.blk.tile ≤ k → k < 2048 * (c.blk.tile + 1) → (t.core core).mx.elem k = KMap.getD (s.core core).mx.copy k 0
    ((s.core core).pair = none → ∃ t, exec (.mxCommandComplete core) s = .next t ∧ t.mem = s.mem ∧ ends t) ∧
    (∀ other, (s.core core).pair = some (other, true) → (s.recentDisagreements core).length < 2 →
      ∃ t, exec (.mxCommandComplete core) s = .next t ∧ t.mem = s.mem ∧
        if Config.oddEngine s.free (s.engineCrc core) = s.engineCrc core then ends t else again t)) ∧
  (∀ (s : State) (msg : Nat) (m : Msg) (who : Asker) (cap : Word) (b : MxBlock) (cl : Clauses) (from_ : Nat), s.arrived msg = some m →
    m.body = .engc who cap b cl from_ → s.isLive (clusterOf m.ldest) m.domid m.cin = true →
    (s.core m.ldest).mx.capv = true → cap = (s.core m.ldest).mx.capReg → who.domid = cap.extractLsb' 18 12 →
    bit cap (54 + b.tile) = true → (s.core m.ldest).mx.remote.length < 4 →
    ∃ t c, exec (.remoteCommandArrival msg) s = .next t ∧ c.blk = b ∧ c.clauses = cl ∧ c.tid = who.tid ∧
      (t.core m.ldest).mx.remote = (s.core m.ldest).mx.remote ++ [c] ∧ KMap.find t.msgs msg = none ∧ t.mem = s.mem) ∧
  (∀ (s : State) (core : Nat) (o : TileOp), (s.core core).mx.ops.find? (fun o => o.chain.isNone && (s.core core).mx.opReady o) = some o →
    o.clauses.si = 0 →
    ∃ t, exec (.tazPerform core) s = .next t ∧
      (∀ k, (t.core core).mx.elem k = if 2048 * o.tile ≤ k ∧ k < 2048 * (o.tile + 1) then 0 else (s.core core).mx.elem k) ∧
      (t.core core).mx.ops = (s.core core).mx.ops.filter (fun x => decide (x.acc ≠ o.acc)) ∧ (t.core core).mx.lastCode = 0 ∧ t.mem = s.mem) ∧
  (∀ (s : State) (core : Nat) (o : TileOp) (ch : Chain), (s.core core).mx.ops.filter (s.core core).mx.opReady = [o] →
    o.chain = some ch → ch.src = 0 → ch.dst = 0 → o.clauses.si = 0 →
    ∃ t, exec (.taccRow core) s = .next t ∧ (t.core core).mx.ops = (s.core core).mx.ops.filter (fun x => decide (x.acc ≠ o.acc)) ∧
      (t.core core).mx.lastCode = 0 ∧ (∀ k, (t.core core).mx.elem k = (s.core core).mx.elem k) ∧ t.mem = s.mem)

/-! ### Threads -/

namespace Sys2Proof.Machine

/-- The instruction completes and changes only the running thread's record, which becomes `x`. -/
def OnlyMe (i : Instr) (s : State) (x : Thread) : Prop :=
  ∃ t, exec i s = .next t ∧ t.thread s.cur = x ∧ (∀ k, k ≠ s.cur → t.thread k = s.thread k) ∧ { t with threads := s.threads } = s

/-- What an instruction that goes on at the next word leaves of the running thread when it writes no register: its registers,
the takes of `srcs`, PC and RETIRED; no byte of memory changes. -/
structure State.Goes (s t : State) (srcs : List Src) : Prop where
  pc : (t.thread s.cur).pc = s.me.pc + 8
  retired : (t.thread s.cur).retired = s.me.retired + 1
  idle : (t.thread s.cur).wait = none ∧ (t.thread s.cur).pend = none
  regs : ∀ r, r ≠ .ip → (t.thread s.cur).reg r = s.me.reg r ∧ (t.thread s.cur).vreg r = s.me.vreg r
  full : ∀ r, (t.thread s.cur).full r = if Reg.tagged r = true ∧ r ∈ takesOf srcs [] then false else s.me.full r
  bytes : ∀ a, t.byte a = s.byte a

/-- The same of an instruction whose g register, unless it is z, is left empty until a response fills it. -/
structure State.Asks (s t : State) (srcs : List Src) (d : Reg) : Prop where
  pc : (t.thread s.cur).pc = s.me.pc + 8
  retired : (t.thread s.cur).retired = s.me.retired + 1
  idle : (t.thread s.cur).wait = none ∧ (t.thread s.cur).pend = none
  regs : ∀ r, r ≠ .ip → (t.thread s.cur).reg r = s.me.reg r ∧ (t.thread s.cur).vreg r = s.me.vreg r
  full : ∀ r, (t.thread s.cur).full r =
    if Reg.tagged r = true ∧ (r = d ∨ r ∈ takesOf srcs [d]) then false else s.me.full r
  awaits : d.isG = true → (t.thread s.cur).awaited d = true
  bytes : ∀ a, t.byte a = s.byte a

/-- What an instruction that waits for the answer to its request leaves: it has not retired, its registers are as they were,
and no byte of memory has changed. -/
structure State.Waits (s t : State) (w : Why) (fin : Fin) : Prop where
  pc : (t.thread s.cur).pc = s.me.pc
  retired : (t.thread s.cur).retired = s.me.retired
  wait : (t.thread s.cur).wait = some w
  pend : ∃ p, (t.thread s.cur).pend = some p ∧ p.fin = fin
  regs : ∀ r, (t.thread s.cur).reg r = s.me.reg r ∧ (t.thread s.cur).vreg r = s.me.vreg r ∧ (t.thread s.cur).full r = s.me.full r
  bytes : ∀ a, t.byte a = s.byte a

end Sys2Proof.Machine

/-- R80, R83, R140, R145, R150 to R155: EXTL reads the slot's extensions; SPAWN makes a roaming thread whose image goes to the
named core and whose tag comes back; EXIT ends the thread; YIELD leaves the rotation for nine cycles, and `yield.rq` gives the
slot to an entry that waits; `anch` anchors the thread of an eligible slot, and `anch.r` gives the anchor up. -/
def Obligations.ThreadLifeInstructions : Prop :=
  (∀ (s : State) (g : Guard) (d : Reg), (Instr.extl g d).wf = true → s.runs g { ext := .sys, dests := [d] } = true →
    let all : Word := if isPylon s.me.core then 0x123 else if s.me.slot = 7 then 0x1FF else 0x17F
    Completes (.extl g d) s (s.out [] d (if (s.pkg (pkgOf s.me.core)).variant = 2 then all &&& ~~~0xA0 else all))) ∧
  (∀ (s : State) (g : Guard) (d : Reg) (a b c : Src), (Instr.spawn g d a b c).wf = true →
    s.runs g { ext := .base, srcs := [a, b, c], dests := [d], outside := true } = true →
    let entry := s.me.reg a.reg
    let pos := if c.reg = .z then BitVec.ofNat 64 s.me.core else s.me.reg c.reg
    (entry.toNat % 8 ≠ 0 → Traps (.spawn g d a b c) s 0x04 entry) ∧
    (entry.toNat % 8 = 0 → s.coreOperand pos = false → Traps (.spawn g d a b c) s 0x1A pos) ∧
    (entry.toNat % 8 = 0 → s.coreOperand pos = true → s.me.domReleased = true → s.sendOverflow s.me.core = true →
      Traps (.spawn g d a b c) s 0x0F pos) ∧
    (entry.toNat % 8 = 0 → s.coreOperand pos = true → s.me.domReleased = true → s.sendOverflow s.me.core = false →
      s.nextId + 1 ≠ s.cur →
      ∃ t, exec (.spawn g d a b c) s = .next t ∧ s.Asks t [a, b, c] d ∧
        let n := t.thread (s.nextId + 1)
        n.pc = entry ∧ n.reg (.g 0) = s.me.reg b.reg ∧ n.reg (.g 1) = s.me.tag.setWidth 64 ∧
          n.reg (.g 4) = BitVec.ofNat 64 s.me.core ∧ n.anc = false ∧ n.domid = s.me.domid ∧ n.cin = s.me.cin ∧ n.sup = s.me.sup ∧
          n.prio = s.me.prio ∧ n.wlim = s.me.wlim ∧ n.tvec = s.me.tvec ∧ n.fa = s.me.fa ∧ n.fb = s.me.fb ∧
          n.pw = 1 ||| (s.me.pw &&& 0xE00000) ∧
          ∃ f who, (s.nextId + 2, f) ∈ t.msgs ∧ f.kind = 0x01 ∧ f.ldest = pos.toNat ∧ f.body = .image (s.nextId + 1) false (some who)))
  ∧ (∀ (s : State) (g : Guard), s.runs g { ext := .base, outside := true } = true → s.me.awaitsReg = false → s.me.strmDone = true →
    s.me.members = [] →
    s.cur < 2 ^ 40 →
    ∃ t, exec (.exit g) s = .next t ∧ KMap.find t.threads s.cur = none ∧ (∀ k, k ≠ s.cur → t.thread k = s.thread k) ∧
      ∀ a, t.byte a = s.byte a) ∧
  (∀ (s : State) (g : Guard), s.runs g { ext := .base } = true →
    let x := { s.me.settle with pc := s.me.pc + 8, retired := s.me.retired + 1, wait := some (.yield (s.now s.me.core + 9)) }
    OnlyMe (.yield g) s x ∧
    (s.me.anc = true ∨ s.bestEntry s.me.core s.me.slot = none → OnlyMe (.yieldRq g) s x) ∧
    (s.me.anc = false → s.bestEntry s.me.core s.me.slot ≠ none → s.me.marks = [] → s.unagreed s.me = false → s.me.await = [] →
      s.me.asks = [] →
      ∃ t, exec (.yieldRq g) s = .next t ∧ (t.thread s.cur).place = .runq s.me.cluster (some s.me.core) false ∧
        (t.thread s.cur).pc = s.me.pc + 8 ∧ (t.thread s.cur).retired = s.me.retired + 1 ∧ (t.thread s.cur).g = s.me.g ∧
        (t.thread s.cur).whyCause = 5 ∧ ∀ k, k ≠ s.cur → { t.thread k with mon := (s.thread k).mon } = s.thread k)) ∧
  (∀ (s : State) (g : Guard), s.runs g { ext := .base } = true →
    (s.me.anc = true → Completes (.anch g) s (s.outPw [] s.me.pw)) ∧
    (s.me.anc = false → isPylon s.me.core = true → s.extEntry s.me.core 2 = none → Traps (.anch g) s 0x02 s.iword) ∧
    (s.me.anc = false → isPylon s.me.core = false → s.me.slot < 4 →
      ∃ t, exec (.anch g) s = .next t ∧ (t.thread s.cur).anc = true ∧ (t.thread s.cur).pc = s.me.pc + 8 ∧
        (t.thread s.cur).retired = s.me.retired + 1 ∧ (t.thread s.cur).g = s.me.g ∧ (t.thread s.cur).pw = s.me.pw ∧
        (∀ n, (t.thread s.cur).reg (.m n) = 0 ∧ (t.thread s.cur).full (.m n) = true) ∧
        (∀ n, (t.thread s.cur).vreg (.v n) = 0 ∧ (t.thread s.cur).full (.v n) = true) ∧
        (∀ k, k ≠ s.cur → t.thread k = s.thread k) ∧ ∀ a, t.byte a = s.byte a) ∧
    (s.me.anc = false → isPylon s.me.core = false → 4 ≤ s.me.slot → s.me.marks = [] → s.unagreed s.me = false → s.me.await = [] →
      s.me.asks = [] →
      ∃ t, exec (.anch g) s = .next t ∧ (t.thread s.cur).place = .runq s.me.cluster (some s.me.core) true ∧
        (t.thread s.cur).wait = some .anch ∧ (t.thread s.cur).pc = s.me.pc ∧ (t.thread s.cur).anc = false) ∧
    (s.me.anc = false → Completes (.anchR g) s (s.outPw [] s.me.pw)) ∧
    (s.me.anc = true → s.me.strmDone = true → (∀ x ∈ s.me.await, ∀ n p, x.dest ≠ .lane n p) → (∀ o, s.myMx.owner = some o → s.me.owns o = false) →
      CompletesAs (.anchR g) s (s.modThread s.cur (fun x => { x.clearVec with anc := decide (s.me.slot = 7), sm := [] }))
        (s.outPw [] s.me.pw)) ∧
    (s.me.anc = true → s.me.strmDone = true → (∀ x ∈ s.me.await, ∀ n p, x.dest ≠ .lane n p) → s.ownsMx → s.myMx.busyFor s.cur = false →
      CompletesAs (.anchR g) s ((s.modThread s.cur (fun x => { x.clearVec with anc := decide (s.me.slot = 7), sm := [] })).modCore s.me.core
        (fun c => { c with mx := c.mx.release })) (s.outPw [] s.me.pw)))

/-! ### Monitors and waits -/

/-! ### Barriers -/

namespace Sys2Proof.Machine

/-- The running thread names a barrier of a core at which its context is live and stands: its core and index. -/
def State.names (s : State) (w : Word) (core idx : Nat) : Prop :=
  w.toNat = idx * 2 ^ 18 + core ∧ core < 2 ^ 18 ∧ idx < 48 ∧ s.corePresent core = true ∧ (s.cluster (clusterOf core)).fen = false ∧
    s.isLive (clusterOf core) s.me.domid s.me.cin = true ∧ s.switchedFrom (clusterOf core) s.me.domid s.me.cin = false

/-- R351: the running thread may arrive at the barrier, and its earlier writes to the rectangle have been performed. -/
def State.mayArrive (s : State) (core idx : Nat) : Prop :=
  s.arrivalFault s.me core idx = none ∧ s.me.released (s.barrier core idx).rect = true

end Sys2Proof.Machine

/-! ### Semaphores -/

/-- R344 to R348: MARM takes a line into the monitor record and registers a watch at its home; with four lines and TRIG it
changes nothing, and for host memory it traps PROT; `marm.clr` releases the record. MWAIT completes with 0 when TRIG is set,
3 when no line is held, 2 when a wake has been seen, and otherwise waits; the events of its wait complete it with their
codes, a write first, a timeout that has passed before a wake, and release the record. R349 to R354: a barrier instruction
with an invalid name traps DESCBAD. BINIT sets a barrier up, with the checks of its count, its rectangle and its owner;
`barv` counts an arrival and answers the phase; `barv.q` reads the barrier; `barw` waits for the present phase and returns
at once, with BRK, for one that has completed; `barw.a` does both; BDROP lowers LIVE, which may complete the phase. R355,
R356: a thread whose context owns the cluster's semaphores sets, raises, reads and waits on them. SEMI sets COUNT and clears
OVF, SEMA adds and saturates at 0xFFFF with OVF, SEMR reads both, SEMW subtracts its value when COUNT has it and no one
waits, completes at once for 0, and otherwise joins the waiters. Another context traps PROT with the number, and a value
above 0xFFFF DESCBAD. -/
def Obligations.MonitorsBarriersAndSemaphores : Prop :=
  ((∀ (s s1 : State) (g : Guard) (m : MemOp) (pa : Nat) (leaf : Option Word), (Instr.marm g m).wf = true →
    s.runs g { ext := .base, srcs := [m.base, m.index], outside := true } = true →
    s.reach (MemOp.ea s.me m &&& ~~~127) 128 .load = some (s1, pa, leaf) →
    (homeOf pa = .host → Traps (.marm g m) s 0x05 (MemOp.ea s.me m &&& ~~~127)) ∧
    (homeOf pa ≠ .host → pa ∈ s.me.mon.lines ∨ (4 ≤ s.me.mon.lines.length ∧ s.me.mon.trig = true) →
      CompletesAs (.marm g m) s s1 (s.outPw [m.base, m.index] s.me.pw)) ∧
    (homeOf pa ≠ .host → pa ∉ s.me.mon.lines → s.me.mon.lines.length < 4 → s.me.mon.lines ≠ [] ∨ s1.parkFull s.me.recordCluster = false →
      homeLocal s.me.core (homeOf pa) = true →
      ∃ t, exec (.marm g m) s = .next t ∧ s.Goes t [m.base, m.index] ∧ (t.thread s.cur).mon.lines = s.me.mon.lines ++ [pa] ∧
        (t.thread s.cur).mon.trig = s.me.mon.trig ∧
        (pa, s.cur) ∈ (t.cluster (clusterOf (homePos (pkgOf s.me.core) (homeOf pa)))).watchers) ∧
    (homeOf pa ≠ .host → pa ∉ s.me.mon.lines → s.me.mon.lines.length < 4 → s.me.mon.lines ≠ [] ∨ s1.parkFull s.me.recordCluster = false →
      homeLocal s.me.core (homeOf pa) = false →
      ∃ t f who, exec (.marm g m) s = .next t ∧ s.Waits t .answer .nothing ∧ (t.thread s.cur).mon.lines = s.me.mon.lines ++ [pa] ∧
        (s1.nextId + 1, f) ∈ t.msgs ∧ f.kind = 0x17 ∧ f.ldest = homePos (pkgOf s.me.core) (homeOf pa) ∧ f.body = .wtch who pa)) ∧
  (∀ (s : State) (g : Guard), s.runs g { ext := .base, outside := true } = true →
    ∃ t, exec (.marmClr g) s = .next t ∧ s.Goes t [] ∧ (t.thread s.cur).mon = {} ∧
      (s.me.mon.lines ≠ [] → ∀ c w, w ∈ (t.cluster c).watchers → w.2 ≠ s.cur)) ∧
  (∀ (s : State) (g : Guard) (d : Reg) (a : Src), (Instr.mwait g d a).wf = true →
    s.runs g { ext := .base, srcs := [a], dests := [d], outside := true } = true →
    (∀ code : Word, (s.me.mon.trig = true ∧ code = 0) ∨ (s.me.mon.trig = false ∧ s.me.mon.lines = [] ∧ code = 3) ∨
        (s.me.mon.trig = false ∧ s.me.mon.lines ≠ [] ∧ s.me.intr = true ∧ code = 2) →
      ∃ t, exec (.mwait g d a) s = .next t ∧ (t.thread s.cur).pc = s.me.pc + 8 ∧ (t.thread s.cur).retired = s.me.retired + 1 ∧
        (d ≠ .z → (t.thread s.cur).reg d = code) ∧ (∀ r, r ≠ d → r ≠ .ip → (t.thread s.cur).reg r = s.me.reg r) ∧
        (t.thread s.cur).mon = {} ∧ (t.thread s.cur).intr = false ∧ ∀ x, t.byte x = s.byte x) ∧
    (s.me.mon.trig = false → s.me.mon.lines ≠ [] → s.me.intr = false →
      ∃ t, exec (.mwait g d a) s = .next t ∧
        s.Waits t (.mwait (if s.me.reg a.reg = 0 then none else some (s.nowOf s.me + (s.me.reg a.reg).toNat))) (.reg d 8 false))) ∧
  (∀ (s : State) (tid : Nat) (dl : Option Nat) (r : Reg) (p : Pend), (s.thread tid).inSlot = true → (s.thread tid).wait = some (.mwait dl) →
    (s.thread tid).pend = some p → p.fin = .reg r 8 false → p.acquire = none → p.line = none → r.isG = true →
    let wakes := fun (i : Instr) (code : Word) => ∃ t, exec i s = .next t ∧ (t.thread tid).reg r = code ∧ (t.thread tid).full r = true ∧
      (t.thread tid).mon = {} ∧ (t.thread tid).wait = none ∧ (t.thread tid).pend = none ∧ (t.thread tid).pc = (s.thread tid).pc + 8 ∧
      (t.thread tid).retired = (s.thread tid).retired + 1 ∧ t.mem = s.mem
    ((s.thread tid).mon.trig = true → wakes (.monitorTrigger tid) 0 ∧ exec (.mwaitTimeout tid) s = .next s ∧
      exec (.servicePairIntrWake tid) s = .next s) ∧
    ((s.thread tid).mon.trig = false → exec (.monitorTrigger tid) s = .next s ∧
      (∀ c, dl = some c → c ≤ s.nowOf (s.thread tid) → wakes (.mwaitTimeout tid) 1 ∧ wakes (.servicePairIntrWake tid) 1) ∧
      (dl = none ∨ (∃ c, dl = some c ∧ s.nowOf (s.thread tid) < c) →
        exec (.mwaitTimeout tid) s = .next s ∧ wakes (.servicePairIntrWake tid) 2)))) ∧
  ((∀ (s : State) (g : Guard) (a b c : Src) (d : Reg), s.barName (s.me.reg a.reg) = none →
    (s.runs g { ext := .base, srcs := [a, b, c], outside := true } = true → Traps (.binit g a b c) s 0x1A (s.me.reg a.reg)) ∧
    (s.runs g { ext := .base, srcs := [a], dests := [d], outside := true } = true →
      Traps (.barv g d a) s 0x1A (s.me.reg a.reg) ∧ Traps (.barvQ g d a) s 0x1A (s.me.reg a.reg)) ∧
    (s.runs g { ext := .base, srcs := [a, b], outside := true } = true → Traps (.barw g a b) s 0x1A (s.me.reg a.reg)) ∧
    (s.runs g { ext := .base, srcs := [a], outside := true } = true →
      Traps (.barwA g a) s 0x1A (s.me.reg a.reg) ∧ Traps (.bdrop g a) s 0x1A (s.me.reg a.reg))) ∧
  (∀ (s : State) (g : Guard) (a b c : Src) (core idx : Nat), (Instr.binit g a b c).wf = true →
    s.runs g { ext := .base, srcs := [a, b, c], outside := true } = true → s.names (s.me.reg a.reg) core idx →
    let old := s.barrier core idx
    let n := s.me.reg c.reg
    let rect := s.me.reg b.reg
    (n = 0 ∨ 65535 < n.toNat → Traps (.binit g a b c) s 0x1A n) ∧
    (n ≠ 0 → n.toNat ≤ 65535 → rectSys rect = true ∨ rectBad rect = true → Traps (.binit g a b c) s 0x1A rect) ∧
    (n ≠ 0 → n.toNat ≤ 65535 → rectSys rect = false → rectBad rect = false → old.exp ≠ 0 → old.domid ≠ s.me.domid → s.me.sup = false →
      Traps (.binit g a b c) s 0x05 (s.me.reg a.reg)) ∧
    (n ≠ 0 → n.toNat ≤ 65535 → rectSys rect = false → rectBad rect = false → (old.exp = 0 ∨ old.domid = s.me.domid ∨ s.me.sup = true) →
      s.cur ∉ old.waiters →
      ∃ t, exec (.binit g a b c) s = .next t ∧ s.Goes t [a, b, c] ∧
        (t.barrier core idx).exp = n.toNat ∧ (t.barrier core idx).live = n.toNat ∧ (t.barrier core idx).arr = 0 ∧
        (t.barrier core idx).ph = 0 ∧ (t.barrier core idx).rect = rect ∧ (t.barrier core idx).domid = s.me.domid ∧
        (t.barrier core idx).waiters = [] ∧ ∀ j, j ≠ idx → t.barrier core j = s.barrier core j)) ∧
  (∀ (s : State) (g : Guard) (a : Src) (d : Reg) (core idx : Nat), s.names (s.me.reg a.reg) core idx →
    s.runs g { ext := .base, srcs := [a], dests := [d], outside := true } = true →
    let b := s.barrier core idx
    ((Instr.barv g d a).wf = true → s.mayArrive core idx → b.arr + 1 < Nat.min b.exp b.live → b.arr + 1 < 65536 →
      ∃ t, exec (.barv g d a) s = .next t ∧ (t.thread s.cur).pc = s.me.pc + 8 ∧ (t.thread s.cur).retired = s.me.retired + 1 ∧
        (d ≠ .z → (t.thread s.cur).reg d = b.ph.setWidth 64) ∧ (∀ r, r ≠ d → r ≠ .ip → (t.thread s.cur).reg r = s.me.reg r) ∧
        t.barrier core idx = { b with arr := b.arr + 1 } ∧ ∀ x, t.byte x = s.byte x) ∧
    ((Instr.barv g d a).wf = true → s.mayArrive core idx → Nat.min b.exp b.live ≤ b.arr + 1 → b.arr < 65535 → s.cur ∉ b.waiters →
      ∃ t, exec (.barv g d a) s = .next t ∧ (t.thread s.cur).pc = s.me.pc + 8 ∧ (d ≠ .z → (t.thread s.cur).reg d = b.ph.setWidth 64) ∧
        t.barrier core idx = { b with arr := 0, ph := b.ph + 1, brkp := false, history := (b.brkp :: b.history).take 16, waiters := [] }) ∧
    ((Instr.barvQ g d a).wf = true → Completes (.barvQ g d a) s (s.out [a] d
      (BitVec.ofNat 64 (b.exp * 2 ^ 48 + b.live * 2 ^ 32 + b.arr * 2 ^ 16 + b.ph.toNat))))) ∧
  (∀ (s : State) (g : Guard) (a b : Src) (core idx : Nat), (Instr.barw g a b).wf = true → s.names (s.me.reg a.reg) core idx →
    s.runs g { ext := .base, srcs := [a, b], outside := true } = true → s.me.readsDone = true →
    let x := s.barrier core idx
    let back := (x.ph - (s.me.reg b.reg).setWidth 16).toNat
    (back = 0 → ∃ t, exec (.barw g a b) s = .next t ∧ s.Waits t (.barrier core idx false false) .brk ∧
      t.barrier core idx = { x with waiters := x.waiters ++ [s.cur] }) ∧
    (∀ brk, (1 ≤ back ∧ back ≤ 16 ∧ brk = x.history.getD (back - 1) false) ∨ (17 ≤ back ∧ back < 32768 ∧ brk = true) →
      ∃ t, exec (.barw g a b) s = .next t ∧ (t.thread s.cur).pc = s.me.pc + 8 ∧ (t.thread s.cur).retired = s.me.retired + 1 ∧
        (t.thread s.cur).pw = (s.me.pw &&& ~~~0x100#32) ||| (if brk then 0x100#32 else 0) ∧ (t.thread s.cur).g = s.me.g ∧
        t.barrier core idx = x ∧ ∀ y, t.byte y = s.byte y) ∧
    (32768 ≤ back → Traps (.barw g a b) s 0x1A (s.me.reg b.reg))) ∧
  (∀ (s : State) (g : Guard) (a : Src) (core idx : Nat), s.names (s.me.reg a.reg) core idx →
    s.runs g { ext := .base, srcs := [a], outside := true } = true →
    let b := s.barrier core idx
    ((Instr.barwA g a).wf = true → s.mayArrive core idx → b.arr + 1 < Nat.min b.exp b.live → b.arr + 1 < 65536 →
      ∃ t, exec (.barwA g a) s = .next t ∧ s.Waits t (.barrier core idx true (s.me.membership core idx b.gen).isNone) .brk ∧
        t.barrier core idx = { b with arr := b.arr + 1, waiters := b.waiters ++ [s.cur] }) ∧
    ((Instr.barwA g a).wf = true → s.mayArrive core idx → Nat.min b.exp b.live ≤ b.arr + 1 → b.arr < 65535 → s.cur ∉ b.waiters →
      ∃ t, exec (.barwA g a) s = .next t ∧ (t.thread s.cur).pc = s.me.pc + 8 ∧ (t.thread s.cur).retired = s.me.retired + 1 ∧
        (t.thread s.cur).pw = (s.me.pw &&& ~~~0x100#32) ||| (if b.brkp then 0x100#32 else 0) ∧
        t.barrier core idx = { b with arr := 0, ph := b.ph + 1, brkp := false, history := (b.brkp :: b.history).take 16, waiters := [] }) ∧
    ((Instr.bdrop g a).wf = true → ¬ (b.exp ≠ 0 ∧ Nat.min b.exp (b.live - 1) ≤ b.arr) →
      ∃ t, exec (.bdrop g a) s = .next t ∧ s.Goes t [a] ∧ t.barrier core idx = { b with live := b.live - 1 } ∧
        ⟨core, idx, b.gen, true⟩ ∈ (t.thread s.cur).members) ∧
    ((Instr.bdrop g a).wf = true → b.exp ≠ 0 → Nat.min b.exp (b.live - 1) ≤ b.arr → s.cur ∉ b.waiters →
      ∃ t, exec (.bdrop g a) s = .next t ∧ s.Goes t [a] ∧
        t.barrier core idx = { b with live := b.live - 1, arr := 0, ph := b.ph + 1, brkp := false,
                                      history := (b.brkp :: b.history).take 16, waiters := [] } ∧
        ⟨core, idx, b.gen, true⟩ ∈ (t.thread s.cur).members))) ∧
  (∀ (s : State) (g : Guard) (n : BitVec 8) (b : Src) (v : BitVec 13) (d : Reg),
    let cl := s.me.cluster
    let x := s.sema cl n.toNat
    let val := (s.me.reg b.reg).toNat + v.toNat
    let own := s.me.sup = true ∨ (s.cluster cl).spOwner = some s.me.domid
    (s.runs g { ext := .base, srcs := [b], outside := true } = true →
      (¬ own → Traps (.semi g n b v) s 0x05 (n.setWidth 64) ∧ Traps (.sema g n b v) s 0x05 (n.setWidth 64) ∧
        Traps (.semw g n b v) s 0x05 (n.setWidth 64)) ∧
      (own → 65535 < val → Traps (.semi g n b v) s 0x1A (BitVec.ofNat 64 val) ∧ Traps (.semw g n b v) s 0x1A (BitVec.ofNat 64 val)) ∧
      (own → val ≤ 65535 → (∀ w ∈ x.waiters.head?, val < w.2) →
        ∃ t, exec (.semi g n b v) s = .next t ∧ s.Goes t [b] ∧
          t.sema cl n.toNat = { x with count := BitVec.ofNat 16 val, ovf := false } ∧
          ∀ k, k ≠ n.toNat → t.sema cl k = s.sema cl k) ∧
      (own → (∀ w ∈ x.waiters, w.1 ≠ s.cur) →
        (val ≤ 65535 → ∃ t, exec (.semi g n b v) s = .next t ∧ s.Goes t [b]) ∧ ∃ t, exec (.sema g n b v) s = .next t ∧ s.Goes t [b]) ∧
      (own → (∀ w ∈ x.waiters.head?, Nat.min (x.count.toNat + val) 65535 < w.2) →
        ∃ t, exec (.sema g n b v) s = .next t ∧ s.Goes t [b] ∧
          t.sema cl n.toNat = { x with count := BitVec.ofNat 16 (Nat.min (x.count.toNat + val) 65535),
                                       ovf := x.ovf || decide (65535 < x.count.toNat + val) } ∧
          ∀ k, k ≠ n.toNat → t.sema cl k = s.sema cl k) ∧
      (own → val = 0 → Completes (.semw g n b v) s (s.outPw [b] s.me.pw)) ∧
      (own → val ≠ 0 → val ≤ 65535 → x.waiters = [] → val ≤ x.count.toNat →
        ∃ t, exec (.semw g n b v) s = .next t ∧ s.Goes t [b] ∧
          t.sema cl n.toNat = { x with count := BitVec.ofNat 16 (x.count.toNat - val) }) ∧
      (own → val ≠ 0 → val ≤ 65535 → x.waiters ≠ [] ∨ x.count.toNat < val →
        ∃ t, exec (.semw g n b v) s = .next t ∧ s.Waits t (.sem cl n.toNat) .nothing ∧
          t.sema cl n.toNat = { x with waiters := x.waiters ++ [(s.cur, val)] })) ∧
    (s.runs g { ext := .base, dests := [d], outside := true } = true → (Instr.semr g d n).wf = true →
      (¬ own → Traps (.semr g d n) s 0x05 (n.setWidth 64)) ∧
      (own → Completes (.semr g d n) s (s.out [] d (BitVec.ofNat 64 ((if x.ovf then 65536 else 0) + x.count.toNat))))))

/-! ### Channels and homes -/

namespace Sys2Proof.Machine

/-- Since `s` a flit of a kind with this body has been made for a position. -/
def State.Sends (s t : State) (kind : BitVec 6) (dest : Nat) (b : Body) : Prop :=
  ∃ id f, s.nextId ≤ id ∧ (id, f) ∈ t.msgs ∧ f.kind = kind ∧ f.ldest = dest ∧ f.body = b

/-- A flit has been taken at its home for a live context of another cluster than its asker's, whose page has S = 0. -/
def State.takes (s : State) (msg : Nat) (m : Msg) (who : Asker) : Prop :=
  msg < s.nextId ∧ s.arrived msg = some m ∧ s.isLive (clusterOf m.ldest) m.domid m.cin = true ∧ who.shadow = false ∧
    clusterOf who.core ≠ clusterOf m.ldest

/-- The event takes the flit; memory then reads as `mem`, and the answer `a` leaves for the asker. -/
def AnswersAtHome (i : Instr) (s : State) (msg : Nat) (who : Asker) (kind : BitVec 6) (a : Ans) (mem : Nat → Byte) : Prop :=
  ∃ t, exec i s = .next t ∧ KMap.find t.msgs msg = none ∧ (∀ x, t.byte x = mem x) ∧ s.Sends t kind who.core (.resp who a)

/-- The named channel object: header, COUNT and HEAD words without poison, and no request waits at its home. -/
def State.object (s : State) (cl pa : Nat) (k : ChanKind) (cap count head : Nat) : Prop :=
  s.peekW pa = BitVec.ofNat 64 (k.typ * 2 ^ 44 + (cap + 2) * 2 ^ 20) ∧ 1 ≤ cap ∧ cap ≤ 16777213 ∧
    s.peekW (pa + 8) = BitVec.ofNat 64 count ∧ count ≤ cap ∧ s.peekW (pa + 16) = BitVec.ofNat 64 head ∧ head < cap ∧
    s.poison = [] ∧ (s.cluster cl).chanWait = []

end Sys2Proof.Machine

/-- R113 to R116, R358 to R360, R366 to R372: PUSH, POP and CHINIT send their operation to the home of the object and wait for
its answer; a misplaced object traps ALIGN, one in host memory PROT, a bad control word DESCBAD. SEND and SENDM send their
message to a channel of a core and go on; RECV posts a block; CHBIND replaces a channel's entry; TRDY reads READY, HOLD and
the bound bit, and sets or clears the first two. R70 to R72, R359, R360, R454: at its home a PUSH writes its value behind
those held and raises COUNT; a POP of a stack gives the last value, of a queue the one at HEAD, which advances; CHINIT
writes header, COUNT 0 and HEAD 0. An operation that cannot execute joins the waiters, and one on another word than a
channel object fails with DESCBAD. R114, R115, R285, R371: a message on a channel that its context has bound and opened
starts a task at the entry's address with the message's words; on a channel that is held it is parked; on one that is not
bound it is dropped and counted. A bulk message fills the buffer of the posted block as far as that goes, then STATUS, with
its sender, ERR when the message was longer and the bytes placed; the block is then posted no more, and the sender has its
answer. -/
def Obligations.ChannelsAndTheirMessages : Prop :=
  ((∀ (s s1 : State) (g : Guard) (pr : Bool) (d : Reg) (m : MemOp) (pa : Nat) (leaf : Option Word),
    let a := MemOp.ea s.me m
    let push := s.runs g { ext := .base, srcs := [m.base, m.index], reads := [d], outside := true } = true
    let pop := s.runs g { ext := .base, srcs := [m.base, m.index], dests := [d], outside := true } = true
    let home := homePos (pkgOf s.me.core) (homeOf pa)
    let who := s.me.asker s.cur s1.nextId (leafShadow leaf)
    let roomy := clusterOf home = s.me.cluster ∨ s1.sendOverflow s.me.core = false
    let lack := clusterOf home ≠ s.me.cluster ∧ s1.sendOverflow s.me.core = true
    (a.toNat % 8 ≠ 0 ∨ 104 < a.toNat % 128 →
      (push → Traps (.push g pr d m) s 0x04 a ∧ Traps (.chinit g d m) s 0x04 a) ∧ (pop → Traps (.pop g pr d m) s 0x04 a)) ∧
    (a.toNat % 8 = 0 → a.toNat % 128 ≤ 104 → s.reach a 8 .store = some (s1, pa, leaf) →
      (homeOf pa = .host →
        (push → Traps (.push g pr d m) s 0x05 a ∧ Traps (.chinit g d m) s 0x05 a) ∧ (pop → Traps (.pop g pr d m) s 0x05 a)) ∧
      (homeOf pa ≠ .host → push → chinitOf (s.me.reg d) = none → Traps (.chinit g d m) s 0x1A (s.me.reg d)) ∧
      (homeOf pa ≠ .host → lack →
        (push → Traps (.push g pr d m) s 0x0F (BitVec.ofNat 64 home) ∧
          (chinitOf (s.me.reg d) ≠ none → Traps (.chinit g d m) s 0x0F (BitVec.ofNat 64 home))) ∧
        (pop → Traps (.pop g pr d m) s 0x0F (BitVec.ofNat 64 home))) ∧
      (homeOf pa ≠ .host → roomy → push →
        (∃ t, exec (.push g pr d m) s = .next t ∧ s.Waits t .answer .nothing ∧
          s.Sends t 0x08 home (.chan who (.push (s.me.reg d)) pa pr)) ∧
        (chinitOf (s.me.reg d) ≠ none → ∃ t, exec (.chinit g d m) s = .next t ∧ s.Waits t .answer .nothing ∧
          s.Sends t 0x04 home (.chan who (.init (s.me.reg d)) pa false))) ∧
      (homeOf pa ≠ .host → roomy → pop → ∃ t, exec (.pop g pr d m) s = .next t ∧ s.Waits t .answer (.reg d 8 false) ∧
        s.Sends t 0x09 home (.chan who .pop pa pr)))) ∧
  (∀ (s : State) (g : Guard) (d : Reg) (a b : Src) (n : BitVec 3), (Instr.send g d a b n).wf = true →
    let regs : List Reg := (List.range n.toNat).map (fun i => .g (Fin.ofNat 16 (regNum b.reg + i)))
    let srcs := if n = 0 then [a] else [a, b]
    s.runs g { ext := .base, srcs := srcs, reads := regs, dests := [d], outside := true } = true →
    let w := s.me.reg a.reg
    let core := (w.extractLsb' 0 18).toNat
    (w.extractLsb' 24 40 ≠ 0 ∨ s.corePresent core = false → Traps (.send g d a b n) s 0x1A w) ∧
    (w.extractLsb' 24 40 = 0 → s.corePresent core = true → s.me.domReleased = true → s.sendOverflow s.me.core = true →
      Traps (.send g d a b n) s 0x0F w) ∧
    (w.extractLsb' 24 40 = 0 → s.corePresent core = true → s.me.domReleased = true → s.sendOverflow s.me.core = false →
      ∃ t, exec (.send g d a b n) s = .next t ∧ s.Asks t srcs d ∧
        s.Sends t 0x0C core (.msg (some (s.me.asker s.cur s.nextId false))
          ⟨(w.extractLsb' 18 6).toNat, regs.map s.me.reg, s.me.core, s.me.domid, s.me.cin⟩))) ∧
  (∀ (s s1 : State) (g : Guard) (d : Reg) (a b c : Src) (data : List Byte) (bad : Bool), (Instr.sendm g d a b c).wf = true →
    s.runs g { ext := .base, srcs := [a, b, c], dests := [d], outside := true } = true →
    let w := s.me.reg a.reg
    let core := (w.extractLsb' 0 18).toNat
    let n := (s.me.reg c.reg).toNat
    (w.extractLsb' 24 40 ≠ 0 ∨ s.corePresent core = false → Traps (.sendm g d a b c) s 0x1A w) ∧
    (w.extractLsb' 24 40 = 0 → s.corePresent core = true → 65536 < n → Traps (.sendm g d a b c) s 0x1A (s.me.reg c.reg)) ∧
    (w.extractLsb' 24 40 = 0 → s.corePresent core = true → n ≤ 65536 → s.me.gated = [] → s.me.stored = true →
      s.readSource s.me.ctx (s.me.reg b.reg).toNat n = .ok s1 (data, bad) → s.Cached s1 →
      (s1.sendOverflow s.me.core = true → Traps (.sendm g d a b c) s 0x0F w) ∧
      (s1.sendOverflow s.me.core = false → ∃ t, exec (.sendm g d a b c) s = .next t ∧ s1.Asks t [a, b, c] d ∧
        s1.Sends t 0x0D core (.bulk (s.me.asker s.cur s1.nextId false) (w.extractLsb' 18 6).toNat data n)))) ∧
  (∀ (s s1 s2 : State) (g : Guard) (a : Src) (ch : BitVec 6) (v pa : Nat) (leaf : Option Word), (Instr.recv g a ch).wf = true →
    s.runs g { ext := .base, srcs := [a], outside := true } = true →
    let p := s.me.reg a.reg
    (p.toNat % 32 ≠ 0 → Traps (.recv g a ch) s 0x04 p) ∧
    (p.toNat % 32 = 0 → s.me.gated = [] → s.me.stored = true → s.readRange s.me.engine p.toNat 32 true = .ok s1 v → s.Cached s1 →
      (wordAt v 0 ≠ 0x9000000000000000 ∨ 65536 < (wordAt v 2).toNat ∨ KMap.find (s.core s.me.core).posted ch.toNat ≠ none →
        Traps (.recv g a ch) s 0x1A p) ∧
      (wordAt v 0 = 0x9000000000000000 → (wordAt v 2).toNat ≤ 65536 → KMap.find (s.core s.me.core).posted ch.toNat = none →
        s1.resolve s.me.engine (p + 24) .load true = (s2, .at pa leaf) → leafShadow leaf = false → s.Cached s2 → pa < 2 ^ 60 →
        (s.cluster (clusterOf (homePos (pkgOf s.me.core) (homeOf pa)))).tagWait = [] →
        ∃ t, exec (.recv g a ch) s = .next t ∧ s2.Goes t [a] ∧ t.tagFull pa = false ∧
          KMap.find (t.core s.me.core).posted ch.toNat =
            some ⟨p, wordAt v 1, (wordAt v 2).toNat, s.me.domid, s.me.cin, s.me.sup⟩))) ∧
  (∀ (s s1 : State) (g : Guard) (a b : Src) (ch : BitVec 6) (v : Nat), (Instr.chbind g a b ch).wf = true →
    s.runs g { ext := .base, srcs := [a, b], outside := true } = true →
    let p := s.me.reg a.reg
    let pos := if b.reg = .z then BitVec.ofNat 64 s.me.core else s.me.reg b.reg
    let e : ChanEntry := ⟨wordAt v 0, wordAt v 1, wordAt v 2 &&& 0x3FFF⟩
    let old := s.chan pos.toNat ch.toNat
    (p.toNat % 8 ≠ 0 → Traps (.chbind g a b ch) s 0x04 p) ∧
    (p.toNat % 8 = 0 → s.coreOperand pos = false → Traps (.chbind g a b ch) s 0x1A pos) ∧
    (p.toNat % 8 = 0 → s.coreOperand pos = true → s.me.gated = [] → s.me.stored = true → s.readRange s.me.ctx p.toNat 24 = .ok s1 v →
      s.Cached s1 →
      ((s.cluster (clusterOf pos.toNat)).fen = true → clusterOf pos.toNat ≠ s.me.cluster → Traps (.chbind g a b ch) s 0x0E pos) ∧
      ((s.cluster (clusterOf pos.toNat)).fen = false → s.me.sup = false → e.dom ≠ s.me.domid ∨ (old.bound = true ∧ old.dom ≠ s.me.domid) →
        Traps (.chbind g a b ch) s 0x05 pos) ∧
      ((s.cluster (clusterOf pos.toNat)).fen = false →
        s.me.sup = true ∨ (e.dom = s.me.domid ∧ (old.bound = true → old.dom = s.me.domid)) →
        (s.cur < s.nextId → ∃ t, exec (.chbind g a b ch) s = .next t ∧ (t.thread s.cur).pc = s.me.pc + 8 ∧
          (t.thread s.cur).retired = s.me.retired + 1 ∧ t.chan pos.toNat ch.toNat = e) ∧
        ((∀ m ∈ (s.core pos.toNat).parkedMsgs, m.chan ≠ ch.toNat) →
          ∃ t, exec (.chbind g a b ch) s = .next t ∧ s1.Goes t [a, b] ∧ t.chan pos.toNat ch.toNat = e ∧
            ∀ n, n ≠ ch.toNat → t.chan pos.toNat n = s.chan pos.toNat n)))) ∧
  (∀ (s : State) (g : Guard) (r h : Ksc) (d : Reg) (a : Src), (Instr.trdy g r h d a).wf = true →
    s.runs g { ext := .base, srcs := [a], dests := [d], outside := true } = true →
    let w := s.me.reg a.reg
    let core := (w.extractLsb' 0 18).toNat
    let n := (w.extractLsb' 18 6).toNat
    let e := s.chan core n
    (w.extractLsb' 24 40 ≠ 0 ∨ s.corePresent core = false → Traps (.trdy g r h d a) s 0x1A w) ∧
    (w.extractLsb' 24 40 = 0 → s.corePresent core = true → (s.cluster (clusterOf core)).fen = false → s.me.sup = false →
      e.dom ≠ s.me.domid → Traps (.trdy g r h d a) s 0x05 w) ∧
    (w.extractLsb' 24 40 = 0 → s.corePresent core = true → (s.cluster (clusterOf core)).fen = false →
      s.me.sup = true ∨ e.dom = s.me.domid → s.cur < s.nextId →
      ∃ t, exec (.trdy g r h d a) s = .next t ∧ (t.thread s.cur).pc = s.me.pc + 8 ∧ (t.thread s.cur).retired = s.me.retired + 1 ∧
        (d ≠ .z → (t.thread s.cur).reg d = e.w0 &&& 7) ∧ (∀ q, q ≠ d → q ≠ .ip → (t.thread s.cur).reg q = s.me.reg q) ∧
        (t.chan core n).tvec = e.tvec ∧ (t.chan core n).w2 = e.w2 ∧
        (∀ i, 2 ≤ i → bit (t.chan core n).w0 i = bit e.w0 i) ∧
        bit (t.chan core n).w0 1 = (match r with | .keep => bit e.w0 1 | .set => true | .clear => false) ∧
        bit (t.chan core n).w0 0 = (match h with | .keep => bit e.w0 0 | .set => true | .clear => false) ∧ ∀ x, t.byte x = s.byte x))) ∧
  ((∀ (s : State) (msg pa cap count head : Nat) (m : Msg) (who : Asker) (k : ChanKind) (x : Word) (pr : Bool), s.takes msg m who →
    s.object (clusterOf m.ldest) pa k cap count head → (pr = true → k ≠ .queue) →
    (m.body = .chan who (.push x) pa pr →
      (count < cap → AnswersAtHome (.channelOpAtHome msg) s msg who 0x0B .ok
        ((s.poke (pa + 24 + 8 * (if k = .queue then (head + count) % cap else count)) 8 x.toNat).poke (pa + 8) 8 (count + 1)).byte) ∧
      (count = cap → (∀ p, (s.thread who.tid).pend = some p → p.cancelled = false) →
        ∃ t, exec (.channelOpAtHome msg) s = .next t ∧ (t.cluster (clusterOf m.ldest)).chanWait = [⟨who, .push x, pa, pr⟩] ∧
          KMap.find t.msgs msg = none ∧ t.mem = s.mem)) ∧
    (m.body = .chan who .pop pa pr →
      (0 < count → k = .stack → AnswersAtHome (.channelOpAtHome msg) s msg who 0x0A (.popr (s.peekW (pa + 24 + 8 * (count - 1))) pa)
        (s.poke (pa + 8) 8 (count - 1)).byte) ∧
      (0 < count → k = .queue → AnswersAtHome (.channelOpAtHome msg) s msg who 0x0A (.popr (s.peekW (pa + 24 + 8 * head)) pa)
        ((s.poke (pa + 8) 8 (count - 1)).poke (pa + 16) 8 ((head + 1) % cap)).byte) ∧
      (count = 0 → (∀ p, (s.thread who.tid).pend = some p → p.cancelled = false) →
        ∃ t, exec (.channelOpAtHome msg) s = .next t ∧ (t.cluster (clusterOf m.ldest)).chanWait = [⟨who, .pop, pa, pr⟩] ∧
          KMap.find t.msgs msg = none ∧ t.mem = s.mem))) ∧
  (∀ (s : State) (msg pa : Nat) (m : Msg) (who : Asker) (x ctl : Word), s.takes msg m who → s.poison = [] →
    (s.cluster (clusterOf m.ldest)).chanWait = [] → (s.cluster (clusterOf m.ldest)).tagWait = [] →
    (m.body = .chan who (.push x) pa false → chanOf (s.peekW pa) = none →
      AnswersAtHome (.channelOpAtHome msg) s msg who 0x0B (.fail 0x1A) s.byte) ∧
    (m.body = .chan who .pop pa false → chanOf (s.peekW pa) = none →
      AnswersAtHome (.channelOpAtHome msg) s msg who 0x0A (.fail 0x1A) s.byte) ∧
    (∀ (k : ChanKind) (cap : Nat), m.body = .chan who (.init ctl) pa false → 1 ≤ cap → cap ≤ 16777213 →
      ctl = BitVec.ofNat 64 (cap + 2 ^ 24 * (match k with | .stack => 0 | .bag => 1 | .queue => 2)) →
      AnswersAtHome (.channelOpAtHome msg) s msg who 0x05 .ok (s.poke pa 24 (k.typ * 2 ^ 44 + (cap + 2) * 2 ^ 20)).byte))) ∧
  ((∀ (s : State) (msg : Nat) (m : Msg) (who : Option Asker) (x : ChanMsg), msg < s.nextId → s.arrived msg = some m → m.body = .msg who x →
    let e := s.chan m.ldest x.chan
    let cl := clusterOf m.ldest
    (∀ w, who = some w → w.tid ≠ s.nextId ∧ clusterOf w.core ≠ cl) →
    (e.bound = false ∨ e.dom ≠ x.domid → ∃ t, exec (.channelMessageArrival msg) s = .next t ∧ KMap.find t.msgs msg = none ∧
      t.threads = s.threads ∧ t.mem = s.mem ∧
      ((s.cluster cl).orphan ≠ BitVec.allOnes 32 → (t.cluster cl).orphan = (s.cluster cl).orphan + 1) ∧
      (∀ w, who = some w → s.Sends t 0x0F w.core (.resp w (.value 1)))) ∧
    (e.bound = true → e.dom = x.domid → s.isLive cl x.domid x.cin = true → e.open = false → s.parkFull cl = false →
      ∃ t, exec (.channelMessageArrival msg) s = .next t ∧ KMap.find t.msgs msg = none ∧ t.threads = s.threads ∧ t.mem = s.mem ∧
        (t.core m.ldest).parkedMsgs = (s.core m.ldest).parkedMsgs ++ [x] ∧
        (∀ w, who = some w → s.Sends t 0x0F w.core (.resp w (.value 0)))) ∧
    (∀ k, e.bound = true → e.dom = x.domid → s.isLive cl x.domid x.cin = true → e.open = true →
      (∀ y ∈ (s.core m.ldest).parkedMsgs, y.chan ≠ x.chan) → s.frameFree cl = true → KMap.find s.threads s.nextId = none →
      s.freeSlot m.ldest false = some k → s.bestEntry m.ldest k = none →
      ∃ t, exec (.channelMessageArrival msg) s = .next t ∧ KMap.find t.msgs msg = none ∧ t.mem = s.mem ∧
        (∀ w, who = some w → s.Sends t 0x0F w.core (.resp w (.value 0))) ∧
        let n := t.thread s.nextId
        n.place = .slot m.ldest k ∧ n.pc = e.w0 &&& ~~~7 ∧ n.tvec = e.tvec ∧ n.domid = x.domid ∧ n.anc = false ∧ n.sup = false ∧
          n.prio = e.w2.extractLsb' 12 2 ∧ (∀ i, i < 4 → n.g[i]! = x.words.getD i 0) ∧ n.reg (.g 4) = BitVec.ofNat 64 x.sender ∧
          n.reg (.g 5) = BitVec.ofNat 64 (x.words.length * 256 + x.chan))) ∧
  (∀ (s s1 s2 : State) (msg : Nat) (m : Msg) (who : Asker) (ch len : Nat) (data : List Byte) (b : RecvBlock), s.takes msg m who →
    m.body = .bulk who ch data len → KMap.find (s.core m.ldest).posted ch = some b →
    let n := Nat.min data.length b.len
    let c := engineCtx m.ldest b.domid b.cin 0 b.sup
    s.writeRange c b.buf.toNat n (bytesNat (data.take n)) = .ok s1 () →
    s1.writeRange c (b.addr.toNat + 24) 8 (BitVec.ofNat 64 (m.src * 2 ^ 32 + (if b.len < len then 2 ^ 31 else 0) + n)).toNat = .ok s2 () →
    ∃ t, exec (.bulkMessagePlacement msg) s = .next t ∧ KMap.find (t.core m.ldest).posted ch = none ∧ KMap.find t.msgs msg = none ∧
      (∀ x, t.byte x = s2.byte x) ∧
      s.Sends t 0x0F who.core (.resp who (.value (if data.length < len then 0x0A else if b.len < len then 0x10 else 0)))))

/-- R321, R323, R330 to R334, R337 to R340, R459: what a home does with the requests of another cluster. A READ is answered with
the bytes, or with POISON; a WRITE changes its bytes and is acknowledged; FEQRY is answered with tag and poison; LDF on a
full word is answered and with .e empties it; STF writes and fills the word, or with .e joins the waiters of a full one;
FESET sets its tags; an atomic enters the run queue of its home, or its bank where the home has no cores, and when it is
granted its reservation reads, writes and answers the old value; on host memory the port's completer does, and an agent that
stays silent for 100 ms fails it with HOSTERR. R246, R258, R326, R345, R438: an answer fills the g register that awaits it,
or completes the instruction that waits for it, an acquire only after earlier reads; a failed read leaves its register empty
with an error mark; an acknowledgement ends a sent store; an answer whose asker is gone is counted as an orphan. The home of
a watched line registers its watch and answers. -/
def Obligations.HomesServeAndAnswersReachTheirAskers : Prop :=
  ((∀ (s : State) (msg : Nat) (m : Msg) (who : Asker) (pa n : Nat) (keep : Bool), s.takes msg m who → m.body = .read who pa n keep →
    n = 1 ∨ n = 2 ∨ n = 4 ∨ n = 8 →
    if homeOf pa = .host ∧ Config.hostFails s.free = true then AnswersAtHome (.homeReadWrite msg) s msg who 0x03 (.fail 0x0D) s.byte
    else
      (s.poisoned pa n = true → AnswersAtHome (.homeReadWrite msg) s msg who 0x03 (.fail 0x0A) s.byte) ∧
      (s.poisoned pa n = false → ∃ v, Holds s pa n false v ∧ ∃ k : Bool, (k = true → keep = true ∧ s.poisoned (pa / 128 * 128) 128 = false) ∧
        AnswersAtHome (.homeReadWrite msg) s msg who 0x03 (.line v (pa / 128 * 128) (s.peek (pa / 128 * 128) 128) s.nextId k) s.byte)) ∧
  (∀ (s : State) (msg : Nat) (m : Msg) (who : Asker) (pa n : Nat) (v : Word), s.takes msg m who →
    (m.body = .write who pa n v → AnswersAtHome (.homeReadWrite msg) s msg who 0x05 .ok (s.byteAfter pa n v)) ∧
    (m.body = .feqry who pa → AnswersAtHome (.homeReadWrite msg) s msg who 0x03
      (.value ((if s.tagFull pa then 1 else 0) + (if s.poisoned pa 8 then 2 else 0))) s.byte)) ∧
  (∀ (s : State) (msg : Nat) (m : Msg) (who : Asker) (pa n : Nat) (e wt full : Bool) (x : Word), s.takes msg m who →
    (s.cluster (clusterOf m.ldest)).tagWait = [] → pa + n < 2 ^ 60 →
    (m.body = .tagw who (.ldf e) pa n → s.tagFull pa = true → s.poisoned pa n = false → n = 1 ∨ n = 2 ∨ n = 4 ∨ n = 8 →
      ∃ v, Holds s pa n false v ∧ ∃ t, exec (.tagRequestAtHome msg) s = .next t ∧ KMap.find t.msgs msg = none ∧
        (∀ a, t.byte a = s.byte a) ∧ (∀ a, t.tagFull a = if a / 8 = pa / 8 then !e else s.tagFull a) ∧
        s.Sends t 0x03 who.core (.resp who (.value v))) ∧
    (m.body = .tagw who (.stf wt x) pa n → (wt = true → s.tagFull pa = false) → 0 < n → pa % 8 + n ≤ 8 →
      ∃ t, exec (.tagRequestAtHome msg) s = .next t ∧ KMap.find t.msgs msg = none ∧ (∀ a, t.byte a = s.byteAfter pa n x a) ∧
        (∀ a, t.tagFull a = if a / 8 = pa / 8 then true else s.tagFull a) ∧ s.Sends t 0x05 who.core (.resp who .ok)) ∧
    (m.body = .tagw who (.stf true x) pa n → s.tagFull pa = true → (∀ p, (s.thread who.tid).pend = some p → p.cancelled = false) →
      ∃ t, exec (.tagRequestAtHome msg) s = .next t ∧ (t.cluster (clusterOf m.ldest)).tagWait = [⟨who, .stf true x, pa, n⟩] ∧
        t.mem = s.mem ∧ t.empties = s.empties) ∧
    (m.body = .tagw who (.feset full) pa 1 →
      ∃ t, exec (.tagRequestAtHome msg) s = .next t ∧ KMap.find t.msgs msg = none ∧ t.mem = s.mem ∧
        (∀ a, t.tagFull a = if a / 8 = pa / 8 then full else s.tagFull a) ∧ s.Sends t 0x05 who.core (.resp who .ok))) ∧
  (∀ (s : State) (msg : Nat) (m : Msg) (r : AtomReq), s.takes msg m r.who → m.body = .proxy r → homeOf r.pa ≠ .host →
    s.bankRoom (clusterOf m.ldest) r.pa = true →
    (clusterCores (clusterOf m.ldest) = [] → ∃ t, exec (.proxyContinuation msg) s = .next t ∧ KMap.find t.msgs msg = none ∧ t.mem = s.mem ∧
      (t.cluster (clusterOf m.ldest)).atoms = (s.cluster (clusterOf m.ldest)).atoms ++ [r]) ∧
    (clusterCores (clusterOf m.ldest) ≠ [] → s.parkFull (clusterOf m.ldest) = false →
      ∃ t, exec (.proxyContinuation msg) s = .next t ∧ KMap.find t.msgs msg = none ∧ t.mem = s.mem ∧
        (t.cluster (clusterOf m.ldest)).proxies = (s.cluster (clusterOf m.ldest)).proxies ++ [(s.nextId, r)])) ∧
  (∀ (s : State) (addr cl : Nat) (c : Cluster) (r : AtomReq),
    s.clusters.find? (fun p => p.2.atoms.any (fun r => decide (wordOf r.pa = wordOf addr))) = some (cl, c) →
    c.atoms.find? (fun r => decide (wordOf r.pa = wordOf addr)) = some r → s.isLive cl r.who.domid r.who.cin = true →
    r.who.shadow = false → r.n = 4 ∨ r.n = 8 → s.poisoned r.pa r.n = false →
    clusterOf r.who.core ≠ clusterOf (homePos (pkgOf r.who.core) (homeOf r.pa)) →
    ∃ old, Holds s r.pa r.n false old ∧ ∃ t, exec (.atomicReservationGrant addr) s = .next t ∧
      (t.cluster cl).atoms = (s.cluster cl).atoms.erase r ∧
      (∀ a, t.byte a = match r.op.app r.n old r.b r.c with
        | some x => s.byteAfter r.pa r.n x a
        | none => s.byte a) ∧ s.Sends t 0x03 r.who.core (.resp r.who (.value old))) ∧
  (∀ (s : State) (msg : Nat) (m : Msg) (r : AtomReq) (old : Word), s.takes msg m r.who → m.body = .proxy r → homeOf r.pa = .host →
    r.n = 8 → r.op = .add →
    AnswersAtHome (.hostAtomic msg (.value old)) s msg r.who 0x03 (.value old) (s.byteAfter r.pa 8 (old + r.b)) ∧
    AnswersAtHome (.hostAtomic msg .abort) s msg r.who 0x03 (.fail 0x0D) s.byte) ∧
  (∀ (s : State) (pkg req t0 : Nat) (p : Package) (r : AtomReq),
    s.packages.find? (fun p => p.2.agentReqs.any (fun q => decide (q.1 = req))) = some (pkg, p) →
    p.agentReqs.find? (fun q => decide (q.1 = req)) = some (req, r, t0) → t0 + 100000000 ≤ s.timeNs →
    clusterOf r.who.core ≠ clusterOf (homePos pkg .host) →
    ∃ t, exec (.agentTimeout req) s = .next t ∧ t.mem = s.mem ∧ s.Sends t 0x03 r.who.core (.resp r.who (.fail 0x0D)) ∧
      (t.pkg pkg).agentReqs = p.agentReqs.filter (fun q => decide (q.1 ≠ req)))) ∧
  ((∀ (s : State) (msg r n : Nat) (m : Msg) (who : Asker) (v : Word) (sx : Bool) (aw : Await), s.arrived msg = some m →
    m.kind ≠ 0x05 → s.asks who = true → s.holdsBack who = false → (s.thread who.tid).await.find? (fun x => decide (x.tok = who.tok)) = some aw →
    aw.dest = .reg r n sx → (h : r < 16) → n = 1 ∨ n = 2 ∨ n = 4 ∨ n = 8 →
    (m.body = .resp who (.value v) →
      ∃ t, exec (.responseArrival msg) s = .next t ∧ KMap.find t.msgs msg = none ∧ t.mem = s.mem ∧
        (t.thread who.tid).full (.g ⟨r, h⟩) = true ∧
        (t.thread who.tid).reg (.g ⟨r, h⟩) = (if sx then Machine.sx (8 * n) (sval (8 * n) v) else BitVec.ofNat 64 (v.toNat % 2 ^ (8 * n))) ∧
        (t.thread who.tid).await = (s.thread who.tid).await.filter (fun x => decide (x.tok ≠ who.tok)) ∧
        (∀ q, q ≠ .g ⟨r, h⟩ → (t.thread who.tid).reg q = (s.thread who.tid).reg q ∧ (t.thread who.tid).full q = (s.thread who.tid).full q)) ∧
    (∀ c, m.body = .resp who (.fail c) →
      ∃ t, exec (.responseArrival msg) s = .next t ∧ t.mem = s.mem ∧ ⟨r, c, aw.va⟩ ∈ (t.thread who.tid).marks ∧
        (∀ q, (t.thread who.tid).reg q = (s.thread who.tid).reg q ∧ (t.thread who.tid).full q = (s.thread who.tid).full q))) ∧
  (∀ (s : State) (msg : Nat) (m : Msg) (who : Asker) (r : Reg) (v : Word) (p : Pend), s.arrived msg = some m → m.kind ≠ 0x05 →
    s.asks who = true → s.holdsBack who = false → (∀ x ∈ (s.thread who.tid).await, x.tok ≠ who.tok) → (s.thread who.tid).pend = some p →
    p.tok = who.tok → p.fin = .reg r 8 false → r.isG = true → p.more = 0 → m.body = .resp who (.value v) →
    (p.acquire ≠ none → (s.thread who.tid).readsDone = false → ∃ t, exec (.responseArrival msg) s = .next t ∧
      (t.thread who.tid).wait = some (.acquire v) ∧ (t.thread who.tid).pend = none ∧ (t.thread who.tid).pc = (s.thread who.tid).pc ∧
      t.mem = s.mem) ∧
    (p.acquire = none ∨ (s.thread who.tid).readsDone = true → ∃ t, exec (.responseArrival msg) s = .next t ∧ (t.thread who.tid).reg r = v ∧ (t.thread who.tid).pc = (s.thread who.tid).pc + 8 ∧
      (t.thread who.tid).retired = (s.thread who.tid).retired + 1 ∧ (t.thread who.tid).wait = none ∧ (t.thread who.tid).pend = none ∧
      t.mem = s.mem)) ∧
  (∀ (s : State) (msg : Nat) (m : Msg) (who : Asker) (aw : Await), s.arrived msg = some m → m.kind = 0x05 → s.asks who = true →
    s.holdsBack who = false → (s.thread who.tid).await.find? (fun x => decide (x.tok = who.tok)) = some aw → aw.dest = .store →
    m.body = .resp who .ok →
    ∃ t, exec (.storeAck msg) s = .next t ∧ KMap.find t.msgs msg = none ∧ t.mem = s.mem ∧
      (t.thread who.tid).await = (s.thread who.tid).await.filter (fun x => decide (x.tok ≠ who.tok)) ∧
      (t.thread who.tid).g = (s.thread who.tid).g ∧ (t.thread who.tid).pc = (s.thread who.tid).pc) ∧
  (∀ (s : State) (msg : Nat) (m : Msg) (who : Asker) (v : Word), s.arrived msg = some m → m.kind ≠ 0x05 → s.asks who = false →
    m.body = .resp who (.value v) → (s.cluster (clusterOf who.core)).orphan ≠ BitVec.allOnes 32 →
    ∃ t, exec (.responseArrival msg) s = .next t ∧ KMap.find t.msgs msg = none ∧ t.threads = s.threads ∧ t.mem = s.mem ∧
      (t.cluster (clusterOf who.core)).orphan = (s.cluster (clusterOf who.core)).orphan + 1) ∧
  (∀ (s : State) (msg line : Nat) (m : Msg) (who : Asker), s.takes msg m who → m.body = .wtch who line →
    ∃ t, exec (.watchRegistrationAck msg) s = .next t ∧ KMap.find t.msgs msg = none ∧ t.mem = s.mem ∧
      (line, who.tid) ∈ (t.cluster (clusterOf m.ldest)).watchers ∧ s.Sends t 0x17 who.core (.resp who .ok)))

/-! ### The copy port, streams and bitstreams -/

namespace Sys2Proof.Machine

/-- A copy instruction is accepted: the instruction goes on, and its command stands last in its queue with the thread's
identity and its clauses, not begun. -/
def Accepts (i : Instr) (s s1 : State) (srcs : List Src) (q : Nat) (op : CopyOp) (cl : Clauses) : Prop :=
  ∃ t c, exec i s = .next t ∧ s1.Goes t srcs ∧ (t.queue s.me.core q).cmds = (s.queue s.me.core q).cmds ++ [c] ∧ c.op = op ∧
    c.clauses = cl ∧ c.domid = s.me.domid ∧ c.cin = s.me.cin ∧ c.tag = s.me.tag ∧ c.sup = s.me.sup ∧ c.tid = s.cur ∧
    c.started = false ∧ c.finished = none ∧ c.moved = 0 ∧ c.bits = 0

/-- What a copy instruction whose operands are aligned comes to: it waits for room in its queue; then, once the thread's stores have
been performed, its descriptors are read, and the command is accepted with what they say, or, on an absent page, with those that
have been read. -/
def CopyIssues (i : Instr) (s : State) (srcs : List Src) (q : Nat) (cl : Clauses) (acb : Word) (op0 : CopyOp) : Prop :=
  ((if q = 8 then 4 else 8) ≤ (s.queue s.me.core q).cmds.length →
    exec i s = .next (s.block s.cur (.queue q) true (BitVec.ofNat 64 q))) ∧
  ((s.queue s.me.core q).cmds.length < (if q = 8 then 4 else 8) → s.me.gated = [] → s.me.stored = true → ∀ s1, s.Cached s1 →
    (∀ op, s.readOp s.me.engine op0 = .ok s1 op → (∀ a b n x, op ≠ .arena a b n x) → Accepts i s s1 srcs q op cl) ∧
    (∀ a b n x, s.readOp s.me.engine op0 = .ok s1 (.arena a b n x) →
      (8 + 8 * (((x.count * x.width + 7) / 8 + 7) / 8) ≤ n - 8 → Accepts i s s1 srcs q (.arena a b n x) cl) ∧
      (n - 8 < 8 + 8 * (((x.count * x.width + 7) / 8 + 7) / 8) → Traps i s 0x11 acb)) ∧
    (∀ va, s.readOp s.me.engine op0 = .absent s1 va → Accepts i s s1 srcs q (s.readSoFar s.me.engine op0) cl))

end Sys2Proof.Machine

/-- R73 to R76, R267 to R272, R282, R283, R286: CPY, CPYX and STOR trap ALIGN for descriptors off their alignment, DESCBAD for a
capability entry above 255 and ARENA for a message that the arena can never hold; otherwise the command joins its queue. CPQ
reads the queue's status, CPCAN cancels every command of a queue and counts them, SCOUT sets the scout's reach. R74, R268,
R269, R272, R273, R286 to R288, R292, R470: an element of a tensor stands where R74 says; the head command starts, moves its
element and ends; a finished one leaves its queue with code, flags and bytes in QSTS; a CUST command joins the work queue; a
storage block that its capability allows is issued, any other ends the command with EXTENT, and an issued block moves 4,096
bytes; a message for an arena waits for its turn at the arena's home and is then placed whole, or refused. -/
def Obligations.CopyPort : Prop :=
  ((∀ (s : State) (g : Guard) (q : BitVec 3) (dec : Bool) (cd : CodecSel) (a b : Src) (cl : Clauses),
    s.runs g { ext := .cpy, srcs := [a, b], outside := true } = true →
    let p := s.me.reg a.reg
    let r := s.me.reg b.reg
    (p.toNat % 128 ≠ 0 → Traps (.cpy g q dec cd a b cl) s 0x04 p ∧ Traps (.cpyx g a b cl) s 0x04 p) ∧
    (p.toNat % 128 = 0 → r.toNat % 128 ≠ 0 → Traps (.cpy g q dec cd a b cl) s 0x04 r ∧ Traps (.cpyx g a b cl) s 0x04 r) ∧
    (p.toNat % 128 = 0 → r.toNat % 128 = 0 →
      CopyIssues (.cpy g q dec cd a b cl) s [a, b] q.toNat cl p (.unread dec cd p r s.me.fa s.me.fb (match cd with
          | .fsh n => s.me.fsh[n.toNat]'n.isLt
          | _ => 0) []) ∧
      CopyIssues (.cpyx g a b cl) s [a, b] 8 cl p (.unread false .none p r s.me.fa s.me.fb 0 []))) ∧
  (∀ (s : State) (g : Guard) (wr : Bool) (q : BitVec 3) (a b : Src) (cl : Clauses),
    s.runs g { ext := .cpy, srcs := [a, b], outside := true } = true →
    let p := s.me.reg a.reg
    let e := s.me.reg b.reg
    (p.toNat % 32 ≠ 0 → Traps (.stor g wr q a b cl) s 0x04 p) ∧
    (p.toNat % 32 = 0 → 255 < e.toNat → Traps (.stor g wr q a b cl) s 0x1A e) ∧
    (p.toNat % 32 = 0 → e.toNat ≤ 255 →
      CopyIssues (.stor g wr q a b cl) s [a, b] q.toNat cl p (.unreadStor wr p e.toNat))) ∧
  (∀ (s : State) (g : Guard) (d : Reg) (q : BitVec 4), s.runs g { ext := .cpy, dests := [d], outside := true } = true →
    let x := s.queue s.me.core q.toNat
    ((Instr.cpq g d q).wf = true → Completes (.cpq g d q) s (s.out [] d (BitVec.ofNat 64
      (2 ^ 56 * x.code.toNat + (if x.nx then 2 ^ 55 else 0) + (if x.uf then 2 ^ 54 else 0) + (if x.of then 2 ^ 53 else 0) +
        (if x.nv then 2 ^ 52 else 0) + (if x.clmp then 2 ^ 51 else 0) + (if x.stall.isSome then 2 ^ 50 else 0) +
        2 ^ 46 * x.cmds.length + (if x.cmds = [] then x.bytes else ((x.cmds.map (·.bits)).headD 0) / 8) % 2 ^ 46)))) ∧
    ((Instr.cpcan g d q).wf = true →
      (∀ c ∈ x.cmds, c.clauses.si ≠ 0 → ∀ w ∈ (s.sema s.me.cluster c.clauses.ss.toNat).waiters, w.1 ≠ s.cur) →
      ∃ t, exec (.cpcan g d q) s = .next t ∧ (t.thread s.cur).pc = s.me.pc + 8 ∧ (t.thread s.cur).retired = s.me.retired + 1 ∧
        (d ≠ .z → (t.thread s.cur).reg d = BitVec.ofNat 64 x.cmds.length) ∧
        (∀ r, r ≠ d → r ≠ .ip → (t.thread s.cur).reg r = s.me.reg r) ∧ (t.queue s.me.core q.toNat).cmds = [] ∧
        (x.cmds ≠ [] → (t.queue s.me.core q.toNat).code = 0x21) ∧
        (∀ i, (s.core s.me.core).item = some i → i.queue = q.toNat → (t.core s.me.core).item = some { i with dead := true }) ∧
        ∀ a, t.byte a = s.byte a)) ∧
  (∀ (s : State) (g : Guard) (a : Src) (q : BitVec 3), s.runs g { ext := .cpy, srcs := [a], outside := true } = true →
    (255 < (s.me.reg a.reg).toNat → Traps (.scout g a q) s 0x1A (s.me.reg a.reg)) ∧
    ((s.me.reg a.reg).toNat ≤ 255 → ∃ t, exec (.scout g a q) s = .next t ∧ s.Goes t [a] ∧
      (t.queue s.me.core q.toNat).scout = (s.me.reg a.reg).toNat) ∧
    ((s.me.reg a.reg).toNat ≤ 255 → (s.queue s.me.core q.toNat).stall = none → ∃ t, exec (.scout g a q) s = .next t ∧ s.Goes t [a] ∧
      t.queue s.me.core q.toNat = { s.queue s.me.core q.toNat with scout := (s.me.reg a.reg).toNat }))) ∧
  ((∀ (x : Tensor) (n m : Nat) (p q : Int) (k : Nat), x.ext = [n, m] → x.stride = [p, q] →
    x.at k = (((8 * x.base + x.boff : Nat) : Int) + ((k % n : Nat) : Int) * p + ((k / n % m : Nat) : Int) * q).toNat) ∧
  (∀ (s : State) (core q : Nat) (c : CopyCmd) (r : List CopyCmd), (s.queue core q).cmds = c :: r → c.met = true →
    (s.queue core q).stall = none → c.finished = none →
    (∀ e, c.op = .refused e → ∃ t, exec (.cpyCommandStart core q) s = .next t ∧
      (t.queue core q).cmds = { c with finished := some e } :: r ∧ t.mem = s.mem) ∧
    (∀ (dst src : Tensor) (s1 s2 : State) (v : Nat), c.op = .plain dst src → dst.count = 1 → c.moved = 0 → c.puts = [] → q < 8 →
      0 < dst.width → dst.at 0 % 64 + dst.width ≤ 64 →
      (s.modCmd core q (fun c => { c with started := true })).getElem (c.ctx core) src 0 = .ok s1 v →
      let s3 := s1.modCmd core q (fun c => { c with moved := 1, puts := [⟨dst.at 0, dst.width, v % 2 ^ dst.width, true⟩] })
      s3.writeBits (c.ctx core) (dst.at 0) dst.width (v % 2 ^ dst.width) true = .ok s2 () → s2.queue core q = s3.queue core q →
      ∃ t, exec (.cpyCommandStart core q) s = .next t ∧ t.mem = s2.mem ∧
        (t.queue core q).cmds.map (fun x => (x.finished, x.moved, x.bits)) =
          (some 0, 1, c.bits + dst.width) :: r.map (fun x => (x.finished, x.moved, x.bits))) ∧
    (∀ a b n x, c.op = .arena a b n x → ∃ t, exec (.cpyCommandStart core q) s = .next t ∧
      (t.queue core q).cmds = { c with started := true } :: r ∧ t.mem = s.mem) ∧
    (c.op.isCust = true → c.started = false →
      ((s.pkg (pkgOf core)).variant ≠ 2 → ∃ t, exec (.custItemEnqueue core q) s = .next t ∧
        (t.core core).work = (s.core core).work ++ [q] ∧ (t.queue core q).cmds = { c with started := true } :: r ∧ t.mem = s.mem) ∧
      ((s.pkg (pkgOf core)).variant = 2 → ∃ t, exec (.custItemEnqueue core q) s = .next t ∧
        (t.queue core q).cmds = { c with finished := some 0x02 } :: r ∧ t.mem = s.mem)) ∧
    (∀ (acb base size : Nat) (x : Tensor) (s1 s2 : State) (body pa : Nat) (leaf : Option Word), c.op = .arena acb base size x →
      c.started = true → c.puts = [] → c.ticket = none → s.imageBits (c.ctx core) x 0 (8 * x.imageBytes) = .ok s1 body →
      s1.resolve (c.ctx core) (BitVec.ofNat 64 acb) .store true = (s2, .at pa leaf) →
      let s3 := (s2.modCmd core q (fun c => { c with ticket := some (pa, s2.nextId) })).bumpId
      (s3.arenaTurn pa s2.nextId none = false → exec (.arenaPlacement core q) s = .next s3) ∧
      (s3.arenaTurn pa s2.nextId none = true →
        (∀ s4 code, s3.placeRecord (c.ctx core) acb base size 1 ((x.imageBytes + 7) / 8) body = .ok s4 (.error code) →
          exec (.arenaPlacement core q) s = .next (s4.copyEnd core q code)) ∧
        (∀ s4 s5 l, s3.placeRecord (c.ctx core) acb base size 1 ((x.imageBytes + 7) / 8) body = .ok s4 (.ok l) →
          s4.copyPuts core q l = (s5, .done) → exec (.arenaPlacement core q) s = .next (s5.copyEnd core q 0)))) ∧
    (∀ (wr : Bool) (target first count mem entry : Nat), c.op = .stor wr target first count mem entry → c.started = true → c.stop = 0 →
      c.moved < count →
      (∀ e, KMap.find (s.pkg (pkgOf core)).extents entry = some e → e.domid = c.domid → e.target.toNat = target →
        e.first ≤ first + c.moved → first + c.moved < e.first + e.count → (if wr then e.w else e.r) = true →
        e.expiry = 0 ∨ (s.timeAt (dieOf core)).toNat ≤ e.expiry →
        KMap.find (s.pkg (pkgOf core)).targets target ≠ none →
        ∃ t, exec (.storageBlockCheck core q) s = .next t ∧
          (t.queue core q).cmds = { c with out := c.out ++ [c.moved], moved := c.moved + 1 } :: r ∧ t.mem = s.mem) ∧
      (KMap.find (s.pkg (pkgOf core)).extents entry = none → c.out = [] →
        ∃ t, exec (.storageBlockCheck core q) s = .next t ∧
          (t.queue core q).cmds = { c with stop := 0x14, finished := some 0x14 } :: r ∧ t.mem = s.mem)) ∧
    (∀ (target first count mem entry block v : Nat) (s1 : State), c.op = .stor true target first count mem entry → block ∈ c.out → c.puts = [] →
      s.readRange (c.ctx core) (mem + 4096 * block) 4096 true = .ok s1 v → s.Cached s1 → v ≠ 0 →
      ∃ t, exec (.storageBlockComplete core q block) s = .next t ∧ t.mem = s.mem ∧
        KMap.find (t.pkg (pkgOf core)).storage (KMap.getD (s.pkg (pkgOf core)).targets target 0 * 2 ^ 64 + (first + block)) = some v ∧
        (t.queue core q).cmds.map (fun x => (x.out, x.bits)) = (c.out.erase block, c.bits + 32768) :: r.map (fun x => (x.out, x.bits))) ∧
    (∀ (target first count mem entry block : Nat) (s1 : State), c.op = .stor false target first count mem entry → block ∈ c.out → c.puts = [] →
      (s.modCmd core q (fun c => { c with part := block })).copyPuts core q (bytesOf (mem + 4096 * block) 4096
        (KMap.getD (s.pkg (pkgOf core)).storage (KMap.getD (s.pkg (pkgOf core)).targets target 0 * 2 ^ 64 + (first + block)) 0)) = (s1, .done) →
      ∃ t, exec (.storageBlockComplete core q block) s = .next t ∧ t.mem = s1.mem)) ∧
  (∀ (s : State) (core q : Nat) (c : CopyCmd) (r : List CopyCmd) (code : BitVec 8), (s.queue core q).cmds = c :: r →
    c.finished = some code →
    ∃ t, exec (.cpyCommandComplete core q) s = .next t ∧ t.mem = s.mem ∧ (t.queue core q).cmds.length = r.length ∧
      (t.queue core q).code = code ∧ (t.queue core q).nx = c.fl.nx ∧ (t.queue core q).uf = c.fl.uf ∧ (t.queue core q).of = c.fl.ofl ∧
      (t.queue core q).nv = c.fl.nv ∧ (t.queue core q).bytes = (c.bits + 7) / 8 ∧ (t.queue core q).stall = none))

namespace Sys2Proof.Machine

/-- The scarab thread has taken an item, which is not dead, of the command `c` with the tensor `x` and its data plane, and no
output bits of it are still to be written. -/
def State.onIt (s : State) (i : WorkItem) (c : CopyCmd) (x : Tensor) (data : Nat) : Prop :=
  (s.core s.me.core).item = some i ∧ i.dead = false ∧ (s.queue s.me.core i.queue).cmds.head? = some c ∧
    c.puts = [] ∧ ∃ dir n, c.op.custom = some (x, data, dir, n)

/-- The count operand of a bitstream instruction. -/
def Opd.bits (t : Thread) : Opd → Nat
  | .imm i => i.toNat
  | .reg r => (t.reg r.reg).toNat

end Sys2Proof.Machine

/-- R290, R291: STRM binds a stream to a tensor of any type; `strc.get` reads its next element into a g register, `strc.put`
puts it into the stream's buffer, for whose room it waits, each advancing by one; `strc.q` counts what is left and
`strc.end` unbinds once the buffer is written. A stream that is not bound, has no further element, or goes the other way
traps STRMEOF with its register's number. R292 to R294: QWAIT goes on once work waits; QTAKE takes the oldest item and
answers what it is; BSGET reads bits of its input and advances, BSPEEK only reads, BSPUT appends bits to its output, BSALN
aligns a position, BSFLS ends a byte, and QDONE ends the item's command with a code. Without an item, and past its end, they
trap STRMEOF. -/
def Obligations.StreamsAndBitstreams : Prop :=
  ((∀ (s s1 : State) (g : Guard) (wr : Bool) (sm : BitVec 2) (a : Src) (v : Nat), s.runs g { ext := .cpy, anc := true, srcs := [a], outside := true } = true →
    let p := s.me.reg a.reg
    (p.toNat % 128 ≠ 0 → Traps (.strm g wr sm a) s 0x04 p) ∧
    (p.toNat % 128 = 0 → s.me.strmRoom sm.toNat 8192 = false →
      exec (.strm g wr sm a) s = .next (s.block s.cur (.strm sm.toNat 8192) true (BitVec.ofNat 64 (56 + sm.toNat)))) ∧
    (p.toNat % 128 = 0 → s.me.strmRoom sm.toNat 8192 = true → s.me.gated = [] → s.me.stored = true →
      s.readRange s.me.engine p.toNat 128 true = .ok s1 v → s.Cached s1 →
      (∀ e, tensorOf v s.me.fa s.me.fb = .error e → Traps (.strm g wr sm a) s e.toNat p) ∧
      (∀ x, tensorOf v s.me.fa s.me.fb = .ok x →
        CompletesAs (.strm g wr sm a) s (s1.modThread s.cur (fun t => t.setStream sm (some ⟨wr, x, 0, []⟩))) (s.outPw [a] s.me.pw)))) ∧
  (∀ (s s1 : State) (g : Guard) (sm : BitVec 2) (d : Reg) (a : Src) (v : Nat),
    let num : Word := BitVec.ofNat 64 (56 + sm.toNat)
    let reads := s.runs g { ext := .cpy, anc := true, dests := [d], outside := true } = true
    let writes := s.runs g { ext := .cpy, anc := true, srcs := [a], outside := true } = true
    let plain := s.runs g { ext := .cpy, anc := true, outside := true } = true
    (s.me.stream sm = none →
      (reads → Traps (.strcGet g d sm) s 0x17 num ∧ Traps (.strcQ g d sm) s 0x17 num) ∧
      (writes → Traps (.strcPut g sm a) s 0x17 num) ∧ (plain → Traps (.strcEnd g sm) s 0x17 num)) ∧
    (∀ x, s.me.stream sm = some x →
      let next : Thread → Thread := fun t => t.setStream sm (some { x with pos := x.pos + 1 })
      (reads → x.wr = true ∨ x.ten.count ≤ x.pos → Traps (.strcGet g d sm) s 0x17 num) ∧
      (writes → x.wr = false ∨ x.ten.count ≤ x.pos → Traps (.strcPut g sm a) s 0x17 num) ∧
      (reads → (Instr.strcGet g d sm).wf = true → x.wr = false → x.pos < x.ten.count →
        s.readBits s.me.engine (x.ten.at x.pos) x.ten.width = .ok s1 v → s.Cached s1 →
        CompletesAs (.strcGet g d sm) s (s1.modThread s.cur next) (s.out [] d (elemWord x.ten.t x.ten.width v))) ∧
      (writes → x.wr = true → x.pos < x.ten.count → s.me.strmRoom sm.toNat x.ten.width = false →
        exec (.strcPut g sm a) s = .next (s.block s.cur (.strm sm.toNat x.ten.width) true num)) ∧
      (writes → x.wr = true → x.pos < x.ten.count → s.me.strmRoom sm.toNat x.ten.width = true →
        (∀ e va, s.writeBits s.me.engine (x.ten.at x.pos) x.ten.width (s.me.reg a.reg).toNat = .bad s1 e va →
          Traps (.strcPut g sm a) s e (BitVec.ofNat 64 (x.ten.at x.pos / 8))) ∧
        (s.writeBits s.me.engine (x.ten.at x.pos) x.ten.width (s.me.reg a.reg).toNat = .ok s1 () →
          CompletesAs (.strcPut g sm a) s (s.modThread s.cur (fun t => t.setStream sm (some { x with
            pos := x.pos + 1, buf := x.buf ++ x.ten.put x.pos (s.me.reg a.reg).toNat }))) (s.outPw [a] s.me.pw))) ∧
      (reads → (Instr.strcQ g d sm).wf = true → Completes (.strcQ g d sm) s (s.out [] d (BitVec.ofNat 64 (x.ten.count - x.pos)))) ∧
      (plain → s.me.strmRoom sm.toNat 8192 = false → exec (.strcEnd g sm) s = .next (s.block s.cur (.strm sm.toNat 8192) true num)) ∧
      (plain → s.me.strmRoom sm.toNat 8192 = true → CompletesAs (.strcEnd g sm) s (s.modThread s.cur (fun t => t.setStream sm none)) (s.outPw [] s.me.pw))))) ∧
  ((∀ (s : State) (g : Guard), s.runs g { ext := .bsx } = true → (s.core s.me.core).work ≠ [] → Completes (.qwait g) s (s.outPw [] s.me.pw)) ∧
  (∀ (s : State) (g : Guard) (d : Reg), s.runs g { ext := .bsx, dests := [d] } = true →
    ((s.core s.me.core).item ≠ none → Traps (.qtake g d) s 0x1A 0) ∧
    (∀ q r c x data dir n, (Instr.qtake g d).wf = true → (s.core s.me.core).item = none → (s.core s.me.core).work = q :: r →
      (s.queue s.me.core q).cmds.head? = some c → c.op.custom = some (x, data, dir, n) →
      ∃ t i, exec (.qtake g d) s = .next t ∧ (t.thread s.cur).pc = s.me.pc + 8 ∧ (t.thread s.cur).retired = s.me.retired + 1 ∧
        (d ≠ .z → (t.thread s.cur).reg d = BitVec.ofNat 64
          (x.count % 2 ^ 32 * 65536 + x.t.code.toNat * 4096 + (if dir then 256 else 0) + n % 256)) ∧
        (t.core s.me.core).work = r ∧ (t.core s.me.core).item = some i ∧ i.queue = q ∧ i.inPos = 0 ∧ i.outPos = 0 ∧
        i.outBits = x.count * x.width ∧ i.dead = false ∧ ∀ a, t.byte a = s.byte a)) ∧
  (∀ (s s1 : State) (g : Guard) (d : Reg) (n : Opd) (i : WorkItem) (c : CopyCmd) (x : Tensor) (data v : Nat),
    s.runs g { ext := .bsx, srcs := Opd.srcs n, dests := [d] } = true →
    let k := Opd.bits s.me n
    (k = 0 ∨ 64 < k → Traps (.bsget g d n) s 0x1A (BitVec.ofNat 64 k) ∧ Traps (.bspeek g d n) s 0x1A (BitVec.ofNat 64 k)) ∧
    (1 ≤ k → k ≤ 64 → (s.core s.me.core).item = none → Traps (.bsget g d n) s 0x17 0 ∧ Traps (.bspeek g d n) s 0x17 0) ∧
    (1 ≤ k → k ≤ 64 → s.onIt i c x data →
      (∀ b, i.inBits = some b → b < i.inPos + k → Traps (.bsget g d n) s 0x17 (BitVec.ofNat 64 i.inPos)) ∧
      ((∀ b, i.inBits = some b → i.inPos + k ≤ b) → (Instr.bsget g d n).wf = true → s.itemRead s.me.core i c x data k = .ok s1 v →
        s.Cached s1 → CompletesAs (.bsget g d n) s (s1.modItem s.me.core (fun i => { i with inPos := i.inPos + k }))
          (s.out (Opd.srcs n) d (BitVec.ofNat 64 v))) ∧
      ((Instr.bspeek g d n).wf = true → s.itemRead s.me.core i c x data k = .ok s1 v → s.Cached s1 →
        CompletesAs (.bspeek g d n) s s1 (s.out (Opd.srcs n) d (BitVec.ofNat 64 v))))) ∧
  (∀ (s s1 : State) (g : Guard) (a : Src) (n : Opd) (i : WorkItem) (c : CopyCmd) (x : Tensor) (data : Nat),
    s.runs g { ext := .bsx, srcs := a :: Opd.srcs n } = true → s.onIt i c x data →
    let k := Opd.bits s.me n
    (1 ≤ k → k ≤ 64 → i.outBits < i.outPos + k → Traps (.bsput g a n) s 0x17 (BitVec.ofNat 64 i.outPos)) ∧
    (1 ≤ k → k ≤ 64 → i.outPos + k ≤ i.outBits →
      s.copyPuts s.me.core i.queue (i.put x data i.outPos k ((s.me.reg a.reg).toNat % 2 ^ k)) = (s1, .done) → s1.cur = s.cur →
      CompletesAs (.bsput g a n) s (s1.modItem s.me.core (fun i => { i with outPos := i.outPos + k }))
        { s1.outPw (a :: Opd.srcs n) s1.me.pw with pc := s.me.pc + 8 })) ∧
  (∀ (s : State) (g : Guard) (e : BitVec 3) (a : Src) (i : WorkItem) (c : CopyCmd) (x : Tensor) (data : Nat), s.onIt i c x data →
    (s.runs g { ext := .bsx } = true →
      CompletesAs (.bsaln g false e) s
        (s.modItem s.me.core (fun i => { i with inPos := i.inPos + (2 ^ e.toNat - i.inPos % 2 ^ e.toNat) % 2 ^ e.toNat })) (s.outPw [] s.me.pw) ∧
      (∀ s1, let k := Nat.min ((2 ^ e.toNat - i.outPos % 2 ^ e.toNat) % 2 ^ e.toNat) (i.outBits - i.outPos)
        s.copyPuts s.me.core i.queue (i.put x data i.outPos k 0) = (s1, .done) → s1.cur = s.cur →
        CompletesAs (.bsaln g true e) s (s1.modItem s.me.core (fun i => { i with outPos := i.outPos + k }))
          { s1.outPw [] s1.me.pw with pc := s.me.pc + 8 }) ∧
      (i.outPos % 2 ^ e.toNat = 0 → ∃ t, exec (.bsaln g true e) s = .next t ∧ s.Goes t [] ∧ (t.core s.me.core).item = some i) ∧
      (i.outPos % 8 = 0 → ∃ t, exec (.bsfls g) s = .next t ∧ s.Goes t [] ∧ (t.core s.me.core).item = some i)) ∧
    (s.runs g { ext := .bsx, srcs := [a] } = true → i.outPos % 8 = 0 →
      ∃ t c1, exec (.qdone g a) s = .next t ∧ s.Goes t [a] ∧ (t.core s.me.core).item = none ∧
        (t.queue s.me.core i.queue).cmds.head? = some c1 ∧ c1.finished = some ((s.me.reg a.reg).setWidth 8) ∧
        c1.fl = { nx := bit (s.me.reg a.reg) 12, uf := bit (s.me.reg a.reg) 11, ofl := bit (s.me.reg a.reg) 10,
                  nv := bit (s.me.reg a.reg) 9, clmp := bit (s.me.reg a.reg) 8 })) ∧
  (∀ (s : State) (g : Guard) (a : Src) (i : WorkItem), s.runs g { ext := .bsx, srcs := [a] } = true →
    ((s.core s.me.core).item = none → Traps (.qdone g a) s 0x17 0) ∧
    ((s.core s.me.core).item = some i → i.dead = true → ∃ t, exec (.qdone g a) s = .next t ∧ s.Goes t [a] ∧
      (t.core s.me.core).item = none)))

/-! ### Whole-graph instructions -/

namespace Sys2Proof.Machine

/-- The thread `tid` waits for its walk, whose result goes to the g register `r`. -/
def State.walks (s : State) (tid tok : Nat) (r : Reg) : Prop :=
  r.isG = true ∧ ∃ p, (s.thread tid).pend = some p ∧ p.tok = tok ∧ (∃ got, p.fin = .graph r got) ∧ p.acquire = none ∧ p.line = none

end Sys2Proof.Machine

/-- R67, R296, R298, R310, R317, R318: a walking instruction traps ALIGN for a block off its alignment, and otherwise joins the
walks of its cluster's engine and waits; GTYPE reads an object's header and counts its pointer words, or tests one word;
GQRY reads STATE, OPC and OBJS of a block, and whether its walk is watched and has been written. R296, R300, R301, R303,
R307, R310: the engine takes the oldest walk, and reads its block; a walk whose roots are 0 has nothing to discover; a root
outside the bound range traps WALKBAD; the sweep takes the mutation flag; a completed walk leaves STATE 2 in its block and
its result, with OBJS and MUT, in gd. -/
def Obligations.WholeGraphInstructionsAndTheirEngine : Prop :=
  ((∀ (s : State) (g : Guard) (d : Reg) (a b : Src) (i : Instr) (op : GOp), s.runs g { ext := .graph, srcs := [a, b], dests := [d], outside := true } = true →
    (i = .gcopy g d a b ∧ op = .gcopy) ∨ (i = .gsend g d a b ∧ op = .gsend) ∨ (i = .gcmp g d a b ∧ op = .gcmp) ∨
      (i = .ghash g d a b ∧ op = .ghash) ∨ (i = .gfree g d a b ∧ op = .gfree) →
    let wsb := s.me.reg a.reg
    (wsb.toNat % 128 ≠ 0 → Traps i s 0x04 wsb) ∧
    (wsb.toNat % 128 = 0 → s.me.gated = [] → s.me.stored = true →
      ∃ t, exec i s = .next t ∧ s.Waits t .graph (.graph d none) ∧
        (t.cluster s.me.cluster).walks = (s.cluster s.me.cluster).walks ++ [⟨op, s.cur, s.nextId, wsb.toNat, (s.me.reg b.reg).toNat⟩])) ∧
  (∀ (s s1 s2 : State) (g : Guard) (d : Reg) (a : Src) (p : Option Src) (pa v : Nat) (leaf : Option Word),
    (Instr.gtype g d a p).wf = true → s.runs g { ext := .graph, srcs := a :: p.toList, dests := [d] } = true →
    let x := s.me.reg a.reg
    (x.toNat % 8 ≠ 0 → Traps (.gtype g d a p) s 0x13 x) ∧
    (s.local_ x 8 .load s1 pa leaf → s.me.storing pa 8 = false → s1.poisoned pa 8 = false →
      let h := s1.peekW pa
      let ty := (h.extractLsb' 44 20).toNat
      let size := (h.extractLsb' 20 24).toNat
      let tb := KMap.getD s.typebase s.me.domid.toNat 0
      let n := if tb.extractLsb' 58 6 ≤ 20 then 2 ^ (tb.extractLsb' 58 6).toNat else 0
      let answers := fun (u : State) (ptr : Nat → Bool) (count : Nat) =>
        CompletesAs (.gtype g d a p) s u (s.out (a :: p.toList) d (match p with
          | none => (h &&& 0xFFFFFFFFFFF00000) ||| BitVec.ofNat 64 count
          | some r => if (s.me.reg r.reg).toNat < size ∧ ptr (s.me.reg r.reg).toNat = true then 1 else 0))
      (ty = 0xFFFF0 ∨ ty = 0xFFFF1 ∨ ty = 0xFFFF2 ∨ ty = 0xFFFFE ∨ ty = 0xFFFFF → answers s1 (fun _ => false) 0) ∧
      (0xFFF00 ≤ ty → ty < 0xFFFF0 → Traps (.gtype g d a p) s 0x13 x) ∧
      (n ≤ ty → ty < 0xFFF00 → Traps (.gtype g d a p) s 0x13 x) ∧
      (ty < 0xFFF00 → ty < n → s1.readRange s.me.ctx ((tb.extractLsb' 4 52).toNat * 16 + 16 * ty) 16 = .ok s2 v → s1.Cached s2 →
        (wordAt v 0).extractLsb' 62 2 = 1 →
        ((wordAt v 0).extractLsb' 32 24 = 0 ∨ ((wordAt v 0).extractLsb' 32 24).toNat = size →
          answers s2 (fun i => decide (i < 64) && bit (wordAt v 1) i)
            ((List.range (min size 64)).countP (fun i => bit (wordAt v 1) i))) ∧
        ((wordAt v 0).extractLsb' 32 24 ≠ 0 → ((wordAt v 0).extractLsb' 32 24).toNat ≠ size → Traps (.gtype g d a p) s 0x13 x)))) ∧
  (∀ (s s1 : State) (g : Guard) (d : Reg) (a : Src) (v : Nat), (Instr.gqry g d a).wf = true →
    s.runs g { ext := .graph, srcs := [a], dests := [d] } = true →
    let wsb := s.me.reg a.reg
    (wsb.toNat % 128 ≠ 0 → Traps (.gqry g d a) s 0x04 wsb) ∧
    (wsb.toNat % 128 = 0 → s.wsbRead s.me wsb.toNat 0 128 = .ok (s1, v) → s.Cached s1 →
      ∃ held hit : Bool, (held = false → hit = false) ∧
        CompletesAs (.gqry g d a) s s1 (s.out [a] d (((wordAt v 0).extractLsb' 56 4).setWidth 64 <<< 60 |||
          ((wordAt v 0).extractLsb' 48 8).setWidth 64 <<< 52 ||| (if held then 0x8000000000000 else 0) |||
          (if hit then 0x4000000000000 else 0) ||| (wordAt v 11 &&& 0xFFFFFFFF)))))) ∧
  ((∀ (s : State) (cl : Nat) (q : WalkReq) (r : List WalkReq) (s1 : State) (w : Walk), (s.cluster cl).walk = none →
    (s.cluster cl).walks = q :: r → s.walkAlive q = true →
    (s.modCluster cl (fun c => { c with walk := none, walks := r })).walkOpen (s.thread q.tid) q = .ok (s1, w) →
    ∃ t, exec (.graphWalkStart cl) s = .next t ∧ (t.cluster cl).walk = some w ∧ t.mem = s1.mem ∧ t.threads = s1.threads) ∧
  (∀ (s s1 : State) (cl : Nat) (w : Walk) (x : WsbView), (s.cluster cl).walk = some w → s.walkAlive w.req = true → w.code = none →
    w.req.op = .gcmp → s.wsbView (s.thread w.req.tid) w.req.wsb = .ok (s1, x) → s.Cached s1 → x.depth = 0 → x.objs = 0 → w.arena = none →
    (wordAt x.p 1 = 0 → wordAt x.p 2 = 0 →
      ∃ t, exec (.graphLineRead cl) s = .next t ∧ (t.cluster cl).walk = some { w with code := some 0 } ∧ t.mem = s.mem) ∧
    (wordAt x.p 1 ≠ 0 → (wordAt x.p 1).toNat < x.word 3 ∨ x.word 4 ≤ (wordAt x.p 1).toNat → (s.thread w.req.tid).freezes = false →
      ∃ t, exec (.graphLineRead cl) s = .next t ∧ (t.cluster cl).walk = none ∧ (t.thread w.req.tid).tcause = 0x13 ∧
        (t.thread w.req.tid).taddr = wordAt x.p 1 ∧ (t.thread w.req.tid).inh = true)) ∧
  (∀ (s : State) (cl : Nat) (w : Walk) (code : BitVec 8), (s.cluster cl).walk = some w → s.walkAlive w.req = true → w.code = some code →
    w.swept = none →
    ∃ t, exec (.graphSweep cl) s = .next t ∧
      (t.cluster cl).walk = some { w with swept := some (((s.watch cl w.wid).map (·.mutd)).getD true) } ∧ t.mem = s.mem ∧
      t.threads = s.threads) ∧
  (∀ (s s1 s2 s3 : State) (cl v : Nat) (w : Walk) (code : BitVec 8) (mutd : Bool) (x : WsbView) (r : Reg),
    (s.cluster cl).walk = some w → s.walkAlive w.req = true → w.code = some code → w.swept = some mutd → w.asked = false →
    s.walks w.req.tid w.req.tok r → (code ≠ 0 ∨ w.req.op = .gcmp) →
    s.wsbView (s.thread w.req.tid) w.req.wsb = .ok (s1, x) → s1.wsbRead (s.thread w.req.tid) w.req.wsb 0 96 = .ok (s2, v) →
    s2.wsbWrite (s.thread w.req.tid) w.req.wsb 0 8
      (((wordAt v 0) &&& 0xF000FFFFFFFFFFFF).toNat + 2 * 2 ^ 56 + w.req.op.code * 2 ^ 48) = .ok (s3, ()) →
    s3.thread w.req.tid = s.thread w.req.tid →
    ∃ t, exec (.graphWalkComplete cl) s = .next t ∧ t.mem = s3.mem ∧ (t.cluster cl).walk = none ∧
      (t.thread w.req.tid).reg r = BitVec.ofNat 64 ((if mutd then 2 ^ 40 else 0) + (wordAt v 11).toNat % 2 ^ 32 * 256 + code.toNat) ∧
      (t.thread w.req.tid).pc = (s.thread w.req.tid).pc + 8 ∧ (t.thread w.req.tid).retired = (s.thread w.req.tid).retired + 1 ∧
      (t.thread w.req.tid).pend = none ∧ (mutd = true → (t.thread w.req.tid).pw = (s.thread w.req.tid).pw ||| 0x200)))

/-! ### Collectives -/

/-- R394, R395, R400 to R403: the collective instructions trap ALIGN and DESCBAD for their descriptors and names. `cjoin` sends
a SETUP to the tree's root, `cjoin.q` reads a trestle entry, `cjoin.lv` removes the group's entries; CRED contributes the
thread's vector to the next round, CMCST sends it down a tree and waits for the injection, and `crcv.mc` and `crcv.red` take
a delivery and a result, or wait for one. R392, R393, R396, R397, R400, R405: Combine of two blocks; a whole round of an
entry is combined, its result kept at the root or sent to the parent; a child's contribution joins the rounds DONE and DONE
+ 1; a SETUP installs an entry and goes on, and the last one answers DONE; a multicast fills one of a core's four slots and
goes on to its children. -/
def Obligations.Collectives : Prop :=
  ((∀ (s s1 : State) (g : Guard) (d : Reg) (a b c : Src) (v : Nat),
    let p := s.me.reg a.reg
    let q := s.me.reg b.reg
    let join := s.runs g { ext := .coll, srcs := [a], dests := [d], outside := true } = true
    let cast := s.runs g { ext := .coll, anc := true, srcs := [a, b, c], outside := true } = true
    (join → p.toNat % 128 ≠ 0 → Traps (.cjoin g d a) s 0x04 p) ∧ (cast → q.toNat % 128 ≠ 0 → Traps (.cmcst g a b c) s 0x04 q) ∧
    (join → p.toNat % 128 = 0 → s.me.gated = [] → s.me.stored = true → s.readRange s.me.ctx p.toNat 128 = .ok s1 v → s.Cached s1 →
      (s1.collDesc v = none → Traps (.cjoin g d a) s 0x1A p) ∧
      (∀ tree gid, s1.collDesc v = some (tree, gid) → 6 < ((wordAt v 0).extractLsb' 56 4).toNat → Traps (.cjoin g d a) s 0x1A p) ∧
      (∀ tree gid op, s1.collDesc v = some (tree, gid) → (Instr.cjoin g d a).wf = true →
        [CollOp.sumf, .maxf, .minf, .sumi, .and, .or, .rscl][((wordAt v 0).extractLsb' 56 4).toNat]? = some op →
        ∃ t, exec (.cjoin g d a) s = .next t ∧ s1.Asks t [a] d ∧
          s1.Sends t 0x13 (treeRoot tree) (.setup (s.me.asker s.cur s1.nextId false) op gid (treeEntries tree) []))) ∧
    (cast → q.toNat % 128 = 0 → s.me.gated = [] → s.me.stored = true → s.readRange s.me.ctx q.toNat 128 = .ok s1 v → s.Cached s1 →
      (s1.collDesc v = none → Traps (.cmcst g a b c) s 0x1A q) ∧
      (∀ tree gid, s1.collDesc v = some (tree, gid) → s1.sendOverflow s.me.core = true →
        Traps (.cmcst g a b c) s 0x0F (BitVec.ofNat 64 (treeRoot tree))) ∧
      (∀ tree gid, s1.collDesc v = some (tree, gid) → s1.sendOverflow s.me.core = false →
        ∃ t, exec (.cmcst g a b c) s = .next t ∧ (t.thread s.cur).pc = s.me.pc + 8 ∧ (t.thread s.cur).retired = s.me.retired + 1 ∧
          (t.thread s.cur).wait = some (.inject s1.nextId) ∧
          (∀ r, r ≠ .ip → (t.thread s.cur).reg r = s.me.reg r ∧ (t.thread s.cur).vreg r = s.me.vreg r) ∧
          (∀ r, (t.thread s.cur).full r = if Reg.tagged r = true ∧ r ∈ takesOf [a, b, c] [] then false else s.me.full r) ∧
          (∀ x, t.byte x = s.byte x) ∧
          s1.Sends t 0x10 (treeRoot tree) (.mcast tree (s.me.vreg a.reg) (s.me.reg c.reg) gid)))) ∧
  (∀ (s : State) (g : Guard) (d : Reg) (a : Src), s.runs g { ext := .coll, srcs := [a], dests := [d], outside := true } = true →
    let name := s.me.reg a.reg
    (65535 < name.toNat → Traps (.cjoinQ g d a) s 0x1A name ∧ Traps (.cjoinLv g d a) s 0x1A name) ∧
    (name.toNat ≤ 65535 → s.trestle s.me.core s.me.domid s.me.cin (name.setWidth 16) = none →
      ((Instr.cjoinQ g d a).wf = true → Completes (.cjoinQ g d a) s (s.out [a] d 0)) ∧
      ((Instr.cjoinLv g d a).wf = true → Completes (.cjoinLv g d a) s (s.out [a] d 1))) ∧
    (∀ e, name.toNat ≤ 65535 → s.trestle s.me.core s.me.domid s.me.cin (name.setWidth 16) = some e →
      ((Instr.cjoinQ g d a).wf = true → Completes (.cjoinQ g d a) s (s.out [a] d (BitVec.ofNat 64
        (e.own * 2 ^ 48 + e.done * 2 ^ 32 + (if e.nx then 2 ^ 23 else 0) + (if e.ofl then 2 ^ 22 else 0) + (if e.nv then 2 ^ 21 else 0) +
          (if e.parent = none then 3 else if e.children = [] then 1 else 2) * 65536 + e.gid.toNat)))) ∧
      ((Instr.cjoinLv g d a).wf = true → ∃ t, exec (.cjoinLv g d a) s = .next t ∧ (t.thread s.cur).pc = s.me.pc + 8 ∧
        (t.thread s.cur).retired = s.me.retired + 1 ∧ (d ≠ .z → (t.thread s.cur).reg d = 0) ∧
        t.trestle s.me.core s.me.domid s.me.cin (name.setWidth 16) = none ∧ ∀ x, t.byte x = s.byte x))) ∧
  (∀ (s : State) (g : Guard) (op : CollOp) (a b c : Src), s.runs g { ext := .coll, anc := true, srcs := [a, b, c], outside := true } = true →
    let name := s.me.reg b.reg
    (65535 < name.toNat → Traps (.cred g op a b c) s 0x1A name) ∧
    (name.toNat ≤ 65535 → s.trestle s.me.core s.me.domid s.me.cin (name.setWidth 16) = none → Traps (.cred g op a b c) s 0x1A name) ∧
    (∀ e, name.toNat ≤ 65535 → s.trestle s.me.core s.me.domid s.me.cin (name.setWidth 16) = some e →
      (e.dlv = false ∨ e.op ≠ op → Traps (.cred g op a b c) s 0x1A name) ∧
      (e.dlv = true → e.op = op → (e.own + 65536 - e.done) % 65536 < 2 →
        ∃ t, exec (.cred g op a b c) s = .next t ∧ s.Goes t [a, b, c] ∧
          t.trestle s.me.core s.me.domid s.me.cin (name.setWidth 16) = some { e with
            own := (e.own + 1) % 65536, contribs := e.contribs ++ [(e.own, 0, s.me.vreg a.reg, s.me.reg c.reg)], pri := s.me.prio }) ∧
      (e.dlv = true → e.op = op → 2 ≤ (e.own + 65536 - e.done) % 65536 →
        exec (.cred g op a b c) s = .next (s.block s.cur (.cred name.toNat) true name)))) ∧
  (∀ (s : State) (g : Guard) (d b : Reg) (a : Src), s.runs g { ext := .coll, anc := true, srcs := [a], dests := [d, b], outside := true } = true →
    let name := s.me.reg a.reg
    let takes := fun (i : Instr) (data : BitVec 1024) (scalar : Word) (left : State → Prop) =>
      ∃ t, exec i s = .next t ∧ (t.thread s.cur).pc = s.me.pc + 8 ∧ (t.thread s.cur).retired = s.me.retired + 1 ∧
        (d.isV = true → (t.thread s.cur).vreg d = data ∧ (t.thread s.cur).full d = true) ∧
        (b.isG = true → (t.thread s.cur).reg b = scalar ∧ (t.thread s.cur).full b = true) ∧
        (∀ r, r ≠ b → r ≠ .ip → (t.thread s.cur).reg r = s.me.reg r) ∧ left t ∧ ∀ x, t.byte x = s.byte x
    (65535 < name.toNat → Traps (.crcvMc g d a b) s 0x1A name ∧ Traps (.crcvRed g d a b) s 0x1A name) ∧
    (name.toNat ≤ 65535 → (s.core s.me.core).mcast.find? (fun x => x.gid == name.setWidth 16 && x.domid == s.me.domid && x.cin == s.me.cin) = none →
      exec (.crcvMc g d a b) s = .next (s.block s.cur (.crcvMc name.toNat) true name)) ∧
    (∀ x, name.toNat ≤ 65535 → (Instr.crcvMc g d a b).wf = true →
      (s.core s.me.core).mcast.find? (fun x => x.gid == name.setWidth 16 && x.domid == s.me.domid && x.cin == s.me.cin) = some x →
      takes (.crcvMc g d a b) x.data x.scalar (fun t => (t.core s.me.core).mcast = (s.core s.me.core).mcast.erase x)) ∧
    (∀ e, name.toNat ≤ 65535 → s.trestle s.me.core s.me.domid s.me.cin (name.setWidth 16) = some e →
      (e.parent ≠ none → Traps (.crcvRed g d a b) s 0x1A name) ∧
      (e.parent = none → e.results.find? (fun r => decide (r.1 = e.read)) = none →
        exec (.crcvRed g d a b) s = .next (s.block s.cur (.crcvRed name.toNat) true name)) ∧
      (∀ r, e.parent = none → (Instr.crcvRed g d a b).wf = true → e.results.find? (fun r => decide (r.1 = e.read)) = some r →
        takes (.crcvRed g d a b) r.2.1 r.2.2 (fun t => t.trestle s.me.core s.me.domid s.me.cin (name.setWidth 16) =
          some { e with read := (e.read + 1) % 65536, results := e.results.erase r }))))) ∧
  ((∀ (a b : Contrib), (∀ i, i < 1024 → (combine .and a b).1.data.getLsbD i = (a.data.getLsbD i && b.data.getLsbD i)) ∧
    (∀ i, i < 1024 → (combine .or a b).1.data.getLsbD i = (a.data.getLsbD i || b.data.getLsbD i)) ∧
    (∀ j, j < 16 → (combine .sumi a b).1.data.extractLsb' (64 * j) 64 = a.data.extractLsb' (64 * j) 64 + b.data.extractLsb' (64 * j) 64)) ∧
  (∀ (s : State) (cl : Nat) (e : Trestle) (x : Contrib), (s.cluster cl).trestles.find? (fun y => decide (y.gid.toNat = e.gid.toNat) && y.whole) = some e →
    clusterOf e.pos = cl → e.dlv = true → e.children = [] → e.share 0 = some x →
    (∀ y ∈ (s.cluster cl).trestles, y.pos = e.pos → y.is e.domid e.cin e.gid = true → y = e) →
    ∃ t, exec (.trestleCombine cl e.gid.toNat) s = .next t ∧ t.mem = s.mem ∧ t.threads = s.threads ∧
      (∃ y, t.trestle e.pos e.domid e.cin e.gid = some y ∧ y.done = (e.done + 1) % 65536 ∧
        y.contribs = e.contribs.filter (fun c => decide (c.1 ≠ e.done)) ∧
        y.results = (if e.parent = none then e.results ++ [(e.done, x.data, x.scalar)] else e.results)) ∧
      ∀ up, e.parent = some up → s.Sends t 0x11 up (.contrib e.gid up e.pos e.done x.data x.scalar)) ∧
  (∀ (s : State) (msg node child round k : Nat) (m : Msg) (gid : BitVec 16) (data : BitVec 1024) (scalar : Word) (e : Trestle),
    s.arrived msg = some m → s.isLive (clusterOf m.ldest) m.domid m.cin = true → m.body = .contrib gid node child round data scalar →
    s.trestle node m.domid m.cin gid = some e → e.children.findIdx? (fun c => decide (c = child)) = some k →
    (round + 65536 - e.done) % 65536 ≤ 1 →
    ∃ t, exec (.contribArrival msg) s = .next t ∧ KMap.find t.msgs msg = none ∧ t.mem = s.mem ∧
      t.trestle node m.domid m.cin gid = some { e with contribs := e.contribs ++ [(round, k + 1, data, scalar)], pri := m.pri }) ∧
  (∀ (s : State) (msg pos : Nat) (m : Msg) (who : Asker) (op : CollOp) (gid : BitVec 16) (parent : Option Nat) (children done : List Nat)
      (dlv : Bool) (rest : List (Nat × Option Nat × List Nat × Bool)), s.takes msg m who → clusterOf who.core ≠ clusterOf pos →
    m.body = .setup who op gid ((pos, parent, children, dlv) :: rest) done → (s.cluster (clusterOf pos)).trestles.length < 64 →
    (∀ e ∈ (s.cluster (clusterOf pos)).trestles, e.is m.domid m.cin gid = false) →
    ∃ t y, exec (.setupArrival msg) s = .next t ∧ KMap.find t.msgs msg = none ∧ t.mem = s.mem ∧
      t.trestle pos m.domid m.cin gid = some y ∧ y.op = op ∧ y.parent = parent ∧ y.children = children ∧ y.dlv = dlv ∧
      y.own = 0 ∧ y.done = 0 ∧ (rest = [] → s.Sends t 0x0F who.core (.resp who (.value 0))) ∧
      (∀ n l, rest = n :: l → s.Sends t 0x13 n.1 (.setup who op gid rest (pos :: done)))) ∧
  (∀ (s : State) (core msg : Nat) (m : Msg) (n : BitVec 24) (r : List (BitVec 24)) (data : BitVec 1024) (scalar : Word) (gid : BitVec 16),
    msg < s.nextId → s.arrived msg = some m → s.isLive (clusterOf m.ldest) m.domid m.cin = true → m.body = .mcast (n :: r) data scalar gid →
    KMap.find s.msgs msg = some m →
    (m.ldest = core → n.getLsbD 22 = true → (s.core core).mcast.length < 4 →
      ∃ t, exec (.mcastDelivery core msg) s = .next t ∧ t.mem = s.mem ∧ t.threads = s.threads ∧
        (t.core core).mcast = (s.core core).mcast ++ [⟨data, scalar, gid, m.domid, m.cin⟩] ∧
        ∃ f, KMap.find t.msgs msg = some f ∧ f.body = .mcast ((n &&& ~~~0x400000#24) :: r) data scalar gid) ∧
    (n.getLsbD 22 = false → n.extractLsb' 18 4 = 1 → r.length = 1 → r.head?.map nodeKids = some 0 →
      ∃ t id f, exec (.mcastNode msg) s = .next t ∧ KMap.find t.msgs msg = none ∧ t.mem = s.mem ∧ (id, f) ∈ t.msgs ∧
        f.ldest = treeRoot r ∧ f.src = m.src ∧ f.body = .mcast r data scalar gid)))

/-! ### Special registers, traps and calls -/

/-- R415, R416, R419: SPRD reads every special register by name, and TIME the time base of its die. SPWR writes those that have
a value of their own; it traps DESCBAD for a value that PWIN, FPINT, TYPEBASE or XLBASE does not take, and ILLEGAL for the
read-only ones. R241: a write of a boundary register traps DESCBAD when its conditions do not hold, and otherwise waits; it
takes effect when no engine of the cluster has a command in flight: bytes that leave the scratchpad are zero, the cluster's
candidates are dropped, and the instruction completes. -/
def Obligations.SpecialRegisters : Prop :=
  ((∀ (s : State) (g : Guard) (d : Reg), (Instr.sprd g d .tcause).wf = true → s.runs g { ext := .sys, dests := [d] } = true →
    let k := s.cluster s.me.cluster
    Completes (.time g d) s (s.out [] d (s.timeAt (dieOf s.me.core))) ∧
    ∀ p ∈ [(Spr.tcause, s.me.tcause), (.taddr, s.me.taddr), (.tpc, s.me.tpc), (.tvec, s.me.tvec), (.tframe, s.me.tframe),
        (.wlim, s.me.wlim), (.rndseed, s.me.rnd.setWidth 64), (.retired, s.me.retired), (.domid, s.me.domid.setWidth 64),
        (.cinv, (s.liveCin s.me.cluster s.me.domid).setWidth 64), (.pwin, s.pwin.setWidth 64), (.fpint, (s.core s.me.core).fpint),
        (.xlbase, s.xlbase), (.typebase, KMap.getD s.typebase s.me.domid.toNat 0), (.bnd0, k.bnd0.setWidth 64),
        (.bnd1, k.bnd1.setWidth 64), (.bnd2, k.bnd2.setWidth 64),
        (.cycle, if s.me.inSlot then s.me.cyc + BitVec.ofNat 64 (s.now s.me.core - s.me.cycAt) else s.me.cyc),
        (.mode, BitVec.ofNat 64 ((if s.me.sup then 1 else 0) + (if s.me.inh then 2 else 0) + (if s.me.anc then 4 else 0) +
          (if s.paired s.me then 8 else 0) + 16 * (s.me.slot % 8) + (if isPylon s.me.core then 128 else 0))),
        (.thmeta, (s.me.tag.setWidth 64 <<< 48) ||| (s.me.cin.setWidth 64 <<< 32) ||| (s.me.domid.setWidth 64 <<< 20) |||
          (s.me.prio.setWidth 64 <<< 18))],
      Completes (.sprd g d p.1) s (s.out [] d p.2)) ∧
  (∀ (s : State) (g : Guard) (a : Src), (Instr.spwr g .tvec a).wf = true →
    s.runs g { ext := .sys, srcs := [a], outside := true } = true →
    let v := s.me.reg a.reg
    (∀ p ∈ [(Spr.tcause, { s.me with tcause := v &&& 0xFFFF }), (.taddr, { s.me with taddr := v }), (.tpc, { s.me with tpc := v }),
        (.tvec, { s.me with tvec := v }), (.wlim, { s.me with wlim := v }),
        (.cycle, { s.me with cyc := v, cycAt := s.now s.me.core + 1 }), (.retired, { s.me with retired := v - 1 })],
      CompletesAs (.spwr g p.1 a) s (s.setThread s.cur p.2) (s.outPw [a] s.me.pw)) ∧
    CompletesAs (.spwr g .rndseed a) s (s.setThread s.cur { s.me with rnd := v.setWidth 32 })
      { s.outPw [a] s.me.pw with rnd := v.setWidth 32 } ∧
    (∀ r ∈ [Spr.mode, .domid, .cinv, .thmeta], Traps (.spwr g r a) s 0x01 s.iword) ∧
    (v.extractLsb' 56 2 ≠ 0 ∨ v.extractLsb' 0 4 ≠ 0 → Traps (.spwrTypebase g a) s 0x1A v) ∧
    (v.extractLsb' 56 2 = 0 → v.extractLsb' 0 4 = 0 →
      ∃ t, exec (.spwrTypebase g a) s = .next t ∧ s.Goes t [a] ∧ KMap.getD t.typebase s.me.domid.toNat 0 = v ∧
        ∀ k, k ≠ s.me.domid.toNat → KMap.getD t.typebase k 0 = KMap.getD s.typebase k 0)) ∧
  (∀ (s : State) (g : Guard) (a : Src), (Instr.spwr g .tframe a).wf = true →
    s.runs g { ext := .sys, priv := true, srcs := [a], outside := true } = true →
    let v := s.me.reg a.reg
    CompletesAs (.spwr g .tframe a) s (s.setThread s.cur { s.me with tframe := v }) (s.outPw [a] s.me.pw) ∧
    (v.extractLsb' 6 58 ≠ 0 → Traps (.spwr g .pwin a) s 0x1A v) ∧
    (v.extractLsb' 6 58 = 0 → CompletesAs (.spwr g .pwin a) s { s with pwin := v.setWidth 6 } (s.outPw [a] s.me.pw)) ∧
    (v.toNat < 1024 ∨ 65536 < v.toNat → Traps (.spwr g .fpint a) s 0x1A v) ∧
    (1024 ≤ v.toNat → v.toNat ≤ 65536 → (s.core s.me.core).pair = none ∨ s.paired s.me = true →
      ∃ t, exec (.spwr g .fpint a) s = .next t ∧ s.Goes t [a] ∧ (t.core s.me.core).fpint = v) ∧
    (v.extractLsb' 46 18 ≠ 0 ∨ v.extractLsb' 1 12 ≠ 0 → Traps (.spwrXlbase g a) s 0x1A v) ∧
    (v.extractLsb' 46 18 = 0 → v.extractLsb' 1 12 = 0 →
      CompletesAs (.spwrXlbase g a) s { s with xlbase := v } (s.outPw [a] s.me.pw)))) ∧
  ((∀ (s : State) (g : Guard) (n : BitVec 2) (a : Src), (Instr.spwrBnd g n a).wf = true →
    s.runs g { ext := .sys, priv := true, srcs := [a], outside := true } = true →
    let v := s.me.reg a.reg
    let k := s.cluster s.me.cluster
    let b0 := if n = 0 then v.toNat else k.bnd0.toNat
    let b1 := if n = 1 then v.toNat else k.bnd1.toNat
    let b2 := if n = 2 then v.toNat else k.bnd2.toNat
    (256 ≤ v.toNat ∨ b0 < 2 ∨ b1 < b0 ∨ b2 < b1 + 8 ∨ 126 < b2 → Traps (.spwrBnd g n a) s 0x1A v) ∧
    (v.toNat < 256 → b0 < k.bnd0.toNat → s.parkFits s.me.cluster b0 = false → Traps (.spwrBnd g n a) s 0x1A v) ∧
    (v.toNat < 256 → 2 ≤ b0 → b0 ≤ b1 → b1 + 8 ≤ b2 → b2 ≤ 126 → k.bnd0.toNat ≤ b0 ∨ s.parkFits s.me.cluster b0 = true →
      k.bndWrite ≠ none → exec (.spwrBnd g n a) s = .next (s.block s.cur (.bnd s.me.cluster) false 0)) ∧
    (v.toNat < 256 → 2 ≤ b0 → b0 ≤ b1 → b1 + 8 ≤ b2 → b2 ≤ 126 → k.bnd0.toNat ≤ b0 ∨ s.parkFits s.me.cluster b0 = true →
      k.bndWrite = none → ∃ t, exec (.spwrBnd g n a) s = .next t ∧ s.Waits t (.bnd s.me.cluster) .nothing ∧
        (t.cluster s.me.cluster).bndWrite = some (n.toNat, v.setWidth 8, s.cur))) ∧
  (∀ (s : State) (cl tid : Nat) (n : BitVec 2) (v : BitVec 8), (s.cluster cl).bndWrite = some (n.toNat, v, tid) →
    let k := s.cluster cl
    let b0 := if n = 0 then v else k.bnd0
    let b1 := if n = 1 then v else k.bnd1
    let b2 := if n = 2 then v else k.bnd2
    (s.enginesBusy cl = true → exec (.bndWriteApply cl) s = .next s) ∧
    (s.enginesBusy cl = false → (s.thread tid).wait = some (.bnd cl) →
      (∃ p, (s.thread tid).pend = some p ∧ p.fin = .nothing ∧ p.acquire = none ∧ p.line = none) →
      ∃ t, exec (.bndWriteApply cl) s = .next t ∧ (t.cluster cl).bnd0 = b0 ∧ (t.cluster cl).bnd1 = b1 ∧ (t.cluster cl).bnd2 = b2 ∧
        (t.cluster cl).bndWrite = none ∧ (t.cluster cl).cands = [] ∧ (t.thread tid).pc = (s.thread tid).pc + 8 ∧
        (t.thread tid).retired = (s.thread tid).retired + 1 ∧ (t.thread tid).pend = none ∧ (t.thread tid).wait = none ∧
        ∀ x, t.byte x =
          if (poolOf cl + k.bnd0.toNat * 65536 ≤ x ∧ x < poolOf cl + k.bnd1.toNat * 65536) ∧
            ¬(poolOf cl + b0.toNat * 65536 ≤ x ∧ x < poolOf cl + b1.toNat * 65536) then 0 else s.byte x)))

/-- R409, R411, R412: a trap writes its record at TFRAME, the cause, the address, the PC and the word first, sets INH, TCAUSE,
TADDR and TPC, and goes on at TVEC; with INH set, or TVEC 0 or no multiple of 8, it freezes the thread, a roaming one once nothing is
awaited (R81). R417, R418: TRAP takes
it with its code, past itself; RETT ends the window and goes to TPC or past it, and traps ALIGN for a target that is no
multiple of 8. -/
def Obligations.TrapEntryAndReturn : Prop :=
  (∀ (s : State) (g : Guard) (code : BitVec 8), s.runs g { ext := .sys, outside := true } = true →
    exec (.trap g code) s = .next (s.takeTrap s.cur ((code.setWidth 64 <<< 8) ||| 0x1C) 0 (s.me.pc + 8) s.iword)) ∧
  (∀ (s : State) (cause addr tpc iword : Word), s.paired s.me = false →
    let t := s.takeTrap s.cur cause addr tpc iword
    let rec_ := [cause, addr, tpc, (s.me.tag.setWidth 64 <<< 48) ||| (s.me.gFull.setWidth 64 <<< 32) ||| s.me.pw.setWidth 64,
      iword, s.timeAt (dieOf s.me.core), s.me.retired,
      BitVec.ofNat 64 ((if s.me.anc then 536870912 else 0) + (if s.me.sup then 268435456 else 0) +
        65536 * s.me.domid.toNat + s.me.cin.toNat)]
    (s.me.inh = false → s.me.tvec ≠ 0 → s.me.tvec.extractLsb' 0 3 = 0 →
      { t.thread s.cur with mon := s.me.mon } =
        { s.me.settle with tcause := cause, taddr := addr, tpc := tpc, inh := true, pc := s.me.tvec } ∧
      (∀ k, k ≠ s.cur → { t.thread k with mon := (s.thread k).mon } = s.thread k) ∧
      (s.me.tframe.toNat % 512 = 0 → ∀ i, i < 8 → t.peekW (s.me.tframe.toNat + 8 * i) = rec_.getD i 0 ∧
        t.tagFull (s.me.tframe.toNat + 8 * i) = true) ∧
      ∀ x, x < s.me.tframe.toNat ∨ s.me.tframe.toNat + 64 ≤ x → t.byte x = s.byte x) ∧
    (s.me.inh = true ∨ s.me.tvec = 0 ∨ s.me.tvec.extractLsb' 0 3 ≠ 0 → s.me.anc = false → s.me.await ≠ [] →
      (t.thread s.cur).wait = some .drain ∧ (t.thread s.cur).place = s.me.place ∧ (t.thread s.cur).pc = s.me.pc ∧
        ∀ x, t.byte x = s.byte x) ∧
    (s.me.inh = true ∨ s.me.tvec = 0 ∨ s.me.tvec.extractLsb' 0 3 ≠ 0 → s.me.anc = true ∨ s.me.await = [] →
      (t.thread s.cur).place = .frozen s.me.recordCluster ∧ (t.thread s.cur).pc = s.me.pc ∧
        ∃ m, m ∈ (t.die (s.me.recordCluster / 64)).svc ∧ m.kind = 0x15 ∧ m.w0 = BitVec.ofNat 64 s.cur ∧ m.w1 = s.me.tframe)) ∧
  (∀ (s : State) (g : Guard) (n : Bool), s.runs g { ext := .sys, outside := true } = true →
    let target := if n then s.me.tpc + 8 else s.me.tpc
    (target.toNat % 8 ≠ 0 → Traps (.rett g n) s 0x04 target) ∧
    (target.toNat % 8 = 0 → CompletesAs (.rett g n) s (s.setThread s.cur { s.me with inh := false })
      { s.outPw [] s.me.pw with pc := target }))

/-- R464 to R467, R469: SYSC checks its block and token, empties the words of RESULT and STATUS, hands the call to the service
pair and answers its number; with 16 calls outstanding it waits. The service side answers DESCBAD to a block that is no call's.
SYSW reads STATUS, once it is full, as LDF does, with an acquire. HALT stops the thread past itself and reports its code. -/
def Obligations.SystemCallsAndHalt : Prop :=
  (∀ (s s1 : State) (g : Guard) (d : Reg) (a b : Src) (pa : Nat) (leaf : Option Word), (Instr.sysc g d a b).wf = true →
    s.runs g { ext := .sys, srcs := [a, b], dests := [d], outside := true } = true →
    let p := s.me.reg a.reg
    let tok := s.me.reg b.reg
    (p.toNat % 64 ≠ 0 → Traps (.sysc g d a b) s 0x04 p) ∧
    (p.toNat % 64 = 0 → 2 ^ 32 ≤ tok.toNat → Traps (.sysc g d a b) s 0x1A tok) ∧
    (p.toNat % 64 = 0 → tok.toNat < 2 ^ 32 → s.reach p 64 .store = some (s1, pa, leaf) → leafShadow leaf = false →
      (16 ≤ s.me.calls.length → ∃ t, exec (.sysc g d a b) s = .next t ∧ (t.thread s.cur).wait = some .sysc ∧ (t.thread s.cur).pc = s.me.pc) ∧
      (s.me.calls.length < 16 → s.me.domReleased = true → (s.cluster (dieOf s.me.core * 64 + 33)).fen = true →
        (∀ c, (s1.cluster c).tagWait = []) →
        ∃ t, exec (.sysc g d a b) s = .next t ∧ t.calls = s.calls ∧ (t.thread s.cur).pc = s.me.pc + 8 ∧
          (d ≠ .z → (t.thread s.cur).reg d = BitVec.ofNat 64 (0x0E0000 + s.me.callNo % 65536))) ∧
      (s.me.calls.length < 16 → s.me.domReleased = true → (s.cluster (dieOf s.me.core * 64 + 33)).fen = false →
        (∀ c, (s1.cluster c).tagWait = []) →
        ∃ t c, exec (.sysc g d a b) s = .next t ∧ t.calls = s.calls ++ [c] ∧ c.block = p ∧ c.pa = pa ∧ c.token = tok ∧
          c.who.tid = s.cur ∧ (t.thread s.cur).calls = s.me.calls ++ [c.id] ∧ (t.thread s.cur).callNo = s.me.callNo + 1 ∧
          (d ≠ .z → (t.thread s.cur).reg d = BitVec.ofNat 64 (s.me.callNo % 65536)) ∧ (t.thread s.cur).pc = s.me.pc + 8 ∧
          (t.thread s.cur).retired = s.me.retired + 1 ∧ t.tagFull (pa + 48) = false ∧ t.tagFull (pa + 56) = false ∧
          ∀ x, t.byte x = s.byte x))) ∧
  (∀ (s : State) (c : Call) (r : List Call), s.calls = c :: r → s.isLive (dieOf c.who.core * 64 + 33) c.who.domid c.who.cin = true →
    c.who.shadow = false → (∀ k, (s.cluster k).tagWait = []) →
    (∀ x ∈ r, x.id ≠ c.id) → (s.peekW c.pa >>> 60 ≠ 13 ∨ (s.peekW c.pa).extractLsb' 16 44 ≠ 0) →
    ∃ t, exec (.syscallExecute c.id) s = .next t ∧ t.calls = r ∧ t.peekW (c.pa + 56) = 0x1A ∧ t.tagFull (c.pa + 56) = true) ∧
  (∀ (s s1 : State) (g : Guard) (d : Reg) (a : Src) (pa : Nat) (leaf : Option Word), (Instr.sysw g d a).wf = true →
    s.runs g { ext := .sys, srcs := [a], dests := [d], outside := true } = true →
    let p := s.me.reg a.reg
    (∀ v, s.me.wait = some (.acquire v) → CompletesCached (.sysw g d a) s (s.out [a] d v)) ∧
    (p.toNat % 64 ≠ 0 → (∀ v, s.me.wait ≠ some (.acquire v)) → Traps (.sysw g d a) s 0x04 p) ∧
    (p.toNat % 64 = 0 → (∀ v, s.me.wait ≠ some (.acquire v)) → s.reach (p + 56) 8 .load = some (s1, pa, leaf) →
      homeLocal s.me.core (homeOf pa) = true → leafShadow leaf = false →
      (s1.tagFull pa = true → s1.poisoned pa 8 = false → s.me.readsDone = false →
        exec (.sysw g d a) s = .next (s.block s.cur (.acquire (s1.peekW pa)) false (p + 56))) ∧
      (s1.tagFull pa = true → s1.poisoned pa 8 = false → s.me.readsDone = true → CompletesCached (.sysw g d a) s (s.out [a] d (s1.peekW pa))) ∧
      (s1.tagFull pa = false → (s1.cluster s.me.cluster).tagWait.length < 64 →
        ∃ t w, exec (.sysw g d a) s = .next t ∧ s.Waits t .answer (.reg d 8 false) ∧
          (t.cluster s.me.cluster).tagWait = (s1.cluster s.me.cluster).tagWait ++ [w] ∧ w.op = .ldf false ∧ w.pa = pa ∧ w.n = 8))) ∧
  (∀ (s : State) (g : Guard) (code : BitVec 8), s.runs g { ext := .sys, priv := true, outside := true } = true →
    (s.me.anc = false → s.me.await ≠ [] → exec (.halt g code) s = .next (s.block s.cur .drain false 0)) ∧
    (s.me.anc = true ∨ s.me.await = [] →
      ∃ t, exec (.halt g code) s = .next t ∧ (t.thread s.cur).place = .frozen s.me.recordCluster ∧ (t.thread s.cur).pc = s.me.pc + 8 ∧
        (t.thread s.cur).retired = s.me.retired + 1 ∧
        ∃ m, m ∈ (t.die (s.me.recordCluster / 64)).svc ∧ m.kind = code.toNat ∧ m.w0 = BitVec.ofNat 64 s.cur ∧ m.w1 = s.me.tframe))

/-! ### Launch, kill and containment instructions -/

/-- R147, R156 to R161, R450: LAUNCH hands its packet address to the launch unit of the package and leaves gd empty; LSYNC waits
for every launch answer; QCTL and its forms send a register request to the unit that they name. THRM reads and `thrm.set`
writes a rank of the die's table. REPL starts a replay of a running launch, and `repl.q` reads the state of one. -/
def Obligations.LaunchInstructions : Prop :=
  (∀ (s s1 : State) (g : Guard) (d : Reg) (a : Src) (x : Rslt), (Instr.launch g d a).wf = true →
    s.runs g { ext := .sys, srcs := [a], dests := [d], outside := true } = true →
    let p := s.me.reg a.reg
    (p.toNat % 128 ≠ 0 → Traps (.launch g d a) s 0x04 p) ∧
    (∀ c, p.toNat % 128 = 0 → (s.resolve s.me.ctx p .load).2 = .fail c → Traps (.launch g d a) s c p) ∧
    (p.toNat % 128 = 0 → s.resolve s.me.ctx p .load = (s1, x) → (∀ c, x ≠ .fail c) → s.me.domReleased = true → s.Cached s1 →
      ∃ t r who, exec (.launch g d a) s = .next t ∧ s.Asks t [a] d ∧
        (t.pkg (pkgOf s.me.core)).reqs = (s.pkg (pkgOf s.me.core)).reqs ++ [r] ∧ r.packet = p ∧ r.who = some who ∧ who.tid = s.cur ∧
        r.cluster = s.me.cluster ∧ (t.thread s.cur).asks = s.me.asks ++ [(who.tok, true)])) ∧
  (∀ (s : State) (g : Guard), s.runs g { ext := .sys, outside := true } = true →
    ((∀ x ∈ s.me.asks, x.2 = false) → Completes (.lsync g) s (s.outPw [] s.me.pw)) ∧
    ((∃ x ∈ s.me.asks, x.2 = true) → ∃ t, exec (.lsync g) s = .next t ∧ (t.thread s.cur).wait = some .lsync ∧
      (t.thread s.cur).pc = s.me.pc ∧ (t.thread s.cur).retired = s.me.retired)) ∧
  (∀ (s : State) (g : Guard) (d : Reg) (a b : Src) (i : Instr) (srcs : List Src) (form : Nat) (v : Word),
    (Instr.qctlWr g d a b).wf = true →
    (i = .qctl g d a ∧ srcs = [a] ∧ form = 0 ∧ v = 0 ∧ s.runs g { ext := .sys, srcs := [a], dests := [d], outside := true } = true) ∨
    (i = .qctlWr g d a b ∧ srcs = [a, b] ∧ form = 1 ∧ v = s.me.reg b.reg ∧
      s.runs g { ext := .sys, priv := true, srcs := [a, b], dests := [d], outside := true } = true) ∨
    (i = .qctlRst g d a ∧ srcs = [a] ∧ form = 2 ∧ v = 0 ∧
      s.runs g { ext := .sys, priv := true, srcs := [a], dests := [d], outside := true } = true) →
    let sel := s.me.reg a.reg
    let pkg := (sel.extractLsb' 8 6).toNat
    (sel.extractLsb' 14 50 ≠ 0 ∨ s.pkgPresent pkg = false → Traps i s 0x1A sel) ∧
    (sel.extractLsb' 14 50 = 0 → s.pkgPresent pkg = true →
      ∃ t who, exec i s = .next t ∧ s.Asks t srcs d ∧ (t.pkg pkg).qctl = (s.pkg pkg).qctl ++ [⟨who, form, sel, v⟩] ∧ who.tid = s.cur ∧
        (t.thread s.cur).asks = s.me.asks ++ [(who.tok, false)])) ∧
  (∀ (s : State) (g : Guard) (d : Reg) (a b : Src), (Instr.thrm g d a).wf = true →
    (s.runs g { ext := .sys, srcs := [a], dests := [d], outside := true } = true →
      Completes (.thrm g d a) s (s.out [a] d (if 35 < (s.me.reg a.reg).toNat then 0
        else KMap.getD (s.die (dieOf s.me.core)).rank (s.me.reg a.reg).toNat 0))) ∧
    (s.runs g { ext := .sys, priv := true, srcs := [a, b], outside := true } = true →
      (35 < (s.me.reg a.reg).toNat → Completes (.thrmSet g a b) s (s.outPw [a, b] s.me.pw)) ∧
      ((s.me.reg a.reg).toNat ≤ 35 → ∃ t, exec (.thrmSet g a b) s = .next t ∧ s.Goes t [a, b] ∧
        KMap.getD (t.die (dieOf s.me.core)).rank (s.me.reg a.reg).toNat 0 = s.me.reg b.reg &&& 0x3FF3F))) ∧
  (∀ (s : State) (g : Guard) (d : Reg) (a : Src), (Instr.repl g d a).wf = true →
    s.runs g { ext := .sys, priv := true, srcs := [a], dests := [d], outside := true } = true →
    let v := s.me.reg a.reg
    (v.toNat % 128 ≠ 0 → Traps (.repl g d a) s 0x04 v ∧ Traps (.replQ g d a) s 0x04 v) ∧
    (v.toNat % 128 = 0 → s.replFind s.me v = none →
      Completes (.repl g d a) s (s.out [a] d 1) ∧ Completes (.replQ g d a) s (s.out [a] d 0)) ∧
    (∀ id x, v.toNat % 128 = 0 → s.replFind s.me v = some (id, x) →
      (x.state ≠ .running → Completes (.repl g d a) s (s.out [a] d 1)) ∧
      (x.state = .running → CompletesAs (.repl g d a) s (s.modLaunch id (fun x => { x with state := .replaying })) (s.out [a] d 0) ∧
        Completes (.replQ g d a) s (s.out [a] d (BitVec.ofNat 64 (65536 * x.replays + 1)))) ∧
      (x.state = .replaying → Completes (.replQ g d a) s (s.out [a] d (BitVec.ofNat 64 (65536 * x.replays + 2)))) ∧
      (x.state = .committing → Completes (.replQ g d a) s (s.out [a] d (BitVec.ofNat 64 (65536 * x.replays + 3)))) ∧
      (x.state = .built → Completes (.replQ g d a) s (s.out [a] d (if x.replays = 0 then 0 else BitVec.ofNat 64 (65536 * x.replays + 2)))) ∧
      (x.state = .over → Completes (.replQ g d a) s (s.out [a] d 0))))

namespace Sys2Proof.Machine

/-- What a privileged instruction with these sources needs, and that its context operand and range are well-formed (R440). -/
def State.contained (s : State) (g : Guard) (d : Reg) (a b : Src) : Prop :=
  s.runs g { ext := .sys, priv := true, srcs := [a, b], dests := [d], outside := true } = true ∧
    s.me.reg a.reg ≠ 0 ∧ (s.me.reg a.reg).toNat < 4096 ∧ rectOk (s.me.reg b.reg) = true

end Sys2Proof.Machine

/-- R444 to R446, R452: `coff` fences and resets a cofferdam, whose scratchpads are then zero; `coff.def` sets CDAM of the clusters
of a rectangle of whole clusters; `coff.lift` lifts the fence; all three trap DESCBAD for no rectangle. WIPE zeroes memory line by line, with tags full, and answers how
many lines it has wiped and the cause that stopped it. -/
def Obligations.CofferdamAndWipeInstructions : Prop :=
  (∀ (s : State) (g : Guard) (d : Reg) (a : Src), (Instr.coff g d a).wf = true →
    s.runs g { ext := .sys, priv := true, srcs := [a], dests := [d], outside := true } = true →
    let v := s.me.reg a.reg
    let cls := s.cofferdam v
    (rectOk v = false → Traps (.coff g d a) s 0x1A v ∧ Traps (.coffLift g d a) s 0x1A v) ∧
    (rectOk v = true → cls = [] → Completes (.coff g d a) s (s.out [a] d 0x01)) ∧
    (rectOk v = true → (∃ cl ∈ cls, (s.cluster cl).fen = true ∨ (s.cluster cl).armed ≠ none) → Completes (.coff g d a) s (s.out [a] d 0x24)) ∧
    (rectOk v = true → cls ≠ [] → (∀ cl ∈ cls, (s.cluster cl).fen = false ∧ (s.cluster cl).armed = none) →
      ∃ t, exec (.coff g d a) s = .next t ∧ ∀ cl ∈ cls, (t.cluster cl).fen = true ∧
        ∀ x, poolOf cl ≤ x → x < poolOf cl + 8388608 → t.byte x = 0) ∧
    (rectSys v = true ∨ rectBad v = true ∨ rectWhole v = false → Traps (.coffDef g d a) s 0x1A v) ∧
    (rectSys v = false → rectBad v = false → rectWhole v = true →
      ((∃ cl ∈ s.endpointsIn v, (s.cluster cl).fen = true) → Completes (.coffDef g d a) s (s.out [a] d 0x24)) ∧
      ((∀ cl ∈ s.endpointsIn v, (s.cluster cl).fen = false) →
        CompletesAs (.coffDef g d a) s ((s.endpointsIn v).foldl (fun s cl => s.modCluster cl (fun c => { c with cdam := some v })) s)
          (s.out [a] d 0))) ∧
    let up := cls.filter (fun cl => (s.cluster cl).fen)
    (rectOk v = true → up = [] → Completes (.coffLift g d a) s (s.out [a] d 0x01)) ∧
    (rectOk v = true → up ≠ [] → CompletesAs (.coffLift g d a) s (up.foldl (fun s cl => s.modCluster cl (fun c => { c with fen := false })) s)
      (s.out [a] d 0))) ∧
  (∀ (s s1 : State) (g : Guard) (d : Reg) (a b : Src) (k : Nat) (f : Option Nat), (Instr.wipe g d a b).wf = true →
    s.runs g { ext := .sys, priv := true, srcs := [a, b], dests := [d], outside := true } = true →
    let p := s.me.reg a.reg
    let n := (s.me.reg b.reg).toNat
    (p.toNat % 128 ≠ 0 → Traps (.wipe g d a b) s 0x04 p) ∧
    (p.toNat % 128 = 0 → n % 128 ≠ 0 ∨ 1099511627776 < n → Traps (.wipe g d a b) s 0x1A (s.me.reg b.reg)) ∧
    (p.toNat % 128 = 0 → n % 128 = 0 → n ≤ 1099511627776 → s.wipe s.me.ctx p.toNat (n / 128) 0 = (s1, k, f, none) → s1.cur = s.cur →
      ∃ t, exec (.wipe g d a b) s = .next t ∧ (d ≠ .z → (t.thread s.cur).reg d = BitVec.ofNat 64 (256 * k + f.getD 0)) ∧
        t.mem = s1.mem ∧ (t.thread s.cur).pc = s.me.pc + 8) ∧
    (∀ pa leaf, p.toNat % 128 = 0 → n = 128 → s.resolve s.me.ctx p .store true = (s1, .at pa leaf) → leafShadow leaf = false → pa < hostBase →
      s1.fencedFrom s.me.core pa = false → (∀ c, (s1.cluster c).tagWait = []) → s.Cached s1 →
      ∃ t, exec (.wipe g d a b) s = .next t ∧ (d ≠ .z → (t.thread s.cur).reg d = 256) ∧ (t.thread s.cur).pc = s.me.pc + 8 ∧
        ∀ x, (t.byte x = if pa ≤ x ∧ x < pa + 128 then 0 else s.byte x) ∧ (pa ≤ x → x < pa + 128 → t.tagFull x = true)) ∧
    (p.toNat % 128 = 0 → n = 0 → Completes (.wipe g d a b) s (s.out [a, b] d 0)))

/-! ### Translations, pairs and gang switches -/

/-- R264, R265: PLBINV removes the translations of an address, or with `.all` of every one, from the PLBs of the cores of a
rectangle; XLINV removes them from the translation caches of its clusters, port clusters included, discards their candidates, and waits for
each cluster's acknowledgement. Fenced clusters are skipped and reported. -/
def Obligations.TranslationInvalidation : Prop :=
  (∀ (s : State) (g : Guard) (d : Reg) (va : Option Src) (b : Src), (Instr.plbinv g d va b).wf = true →
    s.runs g { ext := .sys, priv := true, srcs := va.toList ++ [b], dests := [d], outside := true } = true →
    let r := s.me.reg b.reg
    let covers := fun (e : PlbEntry) => ∀ x, va = some x → e.va ≤ (s.me.reg x.reg).toNat ∧ (s.me.reg x.reg).toNat < e.va + e.size
    (rectOk r = false → Traps (.plbinv g d va b) s 0x1A r ∧ Traps (.xlinv g d va b) s 0x1A r) ∧
    (rectOk r = true → (∀ cl, (s.cluster cl).fen = false) →
      ∃ u t, exec (.plbinv g d va b) s = .next t ∧ s.Cached u ∧ u.After t (s.out (va.toList ++ [b]) d 0) ∧
        (∀ core, rectHas r core = true → ∀ e, e ∈ (t.core core).plb ↔ e ∈ (s.core core).plb ∧ ¬covers e) ∧
        ∀ core, rectHas r core = false → (t.core core).plb = (s.core core).plb) ∧
    (rectOk r = true → (∀ cl, (s.cluster cl).fen = false) → s.translators r ≠ [] →
      ∃ t x, exec (.xlinv g d va b) s = .next t ∧ s.Asks t (va.toList ++ [b]) d ∧ t.xlinvs = s.xlinvs ++ [x] ∧
        x.left = s.translators r ∧ x.who.tid = s.cur ∧
        ∀ cl ∈ s.translators r, (t.cluster cl).cands = [] ∧
          ∀ e, e ∈ (t.cluster cl).xlCache ↔ e ∈ (s.cluster cl).xlCache ∧ ¬covers e)) ∧
  (∀ (s : State) (x : XlInv) (cl : Nat), s.xlinvs = [x] → x.left = [cl] →
    (∀ p ∈ s.msgs, p.1 < x.id → clusterOf p.2.src = cl → p.2.body.target = none) → s.gatedEarly x.id cl = false →
    exec (.xlinvUnitAck x.id cl) s = .next ({ s.xlinvAt x.va cl with xlinvs := [] }.answer x.who (.value (if x.skipped then 0x0E else 0))))

/-- R428, R431, R434: PAIR couples a core of even X with its neighbour, unless one of them is in use; `pair.off` parts them
again; FPCK reads what has been compared. R430, R431, R433: an exchange of fingerprints that agrees performs the slot's
gated stores and takes a new checkpoint; one that disagrees returns the slot to its checkpoint, and is counted. -/
def Obligations.PairsAndFingerprints : Prop :=
  ((∀ (s : State) (g : Guard) (d : Reg) (a : Src), (Instr.pair g d a).wf = true →
    s.runs g { ext := .sys, priv := true, srcs := [a], dests := [d], outside := true } = true →
    let p := s.me.reg a.reg
    (s.pairOk p = false → Traps (.pair g d a) s 0x1A p ∧ Traps (.pairOff g d a) s 0x1A p) ∧
    (s.pairOk p = true →
      ((s.cluster (clusterOf p.toNat)).fen = true → Completes (.pair g d a) s (s.out [a] d 0x0E)) ∧
      ((s.cluster (clusterOf p.toNat)).fen = false → s.pairBusy p.toNat = true → Completes (.pair g d a) s (s.out [a] d 0x24)) ∧
      ((s.cluster (clusterOf p.toNat)).fen = false → s.pairBusy p.toNat = false →
        ∃ t, exec (.pair g d a) s = .next t ∧ (t.core p.toNat).pair = some (p.toNat + 1, true) ∧
          (t.core (p.toNat + 1)).pair = some (p.toNat, false) ∧ (d ≠ .z → (t.thread s.cur).reg d = 0) ∧
          (t.thread s.cur).pc = s.me.pc + 8 ∧ (t.thread s.cur).retired = s.me.retired + 1) ∧
      ((∀ odd, (s.core p.toNat).pair ≠ some (odd, true)) → Completes (.pairOff g d a) s (s.out [a] d 1)) ∧
      (∀ odd, (s.core p.toNat).pair = some (odd, true) →
        ∃ t, exec (.pairOff g d a) s = .next t ∧ (t.core p.toNat).pair = none) ∧
      (∀ odd, (s.core p.toNat).pair = some (odd, true) → odd ≠ p.toNat →
        (∀ k tid, k < 7 → s.occupant p.toNat k = some tid → s.unagreed (s.thread tid) = false) →
        ∃ t, exec (.pairOff g d a) s = .next t ∧ (t.core p.toNat).pair = none ∧ (t.core odd).pair = none ∧
          (d ≠ .z → (t.thread s.cur).reg d = 0) ∧ (t.thread s.cur).pc = s.me.pc + 8))) ∧
  (∀ (s : State) (g : Guard) (d : Reg), (Instr.fpck g d).wf = true →
    s.runs g { ext := .sys, priv := true, dests := [d], outside := true } = true →
    (s.paired s.me = false → Completes (.fpck g d) s (s.out [] d 0)) ∧
    (s.paired s.me = true → ∃ n, n = ((s.core s.me.core).disagreements.filter (fun x => decide (s.timeNs < x + 3600000000000))).length ∧
      Completes (.fpck g d) s (s.out [] d (BitVec.ofNat 64 (2 ^ 63 + min 255 n * 2 ^ 48 + s.me.retired.toNat % 2 ^ 48)))))) ∧
  (∀ (s : State) (core odd slot tid : Nat), s.occupant core slot = some tid → s.paired (s.thread tid) = true →
    (s.core core).pair = some (odd, true) → (s.thread tid).place = .slot core slot → (s.thread tid).wait = some .exchange →
    ((s.thread tid).gated = [] →
      ∃ t, exec (.fingerprintExchange core slot true) s = .next t ∧
        t.thread tid = { s.thread tid with finger := 0, agreed := (s.thread tid).retired, wait := none, since := none } ∧
        (∀ k, k ≠ tid → t.thread k = s.thread k) ∧ t.mem = s.mem ∧
        (KMap.find (t.core core).ckpts slot).isSome = true) ∧
    (∀ g, (s.thread tid).gated = [g] → g.frame = false → g.shadow = false → homeLocal core (homeOf g.pa) = true →
      ∃ t, exec (.fingerprintExchange core slot true) s = .next t ∧ (t.thread tid).gated = [] ∧ (t.thread tid).wait = none ∧
        (t.thread tid).agreed = (s.thread tid).retired ∧ ∀ x, t.byte x = s.byteAfter g.pa g.n g.v x) ∧
    (∀ k, ((s.core core).disagreements.filter (fun x => decide (s.timeNs < x + 3600000000000))).length < 2 →
      KMap.find (s.core core).ckpts slot = some k →
      ∃ t, exec (.fingerprintExchange core slot false) s = .next t ∧ (t.thread tid).g = k.g ∧ (t.thread tid).v = k.v ∧
        (t.thread tid).m = k.m ∧ (t.thread tid).pw = k.pw ∧ (t.thread tid).pc = k.pc ∧ (t.thread tid).retired = k.retired ∧
        (t.thread tid).gated = [] ∧ (t.thread tid).finger = 0 ∧ (t.thread tid).wait = none ∧ t.mem = s.mem ∧
        (∀ j, j ≠ tid → t.thread j = s.thread j) ∧ s.timeNs ∈ (t.core core).disagreements))

/-- R420 to R423, R425, R427: GANG checks its block and arms every cluster of its rectangle. An armed cluster whose time has come
stops: its contexts are saved and leave their slots, and its memory goes to the save area. A flit for what has been saved falls
out. A saved partition is restored cluster by cluster, and START ends the switch and disarms its clusters. -/
def Obligations.GangSwitch : Prop :=
  (∀ (s s1 s2 : State) (g : Guard) (d : Reg) (a : Src) (v pa : Nat) (leaf : Option Word), (Instr.gang g d a).wf = true →
    s.runs g { ext := .sys, priv := true, srcs := [a], dests := [d], outside := true } = true →
    let b := s.me.reg a.reg
    let w := wordAt v
    let cls := s.clustersIn (w 1)
    (b.toNat % 64 ≠ 0 → Traps (.gang g d a) s 0x04 b) ∧
    (b.toNat % 64 = 0 → s.me.gated = [] → s.me.stored = true → s.readRange s.me.ctx b.toNat 64 = .ok s1 v → s.Cached s1 →
      (gangBlockOk w = false → Traps (.gang g d a) s 0x1A b) ∧
      (∀ f va, gangBlockOk w = true → bit (w 0) 0 = false → s1.areaFault s.me.engine (gangGranules (w 3).toNat (w 1)) = some (f, va) →
        Traps (.gang g d a) s f va) ∧
      (∀ u h, gangBlockOk w = true → bit (w 0) 0 = true → s1.readRange s.me.ctx (w 4).toNat 16 = .ok u h → s.Cached u →
        (wordAt h 0 ≠ 0xC000000000000001 ∨ wordAt h 1 ≠ w 1 → Traps (.gang g d a) s 0x1A b) ∧
        (wordAt h 0 = 0xC000000000000001 → wordAt h 1 = w 1 → u.areaFault s.me.engine (gangGranules (w 3).toNat (w 1)) = none →
          (∀ cl ∈ cls, (s.cluster cl).fen = false ∧ (s.cluster cl).armed = none) → u.resolve s.me.engine (w 3) .store = (s2, .at pa leaf) →
          s.Cached s2 →
          ∃ t x, exec (.gang g d a) s = .next t ∧ t.gangs = s.gangs ++ [x] ∧ x.rect = w 1 ∧ x.time = (w 2).toNat ∧ x.header = pa ∧
            x.insa = some (w 4).toNat ∧ x.done = false ∧ x.stopped = [] ∧ (∀ cl ∈ cls, (t.cluster cl).armed = some x.id) ∧
            (d ≠ .z → (t.thread s.cur).reg d = 0) ∧ (t.thread s.cur).pc = s.me.pc + 8)) ∧
      (gangBlockOk w = true → bit (w 0) 0 = false → s1.areaFault s.me.engine (gangGranules (w 3).toNat (w 1)) = none →
        ((∃ cl ∈ cls, (s.cluster cl).fen = true) → CompletesAs (.gang g d a) s s1 (s.out [a] d 0x0E)) ∧
        ((∀ cl ∈ cls, (s.cluster cl).fen = false) → (∃ cl ∈ cls, (s.cluster cl).armed ≠ none) →
          CompletesAs (.gang g d a) s s1 (s.out [a] d 0x24)) ∧
        ((∀ cl ∈ cls, (s.cluster cl).fen = false ∧ (s.cluster cl).armed = none) → s1.resolve s.me.engine (w 3) .store = (s2, .at pa leaf) →
          s.Cached s2 →
          ∃ t x, exec (.gang g d a) s = .next t ∧ t.gangs = s.gangs ++ [x] ∧ x.rect = w 1 ∧ x.time = (w 2).toNat ∧ x.header = pa ∧
            x.insa = none ∧ x.done = false ∧ x.stopped = [] ∧ (∀ cl ∈ cls, (t.cluster cl).armed = some x.id) ∧
            (d ≠ .z → (t.thread s.cur).reg d = 0) ∧ (t.thread s.cur).pc = s.me.pc + 8)))) ∧
  (∀ (s : State) (x : Gang) (cl : Nat) (imgs : List (Nat × Nat × Option (BitVec 12))), s.gangs = [x] → cl ∈ x.clusters →
    cl ∉ x.stopped → (s.cluster cl).armed = some x.id → x.time ≤ (s.timeAt (cl / 64)).toNat →
    (∀ tid ∈ s.slotThreads [cl], s.savable cl tid = true) →
    s.imagePages x.ctx .store (s.gangImages x.outsa x.rect cl) = .ok imgs →
    ∃ t y, exec (.gangStop x.id cl) s = .next t ∧ t.gangs = [y] ∧ y.stopped = x.stopped ++ [cl] ∧
      ∀ tid ∈ s.slotThreads [cl], ∃ c k, (t.thread tid).place = .saved c k) ∧
  (∀ (s : State) (msg p : Nat) (m : Msg), KMap.find s.msgs msg = some m → m.loc = .ejected p → m.nack = false →
    (s.cluster (clusterOf m.ldest)).fen = false → s.fallsOut m = true → s.refusesFlit msg m = false →
    ∃ t, exec (.gangFallOut msg) s = .next t ∧ KMap.find t.msgs msg = some { m with loc := .fallen (clusterOf m.ldest) } ∧
      t.threads = s.threads ∧ t.mem = s.mem) ∧
  (∀ (s : State) (x : Gang) (cl area : Nat), s.gangs = [x] → x.insa = some area → x.done = false → cl ∈ x.stopped → cl ∉ x.restored →
    isCompute cl = false →
    ∃ t y, exec (.gangRestore x.id cl) s = .next t ∧ t.gangs = [y] ∧ y.restored = x.restored ++ [cl] ∧ (t.cluster cl).cands = [] ∧
      t.mem = s.mem) ∧
  (∀ (s : State) (x : Gang), s.gangs = [x] → x.insa = none → x.done = false → (∀ cl ∈ x.clusters, cl ∈ x.stopped) →
    (∃ u, (((s.perform (x.header + 8) 8 x.rect.toNat true).perform (x.header + 16) 8 x.time true).perform x.header 8
      0xC000000000000001 true).gangWrite x x.status x.statusWord = .ok u ∧ u.gangs = [x]) →
    ∃ t y, exec (.gangStart x.id) s = .next t ∧ t.gangs = [y] ∧ y.done = true ∧ ∀ cl ∈ x.clusters, (t.cluster cl).armed = none)

/-! ### Launch events -/

/-- R97, R98, R100, R101, R106, R156, R157, R159, R160: the launch unit answers a request with queue and code, sets one whose
queue is full aside, and drops a stale one; a packet that fails its checks gets code 1. A reserved request is placed later.
A QCTL request reads or writes a queue register or resets TORN. The eligible head packet whose turn it is starts; a
multi-package packet is released to the head of its queue when QGEN reaches its GEN. R103, R104, R107, R108, R447, R449: the
last arrival sets the start time 1,000 ns ahead; START reaches a package in time or late; at the start time it releases its
threads. A cancelled start ends with STARTFAIL. A launch that is over, with its writes performed, retires; a struck one
tears its queues down, or is replayed. -/
def Obligations.LaunchUnitAndLaunchLife : Prop :=
  ((∀ (s s1 : State) (pkg : Nat) (r : LaunchReq) (who : Asker), (s.pkg pkg).reqs = [r] → r.who = some who →
    (s.isLive (clusterOf (posAt (die0 pkg) 33 0)) who.domid who.cin = false →
      exec (.launchPacketAccept pkg r.id) s = .next (s.modPkg pkg (fun p => { p with reqs := [] }))) ∧
    (s.isLive (clusterOf (posAt (die0 pkg) 33 0)) who.domid who.cin = true →
      (s.cluster (clusterOf (posAt (die0 pkg) 33 0))).fen = false → (∀ c, r.till = some c → c ≤ s.cycle) →
      (∀ q code, s.takeRequest pkg r = .over s1 q code → (s1.pkg pkg).reqs = [r] →
        exec (.launchPacketAccept pkg r.id) s =
          .next ((s1.modPkg pkg (fun p => { p with reqs := [] })).answer who (.value (BitVec.ofNat 64 (256 * q + code))))) ∧
      (∀ goal, s.takeRequest pkg r = .full goal →
        ((s.pkg pkg).resv.length < 64 →
          exec (.launchPacketAccept pkg r.id) s = .next ((s.modPkg pkg (fun p => { p with reqs := [] })).modPkg pkg
            (fun p => { p with resv := p.resv ++ [{ r with till := none, goal := some goal }] }))) ∧
        (64 ≤ (s.pkg pkg).resv.length → r.till ≠ none ∨ s.parkFull (clusterOf who.core) = false →
          exec (.launchPacketAccept pkg r.id) s = .next (s.modPkg pkg (fun p =>
            { p with reqs := [{ r with bounces := r.bounces + 1, till := some (s.cycle + backOff (r.bounces + 1)) }] }))))) ∧
    (∀ v, s.readRange (unitCtx (posAt (die0 pkg) 33 0) who.domid who.cin who.tag who.sup) r.packet.toNat 128 = .ok s1 v →
      bit (wordAt v 8) 52 = false →
      (wordAt v 0).toNat % 8 ≠ 0 ∨ (wordAt v 2).toNat % 128 ≠ 0 ∨ (wordAt v 8).extractLsb' 53 11 ≠ 0 ∨ wordAt v 9 = 0 ∨
        (wordAt v 10).extractLsb' 38 26 ≠ 0 ∨ (wordAt v 11).extractLsb' 26 38 ≠ 0 ∨ (wordAt v 14).extractLsb' 3 61 ≠ 0 ∨
        (wordAt v 14).extractLsb' 0 3 = 0 ∨ wordAt v 15 ≠ 0 →
      ∃ s2 q, s.takeRequest pkg r = .over s2 q 1)) ∧
  (∀ (s s1 : State) (pkg q code : Nat) (r : LaunchReq) (who : Asker), (s.pkg pkg).resv = [r] → r.who = some who →
    s.takeRequest pkg r = .over s1 q code → (s1.pkg pkg).resv = [r] →
    exec (.launchReservationPlace pkg) s =
      .next ((s1.modPkg pkg (fun p => { p with resv := [] })).answer who (.value (BitVec.ofNat 64 (256 * q + code))))) ∧
  (∀ (s : State) (pkg : Nat) (r : QctlReq) (l : List QctlReq), (s.pkg pkg).qctl = r :: l →
    s.isLive (clusterOf (posAt (die0 pkg) 33 0)) r.who.domid r.who.cin = true →
    (s.cluster (clusterOf (posAt (die0 pkg) 33 0))).fen = false →
    let s0 := s.modPkg pkg (fun p => { p with qctl := l })
    let q := (r.sel.extractLsb' 0 6).toNat
    let x := s.lqueue pkg q
    let k := (r.sel.extractLsb' 6 2).toNat
    let old := if k = 0 then x.qcfg else if k = 1 then x.qtvec else if k = 2 then x.qwlim else x.qstat
    (r.form = 0 → exec (.qctlWriteApply pkg) s = .next (s0.answer r.who (.value
      (if x.qcfg.extractLsb' 32 12 = r.who.domid ∨ r.who.sup = true then old else 0)))) ∧
    (r.form = 1 → k = 1 → exec (.qctlWriteApply pkg) s =
      .next ((s0.modLQueue pkg q (fun x => { x with qtvec := r.val })).answer r.who (.value old))) ∧
    (r.form = 1 → k = 2 → exec (.qctlWriteApply pkg) s =
      .next ((s0.modLQueue pkg q (fun x => { x with qwlim := r.val })).answer r.who (.value old))) ∧
    (r.form = 1 → k = 0 → ∃ u : State, (∀ m, bit (u.lqueue pkg q).qcfg m = if m = 62 then bit x.qcfg 62 else if 44 ≤ m ∧ m ≤ 58 then false else bit r.val m) ∧
      exec (.qctlWriteApply pkg) s = .next (u.answer r.who (.value x.qcfg))) ∧
    (r.form = 2 → exec (.qctlWriteApply pkg) s = .next ((s0.modLQueue pkg q (fun x =>
      { x with qcfg := x.qcfg &&& ~~~0x4000000000000000#64, qstat := 0 })).answer r.who (.value x.qcfg)))) ∧
  (∀ (s : State) (pkg q id : Nat) (x : Launch), s.nextQueue pkg = some q → s.eligible pkg q = some (id, x) →
    let n := (planFor (s.threadPlan x) pkg).length
    (x.multi = true → s.threadPlan x ≠ [] → ∃ t y, exec (.launchStart pkg q) s = .next t ∧ t.launch id = some y ∧ y.state = .built ∧
      y.builtOn = x.builtOn ++ [pkg] ∧ y.threads = x.threads + n ∧ (t.pkg pkg).rr = (s.pkg pkg).rr.set (s.lqueue pkg q).qpri q) ∧
    (x.multi = true → s.threadPlan x = [] → ∃ t y, exec (.launchStart pkg q) s = .next t ∧ t.launch id = some y ∧ y.state = .running ∧
      y.released = x.released ++ [pkg] ∧ y.threads = x.threads) ∧
    (x.multi = false → ∃ t y, exec (.launchStart pkg q) s = .next t ∧ t.launch id = some y ∧ y.state = .running ∧
      y.released = [pkg] ∧ y.threads = x.threads + n ∧ id ∉ (t.lqueue pkg q).ready ∧
      (t.pkg pkg).rr = (s.pkg pkg).rr.set (s.lqueue pkg q).qpri q)) ∧
  (∀ (s : State) (pkg q id : Nat) (x : Launch), s.copyDue pkg q = some id → s.launch id = some x → pkQueue x.words = q →
    s.queueRefuses pkg x.words x.domid true (x.host && decide (pkg = x.pkg)) = none →
    ∃ t y, exec (.multiPackageHoldRelease pkg q) s = .next t ∧ t.launch id = some y ∧ t.mem = s.mem ∧
      ((s.lqueue pkg q).held.length < 8 → (t.lqueue pkg q).held = (s.lqueue pkg q).held ++ [id] ∧ ∀ r ∈ y.resend, r.1 ≠ pkg) ∧
      (8 ≤ (s.lqueue pkg q).held.length → (t.lqueue pkg q).held = (s.lqueue pkg q).held ∧ ∃ r ∈ y.resend, r.1 = pkg ∧ s.cycle < r.2.2)) ∧
  (∀ (s : State) (pkg q id : Nat) (x : Launch), s.copyDue pkg q = none → (s.lqueue pkg q).held = [id] → s.launch id = some x →
    pkGen x.words = (s.lqueue pkg q).qcfg.extractLsb' 0 32 → x.cancelled = false →
    ∃ t, exec (.multiPackageHoldRelease pkg q) s = .next t ∧ (t.lqueue pkg q).ready = id :: (s.lqueue pkg q).ready ∧
      (t.lqueue pkg q).held = [] ∧ t.mem = s.mem)) ∧
  ((∀ (s : State) (id pkg : Nat) (x : Launch), s.launch id = some x →
    (x.state = .built → x.cancelled = false → x.ts = none → pkg ∈ x.builtOn → pkg ∉ x.arrived →
      (∀ p ∈ x.placed, p = pkg ∨ p ∈ x.arrived) →
      ∃ t y, exec (.launchArrival id pkg) s = .next t ∧ t.launch id = some y ∧ y.arrived = x.arrived ++ [pkg] ∧
        y.ts = some ((s.timeAt (die0 x.pkg)).toNat + 1000) ∧ t.mem = s.mem ∧ t.threads = s.threads) ∧
    (∀ ts, x.ts = some ts → pkg ∉ x.told → pkg ∈ x.placed →
      (ts < (s.timeAt (die0 pkg)).toNat → ∃ t y, exec (.launchStartMessage id pkg) s = .next t ∧ t.launch id = some y ∧
        y.late = x.late + 1 ∧ y.told = x.told ++ [pkg] ∧ y.state = .running ∧ y.released = x.released ++ [pkg]) ∧
      ((s.timeAt (die0 pkg)).toNat ≤ ts → exec (.launchStartMessage id pkg) s =
        .next (s.modLaunch id (fun x => { x with told := x.told ++ [pkg] })))) ∧
    (∀ ts, x.ts = some ts → pkg ∉ x.released → pkg ∈ x.told → ts ≤ (s.timeAt (die0 pkg)).toNat →
      ∃ t y, exec (.startTimeRelease id pkg) s = .next t ∧ t.launch id = some y ∧ y.state = .running ∧
        y.released = x.released ++ [pkg] ∧ y.start = (if x.start = 0 then ts else x.start) ∧
        (x.replays = 0 → (t.lqueue pkg (pkQueue x.words)).qcfg.extractLsb' 0 32 =
          (s.lqueue pkg (pkQueue x.words)).qcfg.extractLsb' 0 32 + 1)) ∧
    (x.cancelled = true → x.ts = none → x.state ≠ .committing →
      ∃ t y, exec (.startBarrierCancel id) s = .next t ∧ t.launch id = some y ∧ y.state = .committing ∧ y.status = 4 ∧ y.alive = 0) ∧
    (x.state = .committing ∨ (x.state = .running ∧ x.alive = 0 ∧ x.struck = false ∧ ∀ p ∈ x.placed, p ∈ x.released) →
      s.launchBusy id x = false → pkComplete x.words = false →
      ∃ t, exec (.launchRetire id) s = .next t ∧ t.launch id = none ∧ ∀ g ∈ t.shadows, g.launch ≠ id) ∧
    (x.struck = true → pkReplay x.words = true → x.replays < 8 →
      exec (.launchStrike id) s = .next ((s.modLaunch id (fun x => { x with struck := false })).modLaunch id
        (fun x => { x with state := .replaying }))) ∧
    (x.struck = true → pkReplay x.words = false →
      ∃ t, exec (.launchStrike id) s = .next t ∧ ∀ p, p < 64 → bit x.pmask p = true → bit (t.lqueue p (pkQueue x.words)).qcfg 62 = true) ∧
    (∀ s1 v, x.state = .replaying → (∀ p ∈ s.threads, p.2.launch ≠ some id ∨ p.2.place = .ended) → s.launchBusy id x = false →
      s.shadows = [] → x.words.getD 3 0 = 0 → s.readRange x.ctx (x.words.getD 13 0).toNat 4225 = .ok s1 v → s1.launch id = some x →
      ∃ t y, exec (.launchReplay id) s = .next t ∧ t.launch id = some y ∧ y.state = .built ∧ y.replays = min (x.replays + 1) 255 ∧
        y.killed = 0 ∧ y.ts = none)))

/-- R436, R439, R440, R442: KILL issues the next incarnation of a context and starts a marker wave over the endpoints of its
range; `kill.z` carries 0; the g register is empty until the wave has passed. A range with a fenced cluster answers FENCED,
an exhausted incarnation WRAP. RCLF starts a reclaim. Each traps DESCBAD for no context or no rectangle. R436, R439, R440 to
R443, R445, R447: a marker leaves its incarnation in a cluster and ends what the cluster holds of older ones, and the last
one answers. The first wave of an RCLF ends stale work, and a later one completes it when nothing is on its way. An
uncorrectable error fences the cofferdam in which it lies and is reported. -/
def Obligations.KillReclaimAndContainment : Prop :=
  ((∀ (s : State) (g : Guard) (d : Reg) (a b : Src),
    s.runs g { ext := .sys, priv := true, srcs := [a, b], dests := [d], outside := true } = true →
    (s.me.reg a.reg = 0 ∨ 4096 ≤ (s.me.reg a.reg).toNat →
      Traps (.kill g d a b) s 0x1A (s.me.reg a.reg) ∧ Traps (.killZ g d a b) s 0x1A (s.me.reg a.reg) ∧
        Traps (.rclf g d a b) s 0x1A (s.me.reg a.reg)) ∧
    (s.me.reg a.reg ≠ 0 → (s.me.reg a.reg).toNat < 4096 → rectOk (s.me.reg b.reg) = false →
      Traps (.kill g d a b) s 0x1A (s.me.reg b.reg) ∧ Traps (.killZ g d a b) s 0x1A (s.me.reg b.reg) ∧
        Traps (.rclf g d a b) s 0x1A (s.me.reg b.reg))) ∧
  (∀ (s : State) (g : Guard) (d : Reg) (a b : Src), (Instr.kill g d a b).wf = true → s.contained g d a b →
    let dom := (s.me.reg a.reg).setWidth 12
    let r := s.me.reg b.reg
    let n := if s.next dom = 0xFFFF then 1 else s.next dom + 1
    ((∃ cl ∈ s.endpointsIn r, (s.cluster cl).fen = true) →
      Completes (.kill g d a b) s (s.out [a, b] d 0x0E0000) ∧ Completes (.killZ g d a b) s (s.out [a, b] d 0x0E0000)) ∧
    ((∀ cl ∈ s.endpointsIn r, (s.cluster cl).fen = false) →
      (n = s.floor dom → Completes (.kill g d a b) s (s.out [a, b] d (0x250000 ||| (s.next dom).setWidth 64))) ∧
      (s.endpointsIn r ≠ [] → ∀ i c, (i = Instr.kill g d a b ∧ c = n ∧ n ≠ s.floor dom) ∨ (i = Instr.killZ g d a b ∧ c = 0) →
        ∃ t w, exec i s = .next t ∧ s.Asks t [a, b] d ∧ t.kills = s.kills ++ [w] ∧ w.domid = dom ∧ w.cin = c ∧
          w.left = s.endpointsIn r ∧ w.who.tid = s.cur ∧ t.next dom = if c = 0 then s.next dom else n)) ∧
    ∃ t f, exec (.rclf g d a b) s = .next t ∧ s.Asks t [a, b] d ∧ t.fences = s.fences ++ [f] ∧ f.domid = dom ∧ f.range = r ∧
      f.waves = 0 ∧ f.who.tid = s.cur)) ∧
  ((∀ (s : State) (w : KillWave) (cl : Nat), s.kills = [w] →
    (∀ l, w.left = cl :: l → cl ∉ l → l ≠ [] →
      ∃ t w2, exec (.killMarkerPass w.id cl) s = .next t ∧ t.kills = [w2] ∧ w2.left = l ∧ t.liveCin cl w.domid = w.cin) ∧
    (w.left = [cl] → ∃ t, exec (.killMarkerPass w.id cl) s = .next t ∧ t.kills = [] ∧ t.liveCin cl w.domid = w.cin ∧
      ∀ tid x, s.threads = [(tid, x)] → x.heldAt = some cl → x.domid = w.domid → x.cin ≠ w.cin → x.members = [] → tid < 2 ^ 40 →
        w.who.tid ≠ tid → KMap.find t.threads tid = none)) ∧
  (∀ (s : State) (f : Fence), s.fences = [f] →
    (f.waves = 0 → ∃ t f2, exec (.rclfWave f.id) s = .next t ∧ t.fences = [f2] ∧ f2.waves = 1 ∧
      ∀ cl ∈ s.endpointsIn f.range, (s.cluster cl).fen = false → f.domid.toNat ∉ (t.cluster cl).seen) ∧
    (f.waves ≠ 0 → (∀ cl, f.domid.toNat ∉ (s.cluster cl).seen) →
      (s.busyFor f.domid f.range = true → ∃ t f2, exec (.rclfWave f.id) s = .next t ∧ t.fences = [f2] ∧ f2.waves = f.waves + 1) ∧
      (s.msgs = [] → ∃ t, exec (.rclfWave f.id) s = .next t ∧ t.fences = []))) ∧
  (∀ (s : State) (cl : Nat), s.diePresent (cl / 64) = true → cl % 64 < 36 → (s.cluster cl).fen = false →
    ∃ t, exec (.uncorrectableError cl) s = .next t ∧ (∀ c ∈ s.cofferdam (s.cdamOf cl), (t.cluster c).fen = true) ∧
      ∃ m, m ∈ (t.die (cl / 64)).svc ∧ m.kind = 2 ∧ m.w0 = BitVec.ofNat 64 cl))

/-- R82, R83, R140, R142, R144, R145, R436: an image takes a free slot at its destination; a stale one is dropped with its
thread; one whose fields are not those of its header is dropped and counted; a placed context's resting state is read back
from its trap frame, and it has loaded when four cycles have passed; a free slot takes the entry of the run queue that comes
first; the barrel chooses a slot once in a cycle. R147 to R149, R255, R256, R343, R480: a wake ends the wait for an absent
page, with a cause that traps or without; a wait that has passed WAITLIM traps 0x09. The ranking table is rewritten once in
1,000,000 ns; a hot core disables a slot, a cool one gives it back, and the thread of a marked slot goes to the run queue,
or to a cooler cluster. -/
def Obligations.ArrivalIssueWakeAndThermalEvents : Prop :=
  ((∀ (s : State) (msg tid : Nat) (m : Msg) (any : Bool), s.arrived msg = some m → m.body = .image tid any none →
    (s.isLive (clusterOf m.ldest) m.domid m.cin = false → (s.thread tid).members = [] → tid < 2 ^ 40 →
      ∃ t, exec (.imageArrival msg) s = .next t ∧ KMap.find t.msgs msg = none ∧ KMap.find t.threads tid = none ∧ t.mem = s.mem) ∧
    (s.isLive (clusterOf m.ldest) m.domid m.cin = true → (s.thread tid).tag ≠ m.tag → (s.thread tid).members = [] → tid < 2 ^ 40 →
      ∃ t, exec (.imageArrival msg) s = .next t ∧ KMap.find t.msgs msg = none ∧ KMap.find t.threads tid = none ∧ t.mem = s.mem ∧
        ((s.cluster (clusterOf m.ldest)).orphan ≠ BitVec.allOnes 32 →
          (t.cluster (clusterOf m.ldest)).orphan = (s.cluster (clusterOf m.ldest)).orphan + 1)) ∧
    (∀ k, s.isLive (clusterOf m.ldest) m.domid m.cin = true → (s.thread tid).domid = m.domid → (s.thread tid).cin = m.cin →
      (s.thread tid).tag = m.tag → any = false → s.freeSlot m.ldest false = some k →
      s.bestEntry m.ldest k = none → (s.thread tid).wait ≠ some .anch →
      ∃ t, exec (.imageArrival msg) s = .next t ∧ KMap.find t.msgs msg = none ∧
        t.thread tid = { s.thread tid with place := .slot m.ldest k, cycAt := s.now m.ldest } ∧
        (∀ j, j ≠ tid → t.thread j = s.thread j) ∧ t.mem = s.mem ∧ (k, s.now m.ldest + 4) ∈ (t.core m.ldest).loading)) ∧
  (∀ (s : State) (tid : Nat), (s.thread tid).inSlot = true → (s.thread tid).resting = true → (s.thread tid).wait ≠ some .anch →
    s.paired (s.thread tid) = false →
    let a := (s.thread tid).tframe.toNat + 256
    ∃ t, exec (.restingStateReload tid) s = .next t ∧
      t.thread tid = { s.thread tid with
        tcause := s.peekW a, taddr := s.peekW (a + 8), tpc := s.peekW (a + 16), cyc := s.peekW (a + 24)
        retired := s.peekW (a + 32), inh := bit (s.peekW (a + 40)) 0, resting := false } ∧
      (∀ k, k ≠ tid → t.thread k = s.thread k) ∧ t.mem = s.mem) ∧
  (∀ (s : State) (tid p : Nat), (s.thread tid).inSlot = true → ((s.thread tid).slot, p) ∈ (s.core (s.thread tid).core).loading →
    p ≤ s.now (s.thread tid).core → (s.thread tid).resting = true →
    ∃ t, exec (.slotLoadDone tid) s = .next t ∧ (∀ q, ((s.thread tid).slot, q) ∉ (t.core (s.thread tid).core).loading) ∧
      t.threads = s.threads ∧ t.mem = s.mem) ∧
  (∀ (s : State) (core slot tid : Nat) (x : Thread), s.bestEntry core slot = some (tid, x) → s.freeSlot core x.queuedAnchored = some slot →
    (s.thread tid).wait ≠ some .anch →
    ∃ t, exec (.slotFill core slot) s = .next t ∧
      t.thread tid = { s.thread tid with place := .slot core slot, cycAt := s.now core } ∧
      (∀ k, k ≠ tid → t.thread k = s.thread k) ∧ (slot, s.now core + 4) ∈ (t.core core).loading ∧ t.mem = s.mem) ∧
  (∀ (s : State) (core slot tid : Nat), s.issue = none → s.corePresent core = true → s.maySelect core = true →
    s.readySlots core = [(slot, (s.thread tid).prio.toNat)] → s.readySlot core slot = some tid → slot < 8 →
    ∃ t, exec (.barrelSelect core) s = .next t ∧ t.issue = some tid ∧ (t.core core).selAt = some (s.selectCycle core) ∧
      t.threads = s.threads ∧ t.mem = s.mem)) ∧
  ((∀ (s : State) (w0 w1 : Word), w1 = 0 ∨ w1 = 0x05 ∨ w1 = 0x06 ∨ w1 = 0x1B →
    let dom := w0.extractLsb' 52 12
    let cin := w0.extractLsb' 36 16
    let core := (w0.extractLsb' 2 18).toNat
    (∀ tid, w0.extractLsb' 0 2 ≠ 3 → s.pageWaiter (clusterOf core) dom cin (w0.extractLsb' 20 16) = some tid →
      (∀ cl, (s.thread tid).place = .parked cl →
        ∃ t, exec (.wake w0 w1) s = .next t ∧ (t.thread tid).place = .runq cl none false ∧ (t.thread tid).wait = none ∧
          (t.thread tid).wakeCause = w1.setWidth 8 ∧ (∀ k, k ≠ tid → t.thread k = s.thread k) ∧ t.mem = s.mem) ∧
      ((s.thread tid).inSlot = true → exec (.wake w0 w1) s =
        .next (s.setThread tid { s.thread tid with wait := none, since := none, wakeCause := w1.setWidth 8 }))) ∧
    (w0.extractLsb' 0 2 ≠ 3 → s.pageWaiter (clusterOf core) dom cin (w0.extractLsb' 20 16) = none → s.launchWaits core dom cin = false →
      exec (.wake w0 w1) s = .next (s.orphaned (clusterOf core))) ∧
    (w0.extractLsb' 0 2 = 3 → (s.unitWaits core (w0.extractLsb' 20 16).toNat).contains (dom, cin) = false →
      exec (.wake w0 w1) s = .next (s.orphaned (clusterOf core))) ∧
    (∀ u, u ≤ 8 → w0.extractLsb' 0 2 = 3 → (w0.extractLsb' 20 16).toNat = u → (s.unitWaits core u).contains (dom, cin) = true → w1 = 0 →
      exec (.wake w0 w1) s = .next (s.unstall core u))) ∧
  (∀ (s : State) (tid c : Nat) (w : Why), (s.thread tid).wait = some w → (s.thread tid).counted = true → (s.thread tid).wlim ≠ 0 →
    (s.thread tid).since = some c → (s.thread tid).pend = none → (s.thread tid).inSlot = true → s.behindStall (s.thread tid) = false →
    ((s.thread tid).wlim.toNat < s.now (s.thread tid).core - c → exec (.waitlimExpiry tid) s =
      .next (s.takeTrap tid 0x09 (s.thread tid).waitAddr (s.thread tid).pc (s.thread tid).iw)) ∧
    (s.now (s.thread tid).core - c ≤ (s.thread tid).wlim.toNat → exec (.waitlimExpiry tid) s = .next s)) ∧
  (∀ (s : State) (die : Nat) (temps : List Nat), s.diePresent die = true → (s.die die).ranked + 1000000 ≤ s.timeNs →
    ∃ t, exec (.thermalRankRewrite die temps) s = .next t ∧ (t.die die).ranked = s.timeNs ∧ t.mem = s.mem ∧ t.threads = s.threads ∧
      ∀ r, r < 36 → bit (KMap.getD (s.die die).rank r 0) 17 = true → KMap.getD (t.die die).rank r 0 = KMap.getD (s.die die).rank r 0) ∧
  (∀ (s : State) (core k : Nat), isPylon core = false → s.corePresent core = true →
    (s.die (dieOf core)).hot < (s.core core).temp → (s.core core).hotAt = none → (s.core core).marked = none →
    s.stopping (clusterOf core) = false → s.stopped (clusterOf core) = false → s.slotToDisable core = some k →
    ∃ t, exec (.slotDisable core) s = .next t ∧ t.threads = s.threads ∧ t.mem = s.mem ∧ (t.core core).hotAt = some s.timeNs ∧
      (s.occupant core k = none → (t.core core).disabled = k :: (s.core core).disabled) ∧
      (s.occupant core k ≠ none → (t.core core).marked = some k ∧ (t.core core).disabled = (s.core core).disabled)) ∧
  (∀ (s : State) (core k c : Nat) (r : List Nat), (s.core core).coolAt = some c → (s.core core).disabled = k :: r → c + 100000 ≤ s.timeNs →
    exec (.slotReenable core) s = .next (s.modCore core (fun x => { x with disabled := r, coolAt := some s.timeNs }))) ∧
  (∀ (s : State) (tid : Nat), (s.thread tid).inSlot = true → (s.thread tid).anc = false →
    (s.core (s.thread tid).core).marked = some (s.thread tid).slot → (s.readySlot (s.thread tid).core (s.thread tid).slot).isSome = true →
    s.coolCluster (s.thread tid).core = none → (s.thread tid).marks = [] → s.unagreed (s.thread tid) = false →
    (s.thread tid).await = [] → (s.thread tid).asks = [] →
    ∃ t, exec (.thermalDisplacement tid) s = .next t ∧
      (t.thread tid).place = .runq (s.thread tid).cluster none false ∧ (t.thread tid).whyCause = 4 ∧ (t.thread tid).pc = (s.thread tid).pc ∧
      (t.thread tid).g = (s.thread tid).g ∧ (t.core (s.thread tid).core).marked = none ∧
      (s.thread tid).slot ∈ (t.core (s.thread tid).core).disabled))

/-! ### The fabric -/

namespace Sys2Proof.Machine

/-- The position keeps one flit and no other, and has not moved in this cycle. -/
def State.alone (s : State) (p id : Nat) (m : Msg) : Prop := s.msgs = [(id, m)] ∧ (s.router p).ran ≤ s.cycle ∧ m.pairing = none

end Sys2Proof.Machine

/-- R361, R362, R375, R376, R378 to R380, R382, R383, R386 to R388: a router ejects a flit at its destination, drops one of a
reserved kind there, forwards another by the port that it chooses, over the mesh or into a link's interface, from which it
is sent and enters at the far end, and injects one with its physical destination and age 0, unless a neighbour makes it
pause. A push and a pop of one object that meet in a router are answered there; a hold ends after its window; a router that
has waited 128 cycles to inject makes its neighbours pause. R365, R366, R382, R386 to R390: a refused flit returns to its
sender with NACK, and is parked there for a delay that doubles with every bounce; when it is over the flit is injected
again. A packet is accepted in sequence; a bad one is discarded with those behind it and asked for again; after 512 cycles
all are sent again. A failed link returns what it carried, and its other direction fails with it. -/
def Obligations.FabricAndLinks : Prop :=
  ((∀ (s : State) (p id d at_ : Nat) (m : Msg), s.alone p id m → m.loc = .port p d at_ → at_ < s.cycle →
    (m.dest = p → reservedKind m.kind = false → s.physFrom (dieOf p) m.goal = some p →
      ∃ t, exec (.routerCycle p) s = .next t ∧ t.msgs = [(id, { m with loc := .ejected p, out := some s.cycle })] ∧
        (t.router p).ran = s.cycle + 1 ∧ t.threads = s.threads ∧ t.mem = s.mem) ∧
    (m.dest = p → m.kind = 0 ∨ 0x17 < m.kind.toNat → ∃ t, exec (.routerCycle p) s = .next t ∧ t.msgs = [] ∧
      (t.cluster (clusterOf m.ldest)).orphan = (s.orphaned (clusterOf m.ldest) |>.cluster (clusterOf m.ldest)).orphan) ∧
    (∀ e q, m.dest ≠ p → s.choosePort p m [0, 1, 2, 3] = some (e, q) → s.boundary p q = false → s.boundary q p = false →
      let loc : Loc := if crossing p q e then .iface (s.linkOf p q e) p q ((e + 2) % 4) s.cycle else .port q ((e + 2) % 4) s.cycle
      ∃ t, exec (.routerCycle p) s = .next t ∧ t.threads = s.threads ∧ t.mem = s.mem ∧ t.msgs = [(id, { m with loc := loc })])) ∧
  (∀ (s : State) (p id l far dir since lseq : Nat) (m : Msg), s.alone p id m →
    (m.loc = .iface l p far dir since → seqFrom (s.link l).rxSeq (s.link l).txSeq < 64 →
      ∃ t, exec (.routerCycle p) s = .next t ∧ (t.link l).txSeq = ((s.link l).txSeq + 1) % 4096 ∧
        t.msgs = [(id, { m with loc := .link l p far dir (s.link l).txSeq s.cycle (s.link l).width false })]) ∧
    (m.loc = .recv l p dir lseq →
      ∃ t, exec (.routerCycle p) s = .next t ∧ t.msgs = [(id, { m with loc := .port p dir s.cycle })])) ∧
  (∀ (s : State) (p : Nat), s.cycle < (s.router p).ran → exec (.routerCycle p) s = .next s) ∧
  (∀ (s : State) (p id since dest e q : Nat) (m : Msg), s.alone p id m → m.loc = .inject p since → m.nack = false → m.dest = dest →
    s.fencedApart (clusterOf m.src) (clusterOf m.ldest) = false → s.physFrom (dieOf p) m.ldest = some dest →
    s.choosePort p { m with injected := s.cycle, out := none, born := BitVec.ofNat 32 s.timeNs } [0, 1, 2, 3] = some (e, q) →
    s.boundary p q = false → s.boundary q p = false → crossing p q e = false →
    (s.paused p = false → ∃ t, exec (.routerCycle p) s = .next t ∧ (t.router p).starving = none ∧
      t.msgs = [(id, { m with
        injected := s.cycle, out := none, born := BitVec.ofNat 32 s.timeNs, loc := .port q ((e + 2) % 4) s.cycle })]) ∧
    (s.paused p = true → ∃ t, exec (.routerCycle p) s = .next t ∧ t.msgs = s.msgs)) ∧
  (∀ (s : State) (p held id d at_ till pa : Nat) (a b : Msg) (wa wb : Asker) (v : Word), held < s.nextId → id < s.nextId → held ≠ id →
    KMap.find s.msgs held = some a → KMap.find s.msgs id = some b → a.loc = .held p till → b.loc = .port p d at_ →
    a.body = .chan wa (.push v) pa true → b.body = .chan wb .pop pa true → a.nack = false → b.nack = false →
    s.matchFor p b = some (held, v) →
    ∃ t, exec (.pairMatch held id) s = .next t ∧ KMap.find t.msgs held = none ∧ KMap.find t.msgs id = none ∧
      s.Sends t 0x0B wa.core (.resp wa .ok) ∧ s.Sends t 0x0A wb.core (.resp wb (.popr v pa)) ∧ t.mem = s.mem ∧ t.threads = s.threads) ∧
  (∀ (s : State) (id p till : Nat) (m : Msg), KMap.find s.msgs id = some m → m.loc = .held p till →
    (till ≤ s.cycle → exec (.pairHoldExpiry id) s = .next (s.modMsg id (fun m => { m with loc := .port p 4 (till - 1) }))) ∧
    (s.cycle < till → exec (.pairHoldExpiry id) s = .next s)) ∧
  (∀ (s : State) (p id since : Nat) (m : Msg), s.msgs = [(id, m)] → m.loc = .inject p since →
    (since + 128 ≤ s.cycle → (s.router p).starving = none →
      ∃ t, exec (.injectionStarvation p) s = .next t ∧ (t.router p).starving = some s.cycle ∧ t.msgs = s.msgs) ∧
    (s.cycle < since + 128 → exec (.injectionStarvation p) s = .next s))) ∧
  ((∀ (s : State) (id p : Nat) (m : Msg), KMap.find s.msgs id = some m → m.loc = .ejected p →
    (m.nack = false → s.refusesFlit id m = true →
      exec (.flitNack id false) s = .next (s.modMsg id (fun m =>
        { m with nack := true, dest := (s.physOf m.src).getD m.src, loc := .inject p s.cycle }))) ∧
    (m.nack = false → s.fencedApart (clusterOf m.ldest) (clusterOf m.src) = true →
      exec (.flitNack id true) s = .next (s.modMsg id (fun m =>
        { m with nack := true, fnc := true, dest := (s.physOf m.src).getD m.src, loc := .inject p s.cycle }))) ∧
    (m.nack = true → m.fnc = false → s.parkFull (clusterOf m.src) = false → ∀ b,
      exec (.flitNack id b) s = .next (s.modMsg id (fun m => { m with
        nack := false, fnc := false, bounces := m.bounces + 1
        loc := .parked (clusterOf m.src) (s.cycle + min 65536 (256 * 2 ^ (m.bounces + 1))) }))) ∧
    (∀ who q b, m.nack = true → m.fnc = false → s.parkFull (clusterOf m.src) = true → m.body.asker = some who →
      (s.thread who.tid).pend = some q → s.asks who = true → q.tok = who.tok →
      exec (.flitNack id b) s =
        .next ((s.dropMsg id).takeTrap who.tid 0x0F (q.ovfAddr m) (s.thread who.tid).pc (s.thread who.tid).iw))) ∧
  (∀ (s : State) (id cl till : Nat) (m : Msg), KMap.find s.msgs id = some m → m.loc = .parked cl till →
    (till ≤ s.cycle → exec (.parkedFlitResend id) s =
      .next (s.modMsg id (fun m => { m with loc := .inject ((s.physOf m.src).getD m.src) s.cycle }))) ∧
    (s.cycle < till → exec (.parkedFlitResend id) s = .next s)) ∧
  (∀ (s : State) (l id near far dir sent : Nat) (wid : BitVec 2) (m : Msg), s.msgs = [(id, m)] →
    m.loc = .link l near far dir (s.link l).rxSeq sent wid false → sent < s.cycle →
    (∃ t, exec (.linkPacketReceive l true) s = .next t ∧ t.msgs = [(id, { m with loc := .recv l far dir (s.link l).rxSeq })] ∧
      (t.link l).rxSeq = ((s.link l).rxSeq + 1) % 4096) ∧
    (∃ t, exec (.linkPacketReceive l false) s = .next t ∧ (t.link l).nak = true ∧ (t.link l).rxSeq = (s.link l).rxSeq ∧
      t.msgs = [(id, { m with loc := .link l near far dir (s.link l).rxSeq sent wid true })])) ∧
  (∀ (s : State) (l id near far dir sent : Nat) (wid : BitVec 2) (m : Msg) (lost : Bool), s.msgs = [(id, m)] →
    m.loc = .link l near far dir (s.link l).rxSeq sent wid lost →
    let again := [(id, { m with loc := .link l near far dir (s.link l).rxSeq s.cycle (s.link l).width false })]
    (sent + 512 ≤ s.cycle → exec (.linkReplayTimeout l) s = .next { s with msgs := again }) ∧
    (s.cycle < sent + 512 → exec (.linkReplayTimeout l) s = .next s) ∧
    ((s.link l).nak = true → ∃ t, exec (.linkNegativeAck l) s = .next t ∧ t.msgs = again ∧ (t.link l).nak = false) ∧
    (∃ t, exec (.linkFail l) s = .next t ∧ (t.link l).failed = true ∧ (∀ r, s.reverseLink l = some r → (t.link r).failed = true) ∧
      t.msgs = [(id, { m with
        nack := true, dest := (s.physOf m.src).getD m.src, loc := .port near ((dir + 2) % 4) 0 })])) ∧
  (∀ (s : State) (l : Nat) (w : BitVec 2), (s.link l).failed = false → w ≠ 3 →
    ∃ t, exec (.linkWidthChange l w) s = .next t ∧ (t.link l).width = w ∧
      (w.toNat ≤ (s.link l).width.toNat ∨ s.sending l = none → t.msgs = s.msgs)))

/-! ### The host, the service pairs, and resets -/

namespace Sys2Proof.Machine

/-- The device takes the entry of a type whose word 0 is `w`, and its answer finds room in the ring of device messages. -/
def State.entry (s : State) (pkg ty : Nat) (w : Word) : Prop :=
  s.untaken pkg = true ∧ s.entryWord pkg 0 = w ∧ w.toNat / 2 ^ 56 = ty ∧ (s.pkg pkg).d2hFull = false ∧ (s.pkg pkg).d2hHeldBack = []

/-- The entry has been taken and answered (R458): its SEQ and ARG stand in the next entry of the device's ring. -/
def State.Replies (s t : State) (pkg ty : Nat) (w : Word) (arg : Nat) : Prop :=
  (t.pkg pkg).h2dHead = (s.pkg pkg).h2dHead + 1 ∧ (t.pkg pkg).d2hTail = (s.pkg pkg).d2hTail + 1 ∧
    (t.pkg pkg).msix = (s.pkg pkg).msix + 1 ∧
    t.hostWord ((s.pkg pkg).d2hBase.toNat + 64 * (s.pkg pkg).d2hTail.toNat) =
      BitVec.ofNat 64 (ty * 2 ^ 56 + w.toNat / 2 ^ 32 % 2 ^ 16 * 2 ^ 32 + arg)

end Sys2Proof.Machine

namespace Sys2Proof.Machine

/-- A host access at an offset of BAR2 is served at a page with S = 0 whose home is not fenced: the state after the checks and the physical
address. -/
def State.opens (s : State) (pkg off n : Nat) (k : Acc) (s1 : State) (pa : Nat) : Prop :=
  s.pkgPresent pkg = true ∧ (s.pkg pkg).portBusy = false ∧ ∃ c va leaf, s.aperAddr pkg off = some (c, va) ∧ va.toNat % n = 0 ∧
    s.resolve c va k = (s1, .at pa leaf) ∧ leafShadow leaf = false ∧ s1.fencedFrom c.core pa = false

/-- The answers of a package with one more. -/
def State.answered (s t : State) (pkg kind : Nat) (v : Word) : Prop := (t.pkg pkg).answers = (kind, v) :: (s.pkg pkg).answers

end Sys2Proof.Machine

/-- R457 to R459, R471, R472, R474, R479: a doorbell and a register write set what they name. Each entry is taken in its turn
and answered with its SEQ: a launch with the code of the launch unit, a capability with its status, an agent's registration,
an unknown type with 0xFF, a life-cycle request with 1 when it is refused; an accepted one waits until no launch runs. R329,
R460: a host access through an open window reads or writes the bytes at its home, with no tag changed; an AtomicOp answers
the old value and stores the new one. A closed window answers Unsupported Request, a failed check Completer Abort, and an
absent page holds the access back, a read for 4,000,000 ns at most. -/
def Obligations.MailboxAndHostAperture : Prop :=
  ((∀ (s : State) (pkg : Nat), s.pkgPresent pkg = true →
    (∀ tail, exec (.h2dDoorbell pkg tail) s = .next (s.modPkg pkg (fun p => { p with h2dTail := tail, h2dSeen := tail }))) ∧
    (∀ v, exec (.registerWrite pkg 0x010 v) s = .next (s.modPkg pkg (fun p => { p with h2dBase := v &&& ~~~0x3FFF })) ∧
      exec (.registerWrite pkg 0x028 v) s = .next (s.modPkg pkg (fun p => { p with d2hBase := v &&& ~~~0x3FFF })) ∧
      (∀ n, n < 16 → exec (.registerWrite pkg (0x100 + 8 * n) v) s = .next (s.modPkg pkg (fun p => { p with aper := KMap.set p.aper n v }))) ∧
      exec (.registerWrite pkg 0x030 v) s = .next s) ∧
    exec (.functionLevelReset pkg) s = .next (s.modPkg pkg (fun p => { p with
      h2dBase := 0, h2dTail := 0, h2dHead := 0, h2dSeen := 0, d2hBase := 0, d2hTail := 0, d2hHead := 0 })) ∧
    (∀ code, ∃ t x, exec (.spdmRequest pkg code) s = .next t ∧ (t.pkg pkg).spdm = (s.pkg pkg).spdm ++ [x] ∧ (code = 0x84 → x = 0x04) ∧
      (code = 0xE1 → x = 0x61) ∧ ((s.pkg pkg).lcs = 3 → code = 0x83 → x = 0x03))) ∧
  (∀ (s : State) (pkg : Nat) (w : Word),
    (∀ s1 q code, s.entry pkg 1 w →
      s.bumpId.takeRequest pkg ⟨s.nextId, s.entryWord pkg 1, none, entrySeq w, die0 pkg * 64, 0, none, none⟩ = .over s1 q code →
      exec (.mbLaunch pkg) s = .next ((s1.taken pkg).toHost pkg [ringWord 0x81 (entrySeq w).toNat code])) ∧
    (∀ goal, s.entry pkg 1 w →
      let r : LaunchReq := ⟨s.nextId, s.entryWord pkg 1, none, entrySeq w, die0 pkg * 64, 0, none, none⟩
      s.bumpId.takeRequest pkg r = .full goal → (s.pkg pkg).resv.length < 64 →
      exec (.mbLaunch pkg) s =
        .next ((s.bumpId.taken pkg).modPkg pkg (fun p => { p with resv := p.resv ++ [{ r with goal := some goal }] }))) ∧
    (s.entry pkg 2 w → ∃ t, exec (.capload pkg) s = .next t ∧ s.Replies t pkg 0x82 w (s.capStatus pkg (s.entryWord pkg 1).toNat) ∧
      (s.capStatus pkg (s.entryWord pkg 1).toNat ≠ 0 → (t.pkg pkg).extents = (s.pkg pkg).extents) ∧
      (s.capStatus pkg (s.entryWord pkg 1).toNat = 0 → KMap.find (t.pkg pkg).extents (w.toNat % 256) =
        some (capOf (fun i => s.hostWord ((s.entryWord pkg 1).toNat + 8 * i))))) ∧
    (s.entry pkg 3 w → ∃ t, exec (.capdrop pkg) s = .next t ∧ s.Replies t pkg 0x83 w 0 ∧
      KMap.find (t.pkg pkg).extents (w.toNat % 256) = none) ∧
    (s.entry pkg 4 w → (w.toNat % 2 ^ 32 = 1 ∨ (w.toNat % 2 ^ 32 = 0 ∧ (s.pkg pkg).agentReqs = [])) →
      ∃ t, exec (.agentreg pkg) s = .next t ∧ s.Replies t pkg 0x84 w 0 ∧ (t.pkg pkg).agent = decide (w.toNat % 2 ^ 32 = 1)) ∧
    (s.entry pkg 6 w → (s.pkg pkg).agentReqs = [] → exec (.agentrsp pkg) s = .next (s.taken pkg)) ∧
    (∀ ty, s.entry pkg ty w → ty ∉ [1, 2, 3, 4, 6, 7] → ∃ t, exec (.unknownEntry pkg) s = .next t ∧ s.Replies t pkg 0xFF w ty) ∧
    (s.entry pkg 7 w →
      (s.lcOk pkg w = false → ∃ t, exec (.lcreq pkg) s = .next t ∧ s.Replies t pkg 0x87 w 1 ∧ (t.pkg pkg).lcs = (s.pkg pkg).lcs) ∧
      (s.lcOk pkg w = true → s.launchesOn pkg = true → exec (.lcreq pkg) s = .next s) ∧
      (s.lcOk pkg w = true → s.launchesOn pkg = false → ∃ t, exec (.lcreq pkg) s = .next t ∧
        (t.pkg pkg).lcs = BitVec.ofNat 8 (w.toNat % 2 ^ 32) ∧ (t.pkg pkg).nonce = some (s.entryWord pkg 3)))) ∧
  (∀ (s : State) (pkg id t0 : Nat) (w : Word) (r : AtomReq), s.entry pkg 6 w → (s.pkg pkg).agentReqs = [(id, r, t0)] →
    id % 65536 = w.toNat / 2 ^ 32 % 2 ^ 16 → w.toNat % 2 ^ 32 = 0 →
    exec (.agentrsp pkg) s = .next (((s.taken pkg).modPkg pkg (fun p => { p with agentReqs := [] })).reply r.who (homePos pkg .host) 0x03
      (.value (extend (s.entryWord pkg 1) r.n false))))) ∧
  ((∀ (s s1 : State) (pkg off pa : Nat) (z : Size), s.opens pkg off (Size.bytes z) .load s1 pa → s1.poisoned pa (Size.bytes z) = false →
    s.Cached s1 →
    ∃ t v, exec (.hostApertureRead pkg off z) s = .next t ∧ Holds s pa (Size.bytes z) false v ∧ s.answered t pkg 0 v ∧
      ∀ a, t.byte a = s.byte a) ∧
  (∀ (s s1 : State) (pkg off pa : Nat) (z : Size) (v : Word), s.opens pkg off (Size.bytes z) .store s1 pa → s.Cached s1 →
    ∃ t, exec (.hostApertureWrite pkg off z v) s = .next t ∧ (t.pkg pkg).answers = (s.pkg pkg).answers ∧
      (∀ a, t.byte a = s.byteAfter pa (Size.bytes z) v a) ∧ ∀ a, t.tagFull a = s.tagFull a) ∧
  (∀ (s s1 s2 : State) (pkg off pa : Nat) (wide : Bool) (v c : Word), let n := if wide then 8 else 4
    s.opens pkg off n .load s1 pa → s.opens pkg off n .store s2 pa → s1.poisoned pa n = false → s.Cached s1 → s.Cached s2 → pa < hostBase →
    ∃ old, Holds s pa n false old ∧
      (∃ t, exec (.hostApertureAtomic pkg off .fetchAdd wide v c) s = .next t ∧ s.answered t pkg 0 old ∧
        ∀ a, t.byte a = s.byteAfter pa n (old + v) a) ∧
      (∃ t, exec (.hostApertureAtomic pkg off .swap wide v c) s = .next t ∧ s.answered t pkg 0 old ∧
        ∀ a, t.byte a = s.byteAfter pa n v a) ∧
      (∃ t, exec (.hostApertureAtomic pkg off .cas wide v c) s = .next t ∧ s.answered t pkg 0 old ∧
        ∀ a, t.byte a = if uval (8 * n) old = uval (8 * n) c then s.byteAfter pa n v a else s.byte a)) ∧
  (∀ (s : State) (pkg off : Nat) (z : Size) (v : Word), s.pkgPresent pkg = true →
    (s.aperAddr pkg off = none →
      (∃ t, exec (.hostApertureRead pkg off z) s = .next t ∧ s.answered t pkg 2 0) ∧
      (∃ t, exec (.hostApertureWrite pkg off z v) s = .next t ∧ s.answered t pkg 2 0 ∧ t.mem = s.mem)) ∧
    (∀ c va f, s.aperAddr pkg off = some (c, va) → (s.pkg pkg).portBusy = false → va.toNat % Size.bytes z = 0 →
      (s.resolve c va .load).2 = .fail f → s.Cached (s.resolve c va .load).1 →
      ∃ t, exec (.hostApertureRead pkg off z) s = .next t ∧ s.answered t pkg 1 0) ∧
    (∀ c va, s.aperAddr pkg off = some (c, va) → (s.pkg pkg).portBusy = false → va.toNat % Size.bytes z = 0 →
      (s.resolve c va .load).2 = .absent →
      ∃ t x, exec (.hostApertureRead pkg off z) s = .next t ∧ (t.pkg pkg).stalled = (s.pkg pkg).stalled ++ [x] ∧
        x.2 = (off, Size.bytes z, none, s.timeNs))) ∧
  (∀ (s : State) (pkg req off n t0 : Nat), (s.pkg pkg).stalled = [(req, off, n, none, t0)] →
    (t0 + 4000000 ≤ s.timeNs → ∃ t, exec (.apertureReadTimeout pkg req) s = .next t ∧ (t.pkg pkg).stalled = [] ∧ s.answered t pkg 1 0) ∧
    (s.timeNs < t0 + 4000000 → exec (.apertureReadTimeout pkg req) s = .next s)))

/-- R461 to R466, R477 to R482: heartbeats go out every 1,000,000 ns; a die that takes over counts EGEN up, and an announcement
is accepted by its EGEN. A frozen thread is resumed at the PC of its message. A call is executed: RESULT and STATUS are
written, and STATUS is a code of Lovar OS. The clock follows the power. A marginal core that passes a bin again is no longer
marginal. R89, R90, R131, R148, R248, R258, R439, R470: what the service pairs and the management interfaces write: the
placement table, with every die's copy, once the work of the unit has been stopped; a core's extension directory with the
nearest core that lists an extension, owners and thresholds; a context made live gets its next incarnation at every
endpoint; an error of data poisons its word. -/
def Obligations.ServiceAndManagement : Prop :=
  ((∀ (s : State) (die : Nat), s.serving die = true →
    (s.timeNs < (s.die die).sent + 1000000 → exec (.heartbeatSend die) s = .next s) ∧
    ((s.die die).sent + 1000000 ≤ s.timeNs → ∃ t, exec (.heartbeatSend die) s = .next t ∧ (t.die die).sent = s.timeNs ∧
      ∀ d ∈ s.otherDies die, KMap.find (t.die d).beats die = some s.timeNs) ∧
    ((s.die die).leader ≠ die → s.beatValid die (s.die die).leader = false →
      (∀ d ∈ s.otherDies die, d < die → d ≠ (s.die die).leader → s.beatValid die d = false) →
      ∃ t, exec (.heartbeatTimeout die) s = .next t ∧ (t.die die).egen = (s.die die).egen + 1 ∧ (t.die die).leader = die) ∧
    (∀ (from_ : Nat) (egen : BitVec 32) (l : List SvcMsg), (s.die die).svc = ⟨3, BitVec.ofNat 64 from_, egen.setWidth 64, []⟩ :: l →
      (s.die die).egen.toNat < egen.toNat ∨ ((s.die die).egen = egen ∧ from_ < (s.die die).leader) →
      exec (.leaderAnnouncement die from_ egen) s = .next ((s.modDie die (fun d => { d with svc := l })).modDie die
        (fun d => { d with egen := egen, leader := from_ }))) ∧
    (∀ ns : Int, (s.die die).leader ≠ die → (s.die die).skew ≤ ns → (s.die (s.die die).leader).skew - 4 ≤ ns →
      ns ≤ (s.die (s.die die).leader).skew + 4 → exec (.timeBaseCorrection die ns) s = .next (s.modDie die (fun d => { d with skew := ns })))) ∧
  (∀ (s : State) (tid cl : Nat) (x : Thread) (w0 w1 : Word), s.threads = [(tid, x)] → x.place = .frozen cl →
    w0.extractLsb' 52 12 = x.domid → w0.extractLsb' 36 16 = x.cin → w0.extractLsb' 20 16 = x.tag → w0.toNat % 4 = 0 → w1.toNat % 8 = 0 →
    ∃ t, exec (.threadResumeMessage w0 w1) s = .next t ∧ (t.thread tid).inh = false ∧ (t.thread tid).g = x.g ∧
      (t.thread tid).pc = (if w1 = 0 then x.pc else w1) ∧ (t.thread tid).place = .runq x.recordCluster none x.anc) ∧
  (∀ (s : State) (c : Call) (r : List Call), s.calls = c :: r → s.isLive (dieOf c.who.core * 64 + 33) c.who.domid c.who.cin = true →
    c.who.shadow = false → (∀ k, (s.cluster k).tagWait = []) → (∀ x ∈ r, x.id ≠ c.id) → s.peekW c.pa >>> 60 = 13 →
    (s.peekW c.pa).extractLsb' 16 44 = 0 →
    ∃ t, exec (.syscallExecute c.id) s = .next t ∧ t.calls = r ∧ t.tagFull (c.pa + 56) = true ∧ t.tagFull (c.pa + 48) = true ∧
      let code := (t.peekW (c.pa + 56)).toNat % 256
      code = 0 ∨ (0x40 ≤ code ∧ code ≤ 0x7F)) ∧
  (∀ (s : State) (pkg watts : Nat), s.pkgPresent pkg = true → (s.pkg pkg).throttled + 1000000 ≤ s.timeNs →
    ∃ t, exec (.powerThrottle pkg watts) s = .next t ∧ (t.pkg pkg).clock =
      if 2800 < watts then max 2000 ((s.pkg pkg).clock - 100) else if watts ≤ 2660 then min 2700 ((s.pkg pkg).clock + 100)
      else (s.pkg pkg).clock) ∧
  (∀ (s : State) (core : Nat), s.corePresent core = true → isPylon core = false →
    exec (.coreMarginal core) s = .next (s.modCore core (fun c => { c with marginal := true })) ∧
    ((s.core core).marginal = true → (s.core core).bin ≠ 3 → (s.core core).pair = none → (∀ k, k < 7 → s.occupant core k = none) →
      (∀ b, ∃ t, exec (.rebinning core true b) s = .next t ∧ (t.core core).marginal = false ∧ (t.core core).bin = 1) ∧
      (∃ t, exec (.rebinning core false true) s = .next t ∧ (t.core core).marginal = false ∧ (t.core core).bin = 2)))) ∧
  ((∀ (s : State) (die : Nat) (v : Bool) (p : BitVec 8), die < 256 → s.dieMay die v p.toNat = true →
    ∃ t, exec (.placementSwap die (.die v p)) s = .next t ∧ (t.placeRow die).valid = v ∧ (t.placeRow die).pdie = p.toNat ∧
      (t.placeRow die).cmap = (s.placeRow die).cmap ∧ (∀ d, d ≠ die → t.placeRow d = s.placeRow d) ∧
      ∀ d ∈ s.diesPresent, KMap.find (t.die d).table die = some (t.placeRow die)) ∧
  (∀ (s : State) (die c : Nat) (v : Bool) (p : BitVec 6), die < 256 → s.cmapMay die c p.toNat = true →
    ∃ t, exec (.placementSwap die (.cmap c v p)) s = .next t ∧ t.cmap die c = (v, p.toNat) ∧
      (∀ d, d ≠ die → t.placeRow d = s.placeRow d) ∧ ∀ d ∈ s.diesPresent, KMap.find (t.die d).table die = some (t.placeRow die)) ∧
  (∀ (s : State) (die c : Nat) (v : Bool) (p : BitVec 8) (q : BitVec 6),
    (s.dieMay die v p.toNat = false → exec (.placementSwap die (.die v p)) s = .next s) ∧
    (s.cmapMay die c q.toNat = false → exec (.placementSwap die (.cmap c v q)) s = .next s)) ∧
  (∀ (s : State) (core ext : Nat) (v : Bool) (pos : BitVec 18), s.corePresent core = true → ext < 31 →
    (s.dirEntryOk core ext v pos = false → exec (.extensionDirectoryWrite core ext v pos) s = .next s) ∧
    (s.dirEntryOk core ext v pos = true → ∃ t, exec (.extensionDirectoryWrite core ext v pos) s = .next t ∧
      t.extEntry core ext = if v then some pos.toNat else none)) ∧
  (∀ (s : State) (core cl die seg k : Nat) (dom : BitVec 12),
    (s.corePresent core = true → isPylon core = false → exec (.managementWrite (.tcmOwner core dom)) s =
      .next (s.modCore core (fun c => { c with tcmOwner := some dom }))) ∧
    (s.clusterPresent cl = true → exec (.managementWrite (.scratchOwner cl dom)) s =
      .next (s.modCluster cl (fun c => { c with spOwner := some dom }))) ∧
    (s.diePresent die = true → seg < 128 → ∃ t, exec (.managementWrite (.deckGrant die seg dom)) s = .next t ∧
      KMap.find (t.die die).deckOwner seg = some dom) ∧
    exec (.managementWrite (.hotThreshold die k)) s = .next (s.modDie die (fun d => { d with hot := k })) ∧
    exec (.managementWrite (.coolThreshold die k)) s = .next (s.modDie die (fun d => { d with cool := k })) ∧
    exec (.managementWrite (.orphanClear cl)) s = .next (s.modCluster cl (fun c => { c with orphan := 0 })) ∧
    (isCompute cl = true → exec (.managementWrite (.shadowReserve cl k)) s =
      .next (s.modCluster cl (fun c => { c with shadowReserve := k })))) ∧
  (∀ (s : State) (dom : BitVec 12),
    let n := if s.next dom = 0xFFFF then 1 else s.next dom + 1
    (s.mayGoLive dom = false ∨ n = s.floor dom → exec (.makeContextLive dom) s = .next s) ∧
    (s.mayGoLive dom = true → n ≠ s.floor dom → ∃ t, exec (.makeContextLive dom) s = .next t ∧ t.next dom = n ∧ t.floor dom = n ∧
      ∀ cl ∈ s.endpointsIn 0x8000000000000000, t.liveCin cl dom = n)) ∧
  (∀ (s : State) (a cl : Nat), homeOf a = .vault cl → s.diePresent (cl / 64) = true →
    ∃ t, exec (.dramDataError a) s = .next t ∧ a / 8 * 8 ∈ t.poison ∧ (∀ x, t.byte x = s.byte x) ∧ t.threads = s.threads))

/-- R477, R479: a package reset zeroes the package's memory with every tag full, ends its threads, and returns its units to their
reset values; its storage, life-cycle state and keys stay. A thermal trip fences the cofferdams of the package first. -/
def Obligations.PackageResets : Prop :=
  ∀ (s : State) (pkg : Nat), (s.pkgPresent pkg = false → exec (.packageReset pkg) s = .next s ∧ exec (.thermalTrip pkg) s = .next s) ∧
    (s.pkgPresent pkg = true → ∀ i, i = Instr.packageReset pkg ∨ i = Instr.thermalTrip pkg →
      ∃ t, exec i s = .next t ∧ (∀ a, inPkgMem pkg a = true → t.byte a = 0) ∧
        (∀ a ∈ t.empties, inPkgMem pkg a = false) ∧ (∀ a ∈ t.poison, inPkgMem pkg a = false) ∧
        (t.pkg pkg).queues = [] ∧ (t.pkg pkg).reqs = [] ∧ (t.pkg pkg).h2dBase = 0 ∧ (t.pkg pkg).clock = 2700 ∧
        (t.pkg pkg).storage = (s.pkg pkg).storage ∧ (t.pkg pkg).lcs = (s.pkg pkg).lcs ∧
        ∀ p ∈ t.clusters, pkgOfDie (p.1 / 64) ≠ pkg)

/-! ### Whole-machine statements -/

/-- R18, R134 step 3: a guard is a flag or its negation; a word with G = 0b1000 is ILLEGAL. An instruction whose guard is false
retires with no effect: the PC advances by 8 and RETIRED counts it. -/
def Obligations.FalseGuardHasNoEffect : Prop :=
  (∀ (t : Thread) (n : BitVec 3) (neg : Bool), t.guardOk ((if neg then 8 else 0) ||| n.setWidth 4) = (t.flag n != neg)) ∧
  (∀ w : Word, w.extractLsb' 48 4 = 8 → decode w = .illegal .guardNever) ∧
  (∀ (i : Instr) (s : State), i.isEvent = false → s.exchangeDue s.me = false → s.me.wakeCause = 0 → s.me.guardOk i.guard = false →
    Completes i s { pw := s.me.pw, rnd := s.me.rnd, takes := [], pc := s.me.pc + 8 })

namespace Sys2Proof.Machine

/-- R128, R133: the instructions and forms of instructions that are privileged. -/
def isPrivileged : Instr → Bool
  | .spwr _ r _ => [Spr.tframe, .pwin, .fpint].contains r
  | .spwrXlbase _ _ | .spwrBnd _ _ _ | .thrmSet _ _ _ | .qctlWr _ _ _ _ | .qctlRst _ _ _ | .plbinv _ _ _ _ | .xlinv _ _ _ _
  | .kill _ _ _ _ | .killZ _ _ _ _ | .rclf _ _ _ _ | .coff _ _ _ | .coffDef _ _ _ | .coffLift _ _ _ | .wipe _ _ _ _
  | .gang _ _ _ | .pair _ _ _ | .pairOff _ _ _ | .fpck _ _ | .halt _ _ | .repl _ _ _ | .replQ _ _ _ => true
  | _ => false

end Sys2Proof.Machine

namespace Sys2Proof.Machine

/-- R130: the extension that an opcode belongs to. -/
def extensionOf (op : Nat) : Ext :=
  if 0xD0 ≤ op then .sys else if 0xC8 ≤ op then .bsx else if 0xC0 ≤ op then .coll else if 0xB8 ≤ op then .graph
  else if 0xB0 ≤ op then .cpy else if op = 0xA7 then .vec else if 0xA0 ≤ op then .mx else if 0x70 ≤ op then .vec
  else if 0x30 ≤ op ∧ op ≤ 0x3B then .fps else .base
/-- R128, R130: the extension of an instruction. -/
def instrExt (i : Instr) : Ext := extensionOf ((encode i).extractLsb' 56 8).toNat

/-- R134: the instruction has a true guard, and neither an exchange nor a cause that waits comes before it. -/
def State.reaches (s : State) (i : Instr) : Prop :=
  i.isEvent = false ∧ s.exchangeDue s.me = false ∧ s.me.wakeCause = 0 ∧ s.me.guardOk i.guard = true

end Sys2Proof.Machine

/-- R130, R132: an instruction of an extension that the slot does not list traps UNIMPL in an anchored thread, in one that has
come here in search of it, and where the directory names no core; any other thread leaves for the core that the directory
names, at the same PC, with WHY cause 3 and the identifier, and with nothing retired. -/
def Obligations.UnlistedExtensionIsSearchedFor : Prop :=
  ∀ (i : Instr) (s : State), s.reaches i → s.listed s.me (instrExt i) = false →
    let here := s.me.anc = true ∨ (s.me.whyCause = 3 ∧ s.me.whyExt = (instrExt i).id)
    (here ∨ s.extEntry s.me.core (instrExt i).id = none → Traps i s 0x02 s.iword) ∧
    (∀ p, ¬ here → s.extEntry s.me.core (instrExt i).id = some p → s.me.marks = [] → s.unagreed s.me = false → s.me.await = [] →
      s.me.asks = [] →
      ∃ t, exec i s = .next t ∧ (t.thread s.cur).place = .flight s.nextId ∧ (t.thread s.cur).pc = s.me.pc ∧
        (t.thread s.cur).retired = s.me.retired ∧ (t.thread s.cur).whyCause = 3 ∧ (t.thread s.cur).whyExt = (instrExt i).id ∧
        (∀ r, (t.thread s.cur).reg r = s.me.reg r ∧ (t.thread s.cur).vreg r = s.me.vreg r ∧ (t.thread s.cur).full r = s.me.full r) ∧
        ∃ f, (s.nextId, f) ∈ t.msgs ∧ f.kind = 0x01 ∧ f.ldest = p ∧ f.body = .image s.cur false none)

/-- R130, R133: a privileged instruction, or form of one, traps PRIV in user mode, with the instruction's word in TADDR. The guard
and the extension check come first: a guard that is false is no trap (FalseGuardHasNoEffect), and each of these instructions is
one of SYS, which every slot lists, so that none of them migrates or traps UNIMPL. -/
def Obligations.PrivilegedFormTrapsInUserMode : Prop :=
  ∀ (i : Instr) (s : State), isPrivileged i = true →
    s.listed s.me (instrExt i) = true ∧ (s.reaches i → s.me.sup = false → Traps i s 0x03 s.iword)

/-- R19, R134 step 6: an instruction with an empty source waits for every register that it lacks: nothing is taken, written or
retired, it issues again later, and the barrel's choice is taken back (named: ADD, FADD, VADD, JMP, ST and SPWR). -/
def Obligations.EmptySourceIsWaitedFor : Prop :=
  ∀ (s : State) (g : Guard) (a : Src) (i : Instr), i.wf = true → s.reaches i → s.listed s.me (instrExt i) = true → s.me.anc = true →
    s.me.sup = true → s.me.full a.reg = false → s.me.marks = [] →
    ((∃ h d b, i = .add g h d a b) ∨ (∃ x m d b, i = .fadd g x m d a b) ∨ (∃ q ty m k d b, i = .vadd g q ty m k d a b) ∨
      (∃ x, i = .jmp g a x) ∨ (∃ z m, i = .st g z a.reg m) ∨ (∃ r, i = .spwr g r a)) →
    ∃ t l, exec i s = .next t ∧ (t.thread s.cur).wait = some (.reg l) ∧ regNum a.reg ∈ l ∧
      (∀ k ∈ l, ∃ r, regNum r = k ∧ (s.me.full r = false ∨ s.me.awaited r = true)) ∧
      (t.thread s.cur).pc = s.me.pc ∧ (t.thread s.cur).retired = s.me.retired ∧
      (∀ r, (t.thread s.cur).reg r = s.me.reg r ∧ (t.thread s.cur).vreg r = s.me.vreg r ∧ (t.thread s.cur).full r = s.me.full r) ∧
      (∀ k, k ≠ s.cur → t.thread k = s.thread k) ∧ { t with threads := s.threads, cores := s.cores } = s ∧
      ∀ k, t.core k = if k = s.me.core then (s.core k).unselect else s.core k

/-- R139: every instruction and every event of the device answers a next state from every state; a step stops only when
every package of the domain is SCRAPPED (R474). -/
def Obligations.NothingIsRefused : Prop :=
  (∀ (i : Instr) (s : State), ∃ t, exec i s = .next t) ∧
  (∀ (s : State), (∃ t, step s = .next t) ∨
    (step s = .fault .scrapped ∧ ∀ p, s.pkgPresent p = true → (s.pkg p).lcs = 5))

/-- R119, R129, R134, R135, R257: a step runs the event at the head of the agenda; otherwise it fetches for the thread that was chosen
the word at its PC, and runs the instruction that the word decodes to, with that word as the instruction's word. A PC off a
word traps ALIGN, a word that is no instruction traps ILLEGAL, and a word of the extension range retires when its guard is
false. -/
def Obligations.StepRunsTheDecodedInstruction : Prop :=
  (∀ (s : State) (e : Instr) (r : List Instr), s.agenda = e :: r → step s = exec e { s with agenda := r }) ∧
  (∀ (s : State) (tid : Nat), s.agenda = [] → s.issue = some tid →
    let s0 : State := { s with issue := none, cur := tid }
    let t := s.thread tid
    (t.pc.toNat % 8 ≠ 0 → step s = .next (s0.takeTrap tid 0x04 t.pc t.pc 0)) ∧
    (∀ s1 pa leaf, t.pc.toNat % 8 = 0 → s0.resolve t.ctx t.pc .fetch = (s1, .at pa leaf) →
      s1.poisoned (s1.viewOf t.domid (leafShadow leaf) pa) 8 = false → KMap.find (s1.core t.core).icache (lineOf pa) = none →
      let w := s1.peekW (s1.viewOf t.domid (leafShadow leaf) pa)
      ∃ u, ({ s0 with iword := w } : State).Cached u ∧
        (∀ i, decode w = .instr i → step s = exec i u) ∧
        (∀ why, decode w = .illegal why → step s = .next (u.trapHere 0x01 w)) ∧
        (∀ id g, decode w = .extRange id g → u.me.guardOk g = false → ∃ x, step s = .next x ∧
          u.After x { pw := u.me.pw, rnd := u.me.rnd, takes := [], pc := u.me.pc + 8 })))

/-- What reset leaves: memory reads zero with every word full (R479) and is in canonical form; the special registers have their
start values (R65, R241, R250, R361, R415, R434); every logical unit is at its own physical position (R89); every launch queue is off (R96);
and each compute core's slot 7 holds its scarab thread, in supervisor mode with WLIM 0, which runs (R292). -/
def Obligations.ResetLeavesTheValuesOfTheSpec : Prop :=
  State.reset.memOk ∧
  (∀ a, State.reset.byte a = 0 ∧ State.reset.tagFull a = true ∧ State.reset.poisoned a 8 = false) ∧
  (State.reset.xlbase = 0 ∧ State.reset.pwin = 0 ∧ State.reset.timeNs = 0 ∧ ∀ d, KMap.getD State.reset.typebase d 0 = 0) ∧
  (∀ k, (State.reset.core k).fpint = 4096) ∧
  (∀ c, (State.reset.cluster c).bnd0 = 0x10 ∧ (State.reset.cluster c).bnd1 = 0x40 ∧ (State.reset.cluster c).bnd2 = 0x70) ∧
  (∀ p, State.reset.corePresent p = true → State.reset.physOf p = some p) ∧
  (∀ p q, (State.reset.lqueue p q).qcfg = 0) ∧
  (∀ k, isPylon k = false → State.reset.occupant k 7 = some (scarabBase + k) ∧
    (State.reset.thread (scarabBase + k)).sup = true ∧ (State.reset.thread (scarabBase + k)).wlim = 0 ∧
    (State.reset.thread (scarabBase + k)).wait = none)

/-- R17, R19, R125, R135 and the example words of the entries: words of the spec, and the instructions that they stand for or their
fate. -/
def Obligations.WordsOfTheSpecDecode : Prop :=
  decode 0x01003050B0000000 = .instr (.add 0 false (.g 12) ⟨.g 10, false⟩ (.reg ⟨.g 11, false⟩)) ∧
  decode 0x011B322000000001 = .instr (.add 0xB false (.g 12) ⟨.g 4, true⟩ (.imm 1)) ∧
  decode 0x4810102BC0000080 = .instr (.fetch 0 .q false (.g 4) ⟨⟨.g 5, false⟩, ⟨.z, false⟩, 0, 0, 0x80⟩) ∧
  decode 0x8550CCC3C0000000 = .instr (.vcmp 0 .gt .f32 ⟨0, false⟩ (.m 3) ⟨.v 8, false⟩ ⟨.z, false⟩) ∧
  decode 0xA10000000C104100 = .instr (.mxrun 0 ⟨3, 1, 4, 1⟩) ∧
  decode 0xD209000000000001 = .instr (.trap 9 1) ∧
  decode 0xF000000000000000 = .extRange 16 0 ∧
  decode 0x01103050B0000000 = .illegal .unusedField ∧
  decode 0x01083050B0000000 = .illegal .guardNever ∧
  decode 0x01003053F0000000 = .illegal .noInstruction ∧
  decode 0x7000000000000000 = .illegal .badOperand ∧
  decode 0xF008000000000000 = .illegal .guardNever ∧
  decode 0 = .illegal .noInstruction ∧ decode 0xFFFFFFFFFFFFFFFF = .illegal .noInstruction

/-- R120 to R128: for every well-formed instruction, the decoder reads from its word the instruction, with every operand. -/
def Obligations.DecodeOfEncodeIsTheInstruction : Prop :=
  ∀ i : Instr, i.isEvent = false → i.wf = true → decode (encode i) = .instr i

/-- R7, R249, R452: memory has one canonical form (addresses strictly rising, no byte listed that reads as an unlisted one),
and every step keeps it, in every state. -/
def Obligations.MemoryStaysCanonical : Prop :=
  ∀ s t : State, s.memOk → step s = .next t → t.memOk
end

