-- ==== Sys2Proof/Laws/State.lean ====
section
/-! SUPPORT. Small laws of the state: what each update of a record leaves in each field, and reading a record after it is
set. Each is true by unfolding, and tagged so that no later proof unfolds a record update. -/

namespace Sys2Proof.Machine

/-! ### Records by number -/

theorem KMap.find_set {α : Type} (m : KMap α) (k j : Nat) (a : α) :
    KMap.find (KMap.set m k a) j = if k = j then some a else KMap.find m j := by
  induction m with
  | nil => simp [KMap.set, KMap.find]
  | cons p r ih =>
    obtain ⟨i, b⟩ := p
    simp only [KMap.set]
    split
    · simp [KMap.find]
    · split
      · subst i; by_cases hk : k = j <;> simp [KMap.find, hk]
      · simp only [KMap.find, ih]
        by_cases hi : i = j <;> by_cases hk : k = j <;> simp_all

@[simp] theorem KMap.getD_set_same {α : Type} (m : KMap α) (k : Nat) (a d : α) : KMap.getD (KMap.set m k a) k d = a := by
  simp [KMap.getD, KMap.find_set]

theorem KMap.getD_set_ne {α : Type} (m : KMap α) {k j : Nat} (a d : α) (h : k ≠ j) :
    KMap.getD (KMap.set m k a) j d = KMap.getD m j d := by
  simp [KMap.getD, KMap.find_set, h]

theorem KMap.find_erase {α : Type} (m : KMap α) (k j : Nat) :
    KMap.find (KMap.erase m k) j = if k = j then none else KMap.find m j := by
  induction m with
  | nil => simp [KMap.erase, KMap.find]
  | cons p r ih =>
    obtain ⟨i, b⟩ := p
    unfold KMap.erase at ih ⊢
    by_cases hi : i = k
    · subst i
      by_cases hk : k = j <;> simp_all [KMap.find]
    · by_cases hk : k = j <;> by_cases hj : i = j <;> simp_all [KMap.find]

/-! ### Fields after an update -/

@[simp] theorem State.setThread_agenda (s : State) (k : Nat) (t : Thread) : (s.setThread k t).agenda = s.agenda := rfl
@[simp] theorem State.setThread_issue (s : State) (k : Nat) (t : Thread) : (s.setThread k t).issue = s.issue := rfl
@[simp] theorem State.setThread_cur (s : State) (k : Nat) (t : Thread) : (s.setThread k t).cur = s.cur := rfl
@[simp] theorem State.setThread_iword (s : State) (k : Nat) (t : Thread) : (s.setThread k t).iword = s.iword := rfl
@[simp] theorem State.setThread_free (s : State) (k : Nat) (t : Thread) : (s.setThread k t).free = s.free := rfl
@[simp] theorem State.setThread_nextId (s : State) (k : Nat) (t : Thread) : (s.setThread k t).nextId = s.nextId := rfl
@[simp] theorem State.setThread_cycle (s : State) (k : Nat) (t : Thread) : (s.setThread k t).cycle = s.cycle := rfl
@[simp] theorem State.setThread_timeNs (s : State) (k : Nat) (t : Thread) : (s.setThread k t).timeNs = s.timeNs := rfl
@[simp] theorem State.setThread_tick (s : State) (k : Nat) (t : Thread) : (s.setThread k t).tick = s.tick := rfl
@[simp] theorem State.setThread_pylon (s : State) (k : Nat) (t : Thread) : (s.setThread k t).pylon = s.pylon := rfl
@[simp] theorem State.setThread_slow (s : State) (k : Nat) (t : Thread) : (s.setThread k t).slow = s.slow := rfl
@[simp] theorem State.setThread_cores (s : State) (k : Nat) (t : Thread) : (s.setThread k t).cores = s.cores := rfl
@[simp] theorem State.setThread_clusters (s : State) (k : Nat) (t : Thread) : (s.setThread k t).clusters = s.clusters := rfl
@[simp] theorem State.setThread_dies (s : State) (k : Nat) (t : Thread) : (s.setThread k t).dies = s.dies := rfl
@[simp] theorem State.setThread_packages (s : State) (k : Nat) (t : Thread) : (s.setThread k t).packages = s.packages := rfl
@[simp] theorem State.setThread_launches (s : State) (k : Nat) (t : Thread) : (s.setThread k t).launches = s.launches := rfl
@[simp] theorem State.setThread_msgs (s : State) (k : Nat) (t : Thread) : (s.setThread k t).msgs = s.msgs := rfl
@[simp] theorem State.setThread_links (s : State) (k : Nat) (t : Thread) : (s.setThread k t).links = s.links := rfl
@[simp] theorem State.setThread_routers (s : State) (k : Nat) (t : Thread) : (s.setThread k t).routers = s.routers := rfl
@[simp] theorem State.setThread_mem (s : State) (k : Nat) (t : Thread) : (s.setThread k t).mem = s.mem := rfl
@[simp] theorem State.setThread_empties (s : State) (k : Nat) (t : Thread) : (s.setThread k t).empties = s.empties := rfl
@[simp] theorem State.setThread_poison (s : State) (k : Nat) (t : Thread) : (s.setThread k t).poison = s.poison := rfl
@[simp] theorem State.setThread_shadows (s : State) (k : Nat) (t : Thread) : (s.setThread k t).shadows = s.shadows := rfl
@[simp] theorem State.setThread_kills (s : State) (k : Nat) (t : Thread) : (s.setThread k t).kills = s.kills := rfl
@[simp] theorem State.setThread_fences (s : State) (k : Nat) (t : Thread) : (s.setThread k t).fences = s.fences := rfl
@[simp] theorem State.setThread_xlinvs (s : State) (k : Nat) (t : Thread) : (s.setThread k t).xlinvs = s.xlinvs := rfl
@[simp] theorem State.setThread_gangs (s : State) (k : Nat) (t : Thread) : (s.setThread k t).gangs = s.gangs := rfl
@[simp] theorem State.setThread_calls (s : State) (k : Nat) (t : Thread) : (s.setThread k t).calls = s.calls := rfl
@[simp] theorem State.setThread_flows (s : State) (k : Nat) (t : Thread) : (s.setThread k t).flows = s.flows := rfl
@[simp] theorem State.setThread_place (s : State) (k : Nat) (t : Thread) : (s.setThread k t).place = s.place := rfl
@[simp] theorem State.setThread_pkgsX (s : State) (k : Nat) (t : Thread) : (s.setThread k t).pkgsX = s.pkgsX := rfl
@[simp] theorem State.setThread_pkgsY (s : State) (k : Nat) (t : Thread) : (s.setThread k t).pkgsY = s.pkgsY := rfl
@[simp] theorem State.setThread_ringX (s : State) (k : Nat) (t : Thread) : (s.setThread k t).ringX = s.ringX := rfl
@[simp] theorem State.setThread_ringY (s : State) (k : Nat) (t : Thread) : (s.setThread k t).ringY = s.ringY := rfl
@[simp] theorem State.setThread_xlbase (s : State) (k : Nat) (t : Thread) : (s.setThread k t).xlbase = s.xlbase := rfl
@[simp] theorem State.setThread_pwin (s : State) (k : Nat) (t : Thread) : (s.setThread k t).pwin = s.pwin := rfl
@[simp] theorem State.setThread_typebase (s : State) (k : Nat) (t : Thread) : (s.setThread k t).typebase = s.typebase := rfl
@[simp] theorem State.setThread_nextCin (s : State) (k : Nat) (t : Thread) : (s.setThread k t).nextCin = s.nextCin := rfl
@[simp] theorem State.setThread_floorCin (s : State) (k : Nat) (t : Thread) : (s.setThread k t).floorCin = s.floorCin := rfl
@[simp] theorem State.setThread_reclaimed (s : State) (k : Nat) (t : Thread) : (s.setThread k t).reclaimed = s.reclaimed := rfl

@[simp] theorem State.modThread_agenda (s : State) (k : Nat) (f : Thread → Thread) : (s.modThread k f).agenda = s.agenda := rfl
@[simp] theorem State.modThread_issue (s : State) (k : Nat) (f : Thread → Thread) : (s.modThread k f).issue = s.issue := rfl
@[simp] theorem State.modThread_cur (s : State) (k : Nat) (f : Thread → Thread) : (s.modThread k f).cur = s.cur := rfl
@[simp] theorem State.modThread_iword (s : State) (k : Nat) (f : Thread → Thread) : (s.modThread k f).iword = s.iword := rfl
@[simp] theorem State.modThread_free (s : State) (k : Nat) (f : Thread → Thread) : (s.modThread k f).free = s.free := rfl
@[simp] theorem State.modThread_nextId (s : State) (k : Nat) (f : Thread → Thread) : (s.modThread k f).nextId = s.nextId := rfl
@[simp] theorem State.modThread_cycle (s : State) (k : Nat) (f : Thread → Thread) : (s.modThread k f).cycle = s.cycle := rfl
@[simp] theorem State.modThread_timeNs (s : State) (k : Nat) (f : Thread → Thread) : (s.modThread k f).timeNs = s.timeNs := rfl
@[simp] theorem State.modThread_tick (s : State) (k : Nat) (f : Thread → Thread) : (s.modThread k f).tick = s.tick := rfl
@[simp] theorem State.modThread_pylon (s : State) (k : Nat) (f : Thread → Thread) : (s.modThread k f).pylon = s.pylon := rfl
@[simp] theorem State.modThread_slow (s : State) (k : Nat) (f : Thread → Thread) : (s.modThread k f).slow = s.slow := rfl
@[simp] theorem State.modThread_cores (s : State) (k : Nat) (f : Thread → Thread) : (s.modThread k f).cores = s.cores := rfl
@[simp] theorem State.modThread_clusters (s : State) (k : Nat) (f : Thread → Thread) : (s.modThread k f).clusters = s.clusters := rfl
@[simp] theorem State.modThread_dies (s : State) (k : Nat) (f : Thread → Thread) : (s.modThread k f).dies = s.dies := rfl
@[simp] theorem State.modThread_packages (s : State) (k : Nat) (f : Thread → Thread) : (s.modThread k f).packages = s.packages := rfl
@[simp] theorem State.modThread_launches (s : State) (k : Nat) (f : Thread → Thread) : (s.modThread k f).launches = s.launches := rfl
@[simp] theorem State.modThread_msgs (s : State) (k : Nat) (f : Thread → Thread) : (s.modThread k f).msgs = s.msgs := rfl
@[simp] theorem State.modThread_links (s : State) (k : Nat) (f : Thread → Thread) : (s.modThread k f).links = s.links := rfl
@[simp] theorem State.modThread_routers (s : State) (k : Nat) (f : Thread → Thread) : (s.modThread k f).routers = s.routers := rfl
@[simp] theorem State.modThread_mem (s : State) (k : Nat) (f : Thread → Thread) : (s.modThread k f).mem = s.mem := rfl
@[simp] theorem State.modThread_empties (s : State) (k : Nat) (f : Thread → Thread) : (s.modThread k f).empties = s.empties := rfl
@[simp] theorem State.modThread_poison (s : State) (k : Nat) (f : Thread → Thread) : (s.modThread k f).poison = s.poison := rfl
@[simp] theorem State.modThread_shadows (s : State) (k : Nat) (f : Thread → Thread) : (s.modThread k f).shadows = s.shadows := rfl
@[simp] theorem State.modThread_kills (s : State) (k : Nat) (f : Thread → Thread) : (s.modThread k f).kills = s.kills := rfl
@[simp] theorem State.modThread_fences (s : State) (k : Nat) (f : Thread → Thread) : (s.modThread k f).fences = s.fences := rfl
@[simp] theorem State.modThread_xlinvs (s : State) (k : Nat) (f : Thread → Thread) : (s.modThread k f).xlinvs = s.xlinvs := rfl
@[simp] theorem State.modThread_gangs (s : State) (k : Nat) (f : Thread → Thread) : (s.modThread k f).gangs = s.gangs := rfl
@[simp] theorem State.modThread_calls (s : State) (k : Nat) (f : Thread → Thread) : (s.modThread k f).calls = s.calls := rfl
@[simp] theorem State.modThread_flows (s : State) (k : Nat) (f : Thread → Thread) : (s.modThread k f).flows = s.flows := rfl
@[simp] theorem State.modThread_place (s : State) (k : Nat) (f : Thread → Thread) : (s.modThread k f).place = s.place := rfl
@[simp] theorem State.modThread_pkgsX (s : State) (k : Nat) (f : Thread → Thread) : (s.modThread k f).pkgsX = s.pkgsX := rfl
@[simp] theorem State.modThread_pkgsY (s : State) (k : Nat) (f : Thread → Thread) : (s.modThread k f).pkgsY = s.pkgsY := rfl
@[simp] theorem State.modThread_ringX (s : State) (k : Nat) (f : Thread → Thread) : (s.modThread k f).ringX = s.ringX := rfl
@[simp] theorem State.modThread_ringY (s : State) (k : Nat) (f : Thread → Thread) : (s.modThread k f).ringY = s.ringY := rfl
@[simp] theorem State.modThread_xlbase (s : State) (k : Nat) (f : Thread → Thread) : (s.modThread k f).xlbase = s.xlbase := rfl
@[simp] theorem State.modThread_pwin (s : State) (k : Nat) (f : Thread → Thread) : (s.modThread k f).pwin = s.pwin := rfl
@[simp] theorem State.modThread_typebase (s : State) (k : Nat) (f : Thread → Thread) : (s.modThread k f).typebase = s.typebase := rfl
@[simp] theorem State.modThread_nextCin (s : State) (k : Nat) (f : Thread → Thread) : (s.modThread k f).nextCin = s.nextCin := rfl
@[simp] theorem State.modThread_floorCin (s : State) (k : Nat) (f : Thread → Thread) : (s.modThread k f).floorCin = s.floorCin := rfl
@[simp] theorem State.modThread_reclaimed (s : State) (k : Nat) (f : Thread → Thread) : (s.modThread k f).reclaimed = s.reclaimed := rfl

@[simp] theorem State.dropThread_agenda (s : State) (k : Nat) : (s.dropThread k).agenda = s.agenda := rfl
@[simp] theorem State.dropThread_issue (s : State) (k : Nat) : (s.dropThread k).issue = s.issue := rfl
@[simp] theorem State.dropThread_cur (s : State) (k : Nat) : (s.dropThread k).cur = s.cur := rfl
@[simp] theorem State.dropThread_iword (s : State) (k : Nat) : (s.dropThread k).iword = s.iword := rfl
@[simp] theorem State.dropThread_free (s : State) (k : Nat) : (s.dropThread k).free = s.free := rfl
@[simp] theorem State.dropThread_nextId (s : State) (k : Nat) : (s.dropThread k).nextId = s.nextId := rfl
@[simp] theorem State.dropThread_cycle (s : State) (k : Nat) : (s.dropThread k).cycle = s.cycle := rfl
@[simp] theorem State.dropThread_timeNs (s : State) (k : Nat) : (s.dropThread k).timeNs = s.timeNs := rfl
@[simp] theorem State.dropThread_tick (s : State) (k : Nat) : (s.dropThread k).tick = s.tick := rfl
@[simp] theorem State.dropThread_pylon (s : State) (k : Nat) : (s.dropThread k).pylon = s.pylon := rfl
@[simp] theorem State.dropThread_slow (s : State) (k : Nat) : (s.dropThread k).slow = s.slow := rfl
@[simp] theorem State.dropThread_cores (s : State) (k : Nat) : (s.dropThread k).cores = s.cores := rfl
@[simp] theorem State.dropThread_clusters (s : State) (k : Nat) : (s.dropThread k).clusters = s.clusters := rfl
@[simp] theorem State.dropThread_dies (s : State) (k : Nat) : (s.dropThread k).dies = s.dies := rfl
@[simp] theorem State.dropThread_packages (s : State) (k : Nat) : (s.dropThread k).packages = s.packages := rfl
@[simp] theorem State.dropThread_launches (s : State) (k : Nat) : (s.dropThread k).launches = s.launches := rfl
@[simp] theorem State.dropThread_msgs (s : State) (k : Nat) : (s.dropThread k).msgs = s.msgs := rfl
@[simp] theorem State.dropThread_links (s : State) (k : Nat) : (s.dropThread k).links = s.links := rfl
@[simp] theorem State.dropThread_routers (s : State) (k : Nat) : (s.dropThread k).routers = s.routers := rfl
@[simp] theorem State.dropThread_mem (s : State) (k : Nat) : (s.dropThread k).mem = s.mem := rfl
@[simp] theorem State.dropThread_empties (s : State) (k : Nat) : (s.dropThread k).empties = s.empties := rfl
@[simp] theorem State.dropThread_poison (s : State) (k : Nat) : (s.dropThread k).poison = s.poison := rfl
@[simp] theorem State.dropThread_shadows (s : State) (k : Nat) : (s.dropThread k).shadows = s.shadows := rfl
@[simp] theorem State.dropThread_kills (s : State) (k : Nat) : (s.dropThread k).kills = s.kills := rfl
@[simp] theorem State.dropThread_fences (s : State) (k : Nat) : (s.dropThread k).fences = s.fences := rfl
@[simp] theorem State.dropThread_xlinvs (s : State) (k : Nat) : (s.dropThread k).xlinvs = s.xlinvs := rfl
@[simp] theorem State.dropThread_gangs (s : State) (k : Nat) : (s.dropThread k).gangs = s.gangs := rfl
@[simp] theorem State.dropThread_calls (s : State) (k : Nat) : (s.dropThread k).calls = s.calls := rfl
@[simp] theorem State.dropThread_flows (s : State) (k : Nat) : (s.dropThread k).flows = s.flows := rfl
@[simp] theorem State.dropThread_place (s : State) (k : Nat) : (s.dropThread k).place = s.place := rfl
@[simp] theorem State.dropThread_pkgsX (s : State) (k : Nat) : (s.dropThread k).pkgsX = s.pkgsX := rfl
@[simp] theorem State.dropThread_pkgsY (s : State) (k : Nat) : (s.dropThread k).pkgsY = s.pkgsY := rfl
@[simp] theorem State.dropThread_ringX (s : State) (k : Nat) : (s.dropThread k).ringX = s.ringX := rfl
@[simp] theorem State.dropThread_ringY (s : State) (k : Nat) : (s.dropThread k).ringY = s.ringY := rfl
@[simp] theorem State.dropThread_xlbase (s : State) (k : Nat) : (s.dropThread k).xlbase = s.xlbase := rfl
@[simp] theorem State.dropThread_pwin (s : State) (k : Nat) : (s.dropThread k).pwin = s.pwin := rfl
@[simp] theorem State.dropThread_typebase (s : State) (k : Nat) : (s.dropThread k).typebase = s.typebase := rfl
@[simp] theorem State.dropThread_nextCin (s : State) (k : Nat) : (s.dropThread k).nextCin = s.nextCin := rfl
@[simp] theorem State.dropThread_floorCin (s : State) (k : Nat) : (s.dropThread k).floorCin = s.floorCin := rfl
@[simp] theorem State.dropThread_reclaimed (s : State) (k : Nat) : (s.dropThread k).reclaimed = s.reclaimed := rfl

@[simp] theorem State.setCore_agenda (s : State) (k : Nat) (c : Core) : (s.setCore k c).agenda = s.agenda := rfl
@[simp] theorem State.setCore_issue (s : State) (k : Nat) (c : Core) : (s.setCore k c).issue = s.issue := rfl
@[simp] theorem State.setCore_cur (s : State) (k : Nat) (c : Core) : (s.setCore k c).cur = s.cur := rfl
@[simp] theorem State.setCore_iword (s : State) (k : Nat) (c : Core) : (s.setCore k c).iword = s.iword := rfl
@[simp] theorem State.setCore_free (s : State) (k : Nat) (c : Core) : (s.setCore k c).free = s.free := rfl
@[simp] theorem State.setCore_nextId (s : State) (k : Nat) (c : Core) : (s.setCore k c).nextId = s.nextId := rfl
@[simp] theorem State.setCore_cycle (s : State) (k : Nat) (c : Core) : (s.setCore k c).cycle = s.cycle := rfl
@[simp] theorem State.setCore_timeNs (s : State) (k : Nat) (c : Core) : (s.setCore k c).timeNs = s.timeNs := rfl
@[simp] theorem State.setCore_tick (s : State) (k : Nat) (c : Core) : (s.setCore k c).tick = s.tick := rfl
@[simp] theorem State.setCore_pylon (s : State) (k : Nat) (c : Core) : (s.setCore k c).pylon = s.pylon := rfl
@[simp] theorem State.setCore_slow (s : State) (k : Nat) (c : Core) : (s.setCore k c).slow = s.slow := rfl
@[simp] theorem State.setCore_threads (s : State) (k : Nat) (c : Core) : (s.setCore k c).threads = s.threads := rfl
@[simp] theorem State.setCore_clusters (s : State) (k : Nat) (c : Core) : (s.setCore k c).clusters = s.clusters := rfl
@[simp] theorem State.setCore_dies (s : State) (k : Nat) (c : Core) : (s.setCore k c).dies = s.dies := rfl
@[simp] theorem State.setCore_packages (s : State) (k : Nat) (c : Core) : (s.setCore k c).packages = s.packages := rfl
@[simp] theorem State.setCore_launches (s : State) (k : Nat) (c : Core) : (s.setCore k c).launches = s.launches := rfl
@[simp] theorem State.setCore_msgs (s : State) (k : Nat) (c : Core) : (s.setCore k c).msgs = s.msgs := rfl
@[simp] theorem State.setCore_links (s : State) (k : Nat) (c : Core) : (s.setCore k c).links = s.links := rfl
@[simp] theorem State.setCore_routers (s : State) (k : Nat) (c : Core) : (s.setCore k c).routers = s.routers := rfl
@[simp] theorem State.setCore_mem (s : State) (k : Nat) (c : Core) : (s.setCore k c).mem = s.mem := rfl
@[simp] theorem State.setCore_empties (s : State) (k : Nat) (c : Core) : (s.setCore k c).empties = s.empties := rfl
@[simp] theorem State.setCore_poison (s : State) (k : Nat) (c : Core) : (s.setCore k c).poison = s.poison := rfl
@[simp] theorem State.setCore_shadows (s : State) (k : Nat) (c : Core) : (s.setCore k c).shadows = s.shadows := rfl
@[simp] theorem State.setCore_kills (s : State) (k : Nat) (c : Core) : (s.setCore k c).kills = s.kills := rfl
@[simp] theorem State.setCore_fences (s : State) (k : Nat) (c : Core) : (s.setCore k c).fences = s.fences := rfl
@[simp] theorem State.setCore_xlinvs (s : State) (k : Nat) (c : Core) : (s.setCore k c).xlinvs = s.xlinvs := rfl
@[simp] theorem State.setCore_gangs (s : State) (k : Nat) (c : Core) : (s.setCore k c).gangs = s.gangs := rfl
@[simp] theorem State.setCore_calls (s : State) (k : Nat) (c : Core) : (s.setCore k c).calls = s.calls := rfl
@[simp] theorem State.setCore_flows (s : State) (k : Nat) (c : Core) : (s.setCore k c).flows = s.flows := rfl
@[simp] theorem State.setCore_place (s : State) (k : Nat) (c : Core) : (s.setCore k c).place = s.place := rfl
@[simp] theorem State.setCore_pkgsX (s : State) (k : Nat) (c : Core) : (s.setCore k c).pkgsX = s.pkgsX := rfl
@[simp] theorem State.setCore_pkgsY (s : State) (k : Nat) (c : Core) : (s.setCore k c).pkgsY = s.pkgsY := rfl
@[simp] theorem State.setCore_ringX (s : State) (k : Nat) (c : Core) : (s.setCore k c).ringX = s.ringX := rfl
@[simp] theorem State.setCore_ringY (s : State) (k : Nat) (c : Core) : (s.setCore k c).ringY = s.ringY := rfl
@[simp] theorem State.setCore_xlbase (s : State) (k : Nat) (c : Core) : (s.setCore k c).xlbase = s.xlbase := rfl
@[simp] theorem State.setCore_pwin (s : State) (k : Nat) (c : Core) : (s.setCore k c).pwin = s.pwin := rfl
@[simp] theorem State.setCore_typebase (s : State) (k : Nat) (c : Core) : (s.setCore k c).typebase = s.typebase := rfl
@[simp] theorem State.setCore_nextCin (s : State) (k : Nat) (c : Core) : (s.setCore k c).nextCin = s.nextCin := rfl
@[simp] theorem State.setCore_floorCin (s : State) (k : Nat) (c : Core) : (s.setCore k c).floorCin = s.floorCin := rfl
@[simp] theorem State.setCore_reclaimed (s : State) (k : Nat) (c : Core) : (s.setCore k c).reclaimed = s.reclaimed := rfl

@[simp] theorem State.modCore_agenda (s : State) (k : Nat) (f : Core → Core) : (s.modCore k f).agenda = s.agenda := rfl
@[simp] theorem State.modCore_issue (s : State) (k : Nat) (f : Core → Core) : (s.modCore k f).issue = s.issue := rfl
@[simp] theorem State.modCore_cur (s : State) (k : Nat) (f : Core → Core) : (s.modCore k f).cur = s.cur := rfl
@[simp] theorem State.modCore_iword (s : State) (k : Nat) (f : Core → Core) : (s.modCore k f).iword = s.iword := rfl
@[simp] theorem State.modCore_free (s : State) (k : Nat) (f : Core → Core) : (s.modCore k f).free = s.free := rfl
@[simp] theorem State.modCore_nextId (s : State) (k : Nat) (f : Core → Core) : (s.modCore k f).nextId = s.nextId := rfl
@[simp] theorem State.modCore_cycle (s : State) (k : Nat) (f : Core → Core) : (s.modCore k f).cycle = s.cycle := rfl
@[simp] theorem State.modCore_timeNs (s : State) (k : Nat) (f : Core → Core) : (s.modCore k f).timeNs = s.timeNs := rfl
@[simp] theorem State.modCore_tick (s : State) (k : Nat) (f : Core → Core) : (s.modCore k f).tick = s.tick := rfl
@[simp] theorem State.modCore_pylon (s : State) (k : Nat) (f : Core → Core) : (s.modCore k f).pylon = s.pylon := rfl
@[simp] theorem State.modCore_slow (s : State) (k : Nat) (f : Core → Core) : (s.modCore k f).slow = s.slow := rfl
@[simp] theorem State.modCore_threads (s : State) (k : Nat) (f : Core → Core) : (s.modCore k f).threads = s.threads := rfl
@[simp] theorem State.modCore_clusters (s : State) (k : Nat) (f : Core → Core) : (s.modCore k f).clusters = s.clusters := rfl
@[simp] theorem State.modCore_dies (s : State) (k : Nat) (f : Core → Core) : (s.modCore k f).dies = s.dies := rfl
@[simp] theorem State.modCore_packages (s : State) (k : Nat) (f : Core → Core) : (s.modCore k f).packages = s.packages := rfl
@[simp] theorem State.modCore_launches (s : State) (k : Nat) (f : Core → Core) : (s.modCore k f).launches = s.launches := rfl
@[simp] theorem State.modCore_msgs (s : State) (k : Nat) (f : Core → Core) : (s.modCore k f).msgs = s.msgs := rfl
@[simp] theorem State.modCore_links (s : State) (k : Nat) (f : Core → Core) : (s.modCore k f).links = s.links := rfl
@[simp] theorem State.modCore_routers (s : State) (k : Nat) (f : Core → Core) : (s.modCore k f).routers = s.routers := rfl
@[simp] theorem State.modCore_mem (s : State) (k : Nat) (f : Core → Core) : (s.modCore k f).mem = s.mem := rfl
@[simp] theorem State.modCore_empties (s : State) (k : Nat) (f : Core → Core) : (s.modCore k f).empties = s.empties := rfl
@[simp] theorem State.modCore_poison (s : State) (k : Nat) (f : Core → Core) : (s.modCore k f).poison = s.poison := rfl
@[simp] theorem State.modCore_shadows (s : State) (k : Nat) (f : Core → Core) : (s.modCore k f).shadows = s.shadows := rfl
@[simp] theorem State.modCore_kills (s : State) (k : Nat) (f : Core → Core) : (s.modCore k f).kills = s.kills := rfl
@[simp] theorem State.modCore_fences (s : State) (k : Nat) (f : Core → Core) : (s.modCore k f).fences = s.fences := rfl
@[simp] theorem State.modCore_xlinvs (s : State) (k : Nat) (f : Core → Core) : (s.modCore k f).xlinvs = s.xlinvs := rfl
@[simp] theorem State.modCore_gangs (s : State) (k : Nat) (f : Core → Core) : (s.modCore k f).gangs = s.gangs := rfl
@[simp] theorem State.modCore_calls (s : State) (k : Nat) (f : Core → Core) : (s.modCore k f).calls = s.calls := rfl
@[simp] theorem State.modCore_flows (s : State) (k : Nat) (f : Core → Core) : (s.modCore k f).flows = s.flows := rfl
@[simp] theorem State.modCore_place (s : State) (k : Nat) (f : Core → Core) : (s.modCore k f).place = s.place := rfl
@[simp] theorem State.modCore_pkgsX (s : State) (k : Nat) (f : Core → Core) : (s.modCore k f).pkgsX = s.pkgsX := rfl
@[simp] theorem State.modCore_pkgsY (s : State) (k : Nat) (f : Core → Core) : (s.modCore k f).pkgsY = s.pkgsY := rfl
@[simp] theorem State.modCore_ringX (s : State) (k : Nat) (f : Core → Core) : (s.modCore k f).ringX = s.ringX := rfl
@[simp] theorem State.modCore_ringY (s : State) (k : Nat) (f : Core → Core) : (s.modCore k f).ringY = s.ringY := rfl
@[simp] theorem State.modCore_xlbase (s : State) (k : Nat) (f : Core → Core) : (s.modCore k f).xlbase = s.xlbase := rfl
@[simp] theorem State.modCore_pwin (s : State) (k : Nat) (f : Core → Core) : (s.modCore k f).pwin = s.pwin := rfl
@[simp] theorem State.modCore_typebase (s : State) (k : Nat) (f : Core → Core) : (s.modCore k f).typebase = s.typebase := rfl
@[simp] theorem State.modCore_nextCin (s : State) (k : Nat) (f : Core → Core) : (s.modCore k f).nextCin = s.nextCin := rfl
@[simp] theorem State.modCore_floorCin (s : State) (k : Nat) (f : Core → Core) : (s.modCore k f).floorCin = s.floorCin := rfl
@[simp] theorem State.modCore_reclaimed (s : State) (k : Nat) (f : Core → Core) : (s.modCore k f).reclaimed = s.reclaimed := rfl

@[simp] theorem State.setCluster_agenda (s : State) (k : Nat) (c : Cluster) : (s.setCluster k c).agenda = s.agenda := rfl
@[simp] theorem State.setCluster_issue (s : State) (k : Nat) (c : Cluster) : (s.setCluster k c).issue = s.issue := rfl
@[simp] theorem State.setCluster_cur (s : State) (k : Nat) (c : Cluster) : (s.setCluster k c).cur = s.cur := rfl
@[simp] theorem State.setCluster_iword (s : State) (k : Nat) (c : Cluster) : (s.setCluster k c).iword = s.iword := rfl
@[simp] theorem State.setCluster_free (s : State) (k : Nat) (c : Cluster) : (s.setCluster k c).free = s.free := rfl
@[simp] theorem State.setCluster_nextId (s : State) (k : Nat) (c : Cluster) : (s.setCluster k c).nextId = s.nextId := rfl
@[simp] theorem State.setCluster_cycle (s : State) (k : Nat) (c : Cluster) : (s.setCluster k c).cycle = s.cycle := rfl
@[simp] theorem State.setCluster_timeNs (s : State) (k : Nat) (c : Cluster) : (s.setCluster k c).timeNs = s.timeNs := rfl
@[simp] theorem State.setCluster_tick (s : State) (k : Nat) (c : Cluster) : (s.setCluster k c).tick = s.tick := rfl
@[simp] theorem State.setCluster_pylon (s : State) (k : Nat) (c : Cluster) : (s.setCluster k c).pylon = s.pylon := rfl
@[simp] theorem State.setCluster_slow (s : State) (k : Nat) (c : Cluster) : (s.setCluster k c).slow = s.slow := rfl
@[simp] theorem State.setCluster_threads (s : State) (k : Nat) (c : Cluster) : (s.setCluster k c).threads = s.threads := rfl
@[simp] theorem State.setCluster_cores (s : State) (k : Nat) (c : Cluster) : (s.setCluster k c).cores = s.cores := rfl
@[simp] theorem State.setCluster_dies (s : State) (k : Nat) (c : Cluster) : (s.setCluster k c).dies = s.dies := rfl
@[simp] theorem State.setCluster_packages (s : State) (k : Nat) (c : Cluster) : (s.setCluster k c).packages = s.packages := rfl
@[simp] theorem State.setCluster_launches (s : State) (k : Nat) (c : Cluster) : (s.setCluster k c).launches = s.launches := rfl
@[simp] theorem State.setCluster_msgs (s : State) (k : Nat) (c : Cluster) : (s.setCluster k c).msgs = s.msgs := rfl
@[simp] theorem State.setCluster_links (s : State) (k : Nat) (c : Cluster) : (s.setCluster k c).links = s.links := rfl
@[simp] theorem State.setCluster_routers (s : State) (k : Nat) (c : Cluster) : (s.setCluster k c).routers = s.routers := rfl
@[simp] theorem State.setCluster_mem (s : State) (k : Nat) (c : Cluster) : (s.setCluster k c).mem = s.mem := rfl
@[simp] theorem State.setCluster_empties (s : State) (k : Nat) (c : Cluster) : (s.setCluster k c).empties = s.empties := rfl
@[simp] theorem State.setCluster_poison (s : State) (k : Nat) (c : Cluster) : (s.setCluster k c).poison = s.poison := rfl
@[simp] theorem State.setCluster_shadows (s : State) (k : Nat) (c : Cluster) : (s.setCluster k c).shadows = s.shadows := rfl
@[simp] theorem State.setCluster_kills (s : State) (k : Nat) (c : Cluster) : (s.setCluster k c).kills = s.kills := rfl
@[simp] theorem State.setCluster_fences (s : State) (k : Nat) (c : Cluster) : (s.setCluster k c).fences = s.fences := rfl
@[simp] theorem State.setCluster_xlinvs (s : State) (k : Nat) (c : Cluster) : (s.setCluster k c).xlinvs = s.xlinvs := rfl
@[simp] theorem State.setCluster_gangs (s : State) (k : Nat) (c : Cluster) : (s.setCluster k c).gangs = s.gangs := rfl
@[simp] theorem State.setCluster_calls (s : State) (k : Nat) (c : Cluster) : (s.setCluster k c).calls = s.calls := rfl
@[simp] theorem State.setCluster_flows (s : State) (k : Nat) (c : Cluster) : (s.setCluster k c).flows = s.flows := rfl
@[simp] theorem State.setCluster_place (s : State) (k : Nat) (c : Cluster) : (s.setCluster k c).place = s.place := rfl
@[simp] theorem State.setCluster_pkgsX (s : State) (k : Nat) (c : Cluster) : (s.setCluster k c).pkgsX = s.pkgsX := rfl
@[simp] theorem State.setCluster_pkgsY (s : State) (k : Nat) (c : Cluster) : (s.setCluster k c).pkgsY = s.pkgsY := rfl
@[simp] theorem State.setCluster_ringX (s : State) (k : Nat) (c : Cluster) : (s.setCluster k c).ringX = s.ringX := rfl
@[simp] theorem State.setCluster_ringY (s : State) (k : Nat) (c : Cluster) : (s.setCluster k c).ringY = s.ringY := rfl
@[simp] theorem State.setCluster_xlbase (s : State) (k : Nat) (c : Cluster) : (s.setCluster k c).xlbase = s.xlbase := rfl
@[simp] theorem State.setCluster_pwin (s : State) (k : Nat) (c : Cluster) : (s.setCluster k c).pwin = s.pwin := rfl
@[simp] theorem State.setCluster_typebase (s : State) (k : Nat) (c : Cluster) : (s.setCluster k c).typebase = s.typebase := rfl
@[simp] theorem State.setCluster_nextCin (s : State) (k : Nat) (c : Cluster) : (s.setCluster k c).nextCin = s.nextCin := rfl
@[simp] theorem State.setCluster_floorCin (s : State) (k : Nat) (c : Cluster) : (s.setCluster k c).floorCin = s.floorCin := rfl
@[simp] theorem State.setCluster_reclaimed (s : State) (k : Nat) (c : Cluster) : (s.setCluster k c).reclaimed = s.reclaimed := rfl

@[simp] theorem State.modCluster_agenda (s : State) (k : Nat) (f : Cluster → Cluster) : (s.modCluster k f).agenda = s.agenda := rfl
@[simp] theorem State.modCluster_issue (s : State) (k : Nat) (f : Cluster → Cluster) : (s.modCluster k f).issue = s.issue := rfl
@[simp] theorem State.modCluster_cur (s : State) (k : Nat) (f : Cluster → Cluster) : (s.modCluster k f).cur = s.cur := rfl
@[simp] theorem State.modCluster_iword (s : State) (k : Nat) (f : Cluster → Cluster) : (s.modCluster k f).iword = s.iword := rfl
@[simp] theorem State.modCluster_free (s : State) (k : Nat) (f : Cluster → Cluster) : (s.modCluster k f).free = s.free := rfl
@[simp] theorem State.modCluster_nextId (s : State) (k : Nat) (f : Cluster → Cluster) : (s.modCluster k f).nextId = s.nextId := rfl
@[simp] theorem State.modCluster_cycle (s : State) (k : Nat) (f : Cluster → Cluster) : (s.modCluster k f).cycle = s.cycle := rfl
@[simp] theorem State.modCluster_timeNs (s : State) (k : Nat) (f : Cluster → Cluster) : (s.modCluster k f).timeNs = s.timeNs := rfl
@[simp] theorem State.modCluster_tick (s : State) (k : Nat) (f : Cluster → Cluster) : (s.modCluster k f).tick = s.tick := rfl
@[simp] theorem State.modCluster_pylon (s : State) (k : Nat) (f : Cluster → Cluster) : (s.modCluster k f).pylon = s.pylon := rfl
@[simp] theorem State.modCluster_slow (s : State) (k : Nat) (f : Cluster → Cluster) : (s.modCluster k f).slow = s.slow := rfl
@[simp] theorem State.modCluster_threads (s : State) (k : Nat) (f : Cluster → Cluster) : (s.modCluster k f).threads = s.threads := rfl
@[simp] theorem State.modCluster_cores (s : State) (k : Nat) (f : Cluster → Cluster) : (s.modCluster k f).cores = s.cores := rfl
@[simp] theorem State.modCluster_dies (s : State) (k : Nat) (f : Cluster → Cluster) : (s.modCluster k f).dies = s.dies := rfl
@[simp] theorem State.modCluster_packages (s : State) (k : Nat) (f : Cluster → Cluster) : (s.modCluster k f).packages = s.packages := rfl
@[simp] theorem State.modCluster_launches (s : State) (k : Nat) (f : Cluster → Cluster) : (s.modCluster k f).launches = s.launches := rfl
@[simp] theorem State.modCluster_msgs (s : State) (k : Nat) (f : Cluster → Cluster) : (s.modCluster k f).msgs = s.msgs := rfl
@[simp] theorem State.modCluster_links (s : State) (k : Nat) (f : Cluster → Cluster) : (s.modCluster k f).links = s.links := rfl
@[simp] theorem State.modCluster_routers (s : State) (k : Nat) (f : Cluster → Cluster) : (s.modCluster k f).routers = s.routers := rfl
@[simp] theorem State.modCluster_mem (s : State) (k : Nat) (f : Cluster → Cluster) : (s.modCluster k f).mem = s.mem := rfl
@[simp] theorem State.modCluster_empties (s : State) (k : Nat) (f : Cluster → Cluster) : (s.modCluster k f).empties = s.empties := rfl
@[simp] theorem State.modCluster_poison (s : State) (k : Nat) (f : Cluster → Cluster) : (s.modCluster k f).poison = s.poison := rfl
@[simp] theorem State.modCluster_shadows (s : State) (k : Nat) (f : Cluster → Cluster) : (s.modCluster k f).shadows = s.shadows := rfl
@[simp] theorem State.modCluster_kills (s : State) (k : Nat) (f : Cluster → Cluster) : (s.modCluster k f).kills = s.kills := rfl
@[simp] theorem State.modCluster_fences (s : State) (k : Nat) (f : Cluster → Cluster) : (s.modCluster k f).fences = s.fences := rfl
@[simp] theorem State.modCluster_xlinvs (s : State) (k : Nat) (f : Cluster → Cluster) : (s.modCluster k f).xlinvs = s.xlinvs := rfl
@[simp] theorem State.modCluster_gangs (s : State) (k : Nat) (f : Cluster → Cluster) : (s.modCluster k f).gangs = s.gangs := rfl
@[simp] theorem State.modCluster_calls (s : State) (k : Nat) (f : Cluster → Cluster) : (s.modCluster k f).calls = s.calls := rfl
@[simp] theorem State.modCluster_flows (s : State) (k : Nat) (f : Cluster → Cluster) : (s.modCluster k f).flows = s.flows := rfl
@[simp] theorem State.modCluster_place (s : State) (k : Nat) (f : Cluster → Cluster) : (s.modCluster k f).place = s.place := rfl
@[simp] theorem State.modCluster_pkgsX (s : State) (k : Nat) (f : Cluster → Cluster) : (s.modCluster k f).pkgsX = s.pkgsX := rfl
@[simp] theorem State.modCluster_pkgsY (s : State) (k : Nat) (f : Cluster → Cluster) : (s.modCluster k f).pkgsY = s.pkgsY := rfl
@[simp] theorem State.modCluster_ringX (s : State) (k : Nat) (f : Cluster → Cluster) : (s.modCluster k f).ringX = s.ringX := rfl
@[simp] theorem State.modCluster_ringY (s : State) (k : Nat) (f : Cluster → Cluster) : (s.modCluster k f).ringY = s.ringY := rfl
@[simp] theorem State.modCluster_xlbase (s : State) (k : Nat) (f : Cluster → Cluster) : (s.modCluster k f).xlbase = s.xlbase := rfl
@[simp] theorem State.modCluster_pwin (s : State) (k : Nat) (f : Cluster → Cluster) : (s.modCluster k f).pwin = s.pwin := rfl
@[simp] theorem State.modCluster_typebase (s : State) (k : Nat) (f : Cluster → Cluster) : (s.modCluster k f).typebase = s.typebase := rfl
@[simp] theorem State.modCluster_nextCin (s : State) (k : Nat) (f : Cluster → Cluster) : (s.modCluster k f).nextCin = s.nextCin := rfl
@[simp] theorem State.modCluster_floorCin (s : State) (k : Nat) (f : Cluster → Cluster) : (s.modCluster k f).floorCin = s.floorCin := rfl
@[simp] theorem State.modCluster_reclaimed (s : State) (k : Nat) (f : Cluster → Cluster) : (s.modCluster k f).reclaimed = s.reclaimed := rfl

@[simp] theorem State.modDie_agenda (s : State) (k : Nat) (f : Die → Die) : (s.modDie k f).agenda = s.agenda := rfl
@[simp] theorem State.modDie_issue (s : State) (k : Nat) (f : Die → Die) : (s.modDie k f).issue = s.issue := rfl
@[simp] theorem State.modDie_cur (s : State) (k : Nat) (f : Die → Die) : (s.modDie k f).cur = s.cur := rfl
@[simp] theorem State.modDie_iword (s : State) (k : Nat) (f : Die → Die) : (s.modDie k f).iword = s.iword := rfl
@[simp] theorem State.modDie_free (s : State) (k : Nat) (f : Die → Die) : (s.modDie k f).free = s.free := rfl
@[simp] theorem State.modDie_nextId (s : State) (k : Nat) (f : Die → Die) : (s.modDie k f).nextId = s.nextId := rfl
@[simp] theorem State.modDie_cycle (s : State) (k : Nat) (f : Die → Die) : (s.modDie k f).cycle = s.cycle := rfl
@[simp] theorem State.modDie_timeNs (s : State) (k : Nat) (f : Die → Die) : (s.modDie k f).timeNs = s.timeNs := rfl
@[simp] theorem State.modDie_tick (s : State) (k : Nat) (f : Die → Die) : (s.modDie k f).tick = s.tick := rfl
@[simp] theorem State.modDie_pylon (s : State) (k : Nat) (f : Die → Die) : (s.modDie k f).pylon = s.pylon := rfl
@[simp] theorem State.modDie_slow (s : State) (k : Nat) (f : Die → Die) : (s.modDie k f).slow = s.slow := rfl
@[simp] theorem State.modDie_threads (s : State) (k : Nat) (f : Die → Die) : (s.modDie k f).threads = s.threads := rfl
@[simp] theorem State.modDie_cores (s : State) (k : Nat) (f : Die → Die) : (s.modDie k f).cores = s.cores := rfl
@[simp] theorem State.modDie_clusters (s : State) (k : Nat) (f : Die → Die) : (s.modDie k f).clusters = s.clusters := rfl
@[simp] theorem State.modDie_packages (s : State) (k : Nat) (f : Die → Die) : (s.modDie k f).packages = s.packages := rfl
@[simp] theorem State.modDie_launches (s : State) (k : Nat) (f : Die → Die) : (s.modDie k f).launches = s.launches := rfl
@[simp] theorem State.modDie_msgs (s : State) (k : Nat) (f : Die → Die) : (s.modDie k f).msgs = s.msgs := rfl
@[simp] theorem State.modDie_links (s : State) (k : Nat) (f : Die → Die) : (s.modDie k f).links = s.links := rfl
@[simp] theorem State.modDie_routers (s : State) (k : Nat) (f : Die → Die) : (s.modDie k f).routers = s.routers := rfl
@[simp] theorem State.modDie_mem (s : State) (k : Nat) (f : Die → Die) : (s.modDie k f).mem = s.mem := rfl
@[simp] theorem State.modDie_empties (s : State) (k : Nat) (f : Die → Die) : (s.modDie k f).empties = s.empties := rfl
@[simp] theorem State.modDie_poison (s : State) (k : Nat) (f : Die → Die) : (s.modDie k f).poison = s.poison := rfl
@[simp] theorem State.modDie_shadows (s : State) (k : Nat) (f : Die → Die) : (s.modDie k f).shadows = s.shadows := rfl
@[simp] theorem State.modDie_kills (s : State) (k : Nat) (f : Die → Die) : (s.modDie k f).kills = s.kills := rfl
@[simp] theorem State.modDie_fences (s : State) (k : Nat) (f : Die → Die) : (s.modDie k f).fences = s.fences := rfl
@[simp] theorem State.modDie_xlinvs (s : State) (k : Nat) (f : Die → Die) : (s.modDie k f).xlinvs = s.xlinvs := rfl
@[simp] theorem State.modDie_gangs (s : State) (k : Nat) (f : Die → Die) : (s.modDie k f).gangs = s.gangs := rfl
@[simp] theorem State.modDie_calls (s : State) (k : Nat) (f : Die → Die) : (s.modDie k f).calls = s.calls := rfl
@[simp] theorem State.modDie_flows (s : State) (k : Nat) (f : Die → Die) : (s.modDie k f).flows = s.flows := rfl
@[simp] theorem State.modDie_place (s : State) (k : Nat) (f : Die → Die) : (s.modDie k f).place = s.place := rfl
@[simp] theorem State.modDie_pkgsX (s : State) (k : Nat) (f : Die → Die) : (s.modDie k f).pkgsX = s.pkgsX := rfl
@[simp] theorem State.modDie_pkgsY (s : State) (k : Nat) (f : Die → Die) : (s.modDie k f).pkgsY = s.pkgsY := rfl
@[simp] theorem State.modDie_ringX (s : State) (k : Nat) (f : Die → Die) : (s.modDie k f).ringX = s.ringX := rfl
@[simp] theorem State.modDie_ringY (s : State) (k : Nat) (f : Die → Die) : (s.modDie k f).ringY = s.ringY := rfl
@[simp] theorem State.modDie_xlbase (s : State) (k : Nat) (f : Die → Die) : (s.modDie k f).xlbase = s.xlbase := rfl
@[simp] theorem State.modDie_pwin (s : State) (k : Nat) (f : Die → Die) : (s.modDie k f).pwin = s.pwin := rfl
@[simp] theorem State.modDie_typebase (s : State) (k : Nat) (f : Die → Die) : (s.modDie k f).typebase = s.typebase := rfl
@[simp] theorem State.modDie_nextCin (s : State) (k : Nat) (f : Die → Die) : (s.modDie k f).nextCin = s.nextCin := rfl
@[simp] theorem State.modDie_floorCin (s : State) (k : Nat) (f : Die → Die) : (s.modDie k f).floorCin = s.floorCin := rfl
@[simp] theorem State.modDie_reclaimed (s : State) (k : Nat) (f : Die → Die) : (s.modDie k f).reclaimed = s.reclaimed := rfl

@[simp] theorem State.svc_agenda (s : State) (k : Nat) (m : SvcMsg) : (s.svc k m).agenda = s.agenda := rfl
@[simp] theorem State.svc_issue (s : State) (k : Nat) (m : SvcMsg) : (s.svc k m).issue = s.issue := rfl
@[simp] theorem State.svc_cur (s : State) (k : Nat) (m : SvcMsg) : (s.svc k m).cur = s.cur := rfl
@[simp] theorem State.svc_iword (s : State) (k : Nat) (m : SvcMsg) : (s.svc k m).iword = s.iword := rfl
@[simp] theorem State.svc_free (s : State) (k : Nat) (m : SvcMsg) : (s.svc k m).free = s.free := rfl
@[simp] theorem State.svc_nextId (s : State) (k : Nat) (m : SvcMsg) : (s.svc k m).nextId = s.nextId := rfl
@[simp] theorem State.svc_cycle (s : State) (k : Nat) (m : SvcMsg) : (s.svc k m).cycle = s.cycle := rfl
@[simp] theorem State.svc_timeNs (s : State) (k : Nat) (m : SvcMsg) : (s.svc k m).timeNs = s.timeNs := rfl
@[simp] theorem State.svc_tick (s : State) (k : Nat) (m : SvcMsg) : (s.svc k m).tick = s.tick := rfl
@[simp] theorem State.svc_pylon (s : State) (k : Nat) (m : SvcMsg) : (s.svc k m).pylon = s.pylon := rfl
@[simp] theorem State.svc_slow (s : State) (k : Nat) (m : SvcMsg) : (s.svc k m).slow = s.slow := rfl
@[simp] theorem State.svc_threads (s : State) (k : Nat) (m : SvcMsg) : (s.svc k m).threads = s.threads := rfl
@[simp] theorem State.svc_cores (s : State) (k : Nat) (m : SvcMsg) : (s.svc k m).cores = s.cores := rfl
@[simp] theorem State.svc_clusters (s : State) (k : Nat) (m : SvcMsg) : (s.svc k m).clusters = s.clusters := rfl
@[simp] theorem State.svc_packages (s : State) (k : Nat) (m : SvcMsg) : (s.svc k m).packages = s.packages := rfl
@[simp] theorem State.svc_launches (s : State) (k : Nat) (m : SvcMsg) : (s.svc k m).launches = s.launches := rfl
@[simp] theorem State.svc_msgs (s : State) (k : Nat) (m : SvcMsg) : (s.svc k m).msgs = s.msgs := rfl
@[simp] theorem State.svc_links (s : State) (k : Nat) (m : SvcMsg) : (s.svc k m).links = s.links := rfl
@[simp] theorem State.svc_routers (s : State) (k : Nat) (m : SvcMsg) : (s.svc k m).routers = s.routers := rfl
@[simp] theorem State.svc_mem (s : State) (k : Nat) (m : SvcMsg) : (s.svc k m).mem = s.mem := rfl
@[simp] theorem State.svc_empties (s : State) (k : Nat) (m : SvcMsg) : (s.svc k m).empties = s.empties := rfl
@[simp] theorem State.svc_poison (s : State) (k : Nat) (m : SvcMsg) : (s.svc k m).poison = s.poison := rfl
@[simp] theorem State.svc_shadows (s : State) (k : Nat) (m : SvcMsg) : (s.svc k m).shadows = s.shadows := rfl
@[simp] theorem State.svc_kills (s : State) (k : Nat) (m : SvcMsg) : (s.svc k m).kills = s.kills := rfl
@[simp] theorem State.svc_fences (s : State) (k : Nat) (m : SvcMsg) : (s.svc k m).fences = s.fences := rfl
@[simp] theorem State.svc_xlinvs (s : State) (k : Nat) (m : SvcMsg) : (s.svc k m).xlinvs = s.xlinvs := rfl
@[simp] theorem State.svc_gangs (s : State) (k : Nat) (m : SvcMsg) : (s.svc k m).gangs = s.gangs := rfl
@[simp] theorem State.svc_calls (s : State) (k : Nat) (m : SvcMsg) : (s.svc k m).calls = s.calls := rfl
@[simp] theorem State.svc_flows (s : State) (k : Nat) (m : SvcMsg) : (s.svc k m).flows = s.flows := rfl
@[simp] theorem State.svc_place (s : State) (k : Nat) (m : SvcMsg) : (s.svc k m).place = s.place := rfl
@[simp] theorem State.svc_pkgsX (s : State) (k : Nat) (m : SvcMsg) : (s.svc k m).pkgsX = s.pkgsX := rfl
@[simp] theorem State.svc_pkgsY (s : State) (k : Nat) (m : SvcMsg) : (s.svc k m).pkgsY = s.pkgsY := rfl
@[simp] theorem State.svc_ringX (s : State) (k : Nat) (m : SvcMsg) : (s.svc k m).ringX = s.ringX := rfl
@[simp] theorem State.svc_ringY (s : State) (k : Nat) (m : SvcMsg) : (s.svc k m).ringY = s.ringY := rfl
@[simp] theorem State.svc_xlbase (s : State) (k : Nat) (m : SvcMsg) : (s.svc k m).xlbase = s.xlbase := rfl
@[simp] theorem State.svc_pwin (s : State) (k : Nat) (m : SvcMsg) : (s.svc k m).pwin = s.pwin := rfl
@[simp] theorem State.svc_typebase (s : State) (k : Nat) (m : SvcMsg) : (s.svc k m).typebase = s.typebase := rfl
@[simp] theorem State.svc_nextCin (s : State) (k : Nat) (m : SvcMsg) : (s.svc k m).nextCin = s.nextCin := rfl
@[simp] theorem State.svc_floorCin (s : State) (k : Nat) (m : SvcMsg) : (s.svc k m).floorCin = s.floorCin := rfl
@[simp] theorem State.svc_reclaimed (s : State) (k : Nat) (m : SvcMsg) : (s.svc k m).reclaimed = s.reclaimed := rfl

@[simp] theorem State.setPkg_agenda (s : State) (k : Nat) (p : Package) : (s.setPkg k p).agenda = s.agenda := rfl
@[simp] theorem State.setPkg_issue (s : State) (k : Nat) (p : Package) : (s.setPkg k p).issue = s.issue := rfl
@[simp] theorem State.setPkg_cur (s : State) (k : Nat) (p : Package) : (s.setPkg k p).cur = s.cur := rfl
@[simp] theorem State.setPkg_iword (s : State) (k : Nat) (p : Package) : (s.setPkg k p).iword = s.iword := rfl
@[simp] theorem State.setPkg_free (s : State) (k : Nat) (p : Package) : (s.setPkg k p).free = s.free := rfl
@[simp] theorem State.setPkg_nextId (s : State) (k : Nat) (p : Package) : (s.setPkg k p).nextId = s.nextId := rfl
@[simp] theorem State.setPkg_cycle (s : State) (k : Nat) (p : Package) : (s.setPkg k p).cycle = s.cycle := rfl
@[simp] theorem State.setPkg_timeNs (s : State) (k : Nat) (p : Package) : (s.setPkg k p).timeNs = s.timeNs := rfl
@[simp] theorem State.setPkg_tick (s : State) (k : Nat) (p : Package) : (s.setPkg k p).tick = s.tick := rfl
@[simp] theorem State.setPkg_pylon (s : State) (k : Nat) (p : Package) : (s.setPkg k p).pylon = s.pylon := rfl
@[simp] theorem State.setPkg_slow (s : State) (k : Nat) (p : Package) : (s.setPkg k p).slow = s.slow := rfl
@[simp] theorem State.setPkg_threads (s : State) (k : Nat) (p : Package) : (s.setPkg k p).threads = s.threads := rfl
@[simp] theorem State.setPkg_cores (s : State) (k : Nat) (p : Package) : (s.setPkg k p).cores = s.cores := rfl
@[simp] theorem State.setPkg_clusters (s : State) (k : Nat) (p : Package) : (s.setPkg k p).clusters = s.clusters := rfl
@[simp] theorem State.setPkg_dies (s : State) (k : Nat) (p : Package) : (s.setPkg k p).dies = s.dies := rfl
@[simp] theorem State.setPkg_launches (s : State) (k : Nat) (p : Package) : (s.setPkg k p).launches = s.launches := rfl
@[simp] theorem State.setPkg_msgs (s : State) (k : Nat) (p : Package) : (s.setPkg k p).msgs = s.msgs := rfl
@[simp] theorem State.setPkg_links (s : State) (k : Nat) (p : Package) : (s.setPkg k p).links = s.links := rfl
@[simp] theorem State.setPkg_routers (s : State) (k : Nat) (p : Package) : (s.setPkg k p).routers = s.routers := rfl
@[simp] theorem State.setPkg_mem (s : State) (k : Nat) (p : Package) : (s.setPkg k p).mem = s.mem := rfl
@[simp] theorem State.setPkg_empties (s : State) (k : Nat) (p : Package) : (s.setPkg k p).empties = s.empties := rfl
@[simp] theorem State.setPkg_poison (s : State) (k : Nat) (p : Package) : (s.setPkg k p).poison = s.poison := rfl
@[simp] theorem State.setPkg_shadows (s : State) (k : Nat) (p : Package) : (s.setPkg k p).shadows = s.shadows := rfl
@[simp] theorem State.setPkg_kills (s : State) (k : Nat) (p : Package) : (s.setPkg k p).kills = s.kills := rfl
@[simp] theorem State.setPkg_fences (s : State) (k : Nat) (p : Package) : (s.setPkg k p).fences = s.fences := rfl
@[simp] theorem State.setPkg_xlinvs (s : State) (k : Nat) (p : Package) : (s.setPkg k p).xlinvs = s.xlinvs := rfl
@[simp] theorem State.setPkg_gangs (s : State) (k : Nat) (p : Package) : (s.setPkg k p).gangs = s.gangs := rfl
@[simp] theorem State.setPkg_calls (s : State) (k : Nat) (p : Package) : (s.setPkg k p).calls = s.calls := rfl
@[simp] theorem State.setPkg_flows (s : State) (k : Nat) (p : Package) : (s.setPkg k p).flows = s.flows := rfl
@[simp] theorem State.setPkg_place (s : State) (k : Nat) (p : Package) : (s.setPkg k p).place = s.place := rfl
@[simp] theorem State.setPkg_pkgsX (s : State) (k : Nat) (p : Package) : (s.setPkg k p).pkgsX = s.pkgsX := rfl
@[simp] theorem State.setPkg_pkgsY (s : State) (k : Nat) (p : Package) : (s.setPkg k p).pkgsY = s.pkgsY := rfl
@[simp] theorem State.setPkg_ringX (s : State) (k : Nat) (p : Package) : (s.setPkg k p).ringX = s.ringX := rfl
@[simp] theorem State.setPkg_ringY (s : State) (k : Nat) (p : Package) : (s.setPkg k p).ringY = s.ringY := rfl
@[simp] theorem State.setPkg_xlbase (s : State) (k : Nat) (p : Package) : (s.setPkg k p).xlbase = s.xlbase := rfl
@[simp] theorem State.setPkg_pwin (s : State) (k : Nat) (p : Package) : (s.setPkg k p).pwin = s.pwin := rfl
@[simp] theorem State.setPkg_typebase (s : State) (k : Nat) (p : Package) : (s.setPkg k p).typebase = s.typebase := rfl
@[simp] theorem State.setPkg_nextCin (s : State) (k : Nat) (p : Package) : (s.setPkg k p).nextCin = s.nextCin := rfl
@[simp] theorem State.setPkg_floorCin (s : State) (k : Nat) (p : Package) : (s.setPkg k p).floorCin = s.floorCin := rfl
@[simp] theorem State.setPkg_reclaimed (s : State) (k : Nat) (p : Package) : (s.setPkg k p).reclaimed = s.reclaimed := rfl

@[simp] theorem State.poke_agenda (s : State) (a n v : Nat) : (s.poke a n v).agenda = s.agenda := rfl
@[simp] theorem State.poke_issue (s : State) (a n v : Nat) : (s.poke a n v).issue = s.issue := rfl
@[simp] theorem State.poke_cur (s : State) (a n v : Nat) : (s.poke a n v).cur = s.cur := rfl
@[simp] theorem State.poke_iword (s : State) (a n v : Nat) : (s.poke a n v).iword = s.iword := rfl
@[simp] theorem State.poke_free (s : State) (a n v : Nat) : (s.poke a n v).free = s.free := rfl
@[simp] theorem State.poke_nextId (s : State) (a n v : Nat) : (s.poke a n v).nextId = s.nextId := rfl
@[simp] theorem State.poke_cycle (s : State) (a n v : Nat) : (s.poke a n v).cycle = s.cycle := rfl
@[simp] theorem State.poke_timeNs (s : State) (a n v : Nat) : (s.poke a n v).timeNs = s.timeNs := rfl
@[simp] theorem State.poke_tick (s : State) (a n v : Nat) : (s.poke a n v).tick = s.tick := rfl
@[simp] theorem State.poke_pylon (s : State) (a n v : Nat) : (s.poke a n v).pylon = s.pylon := rfl
@[simp] theorem State.poke_slow (s : State) (a n v : Nat) : (s.poke a n v).slow = s.slow := rfl
@[simp] theorem State.poke_threads (s : State) (a n v : Nat) : (s.poke a n v).threads = s.threads := rfl
@[simp] theorem State.poke_cores (s : State) (a n v : Nat) : (s.poke a n v).cores = s.cores := rfl
@[simp] theorem State.poke_clusters (s : State) (a n v : Nat) : (s.poke a n v).clusters = s.clusters := rfl
@[simp] theorem State.poke_dies (s : State) (a n v : Nat) : (s.poke a n v).dies = s.dies := rfl
@[simp] theorem State.poke_packages (s : State) (a n v : Nat) : (s.poke a n v).packages = s.packages := rfl
@[simp] theorem State.poke_launches (s : State) (a n v : Nat) : (s.poke a n v).launches = s.launches := rfl
@[simp] theorem State.poke_msgs (s : State) (a n v : Nat) : (s.poke a n v).msgs = s.msgs := rfl
@[simp] theorem State.poke_links (s : State) (a n v : Nat) : (s.poke a n v).links = s.links := rfl
@[simp] theorem State.poke_routers (s : State) (a n v : Nat) : (s.poke a n v).routers = s.routers := rfl
@[simp] theorem State.poke_empties (s : State) (a n v : Nat) : (s.poke a n v).empties = s.empties := rfl
@[simp] theorem State.poke_poison (s : State) (a n v : Nat) : (s.poke a n v).poison = s.poison := rfl
@[simp] theorem State.poke_shadows (s : State) (a n v : Nat) : (s.poke a n v).shadows = s.shadows := rfl
@[simp] theorem State.poke_kills (s : State) (a n v : Nat) : (s.poke a n v).kills = s.kills := rfl
@[simp] theorem State.poke_fences (s : State) (a n v : Nat) : (s.poke a n v).fences = s.fences := rfl
@[simp] theorem State.poke_xlinvs (s : State) (a n v : Nat) : (s.poke a n v).xlinvs = s.xlinvs := rfl
@[simp] theorem State.poke_gangs (s : State) (a n v : Nat) : (s.poke a n v).gangs = s.gangs := rfl
@[simp] theorem State.poke_calls (s : State) (a n v : Nat) : (s.poke a n v).calls = s.calls := rfl
@[simp] theorem State.poke_flows (s : State) (a n v : Nat) : (s.poke a n v).flows = s.flows := rfl
@[simp] theorem State.poke_place (s : State) (a n v : Nat) : (s.poke a n v).place = s.place := rfl
@[simp] theorem State.poke_pkgsX (s : State) (a n v : Nat) : (s.poke a n v).pkgsX = s.pkgsX := rfl
@[simp] theorem State.poke_pkgsY (s : State) (a n v : Nat) : (s.poke a n v).pkgsY = s.pkgsY := rfl
@[simp] theorem State.poke_ringX (s : State) (a n v : Nat) : (s.poke a n v).ringX = s.ringX := rfl
@[simp] theorem State.poke_ringY (s : State) (a n v : Nat) : (s.poke a n v).ringY = s.ringY := rfl
@[simp] theorem State.poke_xlbase (s : State) (a n v : Nat) : (s.poke a n v).xlbase = s.xlbase := rfl
@[simp] theorem State.poke_pwin (s : State) (a n v : Nat) : (s.poke a n v).pwin = s.pwin := rfl
@[simp] theorem State.poke_typebase (s : State) (a n v : Nat) : (s.poke a n v).typebase = s.typebase := rfl
@[simp] theorem State.poke_nextCin (s : State) (a n v : Nat) : (s.poke a n v).nextCin = s.nextCin := rfl
@[simp] theorem State.poke_floorCin (s : State) (a n v : Nat) : (s.poke a n v).floorCin = s.floorCin := rfl
@[simp] theorem State.poke_reclaimed (s : State) (a n v : Nat) : (s.poke a n v).reclaimed = s.reclaimed := rfl

@[simp] theorem State.fillTags_agenda (s : State) (a n : Nat) : (s.fillTags a n).agenda = s.agenda := rfl
@[simp] theorem State.fillTags_issue (s : State) (a n : Nat) : (s.fillTags a n).issue = s.issue := rfl
@[simp] theorem State.fillTags_cur (s : State) (a n : Nat) : (s.fillTags a n).cur = s.cur := rfl
@[simp] theorem State.fillTags_iword (s : State) (a n : Nat) : (s.fillTags a n).iword = s.iword := rfl
@[simp] theorem State.fillTags_free (s : State) (a n : Nat) : (s.fillTags a n).free = s.free := rfl
@[simp] theorem State.fillTags_nextId (s : State) (a n : Nat) : (s.fillTags a n).nextId = s.nextId := rfl
@[simp] theorem State.fillTags_cycle (s : State) (a n : Nat) : (s.fillTags a n).cycle = s.cycle := rfl
@[simp] theorem State.fillTags_timeNs (s : State) (a n : Nat) : (s.fillTags a n).timeNs = s.timeNs := rfl
@[simp] theorem State.fillTags_tick (s : State) (a n : Nat) : (s.fillTags a n).tick = s.tick := rfl
@[simp] theorem State.fillTags_pylon (s : State) (a n : Nat) : (s.fillTags a n).pylon = s.pylon := rfl
@[simp] theorem State.fillTags_slow (s : State) (a n : Nat) : (s.fillTags a n).slow = s.slow := rfl
@[simp] theorem State.fillTags_threads (s : State) (a n : Nat) : (s.fillTags a n).threads = s.threads := rfl
@[simp] theorem State.fillTags_cores (s : State) (a n : Nat) : (s.fillTags a n).cores = s.cores := rfl
@[simp] theorem State.fillTags_clusters (s : State) (a n : Nat) : (s.fillTags a n).clusters = s.clusters := rfl
@[simp] theorem State.fillTags_dies (s : State) (a n : Nat) : (s.fillTags a n).dies = s.dies := rfl
@[simp] theorem State.fillTags_packages (s : State) (a n : Nat) : (s.fillTags a n).packages = s.packages := rfl
@[simp] theorem State.fillTags_launches (s : State) (a n : Nat) : (s.fillTags a n).launches = s.launches := rfl
@[simp] theorem State.fillTags_msgs (s : State) (a n : Nat) : (s.fillTags a n).msgs = s.msgs := rfl
@[simp] theorem State.fillTags_links (s : State) (a n : Nat) : (s.fillTags a n).links = s.links := rfl
@[simp] theorem State.fillTags_routers (s : State) (a n : Nat) : (s.fillTags a n).routers = s.routers := rfl
@[simp] theorem State.fillTags_mem (s : State) (a n : Nat) : (s.fillTags a n).mem = s.mem := rfl
@[simp] theorem State.fillTags_poison (s : State) (a n : Nat) : (s.fillTags a n).poison = s.poison := rfl
@[simp] theorem State.fillTags_shadows (s : State) (a n : Nat) : (s.fillTags a n).shadows = s.shadows := rfl
@[simp] theorem State.fillTags_kills (s : State) (a n : Nat) : (s.fillTags a n).kills = s.kills := rfl
@[simp] theorem State.fillTags_fences (s : State) (a n : Nat) : (s.fillTags a n).fences = s.fences := rfl
@[simp] theorem State.fillTags_xlinvs (s : State) (a n : Nat) : (s.fillTags a n).xlinvs = s.xlinvs := rfl
@[simp] theorem State.fillTags_gangs (s : State) (a n : Nat) : (s.fillTags a n).gangs = s.gangs := rfl
@[simp] theorem State.fillTags_calls (s : State) (a n : Nat) : (s.fillTags a n).calls = s.calls := rfl
@[simp] theorem State.fillTags_flows (s : State) (a n : Nat) : (s.fillTags a n).flows = s.flows := rfl
@[simp] theorem State.fillTags_place (s : State) (a n : Nat) : (s.fillTags a n).place = s.place := rfl
@[simp] theorem State.fillTags_pkgsX (s : State) (a n : Nat) : (s.fillTags a n).pkgsX = s.pkgsX := rfl
@[simp] theorem State.fillTags_pkgsY (s : State) (a n : Nat) : (s.fillTags a n).pkgsY = s.pkgsY := rfl
@[simp] theorem State.fillTags_ringX (s : State) (a n : Nat) : (s.fillTags a n).ringX = s.ringX := rfl
@[simp] theorem State.fillTags_ringY (s : State) (a n : Nat) : (s.fillTags a n).ringY = s.ringY := rfl
@[simp] theorem State.fillTags_xlbase (s : State) (a n : Nat) : (s.fillTags a n).xlbase = s.xlbase := rfl
@[simp] theorem State.fillTags_pwin (s : State) (a n : Nat) : (s.fillTags a n).pwin = s.pwin := rfl
@[simp] theorem State.fillTags_typebase (s : State) (a n : Nat) : (s.fillTags a n).typebase = s.typebase := rfl
@[simp] theorem State.fillTags_nextCin (s : State) (a n : Nat) : (s.fillTags a n).nextCin = s.nextCin := rfl
@[simp] theorem State.fillTags_floorCin (s : State) (a n : Nat) : (s.fillTags a n).floorCin = s.floorCin := rfl
@[simp] theorem State.fillTags_reclaimed (s : State) (a n : Nat) : (s.fillTags a n).reclaimed = s.reclaimed := rfl

@[simp] theorem State.clearPoison_agenda (s : State) (a n : Nat) : (s.clearPoison a n).agenda = s.agenda := rfl
@[simp] theorem State.clearPoison_issue (s : State) (a n : Nat) : (s.clearPoison a n).issue = s.issue := rfl
@[simp] theorem State.clearPoison_cur (s : State) (a n : Nat) : (s.clearPoison a n).cur = s.cur := rfl
@[simp] theorem State.clearPoison_iword (s : State) (a n : Nat) : (s.clearPoison a n).iword = s.iword := rfl
@[simp] theorem State.clearPoison_free (s : State) (a n : Nat) : (s.clearPoison a n).free = s.free := rfl
@[simp] theorem State.clearPoison_nextId (s : State) (a n : Nat) : (s.clearPoison a n).nextId = s.nextId := rfl
@[simp] theorem State.clearPoison_cycle (s : State) (a n : Nat) : (s.clearPoison a n).cycle = s.cycle := rfl
@[simp] theorem State.clearPoison_timeNs (s : State) (a n : Nat) : (s.clearPoison a n).timeNs = s.timeNs := rfl
@[simp] theorem State.clearPoison_tick (s : State) (a n : Nat) : (s.clearPoison a n).tick = s.tick := rfl
@[simp] theorem State.clearPoison_pylon (s : State) (a n : Nat) : (s.clearPoison a n).pylon = s.pylon := rfl
@[simp] theorem State.clearPoison_slow (s : State) (a n : Nat) : (s.clearPoison a n).slow = s.slow := rfl
@[simp] theorem State.clearPoison_threads (s : State) (a n : Nat) : (s.clearPoison a n).threads = s.threads := rfl
@[simp] theorem State.clearPoison_cores (s : State) (a n : Nat) : (s.clearPoison a n).cores = s.cores := rfl
@[simp] theorem State.clearPoison_clusters (s : State) (a n : Nat) : (s.clearPoison a n).clusters = s.clusters := rfl
@[simp] theorem State.clearPoison_dies (s : State) (a n : Nat) : (s.clearPoison a n).dies = s.dies := rfl
@[simp] theorem State.clearPoison_packages (s : State) (a n : Nat) : (s.clearPoison a n).packages = s.packages := rfl
@[simp] theorem State.clearPoison_launches (s : State) (a n : Nat) : (s.clearPoison a n).launches = s.launches := rfl
@[simp] theorem State.clearPoison_msgs (s : State) (a n : Nat) : (s.clearPoison a n).msgs = s.msgs := rfl
@[simp] theorem State.clearPoison_links (s : State) (a n : Nat) : (s.clearPoison a n).links = s.links := rfl
@[simp] theorem State.clearPoison_routers (s : State) (a n : Nat) : (s.clearPoison a n).routers = s.routers := rfl
@[simp] theorem State.clearPoison_mem (s : State) (a n : Nat) : (s.clearPoison a n).mem = s.mem := rfl
@[simp] theorem State.clearPoison_empties (s : State) (a n : Nat) : (s.clearPoison a n).empties = s.empties := rfl
@[simp] theorem State.clearPoison_shadows (s : State) (a n : Nat) : (s.clearPoison a n).shadows = s.shadows := rfl
@[simp] theorem State.clearPoison_kills (s : State) (a n : Nat) : (s.clearPoison a n).kills = s.kills := rfl
@[simp] theorem State.clearPoison_fences (s : State) (a n : Nat) : (s.clearPoison a n).fences = s.fences := rfl
@[simp] theorem State.clearPoison_xlinvs (s : State) (a n : Nat) : (s.clearPoison a n).xlinvs = s.xlinvs := rfl
@[simp] theorem State.clearPoison_gangs (s : State) (a n : Nat) : (s.clearPoison a n).gangs = s.gangs := rfl
@[simp] theorem State.clearPoison_calls (s : State) (a n : Nat) : (s.clearPoison a n).calls = s.calls := rfl
@[simp] theorem State.clearPoison_flows (s : State) (a n : Nat) : (s.clearPoison a n).flows = s.flows := rfl
@[simp] theorem State.clearPoison_place (s : State) (a n : Nat) : (s.clearPoison a n).place = s.place := rfl
@[simp] theorem State.clearPoison_pkgsX (s : State) (a n : Nat) : (s.clearPoison a n).pkgsX = s.pkgsX := rfl
@[simp] theorem State.clearPoison_pkgsY (s : State) (a n : Nat) : (s.clearPoison a n).pkgsY = s.pkgsY := rfl
@[simp] theorem State.clearPoison_ringX (s : State) (a n : Nat) : (s.clearPoison a n).ringX = s.ringX := rfl
@[simp] theorem State.clearPoison_ringY (s : State) (a n : Nat) : (s.clearPoison a n).ringY = s.ringY := rfl
@[simp] theorem State.clearPoison_xlbase (s : State) (a n : Nat) : (s.clearPoison a n).xlbase = s.xlbase := rfl
@[simp] theorem State.clearPoison_pwin (s : State) (a n : Nat) : (s.clearPoison a n).pwin = s.pwin := rfl
@[simp] theorem State.clearPoison_typebase (s : State) (a n : Nat) : (s.clearPoison a n).typebase = s.typebase := rfl
@[simp] theorem State.clearPoison_nextCin (s : State) (a n : Nat) : (s.clearPoison a n).nextCin = s.nextCin := rfl
@[simp] theorem State.clearPoison_floorCin (s : State) (a n : Nat) : (s.clearPoison a n).floorCin = s.floorCin := rfl
@[simp] theorem State.clearPoison_reclaimed (s : State) (a n : Nat) : (s.clearPoison a n).reclaimed = s.reclaimed := rfl

@[simp] theorem State.bumpFree_agenda (s : State) : (s.bumpFree).agenda = s.agenda := rfl
@[simp] theorem State.bumpFree_issue (s : State) : (s.bumpFree).issue = s.issue := rfl
@[simp] theorem State.bumpFree_cur (s : State) : (s.bumpFree).cur = s.cur := rfl
@[simp] theorem State.bumpFree_iword (s : State) : (s.bumpFree).iword = s.iword := rfl
@[simp] theorem State.bumpFree_nextId (s : State) : (s.bumpFree).nextId = s.nextId := rfl
@[simp] theorem State.bumpFree_cycle (s : State) : (s.bumpFree).cycle = s.cycle := rfl
@[simp] theorem State.bumpFree_timeNs (s : State) : (s.bumpFree).timeNs = s.timeNs := rfl
@[simp] theorem State.bumpFree_tick (s : State) : (s.bumpFree).tick = s.tick := rfl
@[simp] theorem State.bumpFree_pylon (s : State) : (s.bumpFree).pylon = s.pylon := rfl
@[simp] theorem State.bumpFree_slow (s : State) : (s.bumpFree).slow = s.slow := rfl
@[simp] theorem State.bumpFree_threads (s : State) : (s.bumpFree).threads = s.threads := rfl
@[simp] theorem State.bumpFree_cores (s : State) : (s.bumpFree).cores = s.cores := rfl
@[simp] theorem State.bumpFree_clusters (s : State) : (s.bumpFree).clusters = s.clusters := rfl
@[simp] theorem State.bumpFree_dies (s : State) : (s.bumpFree).dies = s.dies := rfl
@[simp] theorem State.bumpFree_packages (s : State) : (s.bumpFree).packages = s.packages := rfl
@[simp] theorem State.bumpFree_launches (s : State) : (s.bumpFree).launches = s.launches := rfl
@[simp] theorem State.bumpFree_msgs (s : State) : (s.bumpFree).msgs = s.msgs := rfl
@[simp] theorem State.bumpFree_links (s : State) : (s.bumpFree).links = s.links := rfl
@[simp] theorem State.bumpFree_routers (s : State) : (s.bumpFree).routers = s.routers := rfl
@[simp] theorem State.bumpFree_mem (s : State) : (s.bumpFree).mem = s.mem := rfl
@[simp] theorem State.bumpFree_empties (s : State) : (s.bumpFree).empties = s.empties := rfl
@[simp] theorem State.bumpFree_poison (s : State) : (s.bumpFree).poison = s.poison := rfl
@[simp] theorem State.bumpFree_shadows (s : State) : (s.bumpFree).shadows = s.shadows := rfl
@[simp] theorem State.bumpFree_kills (s : State) : (s.bumpFree).kills = s.kills := rfl
@[simp] theorem State.bumpFree_fences (s : State) : (s.bumpFree).fences = s.fences := rfl
@[simp] theorem State.bumpFree_xlinvs (s : State) : (s.bumpFree).xlinvs = s.xlinvs := rfl
@[simp] theorem State.bumpFree_gangs (s : State) : (s.bumpFree).gangs = s.gangs := rfl
@[simp] theorem State.bumpFree_calls (s : State) : (s.bumpFree).calls = s.calls := rfl
@[simp] theorem State.bumpFree_flows (s : State) : (s.bumpFree).flows = s.flows := rfl
@[simp] theorem State.bumpFree_place (s : State) : (s.bumpFree).place = s.place := rfl
@[simp] theorem State.bumpFree_pkgsX (s : State) : (s.bumpFree).pkgsX = s.pkgsX := rfl
@[simp] theorem State.bumpFree_pkgsY (s : State) : (s.bumpFree).pkgsY = s.pkgsY := rfl
@[simp] theorem State.bumpFree_ringX (s : State) : (s.bumpFree).ringX = s.ringX := rfl
@[simp] theorem State.bumpFree_ringY (s : State) : (s.bumpFree).ringY = s.ringY := rfl
@[simp] theorem State.bumpFree_xlbase (s : State) : (s.bumpFree).xlbase = s.xlbase := rfl
@[simp] theorem State.bumpFree_pwin (s : State) : (s.bumpFree).pwin = s.pwin := rfl
@[simp] theorem State.bumpFree_typebase (s : State) : (s.bumpFree).typebase = s.typebase := rfl
@[simp] theorem State.bumpFree_nextCin (s : State) : (s.bumpFree).nextCin = s.nextCin := rfl
@[simp] theorem State.bumpFree_floorCin (s : State) : (s.bumpFree).floorCin = s.floorCin := rfl
@[simp] theorem State.bumpFree_reclaimed (s : State) : (s.bumpFree).reclaimed = s.reclaimed := rfl

@[simp] theorem State.bumpId_agenda (s : State) : (s.bumpId).agenda = s.agenda := rfl
@[simp] theorem State.bumpId_issue (s : State) : (s.bumpId).issue = s.issue := rfl
@[simp] theorem State.bumpId_cur (s : State) : (s.bumpId).cur = s.cur := rfl
@[simp] theorem State.bumpId_iword (s : State) : (s.bumpId).iword = s.iword := rfl
@[simp] theorem State.bumpId_free (s : State) : (s.bumpId).free = s.free := rfl
@[simp] theorem State.bumpId_cycle (s : State) : (s.bumpId).cycle = s.cycle := rfl
@[simp] theorem State.bumpId_timeNs (s : State) : (s.bumpId).timeNs = s.timeNs := rfl
@[simp] theorem State.bumpId_tick (s : State) : (s.bumpId).tick = s.tick := rfl
@[simp] theorem State.bumpId_pylon (s : State) : (s.bumpId).pylon = s.pylon := rfl
@[simp] theorem State.bumpId_slow (s : State) : (s.bumpId).slow = s.slow := rfl
@[simp] theorem State.bumpId_threads (s : State) : (s.bumpId).threads = s.threads := rfl
@[simp] theorem State.bumpId_cores (s : State) : (s.bumpId).cores = s.cores := rfl
@[simp] theorem State.bumpId_clusters (s : State) : (s.bumpId).clusters = s.clusters := rfl
@[simp] theorem State.bumpId_dies (s : State) : (s.bumpId).dies = s.dies := rfl
@[simp] theorem State.bumpId_packages (s : State) : (s.bumpId).packages = s.packages := rfl
@[simp] theorem State.bumpId_launches (s : State) : (s.bumpId).launches = s.launches := rfl
@[simp] theorem State.bumpId_msgs (s : State) : (s.bumpId).msgs = s.msgs := rfl
@[simp] theorem State.bumpId_links (s : State) : (s.bumpId).links = s.links := rfl
@[simp] theorem State.bumpId_routers (s : State) : (s.bumpId).routers = s.routers := rfl
@[simp] theorem State.bumpId_mem (s : State) : (s.bumpId).mem = s.mem := rfl
@[simp] theorem State.bumpId_empties (s : State) : (s.bumpId).empties = s.empties := rfl
@[simp] theorem State.bumpId_poison (s : State) : (s.bumpId).poison = s.poison := rfl
@[simp] theorem State.bumpId_shadows (s : State) : (s.bumpId).shadows = s.shadows := rfl
@[simp] theorem State.bumpId_kills (s : State) : (s.bumpId).kills = s.kills := rfl
@[simp] theorem State.bumpId_fences (s : State) : (s.bumpId).fences = s.fences := rfl
@[simp] theorem State.bumpId_xlinvs (s : State) : (s.bumpId).xlinvs = s.xlinvs := rfl
@[simp] theorem State.bumpId_gangs (s : State) : (s.bumpId).gangs = s.gangs := rfl
@[simp] theorem State.bumpId_calls (s : State) : (s.bumpId).calls = s.calls := rfl
@[simp] theorem State.bumpId_flows (s : State) : (s.bumpId).flows = s.flows := rfl
@[simp] theorem State.bumpId_place (s : State) : (s.bumpId).place = s.place := rfl
@[simp] theorem State.bumpId_pkgsX (s : State) : (s.bumpId).pkgsX = s.pkgsX := rfl
@[simp] theorem State.bumpId_pkgsY (s : State) : (s.bumpId).pkgsY = s.pkgsY := rfl
@[simp] theorem State.bumpId_ringX (s : State) : (s.bumpId).ringX = s.ringX := rfl
@[simp] theorem State.bumpId_ringY (s : State) : (s.bumpId).ringY = s.ringY := rfl
@[simp] theorem State.bumpId_xlbase (s : State) : (s.bumpId).xlbase = s.xlbase := rfl
@[simp] theorem State.bumpId_pwin (s : State) : (s.bumpId).pwin = s.pwin := rfl
@[simp] theorem State.bumpId_typebase (s : State) : (s.bumpId).typebase = s.typebase := rfl
@[simp] theorem State.bumpId_nextCin (s : State) : (s.bumpId).nextCin = s.nextCin := rfl
@[simp] theorem State.bumpId_floorCin (s : State) : (s.bumpId).floorCin = s.floorCin := rfl
@[simp] theorem State.bumpId_reclaimed (s : State) : (s.bumpId).reclaimed = s.reclaimed := rfl

@[simp] theorem State.setTag_agenda (s : State) (a : Nat) (b : Bool) : (s.setTag a b).agenda = s.agenda := by
  unfold State.setTag; split <;> [rfl; (split <;> rfl)]
@[simp] theorem State.setTag_issue (s : State) (a : Nat) (b : Bool) : (s.setTag a b).issue = s.issue := by
  unfold State.setTag; split <;> [rfl; (split <;> rfl)]
@[simp] theorem State.setTag_cur (s : State) (a : Nat) (b : Bool) : (s.setTag a b).cur = s.cur := by
  unfold State.setTag; split <;> [rfl; (split <;> rfl)]
@[simp] theorem State.setTag_iword (s : State) (a : Nat) (b : Bool) : (s.setTag a b).iword = s.iword := by
  unfold State.setTag; split <;> [rfl; (split <;> rfl)]
@[simp] theorem State.setTag_free (s : State) (a : Nat) (b : Bool) : (s.setTag a b).free = s.free := by
  unfold State.setTag; split <;> [rfl; (split <;> rfl)]
@[simp] theorem State.setTag_nextId (s : State) (a : Nat) (b : Bool) : (s.setTag a b).nextId = s.nextId := by
  unfold State.setTag; split <;> [rfl; (split <;> rfl)]
@[simp] theorem State.setTag_cycle (s : State) (a : Nat) (b : Bool) : (s.setTag a b).cycle = s.cycle := by
  unfold State.setTag; split <;> [rfl; (split <;> rfl)]
@[simp] theorem State.setTag_timeNs (s : State) (a : Nat) (b : Bool) : (s.setTag a b).timeNs = s.timeNs := by
  unfold State.setTag; split <;> [rfl; (split <;> rfl)]
@[simp] theorem State.setTag_tick (s : State) (a : Nat) (b : Bool) : (s.setTag a b).tick = s.tick := by
  unfold State.setTag; split <;> [rfl; (split <;> rfl)]
@[simp] theorem State.setTag_pylon (s : State) (a : Nat) (b : Bool) : (s.setTag a b).pylon = s.pylon := by
  unfold State.setTag; split <;> [rfl; (split <;> rfl)]
@[simp] theorem State.setTag_slow (s : State) (a : Nat) (b : Bool) : (s.setTag a b).slow = s.slow := by
  unfold State.setTag; split <;> [rfl; (split <;> rfl)]
@[simp] theorem State.setTag_threads (s : State) (a : Nat) (b : Bool) : (s.setTag a b).threads = s.threads := by
  unfold State.setTag; split <;> [rfl; (split <;> rfl)]
@[simp] theorem State.setTag_cores (s : State) (a : Nat) (b : Bool) : (s.setTag a b).cores = s.cores := by
  unfold State.setTag; split <;> [rfl; (split <;> rfl)]
@[simp] theorem State.setTag_clusters (s : State) (a : Nat) (b : Bool) : (s.setTag a b).clusters = s.clusters := by
  unfold State.setTag; split <;> [rfl; (split <;> rfl)]
@[simp] theorem State.setTag_dies (s : State) (a : Nat) (b : Bool) : (s.setTag a b).dies = s.dies := by
  unfold State.setTag; split <;> [rfl; (split <;> rfl)]
@[simp] theorem State.setTag_packages (s : State) (a : Nat) (b : Bool) : (s.setTag a b).packages = s.packages := by
  unfold State.setTag; split <;> [rfl; (split <;> rfl)]
@[simp] theorem State.setTag_launches (s : State) (a : Nat) (b : Bool) : (s.setTag a b).launches = s.launches := by
  unfold State.setTag; split <;> [rfl; (split <;> rfl)]
@[simp] theorem State.setTag_msgs (s : State) (a : Nat) (b : Bool) : (s.setTag a b).msgs = s.msgs := by
  unfold State.setTag; split <;> [rfl; (split <;> rfl)]
@[simp] theorem State.setTag_links (s : State) (a : Nat) (b : Bool) : (s.setTag a b).links = s.links := by
  unfold State.setTag; split <;> [rfl; (split <;> rfl)]
@[simp] theorem State.setTag_routers (s : State) (a : Nat) (b : Bool) : (s.setTag a b).routers = s.routers := by
  unfold State.setTag; split <;> [rfl; (split <;> rfl)]
@[simp] theorem State.setTag_mem (s : State) (a : Nat) (b : Bool) : (s.setTag a b).mem = s.mem := by
  unfold State.setTag; split <;> [rfl; (split <;> rfl)]
@[simp] theorem State.setTag_poison (s : State) (a : Nat) (b : Bool) : (s.setTag a b).poison = s.poison := by
  unfold State.setTag; split <;> [rfl; (split <;> rfl)]
@[simp] theorem State.setTag_shadows (s : State) (a : Nat) (b : Bool) : (s.setTag a b).shadows = s.shadows := by
  unfold State.setTag; split <;> [rfl; (split <;> rfl)]
@[simp] theorem State.setTag_kills (s : State) (a : Nat) (b : Bool) : (s.setTag a b).kills = s.kills := by
  unfold State.setTag; split <;> [rfl; (split <;> rfl)]
@[simp] theorem State.setTag_fences (s : State) (a : Nat) (b : Bool) : (s.setTag a b).fences = s.fences := by
  unfold State.setTag; split <;> [rfl; (split <;> rfl)]
@[simp] theorem State.setTag_xlinvs (s : State) (a : Nat) (b : Bool) : (s.setTag a b).xlinvs = s.xlinvs := by
  unfold State.setTag; split <;> [rfl; (split <;> rfl)]
@[simp] theorem State.setTag_gangs (s : State) (a : Nat) (b : Bool) : (s.setTag a b).gangs = s.gangs := by
  unfold State.setTag; split <;> [rfl; (split <;> rfl)]
@[simp] theorem State.setTag_calls (s : State) (a : Nat) (b : Bool) : (s.setTag a b).calls = s.calls := by
  unfold State.setTag; split <;> [rfl; (split <;> rfl)]
@[simp] theorem State.setTag_flows (s : State) (a : Nat) (b : Bool) : (s.setTag a b).flows = s.flows := by
  unfold State.setTag; split <;> [rfl; (split <;> rfl)]
@[simp] theorem State.setTag_place (s : State) (a : Nat) (b : Bool) : (s.setTag a b).place = s.place := by
  unfold State.setTag; split <;> [rfl; (split <;> rfl)]
@[simp] theorem State.setTag_pkgsX (s : State) (a : Nat) (b : Bool) : (s.setTag a b).pkgsX = s.pkgsX := by
  unfold State.setTag; split <;> [rfl; (split <;> rfl)]
@[simp] theorem State.setTag_pkgsY (s : State) (a : Nat) (b : Bool) : (s.setTag a b).pkgsY = s.pkgsY := by
  unfold State.setTag; split <;> [rfl; (split <;> rfl)]
@[simp] theorem State.setTag_ringX (s : State) (a : Nat) (b : Bool) : (s.setTag a b).ringX = s.ringX := by
  unfold State.setTag; split <;> [rfl; (split <;> rfl)]
@[simp] theorem State.setTag_ringY (s : State) (a : Nat) (b : Bool) : (s.setTag a b).ringY = s.ringY := by
  unfold State.setTag; split <;> [rfl; (split <;> rfl)]
@[simp] theorem State.setTag_xlbase (s : State) (a : Nat) (b : Bool) : (s.setTag a b).xlbase = s.xlbase := by
  unfold State.setTag; split <;> [rfl; (split <;> rfl)]
@[simp] theorem State.setTag_pwin (s : State) (a : Nat) (b : Bool) : (s.setTag a b).pwin = s.pwin := by
  unfold State.setTag; split <;> [rfl; (split <;> rfl)]
@[simp] theorem State.setTag_typebase (s : State) (a : Nat) (b : Bool) : (s.setTag a b).typebase = s.typebase := by
  unfold State.setTag; split <;> [rfl; (split <;> rfl)]
@[simp] theorem State.setTag_nextCin (s : State) (a : Nat) (b : Bool) : (s.setTag a b).nextCin = s.nextCin := by
  unfold State.setTag; split <;> [rfl; (split <;> rfl)]
@[simp] theorem State.setTag_floorCin (s : State) (a : Nat) (b : Bool) : (s.setTag a b).floorCin = s.floorCin := by
  unfold State.setTag; split <;> [rfl; (split <;> rfl)]
@[simp] theorem State.setTag_reclaimed (s : State) (a : Nat) (b : Bool) : (s.setTag a b).reclaimed = s.reclaimed := by
  unfold State.setTag; split <;> [rfl; (split <;> rfl)]

/-! ### Records after an update -/

@[simp] theorem State.thread_setThread_same (s : State) (k : Nat) (t : Thread) : (s.setThread k t).thread k = t := by
  simp [State.thread, State.setThread]
theorem State.thread_setThread_ne (s : State) {k j : Nat} (t : Thread) (h : k ≠ j) : (s.setThread k t).thread j = s.thread j := by
  simp [State.thread, State.setThread, KMap.getD_set_ne, h]
@[simp] theorem State.thread_modThread_same (s : State) (k : Nat) (f : Thread → Thread) :
    (s.modThread k f).thread k = f (s.thread k) := by
  simp [State.modThread]
theorem State.thread_modThread_ne (s : State) {k j : Nat} (f : Thread → Thread) (h : k ≠ j) :
    (s.modThread k f).thread j = s.thread j := by
  simp [State.modThread, State.thread_setThread_ne, h]
@[simp] theorem State.core_setCore_same (s : State) (k : Nat) (c : Core) : (s.setCore k c).core k = c := by
  simp [State.core, State.setCore]
theorem State.core_setCore_ne (s : State) {k j : Nat} (c : Core) (h : k ≠ j) : (s.setCore k c).core j = s.core j := by
  simp [State.core, State.setCore, KMap.getD_set_ne, h]
@[simp] theorem State.core_modCore_same (s : State) (k : Nat) (f : Core → Core) : (s.modCore k f).core k = f (s.core k) := by
  simp [State.modCore]
theorem State.core_modCore_ne (s : State) {k j : Nat} (f : Core → Core) (h : k ≠ j) : (s.modCore k f).core j = s.core j := by
  simp [State.modCore, State.core_setCore_ne, h]
@[simp] theorem State.cluster_modCluster_same (s : State) (k : Nat) (f : Cluster → Cluster) :
    (s.modCluster k f).cluster k = f (s.cluster k) := by
  simp [State.cluster, State.modCluster, State.setCluster]
theorem State.cluster_modCluster_ne (s : State) {k j : Nat} (f : Cluster → Cluster) (h : k ≠ j) :
    (s.modCluster k f).cluster j = s.cluster j := by
  simp [State.cluster, State.modCluster, State.setCluster, KMap.getD_set_ne, h]
@[simp] theorem State.die_modDie_same (s : State) (k : Nat) (f : Die → Die) : (s.modDie k f).die k = f (s.die k) := by
  simp [State.die, State.modDie]
theorem State.die_modDie_ne (s : State) {k j : Nat} (f : Die → Die) (h : k ≠ j) : (s.modDie k f).die j = s.die j := by
  simp [State.die, State.modDie, KMap.getD_set_ne, h]
@[simp] theorem State.pkg_setPkg_same (s : State) (k : Nat) (p : Package) : (s.setPkg k p).pkg k = p := by
  simp [State.pkg, State.setPkg]
theorem State.pkg_setPkg_ne (s : State) {k j : Nat} (p : Package) (h : k ≠ j) : (s.setPkg k p).pkg j = s.pkg j := by
  simp [State.pkg, State.setPkg, KMap.getD_set_ne, h]

@[simp] theorem State.setThread_core (s : State) (k : Nat) (t : Thread) (j : Nat) : (s.setThread k t).core j = s.core j := rfl
@[simp] theorem State.setThread_cluster (s : State) (k : Nat) (t : Thread) (j : Nat) : (s.setThread k t).cluster j = s.cluster j := rfl
@[simp] theorem State.setThread_die (s : State) (k : Nat) (t : Thread) (j : Nat) : (s.setThread k t).die j = s.die j := rfl
@[simp] theorem State.setThread_pkg (s : State) (k : Nat) (t : Thread) (j : Nat) : (s.setThread k t).pkg j = s.pkg j := rfl
@[simp] theorem State.setThread_byte (s : State) (k : Nat) (t : Thread) (a' : Nat) : (s.setThread k t).byte a' = s.byte a' := rfl
@[simp] theorem State.setThread_tagFull (s : State) (k : Nat) (t : Thread) (a' : Nat) : (s.setThread k t).tagFull a' = s.tagFull a' := rfl
@[simp] theorem State.modThread_core (s : State) (k : Nat) (f : Thread → Thread) (j : Nat) : (s.modThread k f).core j = s.core j := rfl
@[simp] theorem State.modThread_cluster (s : State) (k : Nat) (f : Thread → Thread) (j : Nat) : (s.modThread k f).cluster j = s.cluster j := rfl
@[simp] theorem State.modThread_die (s : State) (k : Nat) (f : Thread → Thread) (j : Nat) : (s.modThread k f).die j = s.die j := rfl
@[simp] theorem State.modThread_pkg (s : State) (k : Nat) (f : Thread → Thread) (j : Nat) : (s.modThread k f).pkg j = s.pkg j := rfl
@[simp] theorem State.modThread_byte (s : State) (k : Nat) (f : Thread → Thread) (a' : Nat) : (s.modThread k f).byte a' = s.byte a' := rfl
@[simp] theorem State.modThread_tagFull (s : State) (k : Nat) (f : Thread → Thread) (a' : Nat) : (s.modThread k f).tagFull a' = s.tagFull a' := rfl
@[simp] theorem State.dropThread_core (s : State) (k : Nat) (j : Nat) : (s.dropThread k).core j = s.core j := rfl
@[simp] theorem State.dropThread_cluster (s : State) (k : Nat) (j : Nat) : (s.dropThread k).cluster j = s.cluster j := rfl
@[simp] theorem State.dropThread_die (s : State) (k : Nat) (j : Nat) : (s.dropThread k).die j = s.die j := rfl
@[simp] theorem State.dropThread_pkg (s : State) (k : Nat) (j : Nat) : (s.dropThread k).pkg j = s.pkg j := rfl
@[simp] theorem State.dropThread_byte (s : State) (k : Nat) (a' : Nat) : (s.dropThread k).byte a' = s.byte a' := rfl
@[simp] theorem State.dropThread_tagFull (s : State) (k : Nat) (a' : Nat) : (s.dropThread k).tagFull a' = s.tagFull a' := rfl
@[simp] theorem State.setCore_thread (s : State) (k : Nat) (c : Core) (j : Nat) : (s.setCore k c).thread j = s.thread j := rfl
@[simp] theorem State.setCore_cluster (s : State) (k : Nat) (c : Core) (j : Nat) : (s.setCore k c).cluster j = s.cluster j := rfl
@[simp] theorem State.setCore_die (s : State) (k : Nat) (c : Core) (j : Nat) : (s.setCore k c).die j = s.die j := rfl
@[simp] theorem State.setCore_pkg (s : State) (k : Nat) (c : Core) (j : Nat) : (s.setCore k c).pkg j = s.pkg j := rfl
@[simp] theorem State.setCore_byte (s : State) (k : Nat) (c : Core) (a' : Nat) : (s.setCore k c).byte a' = s.byte a' := rfl
@[simp] theorem State.setCore_tagFull (s : State) (k : Nat) (c : Core) (a' : Nat) : (s.setCore k c).tagFull a' = s.tagFull a' := rfl
@[simp] theorem State.modCore_thread (s : State) (k : Nat) (f : Core → Core) (j : Nat) : (s.modCore k f).thread j = s.thread j := rfl
@[simp] theorem State.modCore_cluster (s : State) (k : Nat) (f : Core → Core) (j : Nat) : (s.modCore k f).cluster j = s.cluster j := rfl
@[simp] theorem State.modCore_die (s : State) (k : Nat) (f : Core → Core) (j : Nat) : (s.modCore k f).die j = s.die j := rfl
@[simp] theorem State.modCore_pkg (s : State) (k : Nat) (f : Core → Core) (j : Nat) : (s.modCore k f).pkg j = s.pkg j := rfl
@[simp] theorem State.modCore_byte (s : State) (k : Nat) (f : Core → Core) (a' : Nat) : (s.modCore k f).byte a' = s.byte a' := rfl
@[simp] theorem State.modCore_tagFull (s : State) (k : Nat) (f : Core → Core) (a' : Nat) : (s.modCore k f).tagFull a' = s.tagFull a' := rfl
@[simp] theorem State.setCluster_thread (s : State) (k : Nat) (c : Cluster) (j : Nat) : (s.setCluster k c).thread j = s.thread j := rfl
@[simp] theorem State.setCluster_core (s : State) (k : Nat) (c : Cluster) (j : Nat) : (s.setCluster k c).core j = s.core j := rfl
@[simp] theorem State.setCluster_die (s : State) (k : Nat) (c : Cluster) (j : Nat) : (s.setCluster k c).die j = s.die j := rfl
@[simp] theorem State.setCluster_pkg (s : State) (k : Nat) (c : Cluster) (j : Nat) : (s.setCluster k c).pkg j = s.pkg j := rfl
@[simp] theorem State.setCluster_byte (s : State) (k : Nat) (c : Cluster) (a' : Nat) : (s.setCluster k c).byte a' = s.byte a' := rfl
@[simp] theorem State.setCluster_tagFull (s : State) (k : Nat) (c : Cluster) (a' : Nat) : (s.setCluster k c).tagFull a' = s.tagFull a' := rfl
@[simp] theorem State.modCluster_thread (s : State) (k : Nat) (f : Cluster → Cluster) (j : Nat) : (s.modCluster k f).thread j = s.thread j := rfl
@[simp] theorem State.modCluster_core (s : State) (k : Nat) (f : Cluster → Cluster) (j : Nat) : (s.modCluster k f).core j = s.core j := rfl
@[simp] theorem State.modCluster_die (s : State) (k : Nat) (f : Cluster → Cluster) (j : Nat) : (s.modCluster k f).die j = s.die j := rfl
@[simp] theorem State.modCluster_pkg (s : State) (k : Nat) (f : Cluster → Cluster) (j : Nat) : (s.modCluster k f).pkg j = s.pkg j := rfl
@[simp] theorem State.modCluster_byte (s : State) (k : Nat) (f : Cluster → Cluster) (a' : Nat) : (s.modCluster k f).byte a' = s.byte a' := rfl
@[simp] theorem State.modCluster_tagFull (s : State) (k : Nat) (f : Cluster → Cluster) (a' : Nat) : (s.modCluster k f).tagFull a' = s.tagFull a' := rfl
@[simp] theorem State.modDie_thread (s : State) (k : Nat) (f : Die → Die) (j : Nat) : (s.modDie k f).thread j = s.thread j := rfl
@[simp] theorem State.modDie_core (s : State) (k : Nat) (f : Die → Die) (j : Nat) : (s.modDie k f).core j = s.core j := rfl
@[simp] theorem State.modDie_cluster (s : State) (k : Nat) (f : Die → Die) (j : Nat) : (s.modDie k f).cluster j = s.cluster j := rfl
@[simp] theorem State.modDie_pkg (s : State) (k : Nat) (f : Die → Die) (j : Nat) : (s.modDie k f).pkg j = s.pkg j := rfl
@[simp] theorem State.modDie_byte (s : State) (k : Nat) (f : Die → Die) (a' : Nat) : (s.modDie k f).byte a' = s.byte a' := rfl
@[simp] theorem State.modDie_tagFull (s : State) (k : Nat) (f : Die → Die) (a' : Nat) : (s.modDie k f).tagFull a' = s.tagFull a' := rfl
@[simp] theorem State.svc_thread (s : State) (k : Nat) (m : SvcMsg) (j : Nat) : (s.svc k m).thread j = s.thread j := rfl
@[simp] theorem State.svc_core (s : State) (k : Nat) (m : SvcMsg) (j : Nat) : (s.svc k m).core j = s.core j := rfl
@[simp] theorem State.svc_cluster (s : State) (k : Nat) (m : SvcMsg) (j : Nat) : (s.svc k m).cluster j = s.cluster j := rfl
@[simp] theorem State.svc_pkg (s : State) (k : Nat) (m : SvcMsg) (j : Nat) : (s.svc k m).pkg j = s.pkg j := rfl
@[simp] theorem State.svc_byte (s : State) (k : Nat) (m : SvcMsg) (a' : Nat) : (s.svc k m).byte a' = s.byte a' := rfl
@[simp] theorem State.svc_tagFull (s : State) (k : Nat) (m : SvcMsg) (a' : Nat) : (s.svc k m).tagFull a' = s.tagFull a' := rfl
@[simp] theorem State.setPkg_thread (s : State) (k : Nat) (p : Package) (j : Nat) : (s.setPkg k p).thread j = s.thread j := rfl
@[simp] theorem State.setPkg_core (s : State) (k : Nat) (p : Package) (j : Nat) : (s.setPkg k p).core j = s.core j := rfl
@[simp] theorem State.setPkg_cluster (s : State) (k : Nat) (p : Package) (j : Nat) : (s.setPkg k p).cluster j = s.cluster j := rfl
@[simp] theorem State.setPkg_die (s : State) (k : Nat) (p : Package) (j : Nat) : (s.setPkg k p).die j = s.die j := rfl
@[simp] theorem State.setPkg_byte (s : State) (k : Nat) (p : Package) (a' : Nat) : (s.setPkg k p).byte a' = s.byte a' := rfl
@[simp] theorem State.setPkg_tagFull (s : State) (k : Nat) (p : Package) (a' : Nat) : (s.setPkg k p).tagFull a' = s.tagFull a' := rfl
@[simp] theorem State.poke_thread (s : State) (a n v : Nat) (j : Nat) : (s.poke a n v).thread j = s.thread j := rfl
@[simp] theorem State.poke_core (s : State) (a n v : Nat) (j : Nat) : (s.poke a n v).core j = s.core j := rfl
@[simp] theorem State.poke_cluster (s : State) (a n v : Nat) (j : Nat) : (s.poke a n v).cluster j = s.cluster j := rfl
@[simp] theorem State.poke_die (s : State) (a n v : Nat) (j : Nat) : (s.poke a n v).die j = s.die j := rfl
@[simp] theorem State.poke_pkg (s : State) (a n v : Nat) (j : Nat) : (s.poke a n v).pkg j = s.pkg j := rfl
@[simp] theorem State.poke_tagFull (s : State) (a n v : Nat) (a' : Nat) : (s.poke a n v).tagFull a' = s.tagFull a' := rfl
@[simp] theorem State.fillTags_thread (s : State) (a n : Nat) (j : Nat) : (s.fillTags a n).thread j = s.thread j := rfl
@[simp] theorem State.fillTags_core (s : State) (a n : Nat) (j : Nat) : (s.fillTags a n).core j = s.core j := rfl
@[simp] theorem State.fillTags_cluster (s : State) (a n : Nat) (j : Nat) : (s.fillTags a n).cluster j = s.cluster j := rfl
@[simp] theorem State.fillTags_die (s : State) (a n : Nat) (j : Nat) : (s.fillTags a n).die j = s.die j := rfl
@[simp] theorem State.fillTags_pkg (s : State) (a n : Nat) (j : Nat) : (s.fillTags a n).pkg j = s.pkg j := rfl
@[simp] theorem State.fillTags_byte (s : State) (a n : Nat) (a' : Nat) : (s.fillTags a n).byte a' = s.byte a' := rfl
@[simp] theorem State.clearPoison_thread (s : State) (a n : Nat) (j : Nat) : (s.clearPoison a n).thread j = s.thread j := rfl
@[simp] theorem State.clearPoison_core (s : State) (a n : Nat) (j : Nat) : (s.clearPoison a n).core j = s.core j := rfl
@[simp] theorem State.clearPoison_cluster (s : State) (a n : Nat) (j : Nat) : (s.clearPoison a n).cluster j = s.cluster j := rfl
@[simp] theorem State.clearPoison_die (s : State) (a n : Nat) (j : Nat) : (s.clearPoison a n).die j = s.die j := rfl
@[simp] theorem State.clearPoison_pkg (s : State) (a n : Nat) (j : Nat) : (s.clearPoison a n).pkg j = s.pkg j := rfl
@[simp] theorem State.clearPoison_byte (s : State) (a n : Nat) (a' : Nat) : (s.clearPoison a n).byte a' = s.byte a' := rfl
@[simp] theorem State.clearPoison_tagFull (s : State) (a n : Nat) (a' : Nat) : (s.clearPoison a n).tagFull a' = s.tagFull a' := rfl
@[simp] theorem State.bumpFree_thread (s : State) (j : Nat) : (s.bumpFree).thread j = s.thread j := rfl
@[simp] theorem State.bumpFree_core (s : State) (j : Nat) : (s.bumpFree).core j = s.core j := rfl
@[simp] theorem State.bumpFree_cluster (s : State) (j : Nat) : (s.bumpFree).cluster j = s.cluster j := rfl
@[simp] theorem State.bumpFree_die (s : State) (j : Nat) : (s.bumpFree).die j = s.die j := rfl
@[simp] theorem State.bumpFree_pkg (s : State) (j : Nat) : (s.bumpFree).pkg j = s.pkg j := rfl
@[simp] theorem State.bumpFree_byte (s : State) (a' : Nat) : (s.bumpFree).byte a' = s.byte a' := rfl
@[simp] theorem State.bumpFree_tagFull (s : State) (a' : Nat) : (s.bumpFree).tagFull a' = s.tagFull a' := rfl
@[simp] theorem State.bumpId_thread (s : State) (j : Nat) : (s.bumpId).thread j = s.thread j := rfl
@[simp] theorem State.bumpId_core (s : State) (j : Nat) : (s.bumpId).core j = s.core j := rfl
@[simp] theorem State.bumpId_cluster (s : State) (j : Nat) : (s.bumpId).cluster j = s.cluster j := rfl
@[simp] theorem State.bumpId_die (s : State) (j : Nat) : (s.bumpId).die j = s.die j := rfl
@[simp] theorem State.bumpId_pkg (s : State) (j : Nat) : (s.bumpId).pkg j = s.pkg j := rfl
@[simp] theorem State.bumpId_byte (s : State) (a' : Nat) : (s.bumpId).byte a' = s.byte a' := rfl
@[simp] theorem State.bumpId_tagFull (s : State) (a' : Nat) : (s.bumpId).tagFull a' = s.tagFull a' := rfl
@[simp] theorem State.setTag_thread (s : State) (a : Nat) (b : Bool) (j : Nat) : (s.setTag a b).thread j = s.thread j := by
  unfold State.setTag; split <;> [rfl; (split <;> rfl)]
@[simp] theorem State.setTag_core (s : State) (a : Nat) (b : Bool) (j : Nat) : (s.setTag a b).core j = s.core j := by
  unfold State.setTag; split <;> [rfl; (split <;> rfl)]
@[simp] theorem State.setTag_cluster (s : State) (a : Nat) (b : Bool) (j : Nat) : (s.setTag a b).cluster j = s.cluster j := by
  unfold State.setTag; split <;> [rfl; (split <;> rfl)]
@[simp] theorem State.setTag_die (s : State) (a : Nat) (b : Bool) (j : Nat) : (s.setTag a b).die j = s.die j := by
  unfold State.setTag; split <;> [rfl; (split <;> rfl)]
@[simp] theorem State.setTag_pkg (s : State) (a : Nat) (b : Bool) (j : Nat) : (s.setTag a b).pkg j = s.pkg j := by
  unfold State.setTag; split <;> [rfl; (split <;> rfl)]
@[simp] theorem State.setTag_byte (s : State) (a : Nat) (b : Bool) (j : Nat) : (s.setTag a b).byte j = s.byte j := by
  unfold State.setTag; split <;> [rfl; (split <;> rfl)]

end Sys2Proof.Machine
end

