-- ==== Sys2Proof/Laws/Access.lean ====
section
/-! SUPPORT. What the checks of an access can change: held translations and the free counter, and nothing else (R239, R249). -/

namespace Sys2Proof.Machine

theorem State.Cached.refl (s : State) : s.Cached s := ⟨fun _ => rfl, fun _ => rfl, rfl⟩

/-- The entries that a translation keeps. -/
theorem State.cached_keep (s : State) (cl core n : Nat) (f : Cluster → List PlbEntry) (g : Core → List PlbEntry) :
    s.Cached ((({ s with free := n } : State).modCluster cl (fun x => { x with xlCache := f x })).modCore core
      (fun x => { x with plb := g x })) where
  cores k := by
    by_cases h : core = k
    · subst h; rw [State.core_modCore_same]; rfl
    · rw [State.core_modCore_ne _ _ h]; rfl
  clusters c := by
    change ({ (({ s with free := n } : State).modCluster cl (fun x => { x with xlCache := f x })).cluster c with
      xlCache := (s.cluster c).xlCache, cands := (s.cluster c).cands, candFloor := (s.cluster c).candFloor } : Cluster) = s.cluster c
    by_cases h : cl = c
    · subst h; rw [State.cluster_modCluster_same]; rfl
    · rw [State.cluster_modCluster_ne _ _ h]; rfl
  other := rfl

/-- The checks of a paged access leave the state but for held translations. -/
theorem State.paged_cached (s : State) (c : Ctx) (va : Nat) (k : Acc) (allowC : Bool) : s.Cached (s.paged c va k allowC).1 := by
  have h0 : ∀ n, s.Cached { s with free := n } := fun n => ⟨fun _ => rfl, fun _ => rfl, rfl⟩
  unfold State.paged
  split
  · exact .refl s
  extract_lets cl hx hp s1 found
  clear_value found
  cases found with
  | fail f => exact h0 _
  | leaf e size =>
    dsimp only
    have hk : s.Cached (if pteP e then
        (s1.modCluster cl (fun x => { x with xlCache := keepEntry x.xlCache ⟨va / size * size, size, e⟩ 4096 })).modCore c.core
          (fun x => { x with plb := keepEntry x.plb (hp.getD ⟨va / size * size, size, e⟩) 256 }) else s1) := by
      split
      · exact s.cached_keep cl c.core _ _ _
      · exact h0 _
    revert hk
    generalize (if pteP e then
        (s1.modCluster cl (fun x => { x with xlCache := keepEntry x.xlCache ⟨va / size * size, size, e⟩ 4096 })).modCore c.core
          (fun x => { x with plb := keepEntry x.plb (hp.getD ⟨va / size * size, size, e⟩) 256 }) else s1) = u
    intro hk
    cases hr : rightsFail (match hp with | some p => p.leaf | none => e) c k allowC with
    | some f => exact hk
    | none =>
      dsimp only
      split
      · exact hk
      · split
        · split <;> exact hk
        · exact hk

/-- The checks of an access leave the state but for held translations. -/
theorem State.resolve_cached (s : State) (c : Ctx) (va : Word) (k : Acc) (allowC : Bool) : s.Cached (s.resolve c va k allowC).1 := by
  unfold State.resolve
  repeat' split
  · exact .refl s
  · exact .refl s
  · exact s.paged_cached c _ k allowC

end Sys2Proof.Machine
end

