-- ==== Sys2Proof/Laws/Memory.lean ====
section
/-! SUPPORT. Laws of memory: what a byte reads as after each write, that every memory operation keeps the canonical form, and
what a write performed at a home can change. -/

namespace Sys2Proof.Machine

/-! ### One byte -/

theorem getD_memSet (m : List Host.Cell) (a : Nat) (b : Byte) (x : Nat) :
    KMap.getD (memSet m a b) x 0 = if a = x then b else KMap.getD m x 0 := by
  unfold memSet KMap.getD
  split
  · rename_i h
    rw [KMap.find_erase]
    by_cases e : a = x <;> simp [e, h]
  · rw [KMap.find_set]
    by_cases e : a = x <;> simp [e]

/-- R7: byte `x` of memory after the low `n` bytes of `v` are written from `a` upwards. -/
theorem getD_memWrite (n : Nat) : ∀ (m : List Host.Cell) (a v x : Nat),
    KMap.getD (memWrite m a n v) x 0 = if a ≤ x ∧ x < a + n then BitVec.ofNat 8 (v / 256 ^ (x - a)) else KMap.getD m x 0 := by
  induction n with
  | zero => intro m a v x; rw [memWrite, if_neg (by omega)]
  | succ n ih =>
    intro m a v x
    rw [memWrite, ih, getD_memSet]
    by_cases h : a = x
    · subst h; simp
    · by_cases h2 : a ≤ x ∧ x < a + (n + 1)
      · have h3 : a + 1 ≤ x ∧ x < a + 1 + n := by omega
        rw [if_pos h3, if_pos h2]
        congr 1
        rw [Nat.div_div_eq_div_mul, ← Nat.pow_succ', show (x - (a + 1)).succ = x - a by omega]
      · have h3 : ¬ (a + 1 ≤ x ∧ x < a + 1 + n) := by omega
        rw [if_neg h3, if_neg h2, if_neg h]

/-- What a byte reads as after a write. -/
theorem State.byte_poke (s : State) (a n v x : Nat) :
    (s.poke a n v).byte x = if a ≤ x ∧ x < a + n then BitVec.ofNat 8 (v / 256 ^ (x - a)) else s.byte x :=
  getD_memWrite n s.mem a v x

/-! ### The canonical form -/

theorem KMap.mem_set {α : Type} {m : KMap α} {k : Nat} {a : α} {p : Nat × α} (h : p ∈ KMap.set m k a) : p = (k, a) ∨ p ∈ m := by
  induction m with
  | nil => simp [KMap.set] at h; exact .inl h
  | cons q r ih =>
    obtain ⟨i, b⟩ := q
    simp only [KMap.set] at h
    split at h
    · simp at h; rcases h with h | h | h <;> simp [h]
    · split at h
      · simp at h; rcases h with h | h <;> simp [h]
      · simp at h
        rcases h with h | h
        · simp [h]
        · rcases ih h with h | h <;> simp [h]

theorem KMap.pairwise_set {α : Type} {m : KMap α} (h : (m.map Prod.fst).Pairwise (· < ·)) (k : Nat) (a : α) :
    ((KMap.set m k a).map Prod.fst).Pairwise (· < ·) := by
  induction m with
  | nil => simp [KMap.set]
  | cons q r ih =>
    obtain ⟨i, b⟩ := q
    simp only [List.map_cons, List.pairwise_cons] at h
    simp only [KMap.set]
    split
    · rename_i hk
      simp only [List.map_cons, List.pairwise_cons]
      refine ⟨fun x hx => ?_, h⟩
      simp only [List.mem_cons] at hx
      rcases hx with hx | hx
      · omega
      · have := h.1 x hx; omega
    · split
      · rename_i hk; subst hk
        simp only [List.map_cons, List.pairwise_cons]
        exact h
      · rename_i h1 h2
        simp only [List.map_cons, List.pairwise_cons]
        refine ⟨fun x hx => ?_, ih h.2⟩
        obtain ⟨p, hp, rfl⟩ := List.mem_map.mp hx
        rcases KMap.mem_set hp with e | e
        · subst e; omega
        · exact h.1 _ (List.mem_map_of_mem e)

theorem KMap.pairwise_filter {α : Type} {m : KMap α} (h : (m.map Prod.fst).Pairwise (· < ·)) (f : Nat × α → Bool) :
    ((m.filter f).map Prod.fst).Pairwise (· < ·) :=
  h.sublist (List.filter_sublist.map _)

theorem memSet_wf {m : List Host.Cell} (h : Memory.wf m) (a : Nat) (b : Byte) : Memory.wf (memSet m a b) := by
  unfold memSet
  split
  · refine ⟨KMap.pairwise_filter h.1 _, fun c hc => h.2 c (List.mem_of_mem_filter hc)⟩
  · rename_i hb
    refine ⟨KMap.pairwise_set h.1 a b, fun c hc => ?_⟩
    rcases KMap.mem_set hc with e | e
    · subst e; exact hb
    · exact h.2 c e

theorem memWrite_wf {m : List Host.Cell} (h : Memory.wf m) (a n v : Nat) : Memory.wf (memWrite m a n v) := by
  induction n generalizing m a v with
  | zero => exact h
  | succ n ih => exact ih (memSet_wf h _ _) _ _

theorem filter_wf {m : List Host.Cell} (h : Memory.wf m) (f : Host.Cell → Bool) : Memory.wf (m.filter f) :=
  ⟨KMap.pairwise_filter h.1 f, fun c hc => h.2 c (List.mem_of_mem_filter hc)⟩

theorem foldl_memSet_wf {α : Type} (l : List α) (k : α → Nat) (b : α → Byte) {m : List Host.Cell} (h : Memory.wf m) :
    Memory.wf (l.foldl (fun m c => memSet m (k c) (b c)) m) := by
  induction l generalizing m with
  | nil => exact h
  | cons c l ih => exact ih (memSet_wf h _ _)

theorem State.poke_memOk {s : State} (h : s.memOk) (a n v : Nat) : (s.poke a n v).memOk := memWrite_wf h a n v

theorem State.copyGranule_memOk {s : State} (h : s.memOk) (src dst : Nat) : (s.copyGranule src dst).memOk :=
  foldl_memSet_wf _ (fun c : Host.Cell => dst + (c.1 - src)) (fun c => c.2) (filter_wf h _)

/-- Memory is in canonical form after reset: nothing is listed. -/
theorem State.reset_memOk : State.reset.memOk := by
  simp [State.memOk, State.reset, Memory.wf]

/-! ### A write performed at a home -/

/-- What the watches of lines leave of a state: threads but for their monitors' triggers, and everything but clusters. -/
structure State.Noted (s t : State) : Prop where
  threads : ∀ k, { t.thread k with mon := (s.thread k).mon } = s.thread k
  waits : ∀ c, (t.cluster c).tagWait = (s.cluster c).tagWait ∧ (t.cluster c).atoms = (s.cluster c).atoms
  other : { t with threads := s.threads, clusters := s.clusters } = s

theorem State.Noted.refl (s : State) : s.Noted s := ⟨fun _ => rfl, fun _ => ⟨rfl, rfl⟩, rfl⟩

theorem State.Noted.trans {s t u : State} (h : s.Noted t) (k : t.Noted u) : s.Noted u where
  threads := fun j => by
    have e1 := h.threads j
    have e2 := k.threads j
    rw [← e2] at e1
    exact e1
  waits := fun c => ⟨(k.waits c).1.trans (h.waits c).1, (k.waits c).2.trans (h.waits c).2⟩
  other := by
    have e := h.other
    rw [← k.other] at e
    exact e

theorem KMap.find_map {α : Type} (m : KMap α) (f : α → α) (k : Nat) :
    KMap.find (m.map (fun p => (p.1, f p.2))) k = (KMap.find m k).map f := by
  induction m with
  | nil => rfl
  | cons p r ih =>
    obtain ⟨i, b⟩ := p
    by_cases h : i = k <;> simp [KMap.find, h, ih]

/-- A monitor's trigger. -/
theorem State.trig_noted (s : State) (tid : Nat) :
    s.Noted (s.modThread tid (fun t => { t with mon := { t.mon with trig := true } })) := by
  refine ⟨fun k => ?_, fun c => ⟨rfl, rfl⟩, rfl⟩
  by_cases e : tid = k
  · subst e; rw [State.thread_modThread_same]
  · rw [State.thread_modThread_ne _ _ e]

/-- An orphan counted. -/
theorem State.orphaned_noted (s : State) (cl : Nat) : s.Noted (s.orphaned cl) := by
  refine ⟨fun k => rfl, fun c => ?_, rfl⟩
  unfold State.orphaned
  by_cases e : cl = c
  · subst e; rw [State.cluster_modCluster_same]; exact ⟨rfl, rfl⟩
  · rw [State.cluster_modCluster_ne _ _ e]; exact ⟨rfl, rfl⟩

theorem State.Noted.foldl {α : Type} (l : List α) (f : State → α → State) (hf : ∀ (s : State) a, s.Noted (f s a)) (s : State) :
    s.Noted (l.foldl f s) := by
  induction l generalizing s with
  | nil => exact .refl s
  | cons a l ih => exact .trans (hf s a) (ih _)

theorem State.noteWrite_noted (s : State) (pa n : Nat) : s.Noted (s.noteWrite pa n) := by
  unfold State.noteWrite
  extract_lets hit woken late s1
  split
  · refine .trans (t := s1) ⟨fun _ => rfl, fun c => ?_, rfl⟩
      (.trans (State.Noted.foldl woken _ (fun s w => s.trig_noted w.2) s1) (State.Noted.foldl late _ (fun s w => s.orphaned_noted w.2) _))
    simp only [State.cluster, KMap.getD, s1]
    rw [KMap.find_map s.clusters (fun p => { p with
      watchers := p.watchers.filter (fun w => !hit w), lapsed := p.lapsed.filter (fun w => !hit w)
      watches := p.watches.map (fun w => if w.hit pa n then { w with mutd := true } else w) }) c]
    cases KMap.find s.clusters c <;> exact ⟨rfl, rfl⟩
  · exact .refl s

theorem State.putWords_memOk {s : State} (h : s.memOk) (a : Nat) (l : List Word) : (s.putWords a l).memOk := by
  induction l generalizing s a with
  | nil => exact h
  | cons w l ih =>
    refine ih ?_ (a + 8)
    have e : (((s.poke a 8 w.toNat).setTag a true).clearPoison a 8).mem = (s.poke a 8 w.toNat).mem := by simp
    have n : ∀ u : State, (u.noteWrite a 8).mem = u.mem := fun u => by
      have h := congrArg State.mem (State.noteWrite_noted u a 8).other
      exact h
    unfold State.memOk
    rw [n, e]
    exact State.poke_memOk h a 8 w.toNat

/-- R321: everything that a write performed at its home can do: the bytes, the tags where it fills them, the poison of whole
words, and what the watches note. -/
theorem State.perform_spec (s : State) (pa n v : Nat) (full : Bool) :
    (∀ a, (s.perform pa n v full).byte a = if pa ≤ a ∧ a < pa + n then BitVec.ofNat 8 (v / 256 ^ (a - pa)) else s.byte a) ∧
    (s.perform pa n v full).empties =
      (if full then s.empties.filter (fun x => decide (x + 8 ≤ pa ∨ pa + n ≤ x)) else s.empties) ∧
    (∀ k, { (s.perform pa n v full).thread k with mon := (s.thread k).mon } = s.thread k) ∧
    (∀ c, ((s.perform pa n v full).cluster c).tagWait = (s.cluster c).tagWait ∧
      ((s.perform pa n v full).cluster c).atoms = (s.cluster c).atoms) ∧
    { s.perform pa n v full with threads := s.threads, clusters := s.clusters, mem := s.mem, empties := s.empties, poison := s.poison } = s := by
  have h := State.noteWrite_noted (if full then ((s.poke pa n v).clearPoison pa n).fillTags pa n else (s.poke pa n v).clearPoison pa n) pa n
  have hm : (s.perform pa n v full).mem = (s.poke pa n v).mem := by
    have e := congrArg State.mem h.other
    refine e.trans ?_
    cases full <;> rfl
  have he : (s.perform pa n v full).empties =
      (if full then s.empties.filter (fun x => decide (x + 8 ≤ pa ∨ pa + n ≤ x)) else s.empties) := by
    have e := congrArg State.empties h.other
    refine e.trans ?_
    cases full <;> rfl
  refine ⟨fun a => ?_, he, fun k => ?_, fun c => ?_, ?_⟩
  · rw [State.byte, hm]; exact State.byte_poke s pa n v a
  · have e := h.threads k
    cases full <;> exact e
  · have e := h.waits c
    cases full <;> exact e
  · have e := h.other
    cases full
    · exact congrArg (fun x : State => { x with mem := s.mem, empties := s.empties, poison := s.poison }) e
    · exact congrArg (fun x : State => { x with mem := s.mem, empties := s.empties, poison := s.poison }) e

end Sys2Proof.Machine
end

