-- ==== Sys2Proof/Laws/Run.lean ====
section
/-! SUPPORT. What `run` and `State.finish` do: an instruction that executes ends as its effect says, and one whose effect
only writes registers of its thread leaves the state that `State.After` describes. -/

namespace Sys2Proof.Machine

/-! ### `run` -/

/-- A register whose parity is good needs no repair. -/
theorem State.repair_good (s : State) (tid : Nat) (l : List Reg) (h : ∀ r ∈ l, (s.thread tid).bad.contains (regNum r) = false) :
    s.repair tid l = (s, none) := by
  induction l with
  | nil => rfl
  | cons r l ih =>
    simp only [State.repair, h r (by simp), Bool.false_eq_true, if_false]
    exact ih (fun x hx => h x (by simp [hx]))

/-- R134: an instruction that executes ends as its effect says. -/
theorem run_eq {s : State} {g : Guard} {n : Need} (f : State → Thread → Res) (h : s.runs g n = true) :
    run s g n f = .next (s.finish (takesOf n.srcs (n.dests ++ n.fills)) n.outside (f s s.me)) := by
  simp only [State.runs, Bool.and_eq_true, Bool.not_eq_true', beq_iff_eq, Bool.or_eq_true, List.all_eq_true, Thread.guardOk,
    bne_iff_ne, ne_eq] at h
  obtain ⟨⟨⟨⟨⟨⟨⟨⟨h1, h2⟩, h3⟩, h4⟩, h5⟩, h6⟩, h7⟩, h8⟩, h9⟩ := h
  have hn : s.me.notReady n = none := by
    have e1 : (srcRegs n.srcs ++ n.reads).find? (fun r => !s.me.full r) = none := by
      rw [List.find?_eq_none]
      intro r hr
      simp [(h7 r hr).1]
    have e2 : n.dests.find? s.me.awaited = none := by
      rw [List.find?_eq_none]
      intro r hr
      simp [h8 r hr]
    rw [Thread.notReady, e1, e2]
    rfl
  have hr := s.repair_good s.cur (srcRegs n.srcs ++ n.reads) (fun r hr => (h7 r hr).2)
  have h5' : (n.priv && !s.me.sup) = false := by
    rcases h5 with h | h <;> simp [h]
  have h6' : (n.anc && !s.me.anc) = false := by
    rcases h6 with h | h <;> simp [h]
  have h9' : (n.outside && s.unagreed s.me) = false := by
    rcases h9 with h | h <;> simp [h]
  simp only [run, h1, h2, h3, h4, h5', h6', hn, hr, h9', Bool.false_eq_true, if_false, ne_eq, not_true_eq_false, Bool.not_true]
  rfl

/-! ### Full bits and takes -/

theorem Thread.full_setFull (t : Thread) (r q : Reg) (b : Bool) :
    (t.setFull r b).full q = if q = r ∧ Reg.tagged r = true then b else t.full q := by
  cases r <;> cases q <;> simp [Thread.setFull, Thread.full, Reg.tagged]
  all_goals (rename_i n m; by_cases h : m = n <;> cases b <;> simp [h])
  all_goals (have h' : n.val ≠ m.val := fun e => h (Fin.ext e.symm); omega)

/-- The fields of a thread's record that its full bits leave alone. -/
def Thread.tagless (t : Thread) : Thread := { t with gFull := 0, vFull := 0, mFull := 0 }

@[simp] theorem Thread.tagless_setFull (t : Thread) (r : Reg) (b : Bool) : (t.setFull r b).tagless = t.tagless := by
  cases r <;> rfl

@[simp] theorem Thread.tagless_takeAll (t : Thread) (l : List Reg) : (t.takeAll l).tagless = t.tagless := by
  induction l generalizing t with
  | nil => rfl
  | cons r l ih => simp [Thread.takeAll] at ih ⊢; rw [ih]; simp

theorem Thread.full_takeAll (t : Thread) (l : List Reg) (q : Reg) :
    (t.takeAll l).full q = if Reg.tagged q = true ∧ q ∈ l then false else t.full q := by
  induction l generalizing t with
  | nil => simp [Thread.takeAll]
  | cons r l ih =>
    simp only [Thread.takeAll, List.foldl_cons] at ih ⊢
    rw [ih, Thread.full_setFull]
    by_cases h : q = r
    · subst h; by_cases h2 : Reg.tagged q = true <;> simp [h2]
    · simp [h]

/-! ### Effects that only write registers of the running thread -/

/-- What the effect of an instruction leaves before it retires, when it only writes registers of the running thread. -/
structure State.Wrote (s t : State) (o : Out) : Prop where
  g : ∀ n (h : n < 16), (t.thread s.cur).g[n] = if o.reg = .g ⟨n, h⟩ then o.val else s.me.g[n]
  v : ∀ n (h : n < 32), (t.thread s.cur).v[n] = if o.vreg = .v ⟨n, h⟩ then o.vec else s.me.v[n]
  m : ∀ n (h : n < 8), (t.thread s.cur).m[n] = if o.reg = .m ⟨n, h⟩ then o.val.setWidth 32 else s.me.m[n]
  full : ∀ r : Reg, (t.thread s.cur).full r = if (r = o.reg ∨ r = o.vreg) then true else s.me.full r
  pw : (t.thread s.cur).pw = if o.reg = .pw then (o.pw &&& 0xFF00F801) ||| (o.val.setWidth 32 &&& 0x00FF07FE) else o.pw
  rnd : (t.thread s.cur).rnd = o.rnd
  retired : (t.thread s.cur).retired = s.me.retired
  marks : (∀ x ∈ (t.thread s.cur).bad, x ∈ s.me.bad) ∧ ∀ x ∈ (t.thread s.cur).marks, x ∈ s.me.marks
  mask : (t.thread s.cur).mask s.me = s.me
  threads : ∀ k, k ≠ s.cur → t.thread k = s.thread k
  cores : ∀ k, (t.core k).mask = (s.core k).mask
  other : { t with threads := s.threads, cores := s.cores } = s

/-- The output of an instruction that writes nothing. -/
abbrev Out.none (s : State) : Out := { pw := s.me.pw, rnd := s.me.rnd, takes := [], pc := 0 }

theorem Thread.full_z (t : Thread) : t.full .z = true := rfl

theorem State.Wrote.refl (s : State) : s.Wrote s (Out.none s) where
  g := by simp
  v := by simp
  m := by simp
  full := by intro r; by_cases h : r = .z <;> simp [h, Thread.full]
  pw := by simp
  rnd := rfl
  retired := rfl
  marks := ⟨fun _ h => h, fun _ h => h⟩
  mask := rfl
  threads := fun _ _ => rfl
  cores := fun _ => rfl
  other := rfl

/-! ### What the end of an instruction leaves -/

/-- Two states that differ only in the fingerprint of the thread `tid` and in the repair and comparison fields of cores. -/
structure State.Kin (s t : State) (tid : Nat) : Prop where
  me : ∃ f a, t.thread tid = { s.thread tid with finger := f, agreed := a }
  threads : ∀ k, k ≠ tid → t.thread k = s.thread k
  cores : ∀ k, (t.core k).mask = (s.core k).mask
  other : { t with threads := s.threads, cores := s.cores } = s

theorem State.Kin.refl (s : State) (tid : Nat) : s.Kin s tid := ⟨⟨_, _, rfl⟩, fun _ _ => rfl, fun _ => rfl, rfl⟩

theorem State.Kin.trans {s t u : State} {tid : Nat} (h : s.Kin t tid) (k : t.Kin u tid) : s.Kin u tid where
  me := by
    obtain ⟨f, a, e⟩ := h.me
    obtain ⟨f', a', e'⟩ := k.me
    exact ⟨f', a', by rw [e', e]⟩
  threads := fun j hj => (k.threads j hj).trans (h.threads j hj)
  cores := fun j => (k.cores j).trans (h.cores j)
  other := by
    have e := h.other
    rw [← k.other] at e
    exact e

theorem State.kin_modThread (s : State) (tid : Nat) (f : Thread → Thread)
    (h : ∃ x a, f (s.thread tid) = { s.thread tid with finger := x, agreed := a }) : s.Kin (s.modThread tid f) tid where
  me := by simpa using h
  threads := fun k hk => State.thread_modThread_ne s f (Ne.symm hk)
  cores := fun _ => rfl
  other := rfl

theorem State.kin_modCore (s : State) (tid k : Nat) (f : Core → Core) (h : (f (s.core k)).mask = (s.core k).mask) :
    s.Kin (s.modCore k f) tid where
  me := ⟨_, _, rfl⟩
  threads := fun _ _ => rfl
  cores := fun j => by
    by_cases hj : k = j
    · subst hj; simpa using h
    · rw [State.core_modCore_ne s f hj]
  other := rfl

theorem State.kin_feed (s : State) (tid v n : Nat) : s.Kin (s.feed tid v n) tid := by
  unfold State.feed
  split
  · exact State.kin_modThread s tid _ ⟨_, _, rfl⟩
  · exact .refl s tid

theorem State.kin_logWrite (s : State) (tid r : Nat) (x : BitVec 1024) : s.Kin (s.logWrite tid r x) tid := by
  unfold State.logWrite
  dsimp only
  split
  · exact State.kin_modCore s tid _ _ rfl
  · exact .refl s tid

theorem State.kin_agreeAfter (s : State) (tid : Nat) (b : Bool) : s.Kin (s.agreeAfter tid b) tid := by
  unfold State.agreeAfter
  split
  · unfold State.agree
    dsimp only
    refine .trans (State.kin_modThread s tid _ ⟨_, _, rfl⟩) (State.kin_modCore _ tid _ _ ?_)
    rfl
  · exact .refl s tid

/-- A state that differs from one that an effect left only in fingerprints and logs is as good. -/
theorem State.Wrote.kin {s t u : State} {o : Out} (h : s.Wrote t o) (k : t.Kin u s.cur) : s.Wrote u o := by
  obtain ⟨f, a, e⟩ := k.me
  refine ⟨?_, ?_, ?_, ?_, ?_, ?_, ?_, ?_, ?_, fun j hj => (k.threads j hj).trans (h.threads j hj),
    fun j => (k.cores j).trans (h.cores j), ?_⟩ <;> try rw [e]
  · exact h.g
  · exact h.v
  · exact h.m
  · exact h.full
  · exact h.pw
  · exact h.rnd
  · exact h.retired
  · exact h.marks
  · exact h.mask
  · have e2 := h.other
    rw [← k.other] at e2
    exact e2

/-- R134 step 7: what retirement leaves of an effect that only wrote registers. -/
theorem State.Wrote.retire {s u : State} {o : Out} (h : s.Wrote u o) (takes : List Reg) (b : Bool) (pc : Word) (v : Nat) (feeds : Bool)
    (hr : Reg.tagged o.reg = true → o.reg ∉ takes)
    (hv : Reg.tagged o.vreg = true → o.vreg ∉ takes) :
    s.After ((((if feeds then (u.modThread s.cur (fun t => t.takeAll takes)).feed s.cur v 8
      else u.modThread s.cur (fun t => t.takeAll takes))).retire s.cur pc).agreeAfter s.cur b)
      { o with takes := takes, pc := pc } := by
  have ek : (u.modThread s.cur (fun t => t.takeAll takes)).Kin
      (if feeds then (u.modThread s.cur (fun t => t.takeAll takes)).feed s.cur v 8
      else u.modThread s.cur (fun t => t.takeAll takes)) s.cur := by
    split
    · exact State.kin_feed _ _ _ _
    · exact .refl _ _
  generalize (if feeds then (u.modThread s.cur (fun t => t.takeAll takes)).feed s.cur v 8
      else u.modThread s.cur (fun t => t.takeAll takes)) = w at ek ⊢
  have k := State.kin_agreeAfter (w.retire s.cur pc) s.cur b
  generalize (w.retire s.cur pc).agreeAfter s.cur b = z at k ⊢
  obtain ⟨f, a, e⟩ := ek.me
  obtain ⟨f', a', e'⟩ := k.me
  rw [State.retire, State.thread_modThread_same, e, State.thread_modThread_same] at e'
  generalize hx : u.thread s.cur = x at e'
  have ht : (x.takeAll takes).tagless = x.tagless := Thread.tagless_takeAll x takes
  have hf := Thread.full_takeAll x takes
  generalize hy : x.takeAll takes = y at e' ht hf
  have hz : (z.thread s.cur).full = y.full := by rw [e']; rfl
  simp only [Thread.tagless, Thread.mk.injEq] at ht
  have hg := h.g; have hvv := h.v; have hm := h.m; have hfull := h.full; have hpw := h.pw; have hrnd := h.rnd
  have hret := h.retired; have hma := h.marks; have hmk := h.mask
  rw [hx] at hg hvv hm hfull hpw hrnd hret hma hmk
  simp only [Thread.mask] at hmk
  refine ⟨⟨?_, ?_, ?_, ?_, ?_, ?_, ?_, ?_, ?_, ?_, ?_⟩, ?_, ?_, ?_, ?_⟩
  · intro n hn; rw [e']; simp only [Thread.settle]; rw [← hg]; simp only [ht]
  · intro n hn; rw [e']; simp only [Thread.settle]; rw [← hvv]; simp only [ht]
  · intro n hn; rw [e']; simp only [Thread.settle]; rw [← hm]; simp only [ht]
  · intro r
    rw [hz, hf, hfull]
    by_cases h1 : r = o.reg ∨ r = o.vreg
    · have : Reg.tagged r = true → r ∉ takes := by rcases h1 with h | h <;> (rw [h]; assumption)
      by_cases ht : Reg.tagged r = true
      · simp [this ht, h1]
      · simp [ht, h1]
    · simp [h1]
  · rw [e']; simp only [Thread.settle]; rw [← hpw]; simp only [ht]
  · rw [e']
  · rw [e']; simp only [Thread.settle]; rw [← hrnd]; simp only [ht]
  · rw [e']; simp only; rw [← hret]; simp only [ht]
  · rw [e']; simp [Thread.settle]
  · rw [e']; simp only [Thread.settle, ht]; exact hma
  · rw [e']; simp only [Thread.settle, Thread.mask, ht]; exact hmk
  · intro k' hk
    rw [k.threads k' hk, State.retire, State.thread_modThread_ne _ _ (Ne.symm hk), ek.threads k' hk,
      State.thread_modThread_ne _ _ (Ne.symm hk), h.threads k' hk]
  · intro j; rw [k.cores j]; exact (ek.cores j).trans (h.cores j)
  · have e3 := h.other
    have e4 := ek.other
    have e5 := k.other
    rw [← e3]
    conv_rhs => rw [show u = { (u.modThread s.cur (fun t => t.takeAll takes)) with threads := u.threads, cores := u.cores } from rfl, ← e4]
    conv_rhs => rw [show w = { (w.retire s.cur pc) with threads := w.threads, cores := w.cores } from rfl, ← e5]
  · intro a'
    have e3 : z.mem = s.mem := by
      have e3 := congrArg State.mem h.other
      have e4 := congrArg State.mem ek.other
      have e5 := congrArg State.mem k.other
      exact e5.trans (e4.trans e3)
    simp only [State.byte, e3]

theorem notMem_takesOf {r : Reg} {srcs : List Src} {dests : List Reg} (h : r ∈ dests ∨ r = .z) :
    Reg.tagged r = true → r ∉ takesOf srcs dests := by
  intro ht hm
  rcases h with h | h
  · simp [takesOf, h] at hm
  · subst h; simp [Reg.tagged] at ht

/-- An instruction that executes with an effect that only writes registers, and goes on at the next word, completes. -/
theorem completes_ok {i : Instr} {s u : State} {g : Guard} {n : Need} {f : State → Thread → Res} {o : Out}
    (he : exec i s = run s g n f) (hr : s.runs g n = true) (hf : f s s.me = .ok u) (hw : s.Wrote u o)
    (h1 : o.reg ∈ n.dests ++ n.fills ∨ o.reg = .z)
    (h2 : o.vreg ∈ n.dests ++ n.fills ∨ o.vreg = .z) :
    Completes i s { o with takes := takesOf n.srcs (n.dests ++ n.fills), pc := s.me.pc + 8 } :=
  ⟨_, by rw [he, run_eq f hr, hf]; rfl, hw.retire (takesOf n.srcs (n.dests ++ n.fills)) n.outside (s.me.pc + 8) 0 false
    (notMem_takesOf h1) (notMem_takesOf h2)⟩

/-- An instruction that executes with an effect that only writes registers, and goes on at `pc`, completes. -/
theorem completes_jump {i : Instr} {s u : State} {g : Guard} {n : Need} {f : State → Thread → Res} {o : Out} {pc : Word}
    (he : exec i s = run s g n f) (hr : s.runs g n = true) (hf : f s s.me = .jump u pc) (hw : s.Wrote u o)
    (h1 : o.reg ∈ n.dests ++ n.fills ∨ o.reg = .z)
    (h2 : o.vreg ∈ n.dests ++ n.fills ∨ o.vreg = .z) :
    Completes i s { o with takes := takesOf n.srcs (n.dests ++ n.fills), pc := pc } :=
  ⟨_, by rw [he, run_eq f hr, hf]; rfl, hw.retire (takesOf n.srcs (n.dests ++ n.fills)) n.outside pc pc.toNat true
    (notMem_takesOf h1) (notMem_takesOf h2)⟩

/-! ### Writes -/

/-- A register that a scalar result may be written to: a general or mask register, pw, or z. -/
def Reg.scalarDest : Reg → Bool
  | .g _ | .m _ | .pw | .z => true
  | .v _ | .ip | .sm _ => false

theorem State.Wrote.thread {s u : State} {o : Out} (h : s.Wrote u o) (f : Thread → Thread) (o' : Out)
    (hg : ∀ n (h : n < 16), (f (u.thread s.cur)).g[n] = if o'.reg = .g ⟨n, h⟩ then o'.val else s.me.g[n])
    (hv : ∀ n (h : n < 32), (f (u.thread s.cur)).v[n] = if o'.vreg = .v ⟨n, h⟩ then o'.vec else s.me.v[n])
    (hm : ∀ n (h : n < 8), (f (u.thread s.cur)).m[n] = if o'.reg = .m ⟨n, h⟩ then o'.val.setWidth 32 else s.me.m[n])
    (hfull : ∀ r : Reg, (f (u.thread s.cur)).full r = if (r = o'.reg ∨ r = o'.vreg) then true else s.me.full r)
    (hpw : (f (u.thread s.cur)).pw = if o'.reg = .pw then (o'.pw &&& 0xFF00F801) ||| (o'.val.setWidth 32 &&& 0x00FF07FE) else o'.pw)
    (hrnd : (f (u.thread s.cur)).rnd = o'.rnd) (hret : (f (u.thread s.cur)).retired = s.me.retired)
    (hma : (∀ x ∈ (f (u.thread s.cur)).bad, x ∈ s.me.bad) ∧ ∀ x ∈ (f (u.thread s.cur)).marks, x ∈ s.me.marks)
    (hmk : (f (u.thread s.cur)).mask s.me = s.me) : s.Wrote (u.modThread s.cur f) o' := by
  refine ⟨?_, ?_, ?_, ?_, ?_, ?_, ?_, ?_, ?_, fun k hk => ?_, fun k => h.cores k, h.other⟩
  all_goals try rw [State.thread_modThread_same]
  all_goals try assumption
  rw [State.thread_modThread_ne _ _ (Ne.symm hk)]
  exact h.threads k hk

theorem State.Wrote.write {s t : State} {o : Out} (h : s.Wrote t o) (ho : o.reg = .z) (d : Reg) (hd : Reg.scalarDest d = true) (x : Word) :
    s.Wrote (t.write s.cur d x) { o with reg := d, val := x } := by
  have hg := h.g; have hv := h.v; have hm := h.m; have hf := h.full; have hp := h.pw; have hmk := h.mask
  simp only [ho, reduceCtorEq, if_false] at hg hv hm hf hp
  cases d with
  | g n =>
    refine .kin (.kin (h.thread (fun t => t.put (.g n) x) _ ?_ ?_ ?_ ?_ ?_ ?_ ?_ ?_ ?_) (State.kin_logWrite _ _ _ _)) (State.kin_feed _ _ _ _)
    · intro k hk
      show ((t.thread s.cur).g.set n.val x n.isLt)[k] = _
      rw [Vector.getElem_set]
      by_cases e : n.val = k
      · subst e; simp
      · have e' : ¬ (Reg.g n = Reg.g ⟨k, hk⟩) := fun c => e (by injection c with c; rw [c])
        rw [if_neg e, if_neg e']; exact hg k hk
    · intro k hk; simpa [Thread.put, Thread.setFull] using hv k hk
    · intro k hk; simpa [Thread.put, Thread.setFull] using hm k hk
    · intro r
      have e := Thread.full_setFull (t.thread s.cur) (.g n) r true
      have e2 : ((t.thread s.cur).put (.g n) x).full r = ((t.thread s.cur).setFull (.g n) true).full r := by cases r <;> rfl
      rw [e2, e, hf]
      by_cases e3 : r = .g n
      · simp [e3, Reg.tagged]
      · by_cases e4 : r = .z <;> simp [e3, e4, Thread.full]
    · simpa [Thread.put, Thread.setFull] using hp
    · exact h.rnd
    · exact h.retired
    · refine ⟨fun y hy => h.marks.1 y ?_, fun y hy => h.marks.2 y ?_⟩ <;> simp [Thread.put] at hy <;> exact hy.1
    · simpa [Thread.put, Thread.setFull, Thread.mask] using hmk
  | m n =>
    refine .kin (.kin (h.thread (fun t => t.put (.m n) x) _ ?_ ?_ ?_ ?_ ?_ ?_ ?_ ?_ ?_) (State.kin_logWrite _ _ _ _)) (State.kin_feed _ _ _ _)
    · intro k hk; simpa [Thread.put, Thread.setFull] using hg k hk
    · intro k hk; simpa [Thread.put, Thread.setFull] using hv k hk
    · intro k hk
      show ((t.thread s.cur).m.set n.val (x.setWidth 32) n.isLt)[k] = _
      rw [Vector.getElem_set]
      by_cases e : n.val = k
      · subst e; simp
      · have e' : ¬ (Reg.m n = Reg.m ⟨k, hk⟩) := fun c => e (by injection c with c; rw [c])
        rw [if_neg e, if_neg e']; exact hm k hk
    · intro r
      have e := Thread.full_setFull (t.thread s.cur) (.m n) r true
      have e2 : ((t.thread s.cur).put (.m n) x).full r = ((t.thread s.cur).setFull (.m n) true).full r := by cases r <;> rfl
      rw [e2, e, hf]
      by_cases e3 : r = .m n
      · simp [e3, Reg.tagged]
      · by_cases e4 : r = .z <;> simp [e3, e4, Thread.full]
    · simpa [Thread.put, Thread.setFull] using hp
    · exact h.rnd
    · exact h.retired
    · refine ⟨fun y hy => h.marks.1 y ?_, h.marks.2⟩
      simp [Thread.put] at hy
      exact hy.1
    · simpa [Thread.put, Thread.setFull, Thread.mask] using hmk
  | pw =>
    refine h.thread (fun t => t.put .pw x) _ ?_ ?_ ?_ ?_ ?_ h.rnd h.retired h.marks ?_
    · intro k hk; simpa [Thread.put] using hg k hk
    · intro k hk; simpa [Thread.put] using hv k hk
    · intro k hk; simpa [Thread.put] using hm k hk
    · intro r
      have e2 : ((t.thread s.cur).put .pw x).full r = (t.thread s.cur).full r := by cases r <;> rfl
      rw [e2, hf]
      by_cases e3 : r = .pw
      · simp [e3, Thread.full]
      · by_cases e4 : r = .z <;> simp [e3, e4, Thread.full]
    · simp [Thread.put, hp, pwMask]
    · simpa [Thread.put, Thread.mask] using hmk
  | z =>
    refine ⟨?_, h.v, ?_, ?_, ?_, h.rnd, h.retired, h.marks, h.mask, h.threads, h.cores, h.other⟩
    · simpa [State.write] using hg
    · simpa [State.write] using hm
    · simpa [State.write] using hf
    · simpa [State.write] using hp
  | v n => simp [Reg.scalarDest] at hd
  | ip => simp [Reg.scalarDest] at hd
  | sm n => simp [Reg.scalarDest] at hd

theorem State.Wrote.raise {s t : State} {o : Out} (h : s.Wrote t o) (ho : o.reg ≠ .pw) (fl : BitVec 32) :
    s.Wrote (t.raise s.cur fl) { o with pw := o.pw ||| fl } := by
  refine h.thread _ _ h.g h.v h.m ?_ ?_ h.rnd h.retired h.marks ?_
  · intro r
    have e2 : ({ t.thread s.cur with pw := (t.thread s.cur).pw ||| fl } : Thread).full r = (t.thread s.cur).full r := by cases r <;> rfl
    rw [e2]; exact h.full r
  · have := h.pw; simp [ho] at this; simp [ho, this]
  · have := h.mask; simpa [Thread.mask] using this

/-- pw with one flag written; f0 stays 1 (R173). -/
def pwFlag (pw : BitVec 32) (n : BitVec 3) (b : Bool) : BitVec 32 :=
  if n = 0 then pw else if b then pw ||| (1#32 <<< n.toNat) else pw &&& ~~~(1#32 <<< n.toNat)

theorem State.Wrote.setFlag {s t : State} {o : Out} (h : s.Wrote t o) (ho : o.reg ≠ .pw) (n : BitVec 3) (b : Bool) :
    s.Wrote (t.setFlag s.cur n b) { o with pw := pwFlag o.pw n b } := by
  unfold State.setFlag pwFlag
  split
  · exact h
  · refine h.thread _ _ h.g h.v h.m ?_ ?_ h.rnd h.retired h.marks ?_
    · intro r
      rw [← h.full r]; cases r <;> rfl
    · have := h.pw; simp [ho] at this; simp [ho, this]
    · have := h.mask; simpa [Thread.mask] using this

theorem State.Wrote.rnd1 {s t : State} {o : Out} (h : s.Wrote t o) (rm : RM) :
    s.Wrote (t.rnd1 rm).1 { o with rnd := if rm = .sr then rndStep o.rnd else o.rnd } := by
  have hc : t.cur = s.cur := by
    have e := congrArg State.cur h.other
    exact e
  unfold State.rnd1
  rw [hc]
  split
  · refine h.thread (fun x => { x with rnd := rndStep (t.thread s.cur).rnd }) _ h.g h.v h.m ?_ h.pw ?_ h.retired h.marks ?_
    · intro r
      rw [← h.full r]; cases r <;> rfl
    · simp [h.rnd]
    · have := h.mask; simpa [Thread.mask] using this
  · exact h

theorem State.Wrote.writeV {s t : State} {o : Out} (h : s.Wrote t o) (ho : o.vreg = .z) (d : Reg) (hd : d.isV = true ∨ d = .z) (x : BitVec 1024) :
    s.Wrote (t.writeV s.cur d x) { o with vreg := d, vec := x } := by
  have hg := h.g; have hv := h.v; have hm := h.m; have hf := h.full; have hp := h.pw; have hmk := h.mask
  simp only [ho, reduceCtorEq, if_false] at hg hv hm hf hp
  cases d with
  | v n =>
    refine .kin (.kin (h.thread (fun t => t.putV (.v n) x) _ ?_ ?_ ?_ ?_ ?_ ?_ ?_ ?_ ?_) (State.kin_logWrite _ _ _ _)) (State.kin_feed _ _ _ _)
    · intro k hk; simpa [Thread.putV, Thread.setFull] using hg k hk
    · intro k hk
      show ((t.thread s.cur).v.set n.val x n.isLt)[k] = _
      rw [Vector.getElem_set]
      by_cases e : n.val = k
      · subst e; simp
      · have e' : ¬ (Reg.v n = Reg.v ⟨k, hk⟩) := fun c => e (by injection c with c; rw [c])
        rw [if_neg e, if_neg e']; exact hv k hk
    · intro k hk; simpa [Thread.putV, Thread.setFull] using hm k hk
    · intro r
      have e := Thread.full_setFull (t.thread s.cur) (.v n) r true
      have e2 : ((t.thread s.cur).putV (.v n) x).full r = ((t.thread s.cur).setFull (.v n) true).full r := by cases r <;> rfl
      rw [e2, e, hf]
      by_cases e3 : r = .v n
      · simp [e3, Reg.tagged]
      · by_cases e4 : r = .z <;> simp [e3, e4, Thread.full]
    · simpa [Thread.putV, Thread.setFull] using hp
    · exact h.rnd
    · exact h.retired
    · refine ⟨fun y hy => h.marks.1 y ?_, fun y hy => h.marks.2 y ?_⟩ <;> simp [Thread.putV] at hy <;> exact hy.1
    · simpa [Thread.putV, Thread.setFull, Thread.mask] using hmk
  | z =>
    refine ⟨hg, ?_, hm, ?_, hp, h.rnd, h.retired, h.marks, h.mask, h.threads, h.cores, h.other⟩
    · simpa [State.writeV] using hv
    · simpa [State.writeV] using hf
  | g n => simp [Reg.isV] at hd
  | m n => simp [Reg.isV] at hd
  | pw => simp [Reg.isV] at hd
  | ip => simp [Reg.isV] at hd
  | sm n => simp [Reg.isV] at hd

/-- Only the takes of registers with a full bit matter. -/
theorem State.After.takes {s t : State} {o : Out} (h : s.After t o) (l : List Reg)
    (hl : ∀ r, Reg.tagged r = true → (r ∈ o.takes ↔ r ∈ l)) : s.After t { o with takes := l } := by
  obtain ⟨⟨hg, hv, hm, hf, hp, hpc, hr, hrt, hi, hma, ho⟩, h2, h3, h4, h5⟩ := h
  refine ⟨⟨hg, hv, hm, fun r => ?_, hp, hpc, hr, hrt, hi, hma, ho⟩, h2, h3, h4, h5⟩
  rw [hf r]
  by_cases ht : Reg.tagged r = true
  · simp [ht, hl r ht]
  · simp [ht]

theorem mem_takesOf_z (srcs : List Src) (dests : List Reg) (r : Reg) (h : Reg.tagged r = true) :
    r ∈ takesOf srcs (.z :: dests) ↔ r ∈ takesOf srcs dests := by
  have hz : r ≠ .z := by rintro rfl; simp [Reg.tagged] at h
  simp [takesOf, hz]

/-- An instruction that executes and leaves `u`, in which the running thread stands where it stood, completes as `u`. -/
theorem completes_as {i : Instr} {s u : State} {g : Guard} {n : Need} {f : State → Thread → Res}
    (he : exec i s = run s g n f) (hr : s.runs g n = true) (hf : f s s.me = .ok u) (hc : u.cur = s.cur) :
    CompletesAs i s u { Out.none u with takes := takesOf n.srcs (n.dests ++ n.fills), pc := s.me.pc + 8 } := by
  have hw := (State.Wrote.refl u).retire (takesOf n.srcs (n.dests ++ n.fills)) n.outside (s.me.pc + 8) 0 false
    (by simp [Reg.tagged]) (by simp [Reg.tagged])
  rw [hc] at hw
  exact ⟨_, by rw [he, run_eq f hr, hf]; rfl, hw⟩

/-- An instruction that executes and traps. -/
theorem traps_of {i : Instr} {s : State} {g : Guard} {n : Need} {f : State → Thread → Res} {c : Nat} {a : Word}
    (he : exec i s = run s g n f) (hr : s.runs g n = true) (hf : f s s.me = .trap c a) : Traps i s c a := by
  rw [Traps, he, run_eq f hr, hf]
  rfl

end Sys2Proof.Machine
end

