-- ==== Sys2Proof/Tests/Slice0.lean ====
section
/-! SUPPORT. Tests: words of the spec decode to their instructions; terms that are not well formed are refused; and for every
statement that has hypotheses a concrete state and operands that meet them (`witness_<statement>`), for each of its clauses. -/

namespace Sys2Proof.Tests
open Sys2Proof Sys2Proof.Machine

-- One theorem after another: the kernel evaluates each of them, and too many at a time would need too much memory.
set_option Elab.async false

/-! ### States for the tests -/

/-- A supervisor thread, anchored in slot 0 of core 0, every register 0 and full, its PC at the start of the core's TCM. -/
def runner : Thread := { Thread.blank with place := .slot 0 0, anc := true, sup := true, pc := 0x0082000000000000 }
/-- The domain after reset with one thread, number 0, which runs: `f` of `runner`. -/
def one (f : Thread → Thread) : State := { State.reset with threads := [(0, f runner)] }
/-- A thread with values in g registers. -/
def withG (l : List (Nat × Word)) (t : Thread) : Thread := { t with g := l.foldl (fun g p => g.set! p.1 p.2) t.g }
/-- The running thread is `runner`. -/
def base : State := one id
/-- `base` with a value in g1. -/
def at1 (x : Word) : State := one (withG [(1, x)])
/-- `base` with values in g1 and g3. -/
def at2 (x y : Word) : State := one (withG [(1, x), (3, y)])
/-- `base` with values in g1, g3 and g4. -/
def at3 (x y z : Word) : State := one (withG [(1, x), (3, y), (4, z)])
/-- A plain g source. -/
def r (n : Fin 16) : Src := ⟨.g n, false⟩
/-- A plain v source. -/
def rv (n : Fin 32) : Src := ⟨.v n, false⟩
/-- A plain m source. -/
def rm (n : Fin 8) : Src := ⟨.m n, false⟩
/-- The register z as a source. -/
def rz : Src := ⟨.z, false⟩
/-- A memory operand: g1 and nothing else. -/
def mem1 : MemOp := ⟨r 1, rz, 0, 0, 0⟩
/-- The instructions are well formed, and the running thread meets the need, under a guard that is true. -/
def ready (s : State) (n : Need) (l : List Instr) : Bool := l.all Instr.wf && s.runs 0 n
/-- The start of the TCM of core 0, and of that of core 4, which lies in another cluster. -/
def tcm : Word := 0x0082000000000000
def far : Word := 0x0082000000400000
/-- The state is `Cached` in itself. -/
theorem cached_self (s : State) : s.Cached s := .refl s
/-- What an access resolves to, with the state that it leaves. -/
theorem resolves {s : State} {c : Ctx} {va : Word} {k : Acc} {x : Rslt} (h : (s.resolve c va k).2 = x) :
    ∃ s2, s.resolve c va k = (s2, x) ∧ s.Cached s2 := ⟨_, by rw [← h], s.resolve_cached c va k false⟩
/-- Doublewords in memory. -/
def withMem (l : List (Nat × Word)) (s : State) : State := { s with mem := l.foldl (fun m p => memWrite m p.1 8 p.2.toNat) s.mem }
/-- What makes one byte `mine`. -/
abbrev ownByte (s : State) (k : Acc) (a : Nat) : Prop :=
  s.resolve s.me.ctx (BitVec.ofNat 64 a) k = (s, .at a none) ∧ homeLocal s.me.core (homeOf a) = true ∧ s.poisoned (wordOf a) 8 = false
/-- Single bytes that the running thread may access are `mine`. -/
theorem mine_bytes (s : State) (f : Nat → Nat) (h : ∀ k ∈ [Acc.load, .store], ∀ j, j < 32 → ownByte s k (f j)) :
    ∀ k ∈ [Acc.load, .store], ∀ j, j < 32 → s.mine k (f j) 1 := by
  intro k hk j hj x h1 h2
  obtain rfl : x = f j := by omega
  exact h k hk j hj
/-- The park region of cluster 0 holds as many messages for core 1 as it has room for, however many that is. -/
def fullPark (s : State) : State :=
  { s with cores := [(1, { Core.reset false with parkedMsgs := List.replicate (Config.parkRoom 16) ⟨0, [], 0, 0, 0⟩ })] }
theorem fullPark_full (s : State) (hb : (s.cluster 0).bnd0 = 0x10 := by rfl) : (fullPark s).sendOverflow 0 = true := by
  have h : ((fullPark s).cluster 0).bnd0 = 0x10 := hb
  have hc : clusterOf 1 = 0 := by decide
  have h0 : clusterOf 0 = 0 := by decide
  have hp : Config.parkRoom 16 ≤ (fullPark s).parkUsed 0 := by
    unfold State.parkUsed
    refine Nat.le_add_left_of_le ?_
    simp [fullPark, hc]
  simp [State.sendOverflow, State.parkFull, hc, h0, h, hp]
/-- A flit that the local port of its destination has taken, sent from core 4, in another cluster than core 0. -/
def flit (kind : BitVec 6) (dest : Nat) (b : Body) : Msg :=
  { kind := kind, domid := 0, cin := 0, tag := 0, pri := 1, injected := 0, born := 0, src := 4, ldest := dest, dest := dest, held := false
    nack := false, fnc := false, bounces := 0, sq := 0, seq := 0, body := b, loc := .ejected dest }
/-- The state with that flit, number 0, and no other. -/
def withFlit (m : Msg) (s : State) : State := { s with msgs := [(0, m)], nextId := 1 }
/-- A request of thread 9 on core 4. -/
def who4 : Asker := ⟨9, 7, 0, 0, 0, 4, true, false, 0⟩
/-- Two pages of 2^36 bytes, at VA 0 and 2^36: host memory from bus address 0 and DRAM from home address 0; and one that is absent. -/
def paged (s : State) : State :=
  withMem [(0x10000, 0x4000000000000800), (0x20000, 0xC003C20000000000), (0x20008, 0x8003C20000000000), (0x20010, 0x8001C20000000000)]
    { s with xlbase := 0x10001 }
/-- `runner` roams. -/
def roam (l : List (Nat × Word)) (t : Thread) : Thread := withG l { t with anc := false }
/-- A barrier of core 0 with 2 expected. -/
def bar : Barrier := { exp := 2, live := 2 }
/-- A barrier in place 47 of core 0. -/
def withBar (b : Barrier) (s : State) : State := s.modCore 0 (fun c => { c with barriers := [(47, b)] })
theorem names_intro {s : State} {w : Word} {core idx : Nat} (h : w.toNat = idx * 2 ^ 18 + core ∧ core < 2 ^ 18 ∧ idx < 48 ∧
    s.corePresent core = true ∧ (s.cluster (clusterOf core)).fen = false ∧ s.isLive (clusterOf core) s.me.domid s.me.cin = true ∧
    s.switchedFrom (clusterOf core) s.me.domid s.me.cin = false) : s.names w core idx := h
theorem takes_intro {s : State} {msg : Nat} {m : Msg} {who : Asker} (h : msg < s.nextId ∧ s.arrived msg = some m ∧
    s.isLive (clusterOf m.ldest) m.domid m.cin = true ∧ who.shadow = false ∧ clusterOf who.core ≠ clusterOf m.ldest) : s.takes msg m who := h
theorem object_intro {s : State} {cl pa : Nat} {k : ChanKind} {cap count head : Nat}
    (h : s.peekW pa = BitVec.ofNat 64 (k.typ * 2 ^ 44 + (cap + 2) * 2 ^ 20) ∧ 1 ≤ cap ∧ cap ≤ 16777213 ∧ s.peekW (pa + 8) = BitVec.ofNat 64 count ∧
      count ≤ cap ∧ s.peekW (pa + 16) = BitVec.ofNat 64 head ∧ head < cap ∧ s.poison = [] ∧ (s.cluster cl).chanWait = []) :
    s.object cl pa k cap count head := h
/-- A channel object at home address 0x200000. -/
def withObj (k : ChanKind) (cap count head : Nat) (s : State) : State :=
  withMem [(0x200000, BitVec.ofNat 64 (k.typ * 2 ^ 44 + (cap + 2) * 2 ^ 20)), (0x200008, BitVec.ofNat 64 count), (0x200010, BitVec.ofNat 64 head)] s
/-- What a read or write of an engine came to, when it succeeded, has a property. -/
def okAnd {α : Type} (g : Got α) (p : State → α → Bool) : Bool :=
  match g with
  | .ok s1 v => p s1 v
  | .bad _ _ _ | .absent _ _ => false
theorem okAnd_ex {α : Type} {g : Got α} {p : State → α → Bool} (h : okAnd g p = true) : ∃ s1 v, g = .ok s1 v ∧ p s1 v = true := by
  unfold okAnd at h
  split at h
  · exact ⟨_, _, rfl, h⟩
  · cases h
  · cases h

/-! ### Witnesses: hypotheses of the statements, met by concrete states and operands -/

/-- The arithmetic forms; a divisor that is 0 and one that is not. -/
theorem witness_ScalarArithmeticResults :
    ready (at2 (-7) 2) (aluNeed (.g 2) [r 1, r 3]) [.add 0 false (.g 2) (r 1) (.reg (r 3)), .sub 0 true (.g 2) (r 1) (.reg (r 3)),
      .mul 0 false (.g 2) (r 1) (.reg (r 3)), .mulh 0 true (.g 2) (r 1) (.reg (r 3)), .mulhn 0 false (.g 2) (r 1) (.reg (r 3)),
      .div 0 false (.g 2) (r 1) (.reg (r 3)), .divn 0 true (.g 2) (r 1) (.reg (r 3)), .rem 0 false (.g 2) (r 1) (.reg (r 3)),
      .remn 0 true (.g 2) (r 1) (.reg (r 3)), .min 0 false (.g 2) (r 1) (.reg (r 3)), .max 0 true (.g 2) (r 1) (.reg (r 3)),
      .minn 0 false (.g 2) (r 1) (.reg (r 3)), .maxn 0 true (.g 2) (r 1) (.reg (r 3))] = true ∧
    uval 64 (Opd.val (at2 (-7) 2).me (.reg (r 3))) ≠ 0 ∧
    ready (at2 (-7) 0x100000000) (aluNeed (.g 2) [r 1, r 3]) [.div 0 true (.g 2) (r 1) (.reg (r 3)), .remn 0 true (.g 2) (r 1) (.reg (r 3))] = true ∧
    uval 32 (Opd.val (at2 (-7) 0x100000000).me (.reg (r 3))) = 0 := by decide +kernel

theorem witness_ScalarBitwiseAndShiftResults :
    ready (at2 (-7) 64) (aluNeed .z [r 1, r 3]) [.and 0 false .z (r 1) (.reg (r 3)), .or 0 true .z (r 1) (.reg (r 3)),
      .xor 0 false .z (r 1) (.reg (r 3)), .andn 0 true .z (r 1) (.reg (r 3)), .shl 0 false .z (r 1) (.reg (r 3)),
      .shr 0 true .z (r 1) (.reg (r 3)), .sar 0 false .z (r 1) (.reg (r 3)), .rot 0 true .z (r 1) (.reg (r 3))] = true ∧
    ready base (aluNeed (.m 7) [⟨.g 15, true⟩]) [.and 0 false (.m 7) ⟨.g 15, true⟩ (.imm 0xFFF)] = true := by decide +kernel

theorem witness_ScalarCountReverseFieldAndAddressResults :
    ready (at1 0) (aluNeed (.g 1) [r 1]) [.clz 0 false (.g 1) (r 1), .ctz 0 true (.g 1) (r 1), .popc 0 false (.g 1) (r 1),
      .brev 0 true (.g 1) (r 1), .bswp 0 false (.g 1) (r 1)] = true ∧
    ready (at2 5 0x403F) (aluNeed (.g 2) [r 1, r 3]) [.ext 0 false true (.g 2) (r 1) (.reg (r 3)), .sel 0 true false 7 (.g 2) (r 1) (.reg (r 3))] = true ∧
    ready (at3 5 6 0x403F) (aluNeed (.g 2) [r 1, r 3, r 4]) [.dep 0 true (.g 2) (r 1) (r 3) (r 4)] = true ∧
    ready (at1 tcm) (aluNeed (.g 2) [r 1, rz]) [.lea 0 false (.g 2) mem1] = true ∧
    ready base (aluNeed (.g 2) []) [.movw 0 (.g 2) (-1)] = true ∧
    ready base { aluNeed (.g 2) [] with reads := [.g 2] } [.movh 0 (.g 2) 0x3FFFFF] = true := by decide +kernel

theorem witness_FlagAndPwResults :
    ready (at1 5) (aluNeed .z [r 1]) ([ICond.eq, .ne, .lt, .ge, .le, .gt, .ltn, .gen, .len, .gtn, .tst, .ntst].map (fun c => .cmp 0 c 7 (r 1) (.imm 0xFFF))) = true ∧
    ready base (aluNeed .z []) [.flop 0 .and 0 true 0 false 7, .flop 0 .xor 7 true 0 false 7] = true ∧
    ready base (aluNeed (.g 2) []) ([PwField.flags, .st, .fpf, .rm, .all].map (fun f => .pwrd 0 f (.g 2))) = true ∧
    ready (at1 (-1)) (aluNeed .z [r 1]) ([PwField.flags, .st, .fpf, .rm, .all].map (fun f => .pwwr 0 f (r 1))) = true := by decide +kernel

/-- Targets that are multiples of 8 and targets that are not; LOOP with its counter at 1, and at 0. -/
theorem witness_ControlTransferTargetsAndLinks :
    ready base (aluNeed .z []) [.br 0 (-1), .nop 0] = true ∧ ready base (aluNeed (.g 15) []) [.brl 0 (.g 15) 1] = true ∧
    ready (at1 8) (aluNeed .z [r 1]) [.jmp 0 (r 1) 4, .jmp 0 (r 1) 8] = true ∧
    ready (at1 8) (aluNeed (.g 2) [r 1]) [.jmpl 0 (.g 2) (r 1) (-4), .jmpl 0 (.g 2) (r 1) (-8)] = true ∧
    ready (at1 1) { aluNeed (.g 1) [] with reads := [.g 1] } [.loop 0 (.g 1) (-1)] = true ∧
    ready (at1 0) { aluNeed (.g 1) [] with reads := [.g 1] } [.loop 0 (.g 1) (-1)] = true ∧
    (one (fun t => { t with pc := 4 })).runs 0 (aluNeed (.g 1) []) = true := by decide +kernel

theorem witness_ScalarFloatArithmeticRoundsOnce :
    ready (at3 0x3FF0000000000000 0x7FF0000000000000 0x7FF0000000000001) (fpNeed (.g 2) [r 1, r 3]) ([RM.rne, .rtz, .rdn, .rup, .rna, .sr, .dyn].flatMap (fun m =>
      [.fadd 0 false m (.g 2) (r 1) (r 3), .fsub 0 true m (.g 2) (r 1) (r 3), .fmul 0 false m (.g 2) (r 1) (r 3), .fdiv 0 true m (.g 2) (r 1) (r 3)]) ++
      [.fmin 0 true (.g 2) (r 1) (r 3), .fmax 0 false (.g 2) (r 1) (r 3)]) = true ∧
    ready (at3 0x3FF0000000000000 0x7FF0000000000000 0x7FF0000000000001) (fpNeed (.g 2) [r 1, r 3, r 4]) [.ffma 0 false .rne (.g 2) (r 1) (r 3) (r 4)] = true ∧
    ready base (fpNeed (.g 2) [r 1]) [.fsqrt 0 false .sr (.g 2) (r 1)] = true := by decide +kernel

/-- Each of the four cases of the format registers: 0x100000 is a valid value, 0 is not. -/
theorem witness_ScalarConvertValueOrFormatTrap :
    ready base (fpNeed (.g 2) [r 1]) [.fcvt 0 .rne .fna .f32 (.g 2) (r 1), .fcvt 0 .rne .fnb .fna (.g 2) (r 1), .fcvt 0 .rne .f32 .fnb (.g 2) (r 1)] = true ∧
    fmtValid (one id).me.fa = false ∧ fmtValid (one id).me.fb = false ∧
    (one (fun t => { t with fa := 0x100000 })).runs 0 (fpNeed (.g 2) [r 1]) = true ∧ fmtValid (one (fun t => { t with fa := 0x100000 })).me.fa = true ∧
    (Instr.fcvt 0 .sr .fna .i64 (.g 2) (r 1)).wf = true := by decide +kernel

theorem witness_ScalarFloatCompareSignAndClass :
    ready (at2 0x7FF0000000000001 0) (fpNeed .z [r 1, r 3]) ([FCond.eq, .ne, .lt, .ge, .le, .gt, .un, .ord].map (fun c => .fcmp 0 c false 0 (r 1) (r 3))) = true ∧
    ready (at2 0x7FF0000000000001 0) (fpNeed (.g 2) [r 1, r 3]) ([SgnOp.j, .jn, .jx].map (fun o => .fsgn 0 false o (.g 2) (r 1) (r 3))) = true ∧
    (fpVal false ((at2 0x7FF0000000000001 0).me.reg (r 1).reg)).isNan = true ∧ (fpVal false ((at2 0x7FF0000000000000 0).me.reg (r 1).reg)).isNan = false ∧
    ready (at2 0x7FF0000000000000 0) (fpNeed (.g 2) [r 1, r 3]) [.fsgn 0 false .j (.g 2) (r 1) (r 3)] = true ∧
    ready base (fpNeed (.g 2) [r 1]) [.fcls 0 true (.g 2) (r 1)] = true := by decide +kernel

theorem witness_LocalLoadAndFetchReadMemory :
    ready (at1 tcm) { ext := .base, srcs := [r 1, rz], fills := [.g 2] } [.ld 0 .q false (.g 2) mem1, .fetch 0 .b true (.g 2) mem1] = true ∧
    (at1 tcm).local_ (MemOp.ea (at1 tcm).me mem1) 8 .load (at1 tcm) tcm.toNat none ∧
    (at1 tcm).me.awaited (.g 2) = false ∧ (at1 tcm).poisoned tcm.toNat 8 = false := by
  refine ⟨by decide +kernel, ⟨rfl, ?_⟩, ?_⟩ <;> decide +kernel

/-- ST and STL, up to the last doubleword of the TCM. -/
theorem witness_LocalStoreWritesItsBytesOnly :
    ready (at1 (tcm + 0x3FFF8)) { ext := .base, srcs := [r 1, rz], reads := [.g 2] } [.st 0 .q (.g 2) mem1] = true ∧
    (at1 (tcm + 0x3FFF8)).local_ (MemOp.ea (at1 (tcm + 0x3FFF8)).me mem1) 8 .store (at1 (tcm + 0x3FFF8)) (tcm.toNat + 0x3FFF8) none ∧
    ready (at1 tcm) { ext := .base, srcs := [r 1], reads := [.g 2], outside := true } [.stl 0 .w (.g 2) (r 1) 0 .sys] = true ∧
    rectOk (Scope.val (at1 tcm).me .sys) = true ∧ (at1 tcm).me.released (Scope.val (at1 tcm).me .sys) = true ∧
    (at1 tcm).local_ (baseDisp (at1 tcm).me (r 1) 0) 4 .store (at1 tcm) tcm.toNat none := by
  refine ⟨by decide +kernel, ⟨rfl, ?_⟩, ?_, ?_, ?_, rfl, ?_⟩ <;> decide +kernel

theorem witness_MisalignedAccessTrapsAlign :
    (MemOp.ea (at1 1).me mem1).toNat % Size.bytes .h ≠ 0 ∧
    (at1 1).runs 0 { ext := .base, srcs := [r 1, rz], fills := [.g 2] } = true ∧ (at1 1).runs 0 { ext := .base, srcs := [r 1, rz], reads := [.g 2] } = true ∧
    (at1 1).runs 0 { ext := .base, srcs := [r 1, rz], dests := [.g 2], outside := true } = true ∧
    (at1 1).runs 0 { ext := .base, srcs := [r 1, rz], reads := [.g 2], outside := true } = true ∧
    (baseDisp (at1 4).me (r 1) 0).toNat % 8 ≠ 0 ∧ (at1 4).runs 0 { ext := .base, srcs := [r 1, r 3], dests := [.g 2], outside := true } = true ∧
    (at1 4).runs 0 { ext := .base, srcs := [r 1, r 3], reads := [.g 2], dests := [.g 2], outside := true } = true := by decide +kernel

/-- A word in the TCM of a core in another cluster. -/
theorem witness_RemoteReadAndPrefetch :
    (at1 far).runs 0 { ext := .base, srcs := [r 1, rz], fills := [.g 2] } = true ∧
    (at1 far).reach (MemOp.ea (at1 far).me mem1) 8 .load = some (at1 far, far.toNat, none) ∧
    homeLocal (at1 far).me.core (homeOf far.toNat) = false ∧ (at1 far).me.storing far.toNat 8 = false ∧ (at1 far).me.gated = [] ∧
    KMap.find ((at1 far).cluster (at1 far).me.cluster).cands (lineOf (MemOp.ea (at1 far).me mem1).toNat) = none ∧ (at1 far).me.anc = true ∧
    ready (at1 far) { ext := .base, srcs := [r 1, rz] } [.pref 0 mem1] = true := by
  refine ⟨?_, rfl, ?_⟩ <;> decide +kernel

/-- MIGR: anchored; to its own core; to no core; to a fenced cluster; to core 4. -/
theorem witness_MigrateHomeAndCoordinates :
    let free := fun (p : Word) => one (fun t => withG [(1, p)] { t with anc := false })
    ready (at1 4) { ext := .base, srcs := [r 1] } [.migr 0 (r 1)] = true ∧
    ready (free 0) { ext := .base, srcs := [r 1] } [.migr 0 (r 1)] = true ∧ (free 0).coreOperand 0 = true ∧
    ready (free 0x40000) { ext := .base, srcs := [r 1] } [.migr 0 (r 1)] = true ∧ (free 0x40000).coreOperand 0x40000 = false ∧
    ready (free 4) { ext := .base, srcs := [r 1] } [.migr 0 (r 1)] = true ∧ (free 4).coreOperand 4 = true ∧
    ((free 4).cluster (clusterOf 4)).fen = false ∧ (((free 4).modCluster (clusterOf 4) (fun c => { c with fen := true })).cluster (clusterOf 4)).fen = true ∧
    (free 4).sendOverflow 0 = false ∧ (free 4).me.marks = [] ∧ (free 4).unagreed (free 4).me = false ∧ (free 4).me.await = [] ∧ (free 4).me.asks = [] ∧
    ready (at1 tcm) { ext := .base, srcs := [r 1], dests := [.g 2] } [.home 0 (.g 2) (r 1), .cord 0 (.g 2) (.cl (r 1)), .cord 0 (.g 2) (.lc (r 1))] = true ∧
    ready base { ext := .base, dests := [.g 2] } [.cord 0 (.g 2) .own, .cord 0 (.g 2) .ownL] = true := by decide +kernel


/-- LDF on a full word, STF and STF.e on an empty one, FEQRY, FESET. -/
theorem witness_LocalTagInstructions :
    let s := at1 tcm
    let e := { at1 tcm with empties := [tcm.toNat] }
    (ready s { ext := .base, srcs := [r 1, rz], dests := [.g 2], outside := true } [.ldf 0 .q true (.g 2) mem1] = true ∧
      s.quiet (MemOp.ea s.me mem1) 8 .load s tcm.toNat none ∧ s.tagFull tcm.toNat = true ∧ s.poisoned tcm.toNat 8 = false) ∧
    (ready e { ext := .base, srcs := [r 1, rz], reads := [.g 2], outside := true } [.stf 0 .q true (.g 2) mem1, .stf 0 .b false (.g 2) mem1] = true ∧
      e.quiet (MemOp.ea e.me mem1) 8 .store e tcm.toNat none ∧ e.tagFull tcm.toNat = false) ∧
    (ready e { ext := .base, srcs := [r 1, rz], dests := [.g 2] } [.feqry 0 (.g 2) mem1] = true ∧
      e.quiet (MemOp.ea e.me mem1) 8 .load e tcm.toNat none) ∧
    ready s { ext := .base, srcs := [r 1, rz], reads := [.z], outside := true } [.feset 0 false .z mem1, .feset 0 true .z mem1] = true ∧
      s.quiet (MemOp.ea s.me mem1) 8 .store s tcm.toNat none := by
  refine ⟨⟨?_, ⟨rfl, ?_⟩, ?_⟩, ⟨?_, ⟨rfl, ?_⟩, ?_⟩, ⟨?_, ⟨rfl, ?_⟩⟩, ?_, ⟨rfl, ?_⟩⟩ <;> decide +kernel

/-- A scope that is a rectangle, and one that is not; an LDA that has read its value; every kind of fence. -/
theorem witness_AcquireReleaseAndFence :
    let s := at2 tcm 0x4000000000000000
    ready s { ext := .base, srcs := [r 1, r 3], dests := [.g 2], outside := true } [.lda 0 .w (.g 2) (r 1) 0 (.reg (r 3))] = true ∧
    rectOk (Scope.val s.me (.reg (r 3))) = false ∧ rectOk (Scope.val s.me .sys) = true ∧
    ready s { ext := .base, srcs := [r 1], dests := [.g 2], outside := true } [.lda 0 .w (.g 2) (r 1) 0 .sys] = true ∧
    s.local_ (baseDisp s.me (r 1) 0) 4 .load s tcm.toNat none ∧ s.me.readsDone = true ∧ s.me.wait = none ∧ s.poisoned tcm.toNat 4 = false ∧
    (let u := one (fun t => withG [(1, tcm)] { t with wait := some (.acquire 5) })
     ready u { ext := .base, srcs := [r 1], dests := [.g 2], outside := true } [.lda 0 .w (.g 2) (r 1) 0 .sys] = true ∧ u.me.readsDone = true ∧
      rectOk (Scope.val u.me .sys) = true ∧ u.me.wait = some (.acquire 5)) ∧
    ready s { ext := .base, srcs := [r 3], outside := true } [.fence 0 .ar (.reg (r 3))] = true ∧
    ready s { ext := .base, outside := true } [.fence 0 .rel .sys, .fence 0 .acq .sys, .fence 0 .ar .sys] = true ∧
    s.me.released (Scope.val s.me .sys) = true := by
  refine ⟨?_, ?_, ?_, ?_, ⟨rfl, ?_⟩, ?_⟩ <;> decide +kernel

/-- A roaming thread, and an anchored one whose bank has room. -/
theorem witness_AtomicsReadModifyWriteOrWait :
    let s := one (fun t => withG [(1, tcm)] { t with anc := false })
    (ready s { ext := .base, srcs := [r 1, r 3], dests := [.g 2], outside := true }
        [.aadd 0 true (.g 2) (r 1) 0 (r 3), .alog 0 .and true (.g 2) (r 1) 0 (r 3), .alog 0 .andn false (.g 2) (r 1) 0 (r 3),
          .amnx 0 .min true (.g 2) (r 1) 0 (r 3), .amnx 0 .maxn false (.g 2) (r 1) 0 (r 3), .axch 0 true (.g 2) (r 1) 0 (r 3),
          .afadd 0 true (.g 2) (r 1) 0 (r 3)] = true ∧
      ready s { ext := .base, srcs := [r 1, r 3], reads := [.g 2], dests := [.g 2], outside := true } [.acas 0 true (.g 2) (r 1) 0 (r 3)] = true ∧
      s.local_ (baseDisp s.me (r 1) 0) 8 .store s tcm.toNat none ∧ s.me.anc = false ∧ (s.cluster s.me.cluster).atoms = [] ∧ (s.cluster s.me.cluster).proxies = [] ∧
      s.poisoned tcm.toNat 8 = false) ∧
    (at1 tcm).runs 0 { ext := .base, srcs := [r 1, r 3], dests := [.g 2], outside := true } = true ∧
    (at1 tcm).local_ (baseDisp (at1 tcm).me (r 1) 0) 8 .store (at1 tcm) tcm.toNat none ∧ (at1 tcm).me.anc = true ∧
    (at1 tcm).bankRoom (at1 tcm).me.cluster tcm.toNat = true ∧ (at1 tcm).parkFull (at1 tcm).me.cluster = false ∧
    clusterCores (at1 tcm).me.cluster ≠ [] := by
  refine ⟨⟨?_, ?_, ⟨rfl, ?_⟩, ?_⟩, ?_, ⟨rfl, ?_⟩, ?_, ?_, ?_, ?_⟩ <;> decide +kernel

/-- The elementwise forms are well formed for types of each kind and meet their needs. -/
theorem witness_VectorElementwiseArithmeticAndFunctions :
    let k : VMask := ⟨0, false⟩
    ready base (vneed k (.v 2) [rv 1, rv 3, rz] []) [.vadd 0 true .i8 .rne k (.v 2) (rv 1) (rv 3), .vadd 0 false .f32 .sr k (.v 2) (rv 1) (rv 3),
      .vsub 0 false .n64 .rne k (.v 2) (rv 1) (rv 3), .vmul 0 true .i16 .rne k (.v 2) (rv 1) (rv 3), .vmul 0 false .f64 .rup k (.v 2) (rv 1) (rv 3),
      .vdiv 0 .f32 .rne k (.v 2) (rv 1) (rv 3), .vmin 0 .i32 k (.v 2) (rv 1) (rv 3), .vmax 0 .f16 k (.v 2) (rv 1) (rv 3)] = true ∧
    ready base (vneed k (.v 2) [rv 1, rv 3, rv 4] []) [.vfma 0 .f32 .rne k (.v 2) (rv 1) (rv 3) (rv 4), .vfms 0 .f64 .rdn k (.v 2) (rv 1) (rv 3) (rv 4),
      .vfnma 0 .e8m7 .sr k (.v 2) (rv 1) (rv 3) (rv 4)] = true ∧
    ready base (vneed ⟨3, true⟩ (.v 2) [rv 1, rz, rz] []) [.vsqrt 0 .f32 .rne ⟨3, true⟩ (.v 2) (rv 1), .vabs 0 true .i8 ⟨3, true⟩ (.v 2) (rv 1),
      .vneg 0 false .f32 ⟨3, true⟩ (.v 2) (rv 1), .vrcp 0 .f32 .rne ⟨3, true⟩ (.v 2) (rv 1), .vrsq 0 .f64 .rne ⟨3, true⟩ (.v 2) (rv 1),
      .vexp2 0 .f32 .rne ⟨3, true⟩ (.v 2) (rv 1), .vlog2 0 .f16 .rne ⟨3, true⟩ (.v 2) (rv 1)] = true ∧
    badFmt base.me.fa base.me.fb [.f32] = none ∧ badFmt 0x100000 0 [.fna] = none := by decide +kernel

theorem witness_VectorBitsShiftsAndCopiesElementwise :
    let k : VMask := ⟨0, false⟩
    ready base (vneed k (.v 2) [rv 1, rv 3, rz] []) [.vand 0 .n32 k (.v 2) (rv 1) (rv 3), .vor 0 .n8 k (.v 2) (rv 1) (rv 3),
      .vxor 0 .n64 k (.v 2) (rv 1) (rv 3), .vshl 0 .n32 k (.v 2) (rv 1) (.reg (rv 3)), .vshr 0 .i32 k (.v 2) (rv 1) (.reg (rv 3))] = true ∧
    ready base (vneed k (.v 2) [rv 1, rz, rz] []) [.vshl 0 .n32 k (.v 2) (rv 1) (.imm 31), .vshr 0 .i8 k (.v 2) (rv 1) (.imm 7)] = true ∧
    ready base (vneed k (.v 2) [rz, r 1, rz] []) [.vbcst 0 .f32 k (.v 2) (r 1)] = true ∧
    ready base (vneed k (.v 2) [rv 1, rv 3, rm 4] []) [.vsel 0 .f32 k (.v 2) (rv 1) (rv 3) (rm 4)] = true ∧
    ready base (vneed k (.v 2) [rv 1] []) [.vmov 0 .n32 k (.v 2) (rv 1)] = true ∧
    ready base (vneed k (.v 2) [r 1] []) [.vidx 0 .i32 k (-1) (.v 2) (r 1)] = true := by decide +kernel

theorem witness_VectorLanesPermutesAndConversionsElementwise :
    let k : VMask := ⟨0, false⟩
    ready base (vneed k (.v 2) [r 1] [.v 2]) [.vputl 0 .f32 (.v 2) (r 1) (.imm 31)] = true ∧
    ready base (vneed k (.v 2) [rv 1, rv 3] []) [.vperm 0 .n32 k (.v 2) (rv 1) (rv 3)] = true ∧
    ready base (vneed k (.v 2) [rv 1, r 3] []) [.vrot 0 .n32 k (.v 2) (rv 1) (.reg (r 3))] = true ∧
    ready base (vneed k (.v 2) [rv 1] []) [.vcvt 0 true .f64 .f32 .rne k (.v 2) (rv 1), .vcvt 0 false .i8 .i32 .rne k (.v 2) (rv 1),
      .vdqnt 0 .bs4 .f32 .rne k (.v 2) (rv 1)] = true ∧
    badFmt base.me.fa base.me.fb [.f32, .f64] = none ∧ badFmt base.me.fa base.me.fb (VCodec.uses .bs4) = none := by decide +kernel

theorem witness_VectorCompareGetLaneAndMaskOperations :
    let k : VMask := ⟨0, false⟩
    ready base (vneed k (.m 3) [rv 1, rv 3] []) [.vcmp 0 .gt .f32 k (.m 3) (rv 1) (rv 3), .vcmp 0 .eq .n8 k (.m 3) (rv 1) (rv 3)] = true ∧
    ready base (vneed k (.g 2) [rv 1] []) [.vgetl 0 .i8 (.g 2) (rv 1) (.imm 31)] = true ∧
    ready base (vneed k (.m 3) [rm 1, rm 2] []) [.mops 0 (.and (rm 2)) (.m 3) (rm 1), .mops 0 (.andn (rm 2)) (.m 3) (rm 1)] = true ∧
    ready base (vneed k (.m 3) [rm 1] []) [.mops 0 .not (.m 3) (rm 1), .mops 0 .below (.m 3) (rm 1)] = true := by decide +kernel

theorem witness_VectorReductionsScansAndBlocks :
    let k : VMask := ⟨0, false⟩
    ready base (vneed k (.v 2) [rv 1] []) [.vqnt 0 .bs4 .f32 .rne k (.v 2) (rv 1), .vscan 0 .sum .f32 .rne k (.v 2) (rv 1)] = true ∧
    ready base (vneed k (.g 2) [rv 1] []) [.vred 0 .sum .i32 .rne k (.g 2) (rv 1), .vred 0 .max .f32 .rne k (.g 2) (rv 1)] = true ∧
    ready base (vneed k (.g 2) [rv 1, rv 3] []) [.vdot 0 .i32 .rne k (.g 2) (rv 1) (rv 3), .vdot 0 .f64 .sr k (.g 2) (rv 1) (rv 3)] = true := by decide +kernel

/-- Bytes of the TCM, from its first to its last; the stride of VLDS is 1, and every lane of VGTH is 0. -/
theorem witness_VectorMemoryReadsAndWritesItsElements :
    let s := at2 (tcm + 0x3FFE0) 1
    let mi : MemOp := ⟨r 1, r 3, 0, 0, 0⟩
    ready s (vmemNeed allActive [r 1, rz] [] [.v 2]) [.vld 0 .n8 (.v 2) mem1] = true ∧ ready s (vmemNeed allActive [r 1, r 3] [] [.v 2]) [.vlds 0 .n8 (.v 2) mi] = true ∧
    ready s (vmemNeed allActive [r 1, rv 4] [] [.v 2]) [.vgth 0 .n8 allActive 0 (.v 2) (r 1) (rv 4)] = true ∧
    ready s (vmemNeed allActive [r 1, rz] [.v 2] []) [.vst 0 .n8 (.v 2) mem1] = true ∧ ready s (vmemNeed allActive [r 1, r 3] [.v 2] []) [.vsts 0 .n8 (.v 2) mi] = true ∧
    ready s (vmemNeed allActive [r 1, rv 4] [.v 2] []) [.vsct 0 .n8 allActive 0 (.v 2) (r 1) (rv 4)] = true ∧
    s.paired s.me = false ∧ s.me.gated = [] ∧ ETyp.isNarrow .n8 = false ∧ ETyp.count .n8 = 32 ∧ ETyp.fixedWidth .n8 / 8 = 1 ∧
    (∀ k ∈ [Acc.load, .store], ∀ j, j < 32 → s.mine k (((MemOp.ea s.me mem1).toNat + 8 * j / 8) % 2 ^ 64) 1) ∧
    (∀ k ∈ [Acc.load, .store], ∀ j, j < 32 → s.mine k (s.me.reg (r 1).reg + (0 : BitVec 24).signExtend 64 + BitVec.ofNat 64 j * (s.me.reg (r 3).reg <<< 0)).toNat 1) ∧
    (∀ k ∈ [Acc.load, .store], ∀ j, j < 32 → s.mine k (s.me.reg (r 1).reg + ((BitVec.ofNat 32 (laneOf (s.me.vreg (.v 4)) j)).signExtend 64 <<< 0)).toNat 1) := by
  refine ⟨?_, ?_, ?_, ?_, ?_, ?_, ?_, ?_, ?_, ?_, ?_, ?_, ?_, ?_⟩
  on_goal 12 => exact mine_bytes _ (fun j => ((MemOp.ea (at2 (tcm + 0x3FFE0) 1).me mem1).toNat + 8 * j / 8) % 2 ^ 64) (by decide +kernel)
  on_goal 12 => exact mine_bytes _ (fun j => ((at2 (tcm + 0x3FFE0) 1).me.reg (r 1).reg + (0 : BitVec 24).signExtend 64 + BitVec.ofNat 64 j * ((at2 (tcm + 0x3FFE0) 1).me.reg (r 3).reg <<< 0)).toNat) (by decide +kernel)
  on_goal 12 => exact mine_bytes _ (fun j => ((at2 (tcm + 0x3FFE0) 1).me.reg (r 1).reg + ((BitVec.ofNat 32 (laneOf ((at2 (tcm + 0x3FFE0) 1).me.vreg (.v 4)) j)).signExtend 64 <<< 0)).toNat) (by decide +kernel)
  all_goals decide +kernel

theorem witness_FormatRegistersAndFormatTraps :
    let k : VMask := ⟨0, false⟩
    badFmt base.me.fa base.me.fb [.fna] = some 0 ∧ base.runs 0 (vneed k (.v 2) [rv 1, rv 3, rz] []) = true ∧
    ready (at1 0x100000) { ext := .vec, srcs := [r 1] } [.fmtld 0 (.a (r 1)), .fmtld 0 (.b (r 1))] = true ∧
    fmtValid (((at1 0x100000).me.reg (r 1).reg).setWidth 24) = true ∧ fmtValid (((at1 0x4FF).me.reg (r 1).reg).setWidth 24) = false := by decide +kernel
/-- FSH pointers: 0, misaligned, to a word that is no format descriptor, and to one that is. -/
theorem witness_FormatRegistersAndFormatTraps_fsh :
    let f := fun (p : Word) => one (fun t => { t with fsh := t.fsh.set 3 p })
    let s := withMem [(tcm.toNat, 0x3010000010000000)] (f tcm)
    (f 0).runs 0 { ext := .vec } = true ∧ (f 0).me.fsh[(3 : BitVec 2).toNat] = 0 ∧
    (f 8).runs 0 { ext := .vec } = true ∧ (f 8).me.fsh[(3 : BitVec 2).toNat] = 8 ∧
    (f tcm).local_ tcm 8 .load (f tcm) tcm.toNat none ∧ s.local_ tcm 8 .load s tcm.toNat none ∧ s.poisoned tcm.toNat 8 = false ∧ s.me.storing tcm.toNat 8 = false ∧
    s.fencedFrom s.me.core tcm.toNat = false ∧
    (f tcm).peekW tcm.toNat = 0 ∧ s.peekW tcm.toNat = 0x3010000010000000 ∧
    fmtValid ((0x3010000010000000 : Word).extractLsb' 32 24) = true ∧ fmtValid ((0x3010000010000000 : Word).extractLsb' 8 24) = true := by
  refine ⟨?_, ?_, ?_, ?_, ⟨rfl, ?_⟩, ⟨rfl, ?_⟩, ?_⟩ <;> decide +kernel


/-- `at2 x y`, whose thread owns the engine of core 0, which is otherwise `m`. -/
def mxAt (x y : Word) (m : Matrix) : State := (at2 x y).modMx 0 (fun _ => { m with owner := some ⟨0, 0, 0, 0⟩ })
/-- A command block of no words. -/
def noBlock : MxBlock := ⟨[], 0, 0⟩
/-- An operation on tile 0. -/
def tileOp (acc : Nat) (chain : Option Chain) : TileOp := ⟨0, acc, 0, chain, {}, none, ⟨0, 0, 0, 0⟩, 0, 0, true, 0, true⟩
/-- A command with a block. -/
def mxCmd (b : MxBlock) (remote : Bool) : MxCmd := ⟨b, ⟨0, 0, 0, 0⟩, 0, 0, 0, 0, 0, true, 0, 0, remote, true⟩

/-- Each instruction of the owner; the shadow set loaded and empty; three operations held; keys 0, 15 and 16. -/
theorem witness_MatrixOwnerInstructionsComplete :
    let s := mxAt tcm 0 {}
    (s.me.owns ⟨0, 0, 0, 0⟩ = true ∧ s.myMx.owner = some ⟨0, 0, 0, 0⟩) ∧
    (ready s (mxNeed [r 1] [] []) [.mxset 0 (r 1)] = true ∧ (s.me.reg (r 1).reg).toNat % 64 = 0 ∧ s.myMx.pending = none ∧ s.me.gated = [] ∧ s.me.stored = true ∧
      s.readRange s.me.ctx (s.me.reg (r 1).reg).toNat 64 = .ok s 0) ∧
    (s.runs 0 (mxNeed [] [] []) = true ∧ (mxAt 0 0 { shadow := .loaded noBlock }).myMx.shadow = .loaded noBlock ∧
      (mxAt 0 0 { shadow := .loaded noBlock }).runs 0 (mxNeed [] [] []) = true ∧ s.myMx.shadow = .empty) ∧
    ((mxAt 0 0 { ops := [tileOp 0 none, tileOp 1 none, tileOp 2 none] }).myMx.ops.length < 4 ∧
      (mxAt 0 0 { ops := [tileOp 0 none, tileOp 1 none, tileOp 2 none] }).runs 0 (mxNeed [] [] []) = true) ∧
    (let n := { mxNeed [r 1, r 3] [] [] with outside := true }
     (mxAt 8 0 {}).runs 0 n = true ∧ (mxAt 0 8 {}).runs 0 n = true ∧
      (mxAt 0 0 {}).runs 0 n = true ∧ (mxAt 0 0 {}).myMx.ops.length < 4 ∧ s.recvOk 0 tcm.toNat = true ∧
      (mxAt 128 0 {}).runs 0 n = true ∧ (mxAt 128 0 {}).recvOk 0 128 = false) ∧
    (ready s (mxNeed [] [] [.g 2]) [.taq 0 true (.g 2), .taq 0 false (.g 2)] = true ∧ s.myMx.works 0 = false) ∧
    ready (mxAt 16 0 {}) (mxNeed [r 1] [] [.g 2]) [.mxcap 0 (.g 2) (r 1)] = true ∧ ready (mxAt 15 0 {}) (mxNeed [r 1] [] [.g 2]) [.mxcap 0 (.g 2) (r 1)] = true ∧
    ready (mxAt 0 0 {}) (mxNeed [r 1] [] [.g 2]) [.mxcap 0 (.g 2) (r 1)] = true ∧ s.me.core < 2 ^ 18 := by
  and_intros <;> first | decide +kernel | rfl

/-- Rows 63 and 64; MXSEND to a core whose cluster has room, and to one in a cluster without. -/
theorem witness_MatrixTilesAndBlocks :
    let s := mxAt 64 63 {}
    ready s (mxNeed [rv 1, r 1] [] []) [.tawr 0 ⟨0, false⟩ (rv 1) 3 (.reg (r 1))] = true ∧ (RowSel.val s.me (.reg (r 1))).toNat = 64 ∧
    ready s (mxNeed [rv 1, r 3] (VMask.reads ⟨1, false⟩) []) [.tawr 0 ⟨1, false⟩ (rv 1) 3 (.reg (r 3))] = true ∧ (RowSel.val s.me (.reg (r 3))).toNat = 63 ∧
    s.myMx.locked 3 = false ∧ ready s (mxNeed [r 1] [] [.v 2]) [.tard 0 .f32 .rne ⟨0, false⟩ (.v 2) 3 (.reg (r 1))] = true ∧
    ready s (mxNeed [r 3] [] [.v 2]) [.tard 0 .e8m7 .sr ⟨0, false⟩ (.v 2) 3 (.reg (r 3))] = true := by
  and_intros <;> decide +kernel
theorem witness_MatrixTilesAndBlocks_send :
    let s := at2 4 tcm
    let n : Need := { ext := .mx, srcs := [r 1, r 3], outside := true }
    let w := fun (p : Word) => one (fun t => withG [(1, p), (3, tcm)] { t with wait := some (.clause 0 0 0 true []) })
    ((w 4).runs 0 n = true ∧ (w 4).me.wait = some (.clause 0 0 0 true []) ∧ (w 4).corePresent 4 = true ∧ (w 4).sendOverflow 0 = false) ∧
    ((at2 0x40000 tcm).runs 0 n = true ∧ (at2 0x3FFFF tcm).corePresent (((at2 0x3FFFF tcm).me.reg (r 1).reg).toNat % 2 ^ 18) = false) ∧
    (s.runs 0 n = true ∧ s.me.wait = none ∧ (s.me.reg (r 3).reg).toNat % 64 = 0 ∧ s.me.gated = [] ∧ s.me.stored = true ∧
      s.readRange s.me.ctx (s.me.reg (r 3).reg).toNat 64 = .ok s 0 ∧ s.clauseHolds s.me.cluster ⟨0, 0, 0, 0⟩ = true ∧
      s.corePresent ((s.me.reg (r 1).reg).toNat % 2 ^ 18) = true ∧ s.sendOverflow 0 = false) ∧
    ∃ u : State, u.runs 0 n = true ∧ u.me.wait = none ∧ u.readRange u.me.ctx (u.me.reg (r 3).reg).toNat 64 = .ok u 0 ∧
      u.clauseHolds u.me.cluster ⟨0, 0, 0, 0⟩ = true ∧ (u.me.reg (r 1).reg).toNat % 2 ^ 18 = 1 ∧ u.corePresent 1 = true ∧ u.sendOverflow 0 = true := by
  refine ⟨?_, ?_, ?_, fullPark (at2 1 tcm), ?_, ?_, rfl, ?_, ?_, ?_, fullPark_full _⟩
  all_goals and_intros <;> first | decide +kernel | rfl

/-- Finite numbers; a code of each wide format that stands for one; a group of one product. -/
theorem witness_FloatValuesAreExactBeforeOneRounding :
    (⟨false, 3, -1, false⟩ : Ex).sticky = false ∧
    f64Fmt.value 0x3FF8000000000000 = .fin ⟨false, 0x18000000000000, -52, false⟩ ∧ f32Fmt.value 0 = .fin ⟨false, 0, -149, false⟩ ∧
    (0x3FF8000000000000 < 2 ^ f64Fmt.width) ∧ (RM.sr ≠ .dyn) ∧
    [(⟨true, 1, 0, false⟩ : Ex)].length = [(⟨false, 5, 3, false⟩ : Ex)].length ∧ (∀ x ∈ [(⟨true, 1, 0, false⟩ : Ex)] ++ [⟨false, 5, 3, false⟩], x.sticky = false) ∧
    (1 ≠ 0 ∧ 1 ≠ 255 ∧ 254 ≠ 0 ∧ 254 ≠ 255) := by decide +kernel

/-- A committed command whose block is refused, and one with K = 0; a command that has ended, on a core alone and on a pair; a remote command; TAZ; TACC. -/
theorem witness_MatrixEngineEvents :
    let e := mxAt 0 0 { shadow := .pending (mxCmd noBlock false) }
    let ok : MxBlock := ⟨[0x4422000000000000, 0, 0, 0, 0, 0, 0, 0], 0, 0⟩
    let k0 := mxAt 0 0 { shadow := .pending (mxCmd ok false) }
    let cap : Word := 0x0040000000000000
    let m := flit 0x0E 0 (.engc who4 cap noBlock ⟨0, 0, 0, 0⟩ 4)
    let c := withFlit m (mxAt 0 0 { capv := true, capReg := cap, remote := [mxCmd ok true, mxCmd ok true, mxCmd ok true] })
    let f := mxAt 0 0 { active := some (mxCmd ok false), result := some 0x1A }
    ((e.core 0).mx.active = none ∧ (e.core 0).mx.next = some (mxCmd noBlock false) ∧ (e.core 0).mx.stall = none ∧ noBlock.shape = .error 0x1A) ∧
    ((k0.core 0).mx.next = some (mxCmd ok false) ∧ (k0.core 0).mx.stall = none ∧ (k0.core 0).mx.active = none ∧
      (∃ h, ok.shape = .ok h ∧ h.k = 0) ∧ bit (ok.w 0) 58 = true) ∧
    (let p := f.modCore 0 (fun c => { c with pair := some (1, true) })
     (p.core 0).mx.stall = none ∧ (p.core 0).mx.active = some (mxCmd ok false) ∧ (p.core 0).mx.result = some 0x1A ∧ (p.core 0).pair = some (1, true) ∧
      (p.recentDisagreements 0).length < 2) ∧ (f.core 0).pair = none ∧
    ((f.core 0).mx.stall = none ∧ (f.core 0).mx.active = some (mxCmd ok false) ∧ (f.core 0).mx.result = some 0x1A ∧ ok.w 7 = 0 ∧ (mxCmd ok false).clauses.si = 0) ∧
    ((mxAt 0 0 { ops := [tileOp 0 none] }).core 0).mx.ops.find? (fun o => o.chain.isNone && ((mxAt 0 0 { ops := [tileOp 0 none] }).core 0).mx.opReady o) = some (tileOp 0 none) ∧
    ((mxAt 0 0 { ops := [tileOp 0 (some ⟨0, 0, 0, [], none⟩)] }).core 0).mx.ops.filter ((mxAt 0 0 { ops := [tileOp 0 (some ⟨0, 0, 0, [], none⟩)] }).core 0).mx.opReady =
      [tileOp 0 (some ⟨0, 0, 0, [], none⟩)] ∧
    (c.arrived 0 = some m ∧ c.isLive (clusterOf m.ldest) m.domid m.cin = true ∧ (c.core m.ldest).mx.capv = true ∧ (c.core m.ldest).mx.capReg = cap ∧
      who4.domid = cap.extractLsb' 18 12 ∧ bit cap (54 + noBlock.tile) = true ∧ (c.core m.ldest).mx.remote.length = 3) := by
  refine ⟨?_, ⟨?_, ?_, ?_, ⟨_, rfl, ?_⟩, ?_⟩, ?_, ?_⟩ <;> decide +kernel


/-- SPAWN: a misaligned entry; no core; no room; core 4. -/
theorem witness_ThreadLifeInstructions :
    let n : Need := { ext := .base, srcs := [r 1, r 3, r 4], dests := [.g 2], outside := true }
    let i := Instr.spawn 0 (.g 2) (r 1) (r 3) (r 4)
    ready base { ext := .sys, dests := [.g 2] } [.extl 0 (.g 2)] = true ∧
    ready (at3 4 0 4) n [i] = true ∧ (ready (at3 8 0 0x40000) n [i] = true ∧ (at3 8 0 0x40000).coreOperand 0x40000 = false) ∧
    (ready (at3 8 0 4) n [i] = true ∧ (at3 8 0 4).coreOperand 4 = true ∧ (at3 8 0 4).me.domReleased = true ∧ (at3 8 0 4).sendOverflow 0 = false ∧
      (at3 8 0 4).nextId + 1 ≠ (at3 8 0 4).cur) ∧
    (ready (fullPark (at3 8 0 1)) n [i] = true ∧ (fullPark (at3 8 0 1)).coreOperand 1 = true ∧ (fullPark (at3 8 0 1)).me.domReleased = true ∧
      (fullPark (at3 8 0 1)).sendOverflow 0 = true) ∧
    (base.runs 0 { ext := .base, outside := true } = true ∧ base.me.awaitsReg = false ∧ base.me.strmDone = true ∧ base.me.members = [] ∧ base.cur < 2 ^ 40) := by
  and_intros <;> first | decide +kernel | exact fullPark_full _

/-- YIELD and ANCH: anchored and roaming, with and without an entry in the run queue; in slots 3 and 4, and on a pylon core that knows no core
with VEC. -/
theorem witness_ThreadLifeInstructions_yield :
    let s := one (roam [])
    let q : State := { s with threads := s.threads ++ [(1, { runner with anc := false, place := .runq 0 none false })] }
    let y := posAt 0 32 0
    let p := { one (fun t => { t with anc := false, place := .slot y 0 }) with cores := [(y, { Core.reset true with extDir := [(2, none)] })] }
    let four := one (fun t => { t with anc := false, place := .slot 0 4 })
    let m := mxAt 0 0 {}
    (base.runs 0 { ext := .base } = true ∧ base.me.anc = true) ∧ (s.runs 0 { ext := .base } = true ∧ s.bestEntry 0 0 = none) ∧
    (q.runs 0 { ext := .base } = true ∧ q.bestEntry 0 0 ≠ none ∧ q.me.marks = [] ∧ q.unagreed q.me = false ∧ q.me.await = [] ∧ q.me.asks = []) ∧
    (p.runs 0 { ext := .base } = true ∧ isPylon p.me.core = true ∧ p.extEntry p.me.core 2 = none ∧ p.me.anc = false) ∧
    (isPylon s.me.core = false ∧ s.me.slot < 4 ∧ s.me.anc = false) ∧ (four.runs 0 { ext := .base } = true ∧ 4 ≤ four.me.slot ∧ isPylon four.me.core = false) ∧
    base.myMx.owner = none ∧ (m.runs 0 { ext := .base } = true ∧ m.me.anc = true ∧ m.me.owns ⟨0, 0, 0, 0⟩ = true ∧ m.myMx.owner = some ⟨0, 0, 0, 0⟩ ∧
      m.myMx.busyFor 0 = false) := by decide +kernel

/-- MARM: host memory; a held line; four lines with TRIG; a line of the own TCM, and one of a core of another cluster. -/
theorem witness_MonitorsBarriersAndSemaphores_marm :
    let n : Need := { ext := .base, srcs := [r 1, rz], outside := true }
    let h := paged (at1 127)
    let held := one (fun t => withG [(1, tcm)] { t with mon := ⟨[tcm.toNat], false⟩ })
    let four := one (fun t => withG [(1, tcm)] { t with mon := ⟨[0, 128, 256, 384], true⟩ })
    (ready h n [.marm 0 mem1] = true ∧ ∃ s1 leaf, h.reach (MemOp.ea h.me mem1 &&& ~~~127) 128 .load = some (s1, hostBase, leaf)) ∧ homeOf hostBase = .host ∧
    (held.runs 0 n = true ∧ held.reach (MemOp.ea held.me mem1 &&& ~~~127) 128 .load = some (held, tcm.toNat, none) ∧ tcm.toNat ∈ held.me.mon.lines) ∧
    (four.runs 0 n = true ∧ four.reach (MemOp.ea four.me mem1 &&& ~~~127) 128 .load = some (four, tcm.toNat, none) ∧ four.me.mon.lines.length = 4) ∧
    ((at1 tcm).runs 0 n = true ∧ (at1 tcm).reach (MemOp.ea (at1 tcm).me mem1 &&& ~~~127) 128 .load = some (at1 tcm, tcm.toNat, none) ∧
      (at1 tcm).parkFull (at1 tcm).me.recordCluster = false ∧ homeLocal 0 (homeOf tcm.toNat) = true) ∧
    ((at1 far).runs 0 n = true ∧ (at1 far).reach (MemOp.ea (at1 far).me mem1 &&& ~~~127) 128 .load = some (at1 far, far.toNat, none) ∧
      (at1 far).parkFull (at1 far).me.recordCluster = false ∧ homeLocal 0 (homeOf far.toNat) = false ∧ homeOf far.toNat ≠ .host) ∧
    held.runs 0 { ext := .base, outside := true } = true := by
  refine ⟨⟨?_, _, _, rfl⟩, ?_, ⟨?_, rfl, ?_⟩, ⟨?_, rfl, ?_⟩, ⟨?_, rfl, ?_⟩, ⟨?_, rfl, ?_⟩, ?_⟩ <;> decide +kernel

/-- MWAIT with each of its codes, and one that waits; the events of a wait with and without TRIG, and at its time limit. -/
theorem witness_MonitorsBarriersAndSemaphores_mwait :
    let n : Need := { ext := .base, srcs := [r 1], dests := [.g 2], outside := true }
    let f := fun (m : Monitor) (i : Bool) => one (fun t => withG [(1, 5)] { t with mon := m, intr := i })
    let w := fun (m : Monitor) (dl : Option Nat) => one (fun t => { t with mon := m, wait := some (.mwait dl), pend := some ⟨7, .reg (.g 2) 8 false, none, 0, [], 0, false, none⟩ })
    (ready (f ⟨[], true⟩ false) n [.mwait 0 (.g 2) (r 1)] = true ∧ ready (f ⟨[], false⟩ false) n [.mwait 0 (.g 2) (r 1)] = true ∧
      ready (f ⟨[0], false⟩ true) n [.mwait 0 (.g 2) (r 1)] = true ∧ ready (f ⟨[0], false⟩ false) n [.mwait 0 (.g 2) (r 1)] = true) ∧
    (((w ⟨[0], true⟩ none).thread 0).inSlot = true ∧ ((w ⟨[0], true⟩ none).thread 0).mon.trig = true ∧ ((w ⟨[0], true⟩ none).thread 0).wait = some (.mwait none)) ∧
    (((w ⟨[0], false⟩ (some 0)).thread 0).mon.trig = false ∧ ((w ⟨[0], false⟩ (some 0)).thread 0).wait = some (.mwait (some 0)) ∧ 0 ≤ (w ⟨[0], false⟩ (some 0)).nowOf ((w ⟨[0], false⟩ (some 0)).thread 0)) ∧
    (((w ⟨[0], false⟩ (some 1)).thread 0).mon.trig = false ∧ ((w ⟨[0], false⟩ (some 1)).thread 0).wait = some (.mwait (some 1)) ∧
      (w ⟨[0], false⟩ (some 1)).nowOf ((w ⟨[0], false⟩ (some 1)).thread 0) < 1) := by
  decide +kernel

/-- BINIT and the other barrier instructions: place 48 is none; counts 0, 1, 65,535 and 65,536; a system scope; another owner. -/
theorem witness_MonitorsBarriersAndSemaphores_binit :
    let n : Need := { ext := .base, srcs := [r 1, r 3, r 4], outside := true }
    let w : Word := 47 * 0x40000
    let other := withBar { bar with domid := 5 } (one (fun t => withG [(1, w), (4, 1)] { t with sup := false }))
    ((at3 (48 * 0x40000) 0 1).barName ((at3 (48 * 0x40000) 0 1).me.reg (r 1).reg) = none ∧ (at3 (48 * 0x40000) 0 1).runs 0 n = true) ∧
    (ready (at3 w 0 0) n [.binit 0 (r 1) (r 3) (r 4)] = true ∧ (at3 w 0 0).names w 0 47) ∧
    (ready (at3 w 0 65536) n [.binit 0 (r 1) (r 3) (r 4)] = true ∧ (at3 w 0 65536).names w 0 47) ∧
    (ready (at3 w 0x8000000000000000 65535) n [.binit 0 (r 1) (r 3) (r 4)] = true ∧ (at3 w 0x8000000000000000 65535).names w 0 47 ∧
      rectSys 0x8000000000000000 = true) ∧
    (other.runs 0 n = true ∧ other.names w 0 47 ∧ (other.barrier 0 47).exp ≠ 0 ∧ (other.barrier 0 47).domid ≠ other.me.domid ∧ other.me.sup = false) ∧
    (ready (at3 w 0 65535) n [.binit 0 (r 1) (r 3) (r 4)] = true ∧ (at3 w 0 65535).names w 0 47 ∧ rectSys 0 = false ∧ rectBad 0 = false ∧
      ((at3 w 0 65535).barrier 0 47).exp = 0 ∧ 0 ∉ ((at3 w 0 65535).barrier 0 47).waiters) := by
  and_intros <;> decide +kernel

/-- An arrival that is not the last, and one that is; a wait for the present phase, for those 1, 16 and 17 back, and for one to come. -/
theorem witness_MonitorsBarriersAndSemaphores_arrive :
    let w : Word := 47 * 0x40000
    let d : Need := { ext := .base, srcs := [r 1], dests := [.g 2], outside := true }
    let one1 := withBar bar (at1 w)
    let last := withBar { bar with arr := 1 } (at1 w)
    let ph := fun (p : Word) => withBar { bar with ph := 0, history := [true] } (at2 w p)
    (ready one1 d [.barv 0 (.g 2) (r 1), .barvQ 0 (.g 2) (r 1)] = true ∧ one1.names w 0 47 ∧ one1.mayArrive 0 47 ∧
      (one1.barrier 0 47).arr + 1 < Nat.min (one1.barrier 0 47).exp (one1.barrier 0 47).live) ∧
    (ready last d [.barv 0 (.g 2) (r 1)] = true ∧ last.names w 0 47 ∧ last.mayArrive 0 47 ∧
      Nat.min (last.barrier 0 47).exp (last.barrier 0 47).live ≤ (last.barrier 0 47).arr + 1 ∧ 0 ∉ (last.barrier 0 47).waiters) ∧
    (ready one1 { ext := .base, srcs := [r 1], outside := true } [.barwA 0 (r 1), .bdrop 0 (r 1)] = true ∧
      ready last { ext := .base, srcs := [r 1], outside := true } [.barwA 0 (r 1), .bdrop 0 (r 1)] = true ∧
      ((last.barrier 0 47).exp ≠ 0 ∧ Nat.min (last.barrier 0 47).exp ((last.barrier 0 47).live - 1) ≤ (last.barrier 0 47).arr) ∧
      ¬((one1.barrier 0 47).exp ≠ 0 ∧ Nat.min (one1.barrier 0 47).exp ((one1.barrier 0 47).live - 1) ≤ (one1.barrier 0 47).arr)) ∧
    (∀ p ∈ [(0, 0), (0xFFFF, 1), (0xFFF0, 16), (0xFFEF, 17), (1, 65535)], ready (ph p.1) { ext := .base, srcs := [r 1, r 3], outside := true } [.barw 0 (r 1) (r 3)] = true ∧
      (((ph p.1).barrier 0 47).ph - ((ph p.1).me.reg (r 3).reg).setWidth 16).toNat = p.2) ∧ (ph 0).names w 0 47 ∧ (ph 0).me.readsDone = true := by
  and_intros <;> decide +kernel

/-- A thread that owns the semaphores and one that does not; values 0, 65,535 and 65,536; counts that suffice and that do not. -/
theorem witness_MonitorsBarriersAndSemaphores_sema :
    let n : Need := { ext := .base, srcs := [r 1], outside := true }
    let user := one (fun t => { t with sup := false })
    let f := fun (v : Word) (c : BitVec 16) => (at1 v).modCluster 0 (fun k => { k with sems := [(255, { count := c })] })
    (user.runs 0 n = true ∧ ¬(user.me.sup = true ∨ (user.cluster user.me.cluster).spOwner = some user.me.domid)) ∧
    ((at1 65536).runs 0 n = true ∧ (at1 65536).me.sup = true ∧ 65535 < ((at1 65536).me.reg (r 1).reg).toNat + (0 : BitVec 13).toNat) ∧
    ((f 65535 1).runs 0 n = true ∧ (∀ w ∈ ((f 65535 1).sema 0 255).waiters.head?, 65535 < w.2) ∧ 65535 < ((f 65535 1).sema 0 255).count.toNat + 65535 ∧
      (∀ w ∈ ((f 65535 1).sema 0 255).waiters, w.1 ≠ 0)) ∧
    ((f 0 0).runs 0 n = true ∧ ((f 0 0).me.reg (r 1).reg).toNat + (0 : BitVec 13).toNat = 0) ∧
    ((f 1 1).runs 0 n = true ∧ ((f 1 1).sema 0 255).waiters = [] ∧ 1 ≤ ((f 1 1).sema 0 255).count.toNat) ∧
    ((f 2 1).runs 0 n = true ∧ ((f 2 1).sema 0 255).count.toNat < 2) ∧
    ready base { ext := .base, dests := [.g 2], outside := true } [.semr 0 (.g 2) 255] = true ∧
    user.runs 0 { ext := .base, dests := [.g 2], outside := true } = true := by decide +kernel


/-- PUSH, POP and CHINIT: off a word; across a line; in host memory; in the TCM, with a control word that is none and with one; at a home in
another cluster, with room in the park region and without. -/
theorem witness_ChannelsAndTheirMessages :
    let push : Need := { ext := .base, srcs := [r 1, rz], reads := [.g 2], outside := true }
    let pop : Need := { ext := .base, srcs := [r 1, rz], dests := [.g 2], outside := true }
    let h := paged (at1 0)
    let t := one (fun t => withG [(1, tcm + 104), (2, 1)] t)
    ((at1 4).runs 0 push = true ∧ (at1 112).runs 0 pop = true ∧ (MemOp.ea (at1 112).me mem1).toNat % 128 = 112) ∧
    (h.runs 0 push = true ∧ h.runs 0 pop = true ∧ ∃ s1 leaf, h.reach (MemOp.ea h.me mem1) 8 .store = some (s1, hostBase, leaf)) ∧
    (t.runs 0 push = true ∧ t.runs 0 pop = true ∧ t.reach (MemOp.ea t.me mem1) 8 .store = some (t, tcm.toNat + 104, none) ∧ homeOf (tcm.toNat + 104) ≠ .host) ∧
    chinitOf (t.me.reg (.g 2)) ≠ none ∧ chinitOf ((at1 tcm).me.reg (.g 2)) = none ∧
    clusterOf (homePos (pkgOf t.me.core) (homeOf (tcm.toNat + 104))) = t.me.cluster ∧
    (let u := fullPark (one (withG [(1, far), (2, 1)]))
     u.runs 0 push = true ∧ u.runs 0 pop = true ∧ u.reach (MemOp.ea u.me mem1) 8 .store = some (u, far.toNat, none) ∧ homeOf far.toNat ≠ .host ∧
      chinitOf (u.me.reg (.g 2)) ≠ none ∧ clusterOf (homePos (pkgOf u.me.core) (homeOf far.toNat)) ≠ u.me.cluster ∧ u.sendOverflow 0 = true) ∧
    (at1 far).sendOverflow 0 = false := by
  refine ⟨?_, ⟨?_, ?_, _, _, rfl⟩, ⟨?_, ?_, rfl, ?_⟩, ?_, ?_, ?_, ⟨?_, ?_, rfl, ?_, ?_, ?_, fullPark_full _⟩, ?_⟩ <;> decide +kernel

/-- SEND and SENDM: to no core, to a core without room, to core 4 with room; lengths 65,537 and 65,536 (here 8, read from the TCM). -/
theorem witness_ChannelsAndTheirMessages_send :
    let n : Need := { ext := .base, srcs := [r 1, r 12], reads := [.g 12, .g 13, .g 14, .g 15], dests := [.g 2], outside := true }
    let i := Instr.send 0 (.g 2) (r 1) (r 12) 4
    ready (at1 0x140004) { ext := .base, srcs := [r 1], dests := [.g 2], outside := true } [.send 0 (.g 2) (r 1) (r 0) 0] = true ∧
    let m : Need := { ext := .base, srcs := [r 1, r 3, r 4], dests := [.g 2], outside := true }
    let j := Instr.sendm 0 (.g 2) (r 1) (r 3) (r 4)
    (ready (at1 0x1000004) n [i] = true ∧ ((at1 0x1000004).me.reg (r 1).reg).extractLsb' 24 40 ≠ 0) ∧
    (ready (at1 0x140004) n [i] = true ∧ (at1 0x140004).corePresent 4 = true ∧ (at1 0x140004).me.domReleased = true ∧ (at1 0x140004).sendOverflow 0 = false) ∧
    (ready (fullPark (at1 1)) n [i] = true ∧ (fullPark (at1 1)).corePresent 1 = true ∧ (fullPark (at1 1)).sendOverflow 0 = true) ∧
    (ready (at3 0x1000004 tcm 8) m [j] = true ∧ ready (at3 4 tcm 65537) m [j] = true ∧ (at3 4 tcm 65537).corePresent 4 = true) ∧
    (ready (at3 4 tcm 8) m [j] = true ∧ (at3 4 tcm 8).me.gated = [] ∧ (at3 4 tcm 8).me.stored = true ∧
      (at3 4 tcm 8).readSource (at3 4 tcm 8).me.ctx ((at3 4 tcm 8).me.reg (r 3).reg).toNat 8 = .ok (at3 4 tcm 8) ([0, 0, 0, 0, 0, 0, 0, 0], false) ∧
      (at3 4 tcm 8).sendOverflow 0 = false) ∧
    (let u := fullPark (at3 4 tcm 0)
     ready u m [j] = true ∧ u.me.stored = true ∧ u.readSource u.me.ctx (u.me.reg (r 3).reg).toNat 0 = .ok u ([], false) ∧ u.corePresent 4 = true ∧
      u.sendOverflow 0 = true) := by
  and_intros <;> first | decide +kernel | exact fullPark_full _ | rfl

/-- RECV: off 32; a block that is none; a good one. CHBIND: off 8; no core; an entry. TRDY: no core; another's channel; the own. -/
theorem witness_ChannelsAndTheirMessages_bind :
    let n : Need := { ext := .base, srcs := [r 1], outside := true }
    let good := withMem [(tcm.toNat, 0x9000000000000000), (tcm.toNat + 16, 65536)] (at1 tcm)
    let b : Need := { ext := .base, srcs := [r 1, r 3], outside := true }
    let d : Need := { ext := .base, srcs := [r 1], dests := [.g 2], outside := true }
    let user := (one (fun t => withG [(1, 0x140004)] { t with sup := false, domid := 5 }))
    (ready (at1 16) n [.recv 0 (r 1) 63] = true ∧ ready (at1 tcm) n [.recv 0 (r 1) 63] = true ∧ (at1 tcm).me.gated = [] ∧ (at1 tcm).me.stored = true ∧
      (at1 tcm).readRange (at1 tcm).me.engine tcm.toNat 32 true = .ok (at1 tcm) 0 ∧ wordAt 0 0 ≠ 0x9000000000000000) ∧
    (ready good n [.recv 0 (r 1) 63] = true ∧ good.readRange good.me.engine tcm.toNat 32 true = .ok good (0x9000000000000000 + 65536 * 2 ^ 128) ∧
      wordAt (0x9000000000000000 + 65536 * 2 ^ 128) 0 = 0x9000000000000000 ∧ (wordAt (0x9000000000000000 + 65536 * 2 ^ 128) 2).toNat = 65536 ∧
      KMap.find (good.core good.me.core).posted 63 = none ∧ good.resolve good.me.engine (tcm + 24) .load true = (good, .at (tcm.toNat + 24) none) ∧
      tcm.toNat + 24 < 2 ^ 60 ∧ (good.cluster 0).tagWait = []) ∧
    (ready (at2 4 0) b [.chbind 0 (r 1) (r 3) 17] = true ∧ ready (at2 8 0x40000) b [.chbind 0 (r 1) (r 3) 17] = true ∧
      ready (at2 tcm 4) b [.chbind 0 (r 1) (r 3) 17] = true ∧ (at2 tcm 4).coreOperand 4 = true ∧ (at2 tcm 4).readRange (at2 tcm 4).me.ctx tcm.toNat 24 = .ok (at2 tcm 4) 0 ∧
      ((at2 tcm 4).cluster (clusterOf 4)).fen = false ∧ (at2 tcm 4).me.sup = true ∧ (∀ m ∈ ((at2 tcm 4).core 4).parkedMsgs, m.chan ≠ 17) ∧
      0 < ({ at2 tcm 4 with nextId := 1 } : State).nextId ∧
      (((at2 tcm 4).modCluster 1 (fun c => { c with fen := true })).cluster (clusterOf 4)).fen = true ∧ clusterOf 4 ≠ (at2 tcm 4).me.cluster ∧ (wordAt 0 0).extractLsb' 16 12 ≠ (5 : BitVec 12)) ∧
    (ready (at1 0x1000004) d [.trdy 0 .set .clear (.g 2) (r 1)] = true ∧ ready user d [.trdy 0 .set .clear (.g 2) (r 1)] = true ∧
      (user.chan 4 5).dom ≠ user.me.domid ∧ ready (at1 0x140004) d [.trdy 0 .keep .set (.g 2) (r 1)] = true ∧ (at1 0x140004).corePresent 4 = true ∧
      0 < ({ at1 0x140004 with nextId := 1 } : State).nextId) := by
  and_intros <;> first | decide +kernel | rfl

/-- At the home: a queue with room and a full one; a stack that holds a value, a queue that does, an empty one; a word that is no object; CHINIT. -/
theorem witness_ChannelsAndTheirMessages_home :
    let m := fun (o : ChanOp) => flit 0x08 0 (.chan who4 o 0x200000 false)
    let s := fun (k : ChanKind) (cap count head : Nat) (o : ChanOp) => withFlit (m o) (withObj k cap count head base)
    ((s .queue 2 1 1 (.push 5)).takes 0 (m (.push 5)) who4 ∧ (s .queue 2 1 1 (.push 5)).object 0 0x200000 .queue 2 1 1) ∧
    ((s .bag 1 1 0 (.push 5)).takes 0 (m (.push 5)) who4 ∧ (s .bag 1 1 0 (.push 5)).object 0 0x200000 .bag 1 1 0 ∧
      (∀ p, ((s .bag 1 1 0 (.push 5)).thread who4.tid).pend = some p → p.cancelled = false)) ∧
    ((s .stack 16777213 1 0 .pop).takes 0 (m .pop) who4 ∧ (s .stack 16777213 1 0 .pop).object 0 0x200000 .stack 16777213 1 0) ∧
    ((s .queue 2 2 1 .pop).object 0 0x200000 .queue 2 2 1) ∧ ((s .queue 2 0 1 .pop).takes 0 (m .pop) who4 ∧ (s .queue 2 0 1 .pop).object 0 0x200000 .queue 2 0 1) ∧
    ((withFlit (m .pop) base).takes 0 (m .pop) who4 ∧ chanOf ((withFlit (m .pop) base).peekW 0x200000) = none ∧
      (withFlit (m .pop) base).poison = [] ∧ ((withFlit (m .pop) base).cluster 0).chanWait = [] ∧ ((withFlit (m .pop) base).cluster 0).tagWait = []) ∧
    (withFlit (m (.init 16777213)) base).takes 0 (m (.init 16777213)) who4 := by
  and_intros <;> first | exact takes_intro (by decide +kernel) | exact object_intro (by decide +kernel) | decide +kernel

/-- A message on a channel that is not bound, one on a channel that is held, and one on a channel that is open; a bulk message for a posted block. -/
theorem witness_ChannelsAndTheirMessages_arrival :
    let x : ChanMsg := ⟨9, [11, 12, 13, 14], 4, 0, 0⟩
    let m := flit 0x0C 1 (.msg (some who4) x)
    let s := fun (w0 : Word) => withFlit m { base with cores := [(1, { Core.reset false with chans := [(9, ⟨w0, 0x7000, 0⟩)] })] }
    let b : RecvBlock := ⟨tcm, tcm + 64, 8, 0, 0, true⟩
    let mb := flit 0x0D 0 (.bulk who4 9 [1, 2, 3, 4, 5, 6, 7, 8] 8)
    let sb := withFlit mb { base with cores := [(0, { Core.reset false with posted := [(9, b)] })] }
    (0 < (s 0).nextId ∧ (s 0).arrived 0 = some m ∧ ((s 0).chan 1 9).bound = false ∧ who4.tid ≠ (s 0).nextId ∧ clusterOf who4.core ≠ clusterOf 1) ∧
    ((s 5).arrived 0 = some m ∧ ((s 5).chan 1 9).bound = true ∧ ((s 5).chan 1 9).dom = x.domid ∧ (s 5).isLive 0 x.domid x.cin = true ∧
      ((s 5).chan 1 9).open = false ∧ (s 5).parkFull 0 = false) ∧
    ((s 0x1006).arrived 0 = some m ∧ ((s 0x1006).chan 1 9).bound = true ∧ ((s 0x1006).chan 1 9).open = true ∧ (s 0x1006).frameFree 0 = true ∧
      KMap.find (s 0x1006).threads (s 0x1006).nextId = none ∧ (s 0x1006).freeSlot 1 false = some 6 ∧ (s 0x1006).bestEntry 1 6 = none ∧
      (∀ y ∈ ((s 0x1006).core 1).parkedMsgs, y.chan ≠ 9)) ∧
    (sb.takes 0 mb who4 ∧ KMap.find (sb.core 0).posted 9 = some b ∧ ∃ s1 s2, sb.writeRange (engineCtx 0 b.domid b.cin 0 b.sup) b.buf.toNat 8
      (bytesNat [1, 2, 3, 4, 5, 6, 7, 8]) = .ok s1 () ∧
      s1.writeRange (engineCtx 0 b.domid b.cin 0 b.sup) (b.addr.toNat + 24) 8 (BitVec.ofNat 64 (4 * 2 ^ 32 + 8)).toNat = .ok s2 ()) := by
  and_intros <;> first | exact takes_intro (by decide +kernel) | exact ⟨_, _, rfl, rfl⟩ | decide +kernel

/-- Requests at a home: reads of a word with and without poison; writes; tags full and empty; an atomic that comes and one whose turn it is. -/
theorem witness_HomesServeAndAnswersReachTheirAskers :
    let f := fun (b : Body) (s : State) => withFlit (flit 0x02 0 b) s
    let bad : State := { base with poison := [0x200000] }
    let empty : State := { base with empties := [0x200000] }
    let a : AtomReq := ⟨who4, .add, 0x200000, 8, 5, 0⟩
    let g : State := { base with clusters := [(0, { atoms := [a] })] }
    (∀ n ∈ [1, 2, 4, 8], (f (.read who4 0x200000 n true) base).poisoned 0x200000 n = false ∧ (f (.read who4 0x200000 n true) bad).poisoned 0x200000 n = true) ∧
    (f (.read who4 0x200000 8 true) base).takes 0 (flit 0x02 0 (.read who4 0x200000 8 true)) who4 ∧
    (f (.write who4 0x200000 8 5) base).takes 0 (flit 0x02 0 (.write who4 0x200000 8 5)) who4 ∧ (f (.feqry who4 0x200000) empty).takes 0 (flit 0x02 0 (.feqry who4 0x200000)) who4 ∧
    ((f (.tagw who4 (.ldf true) 0x200000 8) base).takes 0 (flit 0x02 0 (.tagw who4 (.ldf true) 0x200000 8)) who4 ∧ base.tagFull 0x200000 = true ∧
      (base.cluster 0).tagWait = [] ∧ 0x200000 + 8 < 2 ^ 60) ∧
    ((f (.tagw who4 (.stf true 5) 0x200000 8) empty).takes 0 (flit 0x02 0 (.tagw who4 (.stf true 5) 0x200000 8)) who4 ∧ empty.tagFull 0x200000 = false ∧ 0x200000 % 8 + 8 ≤ 8) ∧
    ((f (.tagw who4 (.stf true 5) 0x200000 8) base).takes 0 (flit 0x02 0 (.tagw who4 (.stf true 5) 0x200000 8)) who4 ∧ (base.thread who4.tid).pend = none) ∧
    ((f (.proxy a) base).takes 0 (flit 0x02 0 (.proxy a)) a.who ∧ homeOf a.pa ≠ .host ∧ (f (.proxy a) base).bankRoom 0 a.pa = true) ∧
    (g.clusters.find? (fun p => p.2.atoms.any (fun r => decide (wordOf r.pa = wordOf 0x200000))) = some (0, { atoms := [a] }) ∧
      g.isLive 0 a.who.domid a.who.cin = true ∧ g.poisoned a.pa 8 = false ∧ clusterOf a.who.core ≠ clusterOf (homePos (pkgOf a.who.core) (homeOf a.pa))) := by
  and_intros <;> first | exact takes_intro (by decide +kernel) | decide +kernel

/-- An atomic on host memory; a silent agent; answers for a register, a waiting instruction, a store, and no one; a watched line. -/
theorem witness_HomesServeAndAnswersReachTheirAskers_answers :
    let a : AtomReq := ⟨who4, .add, hostBase, 8, 5, 0⟩
    let h := withFlit (flit 0x06 0 (.proxy a)) base
    let p : State := { base with packages := [(0, { Package.reset with agentReqs := [(1, a, 0)] })], timeNs := 100000000 }
    let s := fun (k : BitVec 6) (b : Ans) (f : Thread → Thread) => withFlit (flit k 4 (.resp who4 b)) { base with threads := [(0, runner), (9, f { runner with place := .slot 4 0 })] }
    let aw := fun (t : Thread) => { t with await := [⟨7, .reg 2 8 false, true, 0, 0⟩] }
    let st := fun (t : Thread) => { t with await := [⟨7, .store, false, 0, 0⟩] }
    let pd : Pend := ⟨7, .reg (.g 2) 8 false, none, 0, [], 0, false, none⟩
    (h.takes 0 (flit 0x06 0 (.proxy a)) who4 ∧ homeOf a.pa = .host) ∧
    (p.packages.find? (fun p => p.2.agentReqs.any (fun q => decide (q.1 = 1))) = some (0, { Package.reset with agentReqs := [(1, a, 0)] }) ∧
      0 + 100000000 ≤ p.timeNs ∧ clusterOf a.who.core ≠ clusterOf (homePos 0 .host)) ∧
    ((s 0x03 (.value 5) aw).arrived 0 = some (flit 0x03 4 (.resp who4 (.value 5))) ∧ (s 0x03 (.value 5) aw).asks who4 = true ∧ (s 0x03 (.value 5) aw).holdsBack who4 = false ∧
      ((s 0x03 (.value 5) aw).thread 9).await.find? (fun x => decide (x.tok = who4.tok)) = some ⟨7, .reg 2 8 false, true, 0, 0⟩) ∧
    ((s 0x03 (.fail 0x0A) aw).arrived 0 = some (flit 0x03 4 (.resp who4 (.fail 0x0A))) ∧ (s 0x03 (.fail 0x0A) aw).holdsBack who4 = false) ∧
    ((s 0x03 (.value 5) (fun t => { t with pend := some pd })).arrived 0 = some (flit 0x03 4 (.resp who4 (.value 5))) ∧
      (s 0x03 (.value 5) (fun t => { t with pend := some pd })).asks who4 = true ∧ (s 0x03 (.value 5) (fun t => { t with pend := some pd })).holdsBack who4 = false ∧
      ((s 0x03 (.value 5) (fun t => { t with pend := some pd })).thread 9).pend = some pd ∧ ((s 0x03 (.value 5) (fun t => { t with pend := some pd })).thread 9).await = []) ∧
    ((s 0x05 .ok st).arrived 0 = some (flit 0x05 4 (.resp who4 .ok)) ∧ (s 0x05 .ok st).asks who4 = true ∧ (s 0x05 .ok st).holdsBack who4 = false ∧
      ((s 0x05 .ok st).thread 9).await.find? (fun x => decide (x.tok = who4.tok)) = some ⟨7, .store, false, 0, 0⟩) ∧
    ((withFlit (flit 0x03 4 (.resp who4 (.value 5))) base).asks who4 = false ∧ ((withFlit (flit 0x03 4 (.resp who4 (.value 5))) base).cluster 1).orphan ≠ BitVec.allOnes 32) ∧
    (withFlit (flit 0x17 0 (.wtch who4 0x200000)) base).takes 0 (flit 0x17 0 (.wtch who4 0x200000)) who4 := by
  and_intros <;> first | exact takes_intro (by decide +kernel) | decide +kernel | rfl


/-! ### Copy commands -/

/-- A descriptor of `n` elements of type n64 that lie one after another from `base`. -/
def tenDesc (base : Word) (n : Word) : List Word := [0x1B20000000000000, base, 0, n, 0, 64]
/-- The tensor of that descriptor. -/
def ten64 (base n : Nat) : Tensor := ⟨.n64, 64, 1, base, 0, [n], [64], 0⟩
/-- The control block of an arena. -/
def arenaDesc (base size : Word) : List Word := [0x6000000000000000, base, size]
/-- Words from an address upwards. -/
def wordsAt (a : Nat) (l : List Word) : List (Nat × Word) := (List.range l.length).map (fun i => (a + 8 * i, l.getD i 0))
/-- `base` with descriptors at the start of the TCM and 128 bytes above it, named by g1 and g3. -/
def descs (a b : List Word) : State := withMem (wordsAt tcm.toNat a ++ wordsAt (tcm.toNat + 128) b) (at2 tcm (tcm + 128))
/-- An accepted copy command whose clause is met. -/
def cmd (op : CopyOp) : CopyCmd :=
  { op := op, clauses := ⟨0, 0, 0, 0⟩, domid := 0, cin := 0, tag := 0, sup := true, tid := 0, launch := none, met := true, started := false
    finished := none, moved := 0, pos := 0, bits := 0, fl := {}, out := [], stop := 0 }
/-- Copy commands in a queue of core 0. -/
def withCmds (q : Nat) (l : List CopyCmd) (s : State) : State := s.modQueue 0 q (fun x => { x with cmds := l })

/-- The descriptors name a copy of a tensor, an arena of a size whose need has a property, storage, or nothing that a command can do. -/
def isPlain : CopyOp → Bool
  | .plain _ _ => true
  | _ => false
def isArena (n : Nat) (v : CopyOp) (p : Nat → Bool) : Bool :=
  match v with
  | .arena _ _ k x => decide (k = n) && p (8 + 8 * (((x.count * x.width + 7) / 8 + 7) / 8))
  | _ => false
def isStor : CopyOp → Bool
  | .stor _ _ _ _ _ _ => true
  | _ => false
def isRefused : CopyOp → Bool
  | .refused _ => true
  | _ => false
theorem absent_ex {α : Type} {g : Got α} (h : (match g with | .absent _ _ => true | _ => false) = true) : ∃ s1 va, g = .absent s1 va := by
  cases g <;> first | exact ⟨_, _, rfl⟩ | cases h

/-- CPY, CPYX and STOR off their alignment; entry 256; with 7, 3, 8 and 4 commands in the queue and the channel; descriptors that are none,
tensors, storage, an arena with and without room, and one on an absent page. -/
theorem witness_CopyPort :
    let n : Need := { ext := .cpy, srcs := [r 1, r 3], outside := true }
    let x := cmd (.refused 1)
    let plain := withCmds 8 [x, x, x] (descs (tenDesc (tcm + 0x200) 1) (tenDesc (tcm + 0x300) 1))
    let full := withCmds 8 [x, x, x, x] (withCmds 7 [x, x, x, x, x, x, x, x] (at2 tcm 0))
    let parse := fun (s : State) => s.readOp s.me.engine (.unread false .none s.me.g[1] s.me.g[3] s.me.fa s.me.fb 0 [])
    let ar := fun (n : Word) => descs (arenaDesc (tcm + 0x400) 64) (tenDesc (tcm + 0x300) n)
    let stor := descs [0x7000000000000005, 100, 1, tcm + 0x1000] []
    let gone := paged (at2 0x2000000000 0)
    let e := at2 tcm 255
    ((at2 64 0).runs 0 n = true ∧ (at2 128 32).runs 0 n = true) ∧
    (full.runs 0 n = true ∧ 4 ≤ (full.queue 0 8).cmds.length ∧ 8 ≤ (full.queue 0 7).cmds.length) ∧
    (plain.runs 0 n = true ∧ (plain.queue 0 8).cmds.length = 3 ∧ (plain.queue 0 0).cmds.length < 8 ∧ plain.me.gated = [] ∧ plain.me.stored = true ∧
      ∃ s1 v, parse plain = .ok s1 v ∧ (decide (s1 = plain) && isPlain v) = true) ∧
    ((ar 6).runs 0 n = true ∧ ∃ s1 v, parse (ar 6) = .ok s1 v ∧ (decide (s1 = ar 6) && isArena 64 v fun need => decide (need = 64 - 8)) = true) ∧
    (∃ s1 v, parse (ar 7) = .ok s1 v ∧ (decide (s1 = ar 7) && isArena 64 v fun need => decide (64 - 8 < need)) = true) ∧
    (∃ s1 v, parse (descs [] []) = .ok s1 v ∧ (decide (s1 = descs [] []) && isRefused v) = true) ∧
    (gone.runs 0 n = true ∧ (gone.queue 0 0).cmds = [] ∧ (gone.queue 0 8).cmds = [] ∧ ∃ s1 va, parse gone = .absent s1 va) ∧
    ((at2 16 0).runs 0 n = true ∧ (at2 32 256).runs 0 n = true ∧ e.runs 0 n = true) ∧
    (∃ s1 v, stor.readOp stor.me.engine (.unreadStor true tcm 255) = .ok s1 v ∧ (decide (s1 = stor) && isStor v) = true) ∧
    ready base { ext := .cpy, dests := [.g 2], outside := true } [.cpq 0 (.g 2) 8, .cpcan 0 (.g 2) 7] = true ∧
    (∀ c ∈ (plain.queue 0 8).cmds, c.clauses.si ≠ 0 → ∀ w ∈ (plain.sema 0 c.clauses.ss.toNat).waiters, w.1 ≠ 0) ∧
    (at1 256).runs 0 { ext := .cpy, srcs := [r 1], outside := true } = true ∧ (at1 255).runs 0 { ext := .cpy, srcs := [r 1], outside := true } = true ∧
    ((at1 255).queue 0 7).stall = none := by
  and_intros <;> first | exact okAnd_ex (by decide +kernel) | exact absent_ex (by decide +kernel) | decide +kernel

/-- The events of a queue: a refused command; one that moves its one element; an arena command before and after its start; a CUST command on a
B9-X4 and on a B9-X4L; a storage block with and without a capability, one that comes back and one that comes in; a command that has ended. -/
theorem witness_CopyPort_events :
    let s := fun (c : CopyCmd) => withCmds 7 [c] base
    let plain := cmd (.plain (ten64 (tcm.toNat + 0x300) 1) (ten64 (tcm.toNat + 0x200) 1))
    let go := (s plain).modCmd 0 7 (fun c => { c with started := true })
    let moved := fun (s1 : State) (v : Nat) => s1.modCmd 0 7 (fun c => { c with moved := 1, puts := [⟨8 * (tcm.toNat + 0x300), 64, v % 2 ^ 64, true⟩] })
    let wide := fun (t : Tensor) => decide (0 < t.width ∧ t.at 0 = 8 * (tcm.toNat + 0x300) ∧ t.at 0 % 64 + t.width ≤ 64)
    let ar := cmd (.arena tcm.toNat (tcm.toNat + 0x400) 64 (ten64 (tcm.toNat + 0x200) 1))
    let placed := fun (w : Word) (m : State → State) => withMem (wordsAt tcm.toNat (arenaDesc (tcm + 0x400) w)) (m (s { ar with started := true }))
    let before := fun (s : State) => { s.modQueue 4 7 (fun x => { x with cmds := [{ ar with started := true, ticket := some (tcm.toNat, 2) }] }) with nextId := 4 }
    let reached := fun (s : State) => decide (s.resolve (ar.ctx 0) tcm .store true = (s, .at tcm.toNat none))
    let after := fun (s : State) => (s.modCmd 0 7 (fun c => { c with ticket := some (tcm.toNat, s.nextId) })).bumpId
    let cust := cmd (.enc 5 (ten64 (tcm.toNat + 0x200) 1) (tcm.toNat + 0x300) 0 0 0)
    let st : CopyCmd := { cmd (.stor true 5 100 1 (tcm.toNat + 0x1000) 255) with started := true }
    let full := withMem [(tcm.toNat + 0x1FF8, 1)] (s { st with out := [0] })
    let cap : Extent := ⟨0, 5, 100, 1, true, false, 0⟩
    let get : CopyCmd := { cmd (.stor false 5 100 1 (tcm.toNat + 0x1000) 255) with started := true, out := [0] }
    let dev : State := { s st with packages := [(0, { Package.reset with extents := [(255, cap)], targets := [(5, 1)] })] }
    ((s (cmd (.refused 0x1A))).queue 0 7).cmds = [cmd (.refused 0x1A)] ∧
    (((s plain).queue 0 7).cmds = [plain] ∧ wide (ten64 (tcm.toNat + 0x300) 1) = true ∧ ∃ s1 v, go.getElem (plain.ctx 0) (ten64 (tcm.toNat + 0x200) 1) 0 = .ok s1 v ∧
      okAnd ((moved s1 v).writeBits (plain.ctx 0) (8 * (tcm.toNat + 0x300)) 64 (v % 2 ^ 64) true) (fun s2 _ => decide (s2.queue 0 7 = (moved s1 v).queue 0 7)) = true) ∧
    (∃ s1 body, (placed 64 id).imageBits (ar.ctx 0) (ten64 (tcm.toNat + 0x200) 1) 0 64 = .ok s1 body ∧ (decide (s1 = placed 64 id) && decide (body = 0)) = true) ∧
    (reached (placed 64 id) = true ∧ reached (placed 64 before) = true ∧ reached (placed 8 id) = true) ∧
    ((after (placed 64 before)).arenaTurn tcm.toNat 4 none = false ∧ (after (placed 64 id)).arenaTurn tcm.toNat 0 none = true ∧
      (after (placed 8 id)).arenaTurn tcm.toNat 0 none = true) ∧
    (∃ s4 e, (after (placed 8 id)).placeRecord (ar.ctx 0) tcm.toNat (tcm.toNat + 0x400) 8 1 1 0 = .ok s4 e ∧ decide (e = .error 0x20) = true) ∧
    (∃ s4 e, (after (placed 64 id)).placeRecord (ar.ctx 0) tcm.toNat (tcm.toNat + 0x400) 64 1 1 0 = .ok s4 e ∧ (match e with
      | .ok l => decide ((s4.copyPuts 0 7 l).2 = .done)
      | .error _ => false) = true) ∧
    (cust.op.isCust = true ∧ ((s cust).pkg 0).variant ≠ 2) ∧
    (KMap.find (dev.pkg 0).extents 255 = some cap ∧ KMap.find (dev.pkg 0).targets 5 ≠ none ∧ (dev.queue 0 7).cmds = [st]) ∧
    (KMap.find ((s st).pkg 0).extents 255 = none ∧ st.out = []) ∧
    (({ st with out := [0] }).out = [0] ∧ ∃ s1 v, full.readRange (st.ctx 0) (tcm.toNat + 0x1000) 4096 true = .ok s1 v ∧ (decide (s1 = full) && v != 0) = true) ∧
    ((((s get).modCmd 0 7 (fun c => { c with part := 0 })).copyPuts 0 7 (bytesOf (tcm.toNat + 0x1000) 4096 (KMap.getD ((s get).pkg 0).storage
      (KMap.getD ((s get).pkg 0).targets 5 0 * 2 ^ 64 + 100) 0))).2 = .done) ∧
    ((s { cmd (.refused 1) with finished := some 1 }).queue 0 7).cmds = [{ cmd (.refused 1) with finished := some 1 }] := by
  and_intros <;> first | exact okAnd_ex (by decide +kernel) | decide +kernel

/-- What a step of a walk came to, when it succeeded, has a property. -/
def exAnd {ε α : Type} (g : Except ε α) (p : α → Bool) : Bool :=
  match g with
  | .ok a => p a
  | .error _ => false
theorem exAnd_ex {ε α : Type} {g : Except ε α} {p : α → Bool} (h : exAnd g p = true) : ∃ a, g = .ok a ∧ p a = true := by
  cases g with
  | ok a => exact ⟨a, rfl, h⟩
  | error e => cases h


/-- STRM: off 128; a block that is no tensor; a tensor. A stream that is not bound, one at its end, one whose
buffer is full, one that reads and one that writes, to the TCM and to an address that no page maps. -/
theorem witness_StreamsAndBitstreams :
    let n : Need := { ext := .cpy, anc := true, srcs := [r 1], outside := true }
    let d : Need := { ext := .cpy, anc := true, dests := [.g 2], outside := true }
    let ok := descs (tenDesc (tcm + 0x200) 1) []
    let f := fun (wr : Bool) (pos : Nat) (buf : List Put) => one (fun t => t.setStream 3 (some ⟨wr, ten64 (tcm.toNat + 0x200) 2, pos, buf⟩))
    let w : Put := ⟨8 * (tcm.toNat + 0x200), 64, 1, true⟩
    let full := f true 1 (List.replicate 128 w)
    let host := one (fun t => t.setStream 3 (some ⟨true, ten64 8 2, 0, []⟩))
    ((at1 64).runs 0 n = true ∧ (∃ s1 v, (descs [] []).readRange (descs [] []).me.engine tcm.toNat 128 true = .ok s1 v ∧
      (decide (s1 = descs [] []) && (tensorOf v 0 0).toOption.isNone) = true)) ∧
    (ok.runs 0 n = true ∧ ok.me.stored = true ∧ ok.me.gated = [] ∧ ok.me.strmRoom 3 8192 = true ∧ ∃ s1 v, ok.readRange ok.me.engine tcm.toNat 128 true = .ok s1 v ∧
      (decide (s1 = ok) && (tensorOf v 0 0).toOption.isSome) = true) ∧
    (base.runs 0 d = true ∧ base.me.stream 3 = none ∧ base.runs 0 { ext := .cpy, anc := true, outside := true } = true) ∧
    ((f false 2 []).me.stream 3 = some ⟨false, ten64 (tcm.toNat + 0x200) 2, 2, []⟩ ∧ (f false 2 []).runs 0 d = true) ∧
    (full.me.stream 3 = some ⟨true, ten64 (tcm.toNat + 0x200) 2, 1, List.replicate 128 w⟩ ∧ full.runs 0 n = true ∧ full.runs 0 { ext := .cpy, anc := true, outside := true } = true ∧
      full.me.strmRoom 3 8192 = false ∧ full.me.strmRoom 3 64 = false) ∧
    ((f false 1 []).runs 0 d = true ∧ (f false 1 []).me.stream 3 = some ⟨false, ten64 (tcm.toNat + 0x200) 2, 1, []⟩ ∧ (Instr.strcGet 0 (.g 2) 3).wf = true ∧
      (Instr.strcQ 0 (.g 2) 3).wf = true ∧ ∃ s1 v, (f false 1 []).readBits (f false 1 []).me.engine ((ten64 (tcm.toNat + 0x200) 2).at 1) 64 = .ok s1 v ∧ decide (s1 = f false 1 []) = true) ∧
    ((f true 1 []).runs 0 n = true ∧ (f true 1 []).me.strmRoom 3 64 = true ∧ (f true 1 []).me.strmRoom 3 8192 = true ∧ (f true 1 []).me.stream 3 = some ⟨true, ten64 (tcm.toNat + 0x200) 2, 1, []⟩ ∧
      ∃ s1 v, (f true 1 []).writeBits (f true 1 []).me.engine ((ten64 (tcm.toNat + 0x200) 2).at 1) 64 ((f true 1 []).me.reg (r 1).reg).toNat = .ok s1 v ∧ decide (s1.cur = 0) = true) ∧
    (host.runs 0 n = true ∧ host.me.stream 3 = some ⟨true, ten64 8 2, 0, []⟩ ∧ host.me.strmRoom 3 64 = true ∧
      (match host.writeBits host.me.engine ((ten64 8 2).at 0) 64 0 with | .bad _ _ _ => true | _ => false) = true) := by
  and_intros <;> first | exact okAnd_ex (by decide +kernel) | decide +kernel


/-- The scarab thread of core 0, and a CUST command that decodes two doublewords. -/
def scarabAt (f : Thread → Thread) : State := one (fun t => f { t with place := .slot 0 7 })
def cust : CopyCmd := cmd (.dec 5 (ten64 (tcm.toNat + 0x200) 2) (tcm.toNat + 0x300) 0 9 0)
/-- An item of that command, at a position of its input and output. -/
def item (inPos outPos : Nat) (dead : Bool) : WorkItem := ⟨7, true, 9, .n64, 2, some 64, 128, inPos, outPos, dead⟩
def onItem (i : WorkItem) (f : Thread → Thread) : State := withCmds 7 [cust] ((scarabAt f).modCore 0 (fun c => { c with item := some i }))
theorem onItem_onIt : (onItem (item 0 64 false) id).onIt (item 0 64 false) cust (ten64 (tcm.toNat + 0x200) 2) (tcm.toNat + 0x300) ∧
    (onItem (item 1 65 false) id).onIt (item 1 65 false) cust (ten64 (tcm.toNat + 0x200) 2) (tcm.toNat + 0x300) :=
  ⟨⟨by decide +kernel, by decide +kernel, by decide +kernel, by decide +kernel, true, 9, by decide +kernel⟩,
    ⟨by decide +kernel, by decide +kernel, by decide +kernel, by decide +kernel, true, 9, by decide +kernel⟩⟩
/-- The bitstream instructions, on the items of `onItem_onIt`: with work and without; counts 0, 1, 64 and 65; up to the end of the input and of the
output, and past it. -/
theorem witness_StreamsAndBitstreams_item :
    let b : Need := { ext := .bsx }
    let g : Need := { ext := .bsx, dests := [.g 2] }
    let w := (withCmds 7 [cust] (scarabAt id)).modCore 0 (fun c => { c with work := [7] })
    let s := onItem (item 0 64 false) id
    let puts := fun (i : WorkItem) (k v : Nat) (s : State) =>
      let x := s.copyPuts 0 7 (i.put (ten64 (tcm.toNat + 0x200) 2) (tcm.toNat + 0x300) i.outPos k v)
      decide (x.2 = .done) && decide (x.1.cur = 0)
    let e := onItem (item 1 65 false) id
    (w.runs 0 b = true ∧ (w.core 0).work ≠ [] ∧ ready w g [.qtake 0 (.g 2)] = true ∧ (w.core 0).item = none ∧ (w.core 0).work = [7] ∧ (w.queue 0 7).cmds.head? = some cust ∧
      cust.op.custom = some (ten64 (tcm.toNat + 0x200) 2, tcm.toNat + 0x300, true, 9)) ∧
    (s.runs 0 g = true ∧ (s.core 0).item ≠ none ∧ [0, 65].all (fun k => (onItem (item 0 64 false) (withG [(1, k)])).runs 0 { ext := .bsx, srcs := [r 1], dests := [.g 2] }) = true ∧ ready w g [.bsget 0 (.g 2) (.imm 64)] = true) ∧
    ((item 0 64 false).inBits = some 64 ∧ 0 + 64 ≤ 64 ∧
      okAnd (s.itemRead 0 (item 0 64 false) cust (ten64 (tcm.toNat + 0x200) 2) (tcm.toNat + 0x300) 64) (fun s1 _ => decide (s1 = s)) = true) ∧
    (e.runs 0 g = true ∧ 64 < 1 + 64) ∧
    (s.runs 0 { ext := .bsx, srcs := [r 1] } = true ∧ 64 + 64 ≤ (item 0 64 false).outBits ∧ (item 1 65 false).outBits < 65 + 64 ∧
      puts (item 0 64 false) 64 (s.me.reg (r 1).reg).toNat s = true) ∧
    (e.runs 0 b = true ∧ puts (item 1 65 false) 7 0 e = true ∧ puts (item 0 64 false) 0 0 s = true) ∧
    (s.runs 0 b = true ∧ (item 0 64 false).outPos % 2 ^ 6 = 0 ∧ (item 0 64 false).outPos % 8 = 0) ∧
    (w.runs 0 { ext := .bsx, srcs := [r 1] } = true ∧ ((onItem (item 0 0 true) id).core 0).item = some (item 0 0 true) ∧
      (onItem (item 0 0 true) id).runs 0 { ext := .bsx, srcs := [r 1] } = true) := by
  decide +kernel

/-- The walking instructions off 128 and not; GTYPE of a misaligned word, a channel object, an unknown type and a bitmap type; GQRY. -/
theorem witness_WholeGraphInstructionsAndTheirEngine :
    let n : Need := { ext := .graph, srcs := [r 1, r 3], dests := [.g 2], outside := true }
    let one : Need := { ext := .graph, srcs := [r 1], dests := [.g 2] }
    let o := fun (h : Word) => { withMem [(tcm.toNat, h), (tcm.toNat + 0x800, 0x4000000200000000), (tcm.toNat + 0x808, 3)] (at1 tcm) with typebase := [(0, 0x0082000000000800)] }
    (o 0xFFFF000000300000).local_ tcm 8 .load (o 0xFFFF000000300000) tcm.toNat none ∧
    ((at1 64).runs 0 n = true ∧ (at1 128).runs 0 n = true ∧ (at1 128).me.gated = [] ∧ (at1 128).me.stored = true) ∧
    ready (at1 4) one [.gtype 0 (.g 2) (r 1) none] = true ∧
    (((o 0xFFFF000000300000).peekW tcm.toNat).extractLsb' 44 20 = 0xFFFF0 ∧ (o 0xFFFF000000300000).me.storing tcm.toNat 8 = false ∧
      (o 0xFFFF000000300000).poisoned tcm.toNat 8 = false ∧ ready (o 0xFFFF000000300000) one [.gtype 0 (.g 2) (r 1) none] = true) ∧
    (((o 0xFFF0000000300000).peekW tcm.toNat).extractLsb' 44 20 = 0xFFF00 ∧ ((o 0x0000100000300000).peekW tcm.toNat).extractLsb' 44 20 = 1) ∧
    (((o 0x200000).peekW tcm.toNat).extractLsb' 44 20 = 0 ∧ ready (o 0x200000) n [.gtype 0 (.g 2) (r 1) (some (r 3))] = true ∧
      okAnd ((o 0x200000).readRange (o 0x200000).me.ctx (tcm.toNat + 0x800) 16) (fun s1 v =>
        decide (s1 = o 0x200000) && (wordAt v 0).extractLsb' 62 2 == 1 && (wordAt v 0).extractLsb' 32 24 == 2) = true) ∧
    (ready (at1 64) one [.gqry 0 (.g 2) (r 1)] = true ∧ ready (at1 tcm) one [.gqry 0 (.g 2) (r 1)] = true ∧
      exAnd ((at1 tcm).wsbRead (at1 tcm).me tcm.toNat 0 128) (fun a => decide (a = (at1 tcm, 0))) = true) := by
  refine ⟨⟨?_, ?_⟩, ?_⟩
  · decide +kernel
  · decide +kernel
  · decide +kernel

/-- A walk state block in the TCM for a comparison of the graphs at two roots, bound to 256 bytes, and a thread that waits for its walk. -/
def gcmpReq : WalkReq := ⟨.gcmp, 0, 0, tcm.toNat + 0x1000, 0⟩
def gcmpWalk (code : Option (BitVec 8)) (swept : Option Bool) : Walk := ⟨gcmpReq, 0, 0, 0, 0, none, code, swept, false, false, none⟩
def wsb (root : Word) (wait : List WalkReq) (walk : Option Walk) : State :=
  (withMem (wordsAt (tcm.toNat + 0x1000) [0x8000000000000000, root, 0, tcm + 0x400, tcm + 0x500, tcm + 0x400, tcm + 0x500, 0, 0, 4096] ++
      wordsAt (tcm.toNat + 0x10C0) [0x8000000000000000, root, 0, tcm + 0x400, tcm + 0x500, tcm + 0x400, tcm + 0x500, 0, 0, 4096])
    (one (fun t => { t with place := .slot 0 0, tvec := 64, wait := some .graph, pend := some ⟨0, .graph (.g 2) none, none, 0, [], 0, false, none⟩ }))).modCluster 0
      (fun c => { c with walks := wait, walk := walk })
/-- The engine: a walk that waits; its first step with root 0 and with a root outside the bound range; the sweep; the completion. -/
theorem witness_WholeGraphInstructionsAndTheirEngine_engine :
    let q := gcmpReq
    let w0 := wsb 0 [q] none
    let w1 := fun root => wsb root [] (some (gcmpWalk none none))
    let w2 := wsb 0 [] (some (gcmpWalk (some 0) none))
    let w3 := wsb 0 [] (some (gcmpWalk (some 0) (some false)))
    ((w0.cluster 0).walk = none ∧ (w0.cluster 0).walks = [q] ∧ w0.walkAlive q = true ∧
      exAnd ((w0.modCluster 0 (fun c => { c with walk := none, walks := [] })).walkOpen (w0.thread 0) q) (fun a => decide (a.2 = gcmpWalk none none)) = true) ∧
    (((w1 0).cluster 0).walk = some (gcmpWalk none none) ∧ (w1 0).walkAlive q = true ∧
      exAnd ((w1 0).wsbView ((w1 0).thread 0) q.wsb) (fun a =>
        decide (a.1 = w1 0) && decide (a.2.depth = 0) && decide (a.2.objs = 0) && decide (wordAt a.2.p 1 = 0) && decide (wordAt a.2.p 2 = 0)) = true) ∧
    (exAnd ((w1 8).wsbView ((w1 8).thread 0) q.wsb) (fun a =>
      decide (a.1 = w1 8) && decide (wordAt a.2.p 1 = 8) && decide (8 < a.2.word 3)) = true ∧ ((w1 8).thread 0).freezes = false) ∧
    ((w2.cluster 0).walk = some (gcmpWalk (some 0) none) ∧ w2.walkAlive q = true) ∧
    ((w3.cluster 0).walk = some (gcmpWalk (some 0) (some false)) ∧ w3.walkAlive q = true ∧
      (w3.thread 0).pend = some ⟨0, .graph (.g 2) none, none, 0, [], 0, false, none⟩ ∧
      exAnd (w3.wsbView (w3.thread 0) q.wsb) (fun a => decide (a.1 = w3)) = true ∧
      exAnd (w3.wsbRead (w3.thread 0) q.wsb 0 96) (fun a => decide (a.1 = w3) && decide ((wordAt a.2 0) &&& 0xF000FFFFFFFFFFFF = 0x8000000000000000)) = true ∧
      exAnd (w3.wsbWrite (w3.thread 0) q.wsb 0 8 (0x8203 * 2 ^ 48)) (fun a => decide (a.1.thread 0 = w3.thread 0)) = true) := by
  decide +kernel

/-- A trestle entry of core 0 for group 5, with children, contributions and results. -/
def tre (dlv : Bool) (children : List Nat) (parent : Option Nat) (contribs : List (Nat × Nat × BitVec 1024 × Word)) (results : List (Nat × BitVec 1024 × Word)) : Trestle :=
  ⟨0, 0, 5, 0, .and, parent, children, dlv, 0, 0, 0, contribs, results, false, false, false, 0⟩
def withTre (e : Trestle) (s : State) : State := s.modCluster 0 (fun c => { c with trestles := [e] })

set_option maxRecDepth 1000 in
/-- The collective instructions: a descriptor off 128; none; with OP 7 and 0; names 65535, 65536 and 5, with and without an entry or a delivery. -/
theorem witness_Collectives :
    let join : Need := { ext := .coll, srcs := [r 1], dests := [.g 2], outside := true }
    let cast : Need := { ext := .coll, anc := true, srcs := [rv 0, r 1, r 3], outside := true }
    let rcv : Need := { ext := .coll, anc := true, srcs := [r 1], dests := [.v 1, .g 2], outside := true }
    let reads := fun (s : State) (p : State → Nat → Bool) => okAnd (s.readRange s.me.ctx tcm.toNat 128) (fun s1 v => decide (s1 = s) && p s1 v)
    let d := fun (w : Word) => descs [w, 0x400000] []
    let ahead : Trestle := { tre true [] none [] [] with own := 1, done := 65535 }
    let u := fullPark (d 0xA001000000000005)
    let t5 := fun (e : Trestle) => withTre e (at1 5)
    ((at1 64).runs 0 join = true ∧ (at1 64).runs 0 cast = true ∧ (d 0).runs 0 join = true ∧ (d 0).runs 0 cast = true ∧ (d 0).me.gated = [] ∧ (d 0).me.stored = true) ∧
    reads (d 0) (fun s v => decide (s.collDesc v = none)) = true ∧
    reads (d 0xA701000000000005) (fun s v => decide (s.collDesc v = some ([0x400000], 5)) && decide (6 < ((wordAt v 0).extractLsb' 56 4).toNat)) = true ∧
    reads (d 0xA001000000000005) (fun s v => decide (s.collDesc v = some ([0x400000], 5)) && ((wordAt v 0).extractLsb' 56 4 == 0)) = true ∧
    (ready (d 0xA001000000000005) join [.cjoin 0 (.g 2) (r 1)] = true ∧ (d 0xA001000000000005).sendOverflow 0 = false) ∧
    (u.runs 0 cast = true ∧ u.me.gated = [] ∧ u.me.stored = true ∧ u.readRange u.me.ctx tcm.toNat 128 = .ok u (0x400000 * 2 ^ 64 + 0xA001000000000005) ∧
      u.collDesc (0x400000 * 2 ^ 64 + 0xA001000000000005) = some ([0x400000], 5) ∧ u.sendOverflow 0 = true) ∧
    (ready (at1 65536) join [.cjoinQ 0 (.g 2) (r 1), .cjoinLv 0 (.g 2) (r 1)] = true ∧ ready (at1 65535) join [] = true ∧
      (at1 65535).trestle 0 0 0 65535 = none) ∧
    ((t5 (tre true [] none [] [])).runs 0 join = true ∧ (t5 (tre true [] none [] [])).trestle 0 0 0 5 = some (tre true [] none [] []) ∧
      (∀ e ∈ [tre true [] none [] [], ahead], (t5 e).trestle 0 0 0 5 = some e) ∧ (t5 ahead).runs 0 cast = true ∧ 2 ≤ (ahead.own + 65536 - ahead.done) % 65536) ∧
    ((at1 65536).runs 0 cast = true ∧ (at1 65535).runs 0 cast = true ∧ (t5 (tre false [] none [] [])).runs 0 cast = true ∧
      (t5 (tre true [] none [] [])).runs 0 cast = true) ∧
    (ready (at1 65536) rcv [.crcvMc 0 (.v 1) (r 1) (.g 2), .crcvRed 0 (.v 1) (r 1) (.g 2)] = true ∧
      (((at1 5).modCore 0 (fun c => { c with mcast := [⟨7, 8, 5, 0, 0⟩] })).runs 0 rcv = true) ∧
      (t5 (tre true [] none [] [])).runs 0 rcv = true ∧ ((at1 5).core 0).mcast = [] ∧ (at1 5).runs 0 rcv = true ∧
      (t5 (tre true [] (some 3) [] [])).runs 0 rcv = true ∧ (t5 (tre true [] none [] [(0, 7, 8)])).runs 0 rcv = true) := by
  and_intros <;> first | decide +kernel | exact fullPark_full _ | rfl

/-- The events: a round of a leaf and of a root; a child's contributions of rounds 0 and 1; a SETUP with and without a further node; a multicast. -/
theorem witness_Collectives_events :
    let whole := fun (parent : Option Nat) => tre true [] parent [(0, 0, 7, 8)] []
    let up := fun (round : Nat) => withFlit (flit 0x11 0 (.contrib 5 0 3 round 7 8)) (withTre (tre true [3] none [] []) base)
    let setup := fun (l : List (Nat × Option Nat × List Nat × Bool)) => withFlit (flit 0x13 0 (.setup who4 .and 5 l [])) base
    let mc := fun (l : List (BitVec 24)) => withFlit (flit 0x10 0 (.mcast l 7 8 5)) base
    (∀ p ∈ [none, some 3], ((withTre (whole p) base).cluster 0).trestles.find? (fun y => decide (y.gid.toNat = 5) && y.whole) = some (whole p) ∧
      (whole p).share 0 = some ⟨7, 8⟩) ∧
    (∀ k ∈ [0, 1], (up k).arrived 0 = some (flit 0x11 0 (.contrib 5 0 3 k 7 8)) ∧ (up k).isLive 0 0 0 = true ∧
      (up k).trestle 0 0 0 5 = some (tre true [3] none [] [])) ∧
    (∀ l ∈ [[(0, none, [], true)], [(0, none, [64], true), (64, some 0, [], true)]], (setup l).takes 0 (flit 0x13 0 (.setup who4 .and 5 l [])) who4 ∧
      ((setup l).cluster 0).trestles = []) ∧
    (∀ l ∈ [[0x400000], [0x040000, 0x400040]], (mc l).arrived 0 = some (flit 0x10 0 (.mcast l 7 8 5)) ∧ (mc l).isLive 0 0 0 = true ∧
      KMap.find (mc l).msgs 0 = some (flit 0x10 0 (.mcast l 7 8 5))) ∧
    (base.core 0).mcast = [] := by
  simp only [State.takes]
  decide +kernel

/-! ### Special registers, traps, calls, launches -/

/-- Boundary and limit values for SPWR; the boundaries after reset; a lower first boundary, with a frame above it and without; a write that waits, with engines idle and with a walk running. -/
theorem witness_SpecialRegisters :
    let rd : Need := { ext := .sys, dests := [.g 2] }
    let wr : Need := { ext := .sys, srcs := [r 1], outside := true }
    let pw : Need := { ext := .sys, priv := true, srcs := [r 1], outside := true }
    let k := base.cluster 0
    let low := at1 2
    let framed := one (fun t => withG [(1, 2)] { t with tframe := BitVec.ofNat 64 (poolOf 0 + 512 * 256) })
    let w := fun (walk : Option Walk) => (one (fun t => { t with wait := some (.bnd 0), pend := some ⟨0, .nothing, none, 0, [], 0, false, none⟩ })).modCluster 0
      (fun c => { c with bndWrite := some (1, 0x20, 0), walk := walk })
    ready base rd [.time 0 (.g 2), .sprd 0 (.g 2) .tcause] = true ∧
    ready (at1 (2 ^ 56)) wr [.spwr 0 .tvec (r 1), .spwrTypebase 0 (r 1)] = true ∧ ready (at1 0xFCFFFFFFFFFFFFF0) wr [] = true ∧
    (ready (at1 64) pw [.spwr 0 .tframe (r 1), .spwr 0 .pwin (r 1), .spwr 0 .fpint (r 1)] = true ∧ ready (at1 63) pw [] = true) ∧
    [1023, 1024, 65536, 65537, 0x1000, 0x2001, 2 ^ 46].all (fun x => (at1 x).runs 0 pw) = true ∧ (base.core 0).pair = none ∧
    (ready (at1 256) pw [.spwrBnd 0 1 (r 1)] = true ∧ 256 ≤ (256 : Word).toNat ∧ ready (at1 1) pw [] = true ∧ ready (at1 127) pw [.spwrBnd 0 2 (r 1)] = true) ∧
    (ready (at1 (k.bnd0.setWidth 64)) pw [.spwrBnd 0 0 (r 1)] = true ∧ 2 ≤ k.bnd0.toNat ∧ k.bnd0.toNat ≤ k.bnd1.toNat ∧ k.bnd1.toNat + 8 ≤ k.bnd2.toNat ∧
      k.bnd2.toNat ≤ 126 ∧ k.bndWrite = none) ∧
    (ready low pw [.spwrBnd 0 0 (r 1)] = true ∧ low.parkFits 0 2 = true ∧ (low.cluster 0).bndWrite = none ∧ framed.runs 0 pw = true ∧ framed.parkFits 0 2 = false) ∧
    (((w none).modThread 0 (fun t => { withG [(1, k.bnd0.setWidth 64)] t with wait := none, pend := none })).runs 0 pw = true ∧ ((w none).cluster 0).bndWrite ≠ none) ∧
    ((w none).cluster 0).bndWrite = some (1, 0x20, 0) ∧ (w none).enginesBusy 0 = false ∧ ((w none).thread 0).wait = some (.bnd 0) ∧
    ((w none).thread 0).pend = some ⟨0, .nothing, none, 0, [], 0, false, none⟩ ∧ (w (some (gcmpWalk none none))).enginesBusy 0 = true := by
  and_intros <;> decide +kernel

/-- A trap with a window to enter, and the three reasons to freeze, of a roaming thread too that awaits an answer; RETT to a target that is aligned and to one that is not. -/
theorem witness_TrapEntryAndReturn :
    let n : Need := { ext := .sys, outside := true }
    let d := one (fun t => { t with anc := false, await := [⟨3, .reg 2 8 false, true, 0, 0⟩] })
    let s := one (fun t => { t with tvec := 8, tframe := 0x200000 })
    s.runs 0 n = true ∧ s.paired s.me = false ∧ s.me.inh = false ∧ s.me.tvec ≠ 0 ∧ s.me.tvec.extractLsb' 0 3 = 0 ∧ s.me.tframe.toNat % 512 = 0 ∧
    (d.paired d.me = false ∧ d.me.tvec = 0 ∧ d.me.anc = false ∧ d.me.await ≠ []) ∧ base.me.anc = true ∧
    (one (fun t => { t with inh := true })).me.inh = true ∧ base.me.tvec = 0 ∧ (one (fun t => { t with tvec := 12 })).me.tvec.extractLsb' 0 3 ≠ 0 ∧
    (one (fun t => { t with tpc := 4 })).runs 0 n = true ∧ (one (fun t => { t with tpc := 8 })).runs 0 n = true := by
  and_intros <;> decide +kernel

/-- SYSC off 64; with the tokens 2^32 and 2^32 - 1; with 15 and 16 calls outstanding; a block that is no call's; a fenced port; SYSW with STATUS full and
empty, with reads outstanding and after them; HALT of a thread that awaits nothing and of one that does. -/
theorem witness_SystemCallsAndHalt :
    let n : Need := { ext := .sys, srcs := [r 1, r 3], dests := [.g 2], outside := true }
    let one1 : Need := { ext := .sys, srcs := [r 1], dests := [.g 2], outside := true }
    let s := at2 tcm (2 ^ 32 - 1)
    let fen := s.modCluster 33 (fun c => { c with fen := true })
    let reads : List Await := [⟨3, .reg 5 8 false, true, 0, 0⟩]
    let late := one (fun t => withG [(1, tcm)] { t with await := reads })
    let acq := one (fun t => withG [(1, tcm)] { t with wait := some (.acquire 5) })
    let roams := one (fun t => { t with anc := false, await := reads })
    let full := one (fun t => withG [(1, tcm), (3, 0)] { t with calls := List.replicate 16 0 })
    let c : Call := ⟨3, ⟨0, 7, 0, 0, 0, 0, true, false, 0⟩, tcm, tcm.toNat, 0⟩
    let e := { at1 tcm with empties := [wordOf (tcm.toNat + 56)] }
    (ready (at2 32 0) n [.sysc 0 (.g 2) (r 1) (r 3)] = true ∧ (at2 tcm (2 ^ 32)).runs 0 n = true) ∧
    (s.runs 0 n = true ∧ s.reach tcm 64 .store = some (s, tcm.toNat, none) ∧ s.me.calls.length < 16 ∧ s.me.domReleased = true ∧
      (s.cluster (dieOf s.me.core * 64 + 33)).fen = false ∧ s.clusters = []) ∧
    (fen.runs 0 n = true ∧ fen.reach tcm 64 .store = some (fen, tcm.toNat, none) ∧ fen.me.calls.length < 16 ∧ fen.me.domReleased = true ∧
      (fen.cluster (dieOf fen.me.core * 64 + 33)).fen = true ∧ fen.clusters.all (fun p => decide (p.2.tagWait = [])) = true) ∧
    (full.runs 0 n = true ∧ full.reach tcm 64 .store = some (full, tcm.toNat, none) ∧ 16 ≤ full.me.calls.length) ∧
    (({ base with calls := [c] } : State).isLive (dieOf c.who.core * 64 + 33) c.who.domid c.who.cin = true ∧ base.peekW c.pa >>> 60 ≠ 13) ∧
    (ready (at1 32) one1 [.sysw 0 (.g 2) (r 1)] = true ∧ (at1 tcm).runs 0 one1 = true ∧
      (at1 tcm).reach (tcm + 56) 8 .load = some (at1 tcm, tcm.toNat + 56, none) ∧ homeLocal 0 (homeOf (tcm.toNat + 56)) = true ∧
      (at1 tcm).me.readsDone = true ∧ (at1 tcm).tagFull (tcm.toNat + 56) = true ∧ (at1 tcm).poisoned (tcm.toNat + 56) 8 = false) ∧
    (late.runs 0 one1 = true ∧ late.reach (tcm + 56) 8 .load = some (late, tcm.toNat + 56, none) ∧ late.me.readsDone = false ∧ late.tagFull (tcm.toNat + 56) = true ∧
      late.poisoned (tcm.toNat + 56) 8 = false ∧ late.me.wait = none ∧ e.me.wait = none) ∧
    (acq.runs 0 one1 = true ∧ acq.me.wait = some (.acquire 5)) ∧
    (roams.runs 0 { ext := .sys, priv := true, outside := true } = true ∧ roams.me.anc = false ∧ roams.me.await ≠ [] ∧ base.me.anc = true) ∧
    (e.runs 0 one1 = true ∧ e.reach (tcm + 56) 8 .load = some (e, tcm.toNat + 56, none) ∧ e.me.readsDone = true ∧ e.tagFull (tcm.toNat + 56) = false ∧
      (e.cluster 0).tagWait = []) ∧
    base.runs 0 { ext := .sys, priv := true, outside := true } = true := by
  and_intros <;> decide +kernel

/-- A launch with replay, whose SAVE is 128. -/
def lau (st : LaunchState) : Launch :=
  ⟨0, 0, 0, [0, 0, 0, 0, 0, 0, 0, 0, 0x0004000000000000, 1, 0, 0, 0, 128, 1, 0], [], 0, 0, true, true, 0, st, [], 0, 0, 0, 0, 0, 0, none, [], 0, [0], [], [], [], [], false, false, true, 0⟩
def withLau (x : Launch) (s : State) : State := { s with launches := [(4, x)] }

/-- LAUNCH off 128, at an address that fails, and at one that does not; LSYNC with an unanswered launch and without; QCTL with a selector above its range, for an absent
package and for package 0; ranks 35 and 36; REPL off 128, of no launch, and of one that runs, replays, was built, commits or is over. -/
theorem witness_LaunchInstructions :
    let one1 : Need := { ext := .sys, srcs := [r 1], dests := [.g 2], outside := true }
    let priv : Need := { ext := .sys, priv := true, srcs := [r 1], dests := [.g 2], outside := true }
    let two : Need := { ext := .sys, priv := true, srcs := [r 1, r 3], dests := [.g 2], outside := true }
    let bad : Word := 0xFFFFFFFFFFFFFF80
    (ready (at1 64) one1 [.launch 0 (.g 2) (r 1)] = true ∧ (at1 bad).runs 0 one1 = true ∧ (match ((at1 bad).resolve (at1 bad).me.ctx bad .load).2 with
        | .fail _ => true
        | _ => false) = true) ∧
    ((at1 tcm).runs 0 one1 = true ∧ (at1 tcm).resolve (at1 tcm).me.ctx tcm .load = (at1 tcm, .at tcm.toNat none) ∧ (at1 tcm).me.domReleased = true) ∧
    (base.runs 0 { ext := .sys, outside := true } = true ∧ (∀ x ∈ base.me.asks, x.2 = false) ∧
      ∃ x ∈ (one (fun t => { t with asks := [(0, true)] })).me.asks, x.2 = true) ∧
    ((at1 0x4000).runs 0 one1 = true ∧ (at1 0x3F00).runs 0 one1 = true ∧ base.pkgPresent 63 = false ∧ base.pkgPresent 0 = true ∧
      ready (at2 0x3F 7) two [.qctlWr 0 (.g 2) (r 1) (r 3)] = true ∧ (at1 0x3F).runs 0 one1 = true ∧ (at1 0x3F).runs 0 priv = true) ∧
    (ready (at1 36) one1 [.thrm 0 (.g 2) (r 1)] = true ∧ (at1 36).runs 0 { ext := .sys, priv := true, srcs := [r 1, r 3], outside := true } = true ∧
      (at1 35).runs 0 { ext := .sys, priv := true, srcs := [r 1, r 3], outside := true } = true) ∧
    (ready (at1 64) priv [.repl 0 (.g 2) (r 1)] = true ∧ (at1 128).runs 0 priv = true ∧ (at1 128).replFind (at1 128).me 128 = none ∧
      ∀ st ∈ [LaunchState.running, .replaying, .built, .committing, .over], (withLau (lau st) (at1 128)).runs 0 priv = true ∧
        (withLau (lau st) (at1 128)).replFind base.me 128 = some (4, lau st)) := by
  and_intros <;> decide +kernel

/-! ### Cofferdams, translations, pairs, gang switches, the launch unit -/

/-- A cluster's state changed. -/
def clus (cl : Nat) (f : Cluster → Cluster) (s : State) : State := s.modCluster cl f
/-- The rectangle of the cores of cluster 0. -/
def whole0 : Word := rectMk 0 0 3 3

/-- A cofferdam, and none; fenced, armed and free; rectangles that name no cofferdam; WIPE off 128, of a length off 128 and too long, of 0 and 1 lines. -/
theorem witness_CofferdamAndWipeInstructions :
    let n : Need := { ext := .sys, priv := true, srcs := [r 1], dests := [.g 2], outside := true }
    let n2 : Need := { ext := .sys, priv := true, srcs := [r 1, r 3], dests := [.g 2], outside := true }
    let c := fun (f : Cluster → Cluster) => clus 0 (fun c => f { c with cdam := some whole0 }) (at1 whole0)
    let w := at2 tcm 128
    (ready base n [.coff 0 (.g 2) (r 1), .coffDef 0 (.g 2) (r 1), .coffLift 0 (.g 2) (r 1)] = true ∧ (at1 (rectMk 0 0 2 3)).cofferdam (rectMk 0 0 2 3) = [] ∧
      rectOk (rectMk 0 0 2 3) = true ∧ rectOk whole0 = true ∧ rectOk (rectMk 4 0 3 3) = false ∧ (at1 (rectMk 4 0 3 3)).runs 0 n = true ∧ (at1 (rectMk 0 0 2 3)).runs 0 n = true) ∧
    ((c (fun c => { c with fen := true })).cofferdam whole0 = [0] ∧ ((c (fun c => { c with fen := true })).cluster 0).fen = true ∧
      ((c (fun c => { c with armed := some 4 })).cluster 0).armed ≠ none ∧ (c (fun c => { c with armed := some 4 })).cofferdam whole0 = [0]) ∧
    ((c id).runs 0 n = true ∧ (c id).cofferdam whole0 = [0] ∧ ((c id).cluster 0).fen = false ∧ ((c id).cluster 0).armed = none) ∧
    (rectSys (2 ^ 63) = true ∧ rectBad (rectMk 4 0 3 3) = true ∧ rectWhole (rectMk 0 0 2 3) = false ∧ rectWhole whole0 = true ∧ rectBad whole0 = false ∧
      rectSys whole0 = false ∧ (at1 whole0).endpointsIn whole0 = [0]) ∧
    (ready (at2 (tcm + 64) 0) n2 [.wipe 0 (.g 2) (r 1) (r 3)] = true ∧ (at2 tcm 64).runs 0 n2 = true ∧ (at2 tcm (2 ^ 40 + 128)).runs 0 n2 = true ∧
      (at2 tcm 0).runs 0 n2 = true) ∧
    (w.runs 0 n2 = true ∧ w.resolve w.me.ctx tcm .store true = (w, .at tcm.toNat none) ∧ tcm.toNat < hostBase ∧ w.fencedFrom 0 tcm.toNat = false ∧ w.clusters = [] ∧
      decide ((w.wipe w.me.ctx tcm.toNat 1 0).2 = (1, none, none)) && decide ((w.wipe w.me.ctx tcm.toNat 1 0).1.cur = 0) = true) := by
  and_intros <;> decide +kernel

/-- A rectangle that is none, and that of cluster 0; an XLINV that waits for one cluster. -/
theorem witness_TranslationInvalidation :
    let n : Need := { ext := .sys, priv := true, srcs := [r 1, r 3], dests := [.g 2], outside := true }
    let x : XlInv := ⟨3, none, [0], false, who4⟩
    ready (at2 0 (rectMk 1 0 0 0)) n [.plbinv 0 (.g 2) (some (r 1)) (r 3)] = true ∧ rectOk (rectMk 1 0 0 0) = false ∧
    (at2 0 whole0).runs 0 n = true ∧ (at1 whole0).runs 0 { ext := .sys, priv := true, srcs := [r 1], dests := [.g 2], outside := true } = true ∧
    rectOk whole0 = true ∧ (at2 0 whole0).clusters = [] ∧ (at2 0 whole0).translators whole0 ≠ [] ∧ x.left = [0] ∧ ({ base with xlinvs := [x] } : State).msgs = [] ∧ ({ base with xlinvs := [x] } : State).gatedEarly 3 0 = false := by
  and_intros <;> decide +kernel

/-- Cores 2 and 3 are coupled, and the running thread, in slot 0 of core 2, waits for an exchange. -/
def coupled (f : Thread → Thread) : State :=
  ((one (fun t => f { t with place := .slot 2 0, wait := some .exchange })).modCore 2 (fun c => { c with
    pair := some (3, true), disagreements := [0], ckpts := [(0, runner)] })).modCore 3 (fun c => { c with pair := some (2, false) })

/-- PAIR of a core that is no pair's and of cores 2 and 4, fenced, busy and free; FPCK in a pair and not; exchanges that agree, with a gated store and without, and that do not. -/
theorem witness_PairsAndFingerprints :
    let n : Need := { ext := .sys, priv := true, srcs := [r 1], dests := [.g 2], outside := true }
    let f : Need := { ext := .sys, priv := true, dests := [.g 2], outside := true }
    let p := one (fun t => withG [(1, 2)] { t with place := .slot 2 0 })
    let q := coupled (fun t => withG [(1, 2)] { t with wait := none })
    ready (at1 3) n [.pair 0 (.g 2) (r 1), .pairOff 0 (.g 2) (r 1)] = true ∧ (at1 3).pairOk 3 = false ∧
    (p.runs 0 n = true ∧ p.pairOk 2 = true ∧ (p.cluster (clusterOf 2)).fen = false ∧ p.pairBusy 2 = false ∧ (p.core 2).pair = none ∧
      ((clus 0 (fun c => { c with fen := true }) p).cluster (clusterOf 2)).fen = true ∧ (clus 0 (fun c => { c with fen := true }) (at1 2)).runs 0 n = true) ∧
    (q.runs 0 n = true ∧ q.pairBusy 2 = true ∧ (q.core 2).pair = some (3, true) ∧
      ∀ k, k < 7 → q.occupant 2 k = (if k = 0 then some 0 else none)) ∧ q.unagreed (q.thread 0) = false ∧
    (ready base f [.fpck 0 (.g 2)] = true ∧ base.paired base.me = false ∧ q.runs 0 f = true ∧ q.paired q.me = true) ∧
    ((coupled id).occupant 2 0 = some 0 ∧ (coupled id).paired ((coupled id).thread 0) = true ∧ ((coupled id).core 2).pair = some (3, true) ∧
      (∀ g ∈ [({ pa := tcm.toNat + 0x80000, n := 8, v := 5, shadow := false } : Gated), { pa := poolOf 0 + 0x8000, n := 1, v := 5, shadow := false }], let s := coupled (fun t => { t with gated := [g] })
        s.occupant 2 0 = some 0 ∧ s.paired (s.thread 0) = true ∧ (s.core 2).pair = some (3, true) ∧ (s.thread 0).place = .slot 2 0 ∧ (s.thread 0).wait = some .exchange ∧
        (s.thread 0).gated = [g] ∧ g.frame = false ∧ homeLocal 2 (homeOf g.pa) = true) ∧
      ((coupled id).thread 0).place = .slot 2 0 ∧ ((coupled id).thread 0).wait = some .exchange ∧ ((coupled id).thread 0).gated = [] ∧
      (((coupled id).core 2).disagreements.filter (fun x => decide ((coupled id).timeNs < x + 3600000000000))).length < 2 ∧
      KMap.find ((coupled id).core 2).ckpts 0 = some runner) := by
  decide +kernel

/-- A gang switch of cluster 0, whose save area starts at home address 0x1000000. -/
def gang0 (insa : Option Nat) (stopped : List Nat) : Gang :=
  ⟨4, whole0, 0, 0x1001000000, insa, 0x10002000F0, ⟨9, 7, 0, 0, 0, 0, true, false, 0⟩, 0x1000000, [0], stopped, [], 0, 0, none, false, [], [(0, 0, 0)], [], [], [], []⟩
def withGang (x : Gang) (s : State) : State := { s with gangs := [x] }
/-- No thread is in a slot of cluster 0. -/
def away : State := paged (one (fun t => { t with place := .runq 9 none false }))

/-- GANG of a block off 64, of none, and of one whose cluster is fenced, armed or free, with an area that no store may reach,
and with an INSA that holds no partition or one; the stop of a cluster without threads and with one; a flit of a saved context;
the restore of a cluster without cores; the start. -/
theorem witness_GangSwitch :
    let n : Need := { ext := .sys, priv := true, srcs := [r 1], dests := [.g 2], outside := true }
    let b := withMem (wordsAt tcm.toNat [0xB000000000000000, whole0, 5000, 0x1001000000, 0, 0x10002000F0]) (paged (at1 tcm))
    let reads := fun (s : State) (p : Nat → Bool) => okAnd (s.readRange s.me.ctx tcm.toNat 64) (fun s1 v => decide (s1 = s) && p v)
    let stop := withGang (gang0 none []) (clus 0 (fun c => { c with armed := some 4 }) away)
    let m := flit 0x02 0 (.read who4 tcm.toNat 8 true)
    let out := withGang (gang0 (some 0x1001000000) [0]) (clus 0 (fun c => { c with saved := [(0, 0)] }) (withFlit m away))
    let full := withGang (gang0 none []) (clus 0 (fun c => { c with armed := some 4 }) (paged base))
    let h := withMem (wordsAt tcm.toNat [0xB000000000000001, whole0, 5000, 0x1001000000, tcm + 0x10000, 0x10002000F0]) (paged (at1 tcm))
    let h1 := withMem [(tcm.toNat + 0x10000, 0xC000000000000001), (tcm.toNat + 0x10008, whole0)] h
    let none_ := withMem (wordsAt tcm.toNat [0xB000000000000000, whole0, 5000, 0x3001000000, 0, 0x10002000F0]) (paged (at1 tcm))
    let start := withGang (gang0 none [0]) away
    (ready (at1 32) n [.gang 0 (.g 2) (r 1)] = true ∧ (at1 tcm).runs 0 n = true ∧ (at1 tcm).me.stored = true ∧ (at1 tcm).me.gated = [] ∧
      reads (at1 tcm) (fun v => !gangBlockOk (wordAt v)) = true) ∧
    (b.runs 0 n = true ∧ b.me.stored = true ∧ b.me.gated = [] ∧ reads b (fun v => gangBlockOk (wordAt v) && !bit (wordAt v 0) 0) = true ∧
      b.areaFault b.me.engine (gangGranules 0x1001000000 whole0) = none ∧ b.clustersIn whole0 = [0] ∧ (b.cluster 0).fen = false ∧ (b.cluster 0).armed = none ∧
      ∃ s2, b.resolve b.me.engine 0x1001000000 .store = (s2, .at 0x1000000 (some 0x8003C20000000000)) ∧ b.Cached s2) ∧
    (reads none_ (fun v => gangBlockOk (wordAt v) && !bit (wordAt v 0) 0) = true ∧ none_.runs 0 n = true ∧ (none_.areaFault none_.me.engine (gangGranules 0x3001000000 whole0)).isSome = true) ∧
    (reads h (fun v => gangBlockOk (wordAt v) && bit (wordAt v 0) 0) = true ∧ h.runs 0 n = true ∧ h.me.gated = [] ∧ h.me.stored = true ∧ h1.runs 0 n = true ∧
      reads h1 (fun v => gangBlockOk (wordAt v) && bit (wordAt v 0) 0) = true ∧
      okAnd (h.readRange h.me.ctx (tcm.toNat + 0x10000) 16) (fun u v => decide (u.threads = h.threads) && decide (v = 0)) = true ∧
      okAnd (h1.readRange h1.me.ctx (tcm.toNat + 0x10000) 16) (fun u v => decide (wordAt v 0 = 0xC000000000000001) && decide (wordAt v 1 = whole0) &&
        decide (u.areaFault h1.me.engine (gangGranules 0x1001000000 whole0) = none)) = true ∧ h1.clustersIn whole0 = [0] ∧ (h1.cluster 0).fen = false ∧
      (h1.cluster 0).armed = none) ∧
    ((full.cluster 0).armed = some 4 ∧ 0 ≤ (full.timeAt 0).toNat ∧ full.slotThreads [0] = [0] ∧ full.savable 0 0 = true ∧
      exAnd (full.imagePages (gang0 none []).ctx .store (full.gangImages 0x1001000000 whole0 0)) (fun _ => true) = true) ∧
    ((stop.cluster 0).armed = some 4 ∧ 0 ≤ (stop.timeAt 0).toNat ∧ stop.slotThreads [0] = [] ∧
      exAnd (stop.imagePages (gang0 none []).ctx .store (stop.gangImages 0x1001000000 whole0 0)) (fun _ => true) = true) ∧
    (KMap.find out.msgs 0 = some m ∧ (out.cluster (clusterOf m.ldest)).fen = false ∧ out.fallsOut m = true ∧ out.refusesFlit 0 m = false) ∧
    isCompute 33 = false ∧ ({ gang0 (some 0x1001000000) [0, 33] with clusters := [0, 33] } : Gang).restored = [] ∧
    exAnd ((((start.perform 0x1000008 8 whole0.toNat true).perform 0x1000010 8 0 true).perform 0x1000000 8 0xC000000000000001 true).gangWrite (gang0 none [0])
      (gang0 none [0]).status (gang0 none [0]).statusWord) (fun u => decide (u.gangs = [gang0 none [0]])) = true := by
  refine ⟨?_, ⟨?_, ?_, ?_, ?_, ?_, ?_, ?_, ?_, resolves (by decide +kernel)⟩, ?_⟩
  all_goals and_intros <;> decide +kernel

/-! ### Launch events, kills, arrivals -/

/-- A request for the packet at the start of the TCM, of a thread of core 0 in package 0's launch unit. -/
def own4 : Asker := ⟨9, 7, 0, 0, 0, 0, true, false, 0⟩
def req4 : LaunchReq := ⟨3, tcm, some own4, 0, 0, 0, none, none⟩
/-- A packet for 2 threads on core 0, in queue 5, of package 0 or of packages 0 and 1. -/
def packet (multi : Bool) (w0 w10 : Word) : List Word := [w0, 0, 0, 0, 0, 0, 0, 0, 0, if multi then 3 else 1, w10, 0, 0, 0, 2, 0]
/-- Queue 5 of package 0 is on and has launches ready and held. -/
def withQueue (ready held : List Nat) (s : State) : State :=
  s.modLQueue 0 5 (fun q => { q with qcfg := 0x8000000000000000, ready := ready, held := held })
def requests (w0 : Word) (ready : List Nat) (s : State) : State :=
  withQueue ready [] (withMem (wordsAt tcm.toNat (packet false w0 0x500000000)) s)
/-- A launch of those threads. -/
def lau5 (multi : Bool) (st : LaunchState) : Launch :=
  { lau st with words := packet multi tcm 0x500000000, stages := [0], placed := if multi then [0, 1] else [0], met := true }

/-- A request of a context that is no longer live, of a packet that is refused, that is accepted, and whose queue is full, with room to set it aside and with
none; one set aside; QCTL requests. -/
theorem witness_LaunchUnitAndLaunchLife :
    let up := clusterOf (posAt (die0 0) 33 0)
    let s := fun (w0 : Word) (ready : List Nat) => (requests w0 ready base).modPkg 0 (fun p => { p with reqs := [req4] })
    let aside := fun (w0 : Word) => (requests w0 [] base).modPkg 0 (fun p => { p with resv := [req4] })
    let came := fun (x : Accepted) (p : State → Nat → Bool) => match x with
      | .over s1 _ code => p s1 code
      | .full _ | .stall _ => false
    let full := fun (x : Accepted) => match x with
      | .full g => decide (g = 5)
      | .over _ _ _ | .stall _ => false
    let crowd := fun (r : LaunchReq) => (requests tcm (List.replicate 64 9) base).modPkg 0 (fun p => { p with reqs := [r], resv := List.replicate 64 r })
    let again : LaunchReq := { req4 with bounces := 1, till := some 0 }
    let old : Asker := { own4 with cin := 9 }
    let q := fun (form : Nat) (k : Word) => (withQueue [] [] base).modPkg 0 (fun p => { p with qctl := [⟨own4, form, 5 + 64 * k, 7⟩] })
    (base.isLive up old.domid old.cin = false ∧ base.isLive up own4.domid own4.cin = true ∧ (base.cluster up).fen = false ∧ ((s tcm []).pkg 0).resv = [] ∧ req4.till = none) ∧
    came ((s (tcm + 1) []).takeRequest 0 req4) (fun s1 code => decide ((s1.pkg 0).reqs = [req4]) && decide (code = 1)) = true ∧
    came ((s tcm []).takeRequest 0 req4) (fun s1 code => decide ((s1.pkg 0).reqs = [req4]) && decide (code = 0)) = true ∧
    full ((s tcm (List.replicate 64 9)).takeRequest 0 req4) = true ∧
    (full ((crowd again).takeRequest 0 again) = true ∧ ((crowd again).pkg 0).reqs = [again] ∧ 64 ≤ ((crowd again).pkg 0).resv.length ∧ 0 ≤ (crowd again).cycle) ∧
    okAnd ((s (tcm + 1) []).readRange (unitCtx (posAt (die0 0) 33 0) 0 0 0 true) tcm.toNat 128) (fun _ v => !bit (wordAt v 8) 52 && decide ((wordAt v 0).toNat % 8 ≠ 0)) = true ∧
    (((aside tcm).pkg 0).resv = [req4] ∧ came ((aside tcm).takeRequest 0 req4) (fun s1 code => decide ((s1.pkg 0).resv = [req4]) && decide (code = 0)) = true) ∧
    [(0, 0), (1, 0), (1, 1), (1, 2), (2, 0)].all (fun x => decide (((q x.1 x.2).pkg 0).qctl = [⟨own4, x.1, 5 + 64 * x.2, 7⟩])) = true := by
  and_intros <;> decide +kernel

/-- The head of a queue, of one and of two packages, and one for which no core qualifies; a copy that comes again, to a list with room and to a full one; a launch held aside; the states of a launch that its events meet. -/
theorem witness_LaunchUnitAndLaunchLife_events :
    let s := fun (x : Launch) => withLau x (withQueue [4] [] base)
    let two := lau5 true .built
    let none5 := { lau5 true .accepted with stages := [rectMk 511 511 511 511] }
    let again := { lau5 true .accepted with resend := [(0, 1, 0)] }
    let copy := fun (h : List Nat) => withLau again (withQueue [] h base)
    let w := { two with words := (packet true tcm 0x500000000).set 8 0x0004000000000000 }
    let rep := { lau5 false .replaying with words := ((packet false tcm 0x500000000).set 8 0x0004000000000000).set 13 tcm }
    let t := fun (x : Launch) => { s x with threads := [] }
    (((s (lau5 false .accepted)).nextQueue 0 = some 5 ∧ (s (lau5 false .accepted)).eligible 0 5 = some (4, lau5 false .accepted) ∧ (lau5 false .accepted).multi = false) ∧
      ((s none5).nextQueue 0 = some 5 ∧ (s none5).eligible 0 5 = some (4, none5) ∧ none5.multi = true ∧ (s none5).threadPlan none5 = [] ∧
        (s (lau5 true .accepted)).threadPlan (lau5 true .accepted) ≠ []) ∧
      (∀ h ∈ [[], List.replicate 8 9], (copy h).copyDue 0 5 = some 4 ∧ (copy h).launch 4 = some again ∧ pkQueue again.words = 5 ∧
        (copy h).queueRefuses 0 again.words again.domid true (again.host && decide (0 = again.pkg)) = none ∧ ((copy h).lqueue 0 5).held = h) ∧
      (withLau two (withQueue [] [4] base)).copyDue 0 5 = none ∧ two.cancelled = false ∧
      ((s (lau5 true .accepted)).nextQueue 0 = some 5 ∧ (s (lau5 true .accepted)).eligible 0 5 = some (4, lau5 true .accepted) ∧ (lau5 true .accepted).multi = true) ∧
      (((withLau two (withQueue [] [4] base)).lqueue 0 5).held = [4] ∧ pkGen two.words = ((withQueue [] [4] base).lqueue 0 5).qcfg.extractLsb' 0 32)) ∧
    ((s two).launch 4 = some two ∧ two.state = .built ∧ two.cancelled = false ∧ two.ts = none ∧ { two with builtOn := [0, 1], arrived := [1] }.arrived = [1]) ∧
    (({ two with ts := some 0 }.told = [] ∧ ((s two).timeAt (die0 0)).toNat = 0) ∧ 0 < ({ s two with timeNs := 1 }.timeAt (die0 0)).toNat) ∧
    ({ two with ts := some 0, told := [0, 1] }.released = [] ∧ { two with cancelled := true }.ts = none) ∧
    ((s (lau5 false .committing)).launchBusy 4 (lau5 false .committing) = false ∧ pkComplete (lau5 false .committing).words = false) ∧
    ((s { lau5 false .running with released := [0] }).launchBusy 4 { lau5 false .running with released := [0] } = false ∧ (lau5 false .running).alive = 0) ∧
    (pkReplay { w with struck := true }.words = true ∧ w.replays = 0 ∧ pkReplay { two with struck := true }.words = false) ∧
    ((t rep).launchBusy 4 rep = false ∧ (t rep).shadows = [] ∧ rep.words.getD 3 0 = 0 ∧
      okAnd ((t rep).readRange rep.ctx tcm.toNat 4225) (fun s1 _ => decide (s1.launch 4 = some rep)) = true) := by
  and_intros <;> decide +kernel

/-- No context and context 4096; no rectangle; a fenced and a free cluster; an incarnation that is exhausted; waves with one and two clusters left; an error. -/
theorem witness_KillReclaimAndContainment :
    let n : Need := { ext := .sys, priv := true, srcs := [r 1, r 3], dests := [.g 2], outside := true }
    let bad : Word := rectMk 1 0 0 0
    let s := at2 4095 whole0
    let fenced := clus 0 (fun c => { c with fen := true }) s
    let out := { s with nextCin := [(4095, 7)], floorCin := [(4095, 8)] }
    let w := fun (l : List Nat) => ({ away with threads := [(0, { away.thread 0 with place := .runq 0 none false, domid := 5, cin := 1 })], kills := [⟨3, 5, 2, l, who4⟩] } : State)
    let f := fun (k : Nat) => ({ base with fences := [⟨3, 5, whole0, k, [], false, who4⟩] } : State)
    ((at2 0 whole0).runs 0 n = true ∧ (at2 4096 whole0).runs 0 n = true ∧ (at2 4095 bad).runs 0 n = true ∧ rectOk bad = false) ∧
    (ready s n [.kill 0 (.g 2) (r 1) (r 3), .killZ 0 (.g 2) (r 1) (r 3), .rclf 0 (.g 2) (r 1) (r 3)] = true ∧ rectOk (s.me.reg (r 3).reg) = true ∧ s.me.reg (r 1).reg ≠ 0) ∧
    (fenced.runs 0 n = true ∧ fenced.endpointsIn whole0 = [0] ∧ (fenced.cluster 0).fen = true ∧ (s.cluster 0).fen = false ∧ s.endpointsIn whole0 = [0]) ∧
    (out.runs 0 n = true ∧ out.next 4095 + 1 = out.floor 4095 ∧ s.next 4095 + 1 ≠ s.floor 4095) ∧
    ((w [0, 64]).kills.map (·.left) = [[0, 64]] ∧ (w [0]).kills.map (·.left) = [[0]] ∧ ((w [0]).thread 0).heldAt = some 0 ∧ ((w [0]).thread 0).domid = 5 ∧
      ((w [0]).thread 0).cin ≠ 2 ∧ ((w [0]).thread 0).members = [] ∧ who4.tid ≠ 0) ∧
    ((f 0).fences.map (·.waves) = [0] ∧ (∀ cl, 5 ∉ ((f 1).cluster cl).seen) ∧ (f 1).msgs = [] ∧
      (withFlit { flit 0x02 0 (.read who4 tcm.toNat 8 true) with domid := 5, cin := 1 } (f 1)).busyFor 5 whole0 = true) ∧
    (base.diePresent (0 / 64) = true ∧ (base.cluster 0).fen = false ∧ (base.cluster 35).fen = false) := by
  refine ⟨?_, ?_, ?_, ?_, ?_, ⟨?_, fun _ => List.not_mem_nil, ?_⟩, ?_⟩
  all_goals and_intros <;> decide +kernel

/-! ### Arrivals, the barrel, heat, the fabric -/

/-- A thread whose image arrives at core 0; one with a resting state to read; a slot that has loaded; one to fill; the barrel; waits for a page; a wait at
and past WAITLIM; the ranking table; a core hotter than its threshold, with the chosen slot free and taken; a slot to give back; a marked slot. -/
theorem witness_ArrivalIssueWakeAndThermalEvents :
    let m : Msg := { flit 0x01 0 (.image 0 false none) with cin := 0 }
    let fly := withFlit m (one (fun t => { t with place := .flight 0 }))
    let rest := one (fun t => { t with resting := true })
    let loaded := rest.modCore 0 (fun c => { c with loading := [(0, 0)] })
    let run := one (fun t => { roam [] t with place := .runq 0 none false })
    let barrel := base.modCore 0 (fun c => { c with loading := [(7, 9)] })
    let stuck := (withCmds 8 [cmd (.refused 1)] base).modQueue 0 8 (fun x => { x with stall := some 0 })
    let page := fun (p : Place) => one (fun t => { t with place := p, wait := some .page })
    let wait := fun (k : Nat) => { one (fun t => { t with wait := some .sysc, counted := true, wlim := 5, since := some 0 }) with cycle := k }
    let hot := (one (roam [])).modCore 0 (fun c => { c with temp := 96, disabled := [6, 5, 4, 3, 2] })
    let full := (one (fun t => { t with place := .slot 0 6 })).modCore 0 (fun c => { c with temp := 96 })
    let c := State.modCore { base with timeNs := 100000 } 0 (fun c => { c with coolAt := some 0, disabled := [6] })
    let mark := (one (roam [])).modCore 0 (fun c => { c with marked := some 0 })
    (fly.arrived 0 = some m ∧ fly.isLive 0 0 0 = true ∧ fly.freeSlot 0 false = some 6 ∧ fly.bestEntry 0 6 = none ∧ (fly.thread 0).wait ≠ some .anch ∧
      (withFlit { m with cin := 5 } fly).isLive 0 0 5 = false ∧ (fly.thread 0).members = []) ∧
    ((rest.thread 0).inSlot = true ∧ (rest.thread 0).resting = true ∧ rest.paired (rest.thread 0) = false ∧ ((rest.thread 0).slot, 0) ∉ (rest.core 0).loading ∧
      ((loaded.thread 0).slot, 0) ∈ (loaded.core 0).loading ∧ 0 ≤ loaded.cycle) ∧
    (run.slotOpen 0 0 = true ∧ (run.core 0).marginal = false ∧ (run.core 0).oddOfPair = false ∧ run.stopped (clusterOf 0) = false ∧
      run.bestEntry 0 0 = some (0, run.thread 0)) ∧
    (barrel.issue = none ∧ barrel.corePresent 0 = true ∧ barrel.maySelect 0 = true ∧ barrel.readySlots 0 = [(0, (barrel.thread 0).prio.toNat)] ∧
      barrel.readySlot 0 0 = some 0) ∧
    ((page (.parked 0)).pageWaiter 0 0 0 0 = some 0 ∧ (page (.slot 0 0)).pageWaiter 0 0 0 0 = some 0 ∧ ((page (.slot 0 0)).thread 0).inSlot = true ∧
      base.pageWaiter 0 0 0 0 = none ∧ base.launchWaits 0 0 0 = false ∧ (base.unitWaits 0 8).contains (0, 0) = false ∧ (stuck.unitWaits 0 8).contains (0, 0) = true ∧
      (0x800003 : Word).extractLsb' 0 2 = 3 ∧ ((0x800003 : Word).extractLsb' 20 16).toNat = 8 ∧ (0x800003 : Word).extractLsb' 36 16 = 0) ∧
    (((wait 6).thread 0).pend = none ∧ ((wait 6).thread 0).counted = true ∧ ((wait 6).thread 0).inSlot = true ∧ (wait 6).behindStall ((wait 6).thread 0) = false ∧ ((wait 6).thread 0).wlim ≠ 0 ∧ ((wait 6).thread 0).wlim.toNat < (wait 6).now 0 - 0 ∧ (wait 5).now 0 - 0 ≤ ((wait 5).thread 0).wlim.toNat) ∧
    (base.diePresent 0 = true ∧ (base.die 0).ranked + 1000000 ≤ ({ base with timeNs := 1000000 } : State).timeNs) ∧
    (isPylon 0 = false ∧ (hot.die 0).hot < (hot.core 0).temp ∧ (hot.core 0).hotAt = none ∧ (hot.core 0).marked = none ∧ hot.stopping 0 = false ∧
      hot.stopped 0 = false ∧ hot.slotToDisable 0 = none ∧ full.slotToDisable 0 = some 6 ∧ full.occupant 0 6 ≠ none ∧
      State.slotToDisable (base.modCore 0 (fun c => { c with temp := 96 })) 0 = some 6 ∧ base.occupant 0 6 = none) ∧
    ((c.core 0).coolAt = some 0 ∧ (c.core 0).disabled = [6] ∧ 0 + 100000 ≤ c.timeNs) ∧
    ((mark.thread 0).inSlot = true ∧ (mark.thread 0).anc = false ∧ (mark.core 0).marked = some (mark.thread 0).slot ∧ (mark.readySlot 0 0).isSome = true ∧
      mark.coolCluster 0 = none ∧ (mark.thread 0).marks = [] ∧ mark.unagreed (mark.thread 0) = false ∧ (mark.thread 0).await = [] ∧ (mark.thread 0).asks = []) := by
  and_intros <;> decide +kernel

/-- A flit for core `dest` that stands at core 1, or in a network interface there. -/
def at1st (dest : Nat) (loc : Loc) : Msg := { flit 0x02 dest (.read who4 tcm.toNat 8 true) with loc := loc }
/-- A PUSH that a router holds until cycle 8, and a POP of the same object that comes to it. -/
def heldPush : Msg := { flit 0x07 0 (.chan who4 (.push 7) 0x200000 true) with loc := .held 1 8 }
def comingPop : Msg := { flit 0x08 0 (.chan { who4 with tok := 8 } .pop 0x200000 true) with loc := .port 1 1 0 }

/-- A flit at its destination, one of a reserved kind there and one that goes on; one for a link and one that has come over it; a router that has
run; an injection, and one beside a router that starves; a pair; a hold before and at its end; 127 and 128 cycles without
injection; a flit refused, fenced and returned, to a park region with room and to a full one; a delay over and not; packets in sequence; 511 and 512
cycles after; links. -/
theorem witness_FabricAndLinks :
    let s := fun (m : Msg) (k : Nat) => { withFlit m base with cycle := k }
    let p := { base with msgs := [(0, heldPush), (1, comingPop)], nextId := 2, cycle := 1 }
    let inj := at1st 0 (.inject 1 0)
    let fenced := clus 0 (fun c => { c with fen := true }) (withFlit (at1st 0 (.ejected 0)) base)
    let up := withFlit (flit 0x11 0 (.contrib 5 0 3 2 7 8)) (withTre (tre true [3] none [] []) base)
    let on := at1st 0 (.link 3 1 2 1 0 0 0 false)
    let kd := fun (k : BitVec 6) => { at1st 1 (.port 1 1 0) with kind := k }
    let pause := { s inj 1 with routers := [(0, { base.router 0 with starving := some 0 })] }
    ((s (at1st 1 (.port 1 1 0)) 1).alone 1 0 (at1st 1 (.port 1 1 0)) ∧ reservedKind (at1st 1 (.port 1 1 0)).kind = false ∧
      (s (at1st 1 (.port 1 1 0)) 1).physFrom (dieOf 1) (at1st 1 (.port 1 1 0)).goal = some 1 ∧
      (s (kd 0) 1).alone 1 0 (kd 0) ∧ (kd 0).kind = 0 ∧ (s (kd 0x18) 1).alone 1 0 (kd 0x18) ∧ 0x17 < (kd 0x18).kind.toNat ∧ (s (at1st 0 (.port 1 1 0)) 1).alone 1 0 (at1st 0 (.port 1 1 0)) ∧
      (s (at1st 0 (.port 1 1 0)) 1).choosePort 1 (at1st 0 (.port 1 1 0)) [0, 1, 2, 3] = some (3, 0) ∧ base.boundary 1 0 = false ∧ base.boundary 0 1 = false) ∧
    ((s (at1st 0 (.iface 3 1 2 1 0)) 1).alone 1 0 (at1st 0 (.iface 3 1 2 1 0)) ∧ seqFrom (base.link 3).rxSeq (base.link 3).txSeq < 64 ∧
      (s (at1st 0 (.recv 3 1 2 0)) 1).alone 1 0 (at1st 0 (.recv 3 1 2 0))) ∧
    base.cycle < (({ base with routers := [(1, { base.router 1 with ran := 1 })] } : State).router 1).ran ∧
    ((s inj 1).alone 1 0 inj ∧ (s inj 1).fencedApart (clusterOf inj.src) 0 = false ∧ (s inj 1).physFrom (dieOf 1) 0 = some 0 ∧ crossing 1 0 3 = false ∧
      (s inj 1).paused 1 = false ∧ pause.paused 1 = true ∧ pause.alone 1 0 inj ∧
      (pause.choosePort 1 { inj with injected := 1, out := none, born := 0 } [0, 1, 2, 3]) = some (3, 0) ∧
      (s inj 1).choosePort 1 { inj with injected := 1, out := none, born := 0 } [0, 1, 2, 3] = some (3, 0)) ∧
    p.matchFor 1 comingPop = some (0, 7) ∧ (8 ≤ (s heldPush 8).cycle ∧ (s heldPush 7).cycle < 8) ∧
    (0 + 128 ≤ (s inj 128).cycle ∧ (s inj 127).cycle < 0 + 128 ∧ ((s inj 128).router 1).starving = none) ∧
    (up.msgs = [(0, flit 0x11 0 (.contrib 5 0 3 2 7 8))] ∧ up.refusesFlit 0 (flit 0x11 0 (.contrib 5 0 3 2 7 8)) = true) ∧
    fenced.fencedApart 0 (clusterOf (at1st 0 (.ejected 0)).src) = true ∧
    (9 ≤ (s (at1st 0 (.parked 4 9)) 9).cycle ∧ (s (at1st 0 (.parked 4 9)) 8).cycle < 9) ∧
    (((s on 1).link 3).rxSeq = 0 ∧ 0 < (s on 1).cycle ∧ 0 + 512 ≤ (s on 512).cycle ∧ (s on 511).cycle < 0 + 512 ∧
      ((({ base with links := [(3, { nak := true })] } : State).link 3).nak = true) ∧ (base.link 3).failed = false ∧ (s on 1).sending 3 = none) := by
  and_intros <;> decide +kernel

/-- A flit that core 0 has sent for its waiting thread and that comes back, refused, while the park region has room, and while it
is full. -/
theorem witness_FabricAndLinks_back :
    let back : Msg := { flit 0x07 4 (.chan { who4 with tid := 0, core := 0 } (.push 7) far.toNat false) with loc := .ejected 0, src := 0, nack := true }
    let room := withFlit back base
    let s := fullPark (withFlit back (one (fun t => { t with wait := some .answer, pend := some ⟨7, .nothing, none, 0, [], 0, false, none⟩ })))
    room.parkFull (clusterOf back.src) = false ∧ KMap.find room.msgs 0 = some back ∧ KMap.find s.msgs 0 = some back ∧ back.fnc = false ∧ s.sendOverflow 0 = true ∧ back.src = 0 ∧ back.body.asker = some { who4 with tid := 0, core := 0 } ∧
      (s.thread 0).pend = some ⟨7, .nothing, none, 0, [], 0, false, none⟩ ∧ s.asks { who4 with tid := 0, core := 0 } = true := by
  and_intros <;> first | decide +kernel | exact fullPark_full _

/-! ### The host, the service pairs, resets -/

/-- Package 0 holds an entry with these words that a doorbell covers. -/
def entryOf (ws : List Word) (f : Package → Package) (s : State) : State :=
  withMem (wordsAt hostBase ws) (s.modPkg 0 (fun p => f { p with h2dTail := 1, h2dSeen := 1, d2hBase := 0x4000, d2hHead := 255 }))
/-- Aperture register 0 of package 0 opens the page of DRAM of `paged`. -/
def opened : State := (paged base).modPkg 0 (fun p => { p with aper := [(0, 0x8000000000000001)] })
/-- The `k` bytes of a number, the lowest first. -/
def bytesLE (n k : Nat) : List Byte := (List.range k).map (fun i => BitVec.ofNat 8 (n / 256 ^ i))
/-- The public key of RFC 8032, section 7.3, and what its secret key signs: the hash of "abc" (the example of that section), the capability
of `capWords`, and a request for life-cycle state 4 with nonce 1. -/
def pubKey : List Byte := bytesLE 0xbfe267346819f8eb644dfd2eef6754c3345024e1702c93f43b565ead932b17ec 32
def capSig : Nat := 0x76ff3b8b0025457b896305bc74c3eea92214d712342989041a869dbdae7a7edf04e6d0036901e8a0d68bbe967ac62e3f36d5307e8e71388a1d5c6cbda89b23b
def lcSig : Nat := 0xbfdeb253c5ef6a2ba3c898a29d9ebae7ec2c99aef5ee59ef697bd3d8258e0038668b395ebf47b3b973f52c5d9a4a009b351fab7c573a34fe7dad0574922b82c
/-- The words of a signature in host memory. -/
def sigAt (a n : Nat) : List (Nat × Word) := (List.range 8).map (fun i => (a + 8 * i, BitVec.ofNat 64 (n / 2 ^ (64 * i))))
theorem test_signature : signatureValid pubKey (bytesLE 0x9fa44ca54fc99a2a0ee83c6423444d45bdebfea3233cba36a8c14f272a9992219ad3554be6ee9e0aa27ea9894efae612314120ae497341ccba7a6193a135afdd 64)
      (bytesLE 0x4a7317317f1bed97ac18a139c17ca3d30e03164c6c7fbfdecb390acc91f350989b5266c18a2be69cb3ebfefa3091020009a8377f21b2ba5339636e759442adc 64) = true ∧
    signatureValid pubKey (bytesLE (0x9fa44ca54fc99a2a0ee83c6423444d45bdebfea3233cba36a8c14f272a9992219ad3554be6ee9e0aa27ea9894efae612314120ae497341ccba7a6193a135afdd + 1) 64)
      (bytesLE 0x4a7317317f1bed97ac18a139c17ca3d30e03164c6c7fbfdecb390acc91f350989b5266c18a2be69cb3ebfefa3091020009a8377f21b2ba5339636e759442adc 64) = false := by decide +kernel
/-- A capability for device 5 of context 3. -/
def capWords : List Word := [0xE000000000050003, 100, 8, 3, 0, 1]

/-- Package 0 and its entries of each type; a capability without a key, and with one; a life-cycle request that fails, and one that its signature decides;
a launch that is taken, and one whose queue is full. -/
theorem witness_MailboxAndHostAperture :
    let s := fun (w : Word) => entryOf [w, 0x1000] id base
    let cap := fun (f : Package → Package) => withMem (wordsAt (hostBase + 0x1000) capWords) (entryOf [0x0200000000000005, 0x1000] f base)
    let keyed := cap (fun p => { p with hostKeys := [(1, [7])] })
    let lau := withMem (wordsAt tcm.toNat (packet false tcm 0x500000000)) (withQueue [] [] (entryOf [0x0100000000000000, tcm] id base))
    let busy := withMem (wordsAt tcm.toNat (packet false tcm 0x500000000)) ((entryOf [0x0100000000000000, tcm] id base).modLQueue 0 5 (fun q =>
      { q with qcfg := 0x8800000000000000, ready := List.replicate 16 9 }))
    let req : AtomReq := ⟨who4, .add, hostBase, 8, 1, 0⟩
    let rsp := entryOf [0x0600000700000000, 5] (fun p => { p with agentReqs := [(7, req, 0)] }) base
    let lc := entryOf [0x0700000000000004, 4, 0, 1, 0, 0x2000] (fun p => { p with ownerKey := some [9], nonce := none }) base
    (base.pkgPresent 0 = true ∧ (base.pkg 0).lcs = 3) ∧
    [0x0100000000000000, 0x0200000000000005, 0x0300000000000005, 0x0400000000000000, 0x0400000000000001, 0x0600000000000000, 0x0700000000000003,
      0x0500000000000000, 0x0800000000000000].all (fun w => (s w).untaken 0 && decide ((s w).entryWord 0 0 = w) && decide ((s w).pkg 0).d2hHeldBack.isEmpty &&
        !((s w).pkg 0).d2hFull && decide (((s w).pkg 0).agentReqs.isEmpty)) = true ∧
    (match lau.bumpId.takeRequest 0 ⟨lau.nextId, lau.entryWord 0 1, none, 0, die0 0 * 64, 0, none, none⟩ with
      | .over _ q _ => decide (q = 5)
      | .full _ | .stall _ => false) = true ∧
    (match busy.bumpId.takeRequest 0 ⟨busy.nextId, busy.entryWord 0 1, none, 0, die0 0 * 64, 0, none, none⟩ with
      | .full goal => decide (goal = 5)
      | .over _ _ _ | .stall _ => false) = true ∧ (busy.pkg 0).resv.length < 64 ∧
    ((cap (fun p => { p with hostKeys := [] })).capStatus 0 0x1000 = 3 ∧ KMap.find (keyed.pkg 0).hostKeys 1 = some [7]) ∧
    (rsp.untaken 0 = true ∧ rsp.entryWord 0 0 = 0x0600000700000000 ∧ (rsp.pkg 0).agentReqs = [(7, req, 0)]) ∧
    ((s 0x0700000000000003).lcOk 0 0x0700000000000003 = false ∧ lc.untaken 0 = true ∧ lc.entryWord 0 0 = 0x0700000000000004 ∧ lc.launchesOn 0 = false ∧
      (withLau (lau5 false .running) lc).launchesOn 0 = true) := by
  and_intros <;> decide +kernel
/-- A capability and a life-cycle request that their signatures bear out, and ones with another signature. -/
theorem witness_MailboxAndHostAperture_signed :
    let keyed := fun (n : Nat) => withMem (wordsAt (hostBase + 0x1000) capWords ++ sigAt (hostBase + 0x1040) n)
      (entryOf [0x0200000000000005, 0x1000] (fun p => { p with hostKeys := [(1, pubKey)] }) base)
    let lc := fun (n : Nat) => withMem (sigAt (hostBase + 0x2000) n)
      (entryOf [0x0700000000000004, 4, 0, 1, 0, 0x2000] (fun p => { p with ownerKey := some pubKey, nonce := none }) base)
    (keyed capSig).capStatus 0 0x1000 = 0 ∧ (keyed lcSig).capStatus 0 0x1000 = 1 ∧ (lc lcSig).lcOk 0 0x0700000000000004 = true ∧
      (lc capSig).lcOk 0 0x0700000000000004 = false := by
  and_intros <;> decide +kernel

/-- A window that is open, closed, or reaches no page and an absent one; a read that has waited 3,999,999 and 4,000,000 ns. -/
theorem witness_MailboxAndHostAperture_port :
    let c := unitCtx (unitPos 0) 0 0 (BitVec.ofNat 16 uPort) false
    let off := fun (k : Nat) => opened.aperAddr 0 k
    let wait := fun (t : Nat) => ({ opened.modPkg 0 (fun p => { p with stalled := [(3, 0, 8, none, 0)] }) with timeNs := t } : State)
    (opened.pkgPresent 0 = true ∧ (opened.pkg 0).portBusy = false ∧ off 0x200000 = some (c, 0x1000200000) ∧
      (opened.resolve c 0x1000200000 .load).2 = .at 0x200000 (some 0x8003C20000000000) ∧ (opened.resolve c 0x1000200000 .store).2 = .at 0x200000 (some 0x8003C20000000000) ∧
      leafShadow (some 0x8003C20000000000) = false ∧ opened.fencedFrom c.core 0x200000 = false ∧ opened.poisoned 0x200000 8 = false) ∧
    base.aperAddr 0 0 = none ∧
    ((opened.modPkg 0 (fun p => { p with aper := [(0, 0x8000000000000003)] })).resolve c 0x3000000000 .load).2 = .fail cNomap ∧
    (opened.modPkg 0 (fun p => { p with aper := [(0, 0x8000000000000003)] })).aperAddr 0 0 = some (c, 0x3000000000) ∧
    ((opened.modPkg 0 (fun p => { p with aper := [(0, 0x8000000000000002)] })).resolve c 0x2000000000 .load).2 = .absent ∧
    (opened.modPkg 0 (fun p => { p with aper := [(0, 0x8000000000000002)] })).aperAddr 0 0 = some (c, 0x2000000000) ∧
    (((wait 4000000).pkg 0).stalled = [(3, 0, 8, none, 0)] ∧ 0 + 4000000 ≤ (wait 4000000).timeNs ∧ (wait 3999999).timeNs < 0 + 4000000) := by
  decide +kernel

/-- No cluster but cluster 0 of die 0 is mapped. -/
def few : State :=
  { base with place := (0, ⟨true, 0, (List.range 32).map (fun c => (c + 1, false, c + 1))⟩) :: [1, 16, 17].map (fun d => (d, ⟨false, d, []⟩)) }

/-- Dies whose heartbeat is due and is not, whose leader has fallen silent, and that hear of another; a frozen thread; a call; the clock; a marginal core;
entries of the extension directory; the placement of a die and a cluster whose work is stopped, and not; contexts that may and may not go live. -/
theorem witness_ServiceAndManagement :
    let at_ := fun (t : Nat) => ({ base with timeNs := t } : State)
    let silent := ({ base with timeNs := 9000000 } : State).modDie 0 (fun d => { d with leader := 1 })
    let news := base.modDie 0 (fun d => { d with svc := [⟨3, 1, 5, []⟩] })
    let frozen := one (fun t => { t with place := .frozen 0 })
    let c : Call := ⟨3, own4, tcm, tcm.toNat, 0⟩
    let called : State := { withMem [(tcm.toNat, 0xD000000000000000)] base with calls := [c] }
    let stop : State := { base with clusters := (List.range 36).map (fun c => (c, { base.cluster c with fen := true })) }
    let marg := base.modCore 1 (fun c => { c with marginal := true })
    (base.serving 0 = true ∧ (at_ 999999).timeNs < (base.die 0).sent + 1000000 ∧ (base.die 0).sent + 1000000 ≤ (at_ 1000000).timeNs) ∧
    ((silent.die 0).leader ≠ 0 ∧ silent.serving 0 = true ∧ silent.beatValid 0 1 = false ∧ ∀ d ∈ silent.otherDies 0, ¬ d < 0) ∧
    ((news.die 0).svc = [⟨3, BitVec.ofNat 64 1, (5 : BitVec 32).setWidth 64, []⟩] ∧ (news.die 0).egen.toNat < (5 : BitVec 32).toNat) ∧
    ((silent.die 0).skew ≤ 4 ∧ (silent.die 1).skew - 4 ≤ 4 ∧ 4 ≤ (silent.die 1).skew + 4) ∧
    (frozen.threads = [(0, frozen.thread 0)] ∧ (frozen.thread 0).place = .frozen 0 ∧ (0 : Word).extractLsb' 52 12 = (frozen.thread 0).domid ∧
      (0 : Word).extractLsb' 36 16 = (frozen.thread 0).cin ∧ (0 : Word).extractLsb' 20 16 = (frozen.thread 0).tag) ∧
    (called.isLive (dieOf c.who.core * 64 + 33) c.who.domid c.who.cin = true ∧ called.peekW c.pa >>> 60 = 13 ∧ (called.peekW c.pa).extractLsb' 16 44 = 0) ∧
    (base.pkgPresent 0 = true ∧ (base.pkg 0).throttled + 1000000 ≤ (at_ 1000000).timeNs) ∧
    (marg.corePresent 1 = true ∧ isPylon 1 = false ∧ (marg.core 1).marginal = true ∧ (marg.core 1).bin ≠ 3 ∧ (marg.core 1).pair = none ∧
      ∀ k, k < 7 → marg.occupant 1 k = none) ∧
    (few.dirEntryOk 0 0 true 0 = true ∧ few.dirEntryOk 0 30 true 0 = false ∧ few.dirEntryOk 0 30 false 0 = true ∧ few.corePresent 0 = true) ∧
    (stop.dieMay 0 false 3 = true ∧ stop.dieMay 0 true 0 = true ∧ stop.cmapMay 0 32 32 = true ∧ stop.cmapMay 0 0 34 = true ∧ stop.cmapMay 0 0 33 = false ∧ base.dieMay 0 true 0 = false) ∧
    (base.clusterPresent 0 = true ∧ base.diePresent 0 = true ∧ isCompute 0 = true ∧ homeOf 0 = .vault 0) ∧
    (base.mayGoLive 5 = true ∧ base.next 5 + 1 ≠ base.floor 5 ∧ ({ base with nextCin := [(5, 7)] } : State).mayGoLive 5 = false) := by
  and_intros <;> decide +kernel

/-- Package 0 is present, and package 63 is not. -/
theorem witness_PackageResets : base.pkgPresent 0 = true ∧ base.pkgPresent 63 = false := by decide +kernel

/-! ### The whole machine -/

/-- Guard f1 with f1 false; the word of each fate. -/
theorem witness_FalseGuardHasNoEffect :
    (Instr.add 1 false (.g 1) (r 1) (.imm 1)).isEvent = false ∧ base.exchangeDue base.me = false ∧ base.me.wakeCause = 0 ∧
    base.me.guardOk (Instr.add 1 false (.g 1) (r 1) (.imm 1)).guard = false ∧ ((0x0108000000000000 : Word).extractLsb' 48 4 = 8) := by
  and_intros <;> decide +kernel

/-- The extension BSX in core 0, which lists it not: an anchored thread; a roaming one with an entry of the directory; one that arrived for it. -/
theorem witness_UnlistedExtensionIsSearchedFor :
    let i := Instr.qwait 0
    let y := posAt 0 32 0
    let v := Instr.vmov 0 .f32 ⟨0, false⟩ (.v 1) (rv 2)
    let p := fun (o : Option Nat) => ({ one (fun t => { t with anc := false, place := .slot y 0 }) with cores := [(y, { Core.reset true with extDir := [(2, o)] })] } : State)
    (base.reaches i ∧ base.listed base.me (instrExt i) = false ∧ base.me.anc = true) ∧
    ((p none).reaches v ∧ (p none).listed (p none).me (instrExt v) = false ∧ (p none).extEntry (p none).me.core (instrExt v).id = none) ∧
    ((p (some 4)).reaches v ∧ (p (some 4)).listed (p (some 4)).me (instrExt v) = false ∧ (p (some 4)).extEntry (p (some 4)).me.core (instrExt v).id = some 4 ∧
      (p (some 4)).me.anc = false ∧ (p (some 4)).me.whyCause = 0 ∧ (p (some 4)).me.marks = [] ∧ (p (some 4)).unagreed (p (some 4)).me = false ∧
      (p (some 4)).me.await = [] ∧ (p (some 4)).me.asks = []) := by
  unfold State.reaches; and_intros <;> decide +kernel

/-- HALT in user mode. -/
theorem witness_PrivilegedFormTrapsInUserMode :
    let s := one (fun t => { t with sup := false })
    let i := Instr.halt 0 0
    isPrivileged i = true ∧ s.reaches i ∧ s.me.sup = false := by
  unfold State.reaches; and_intros <;> decide +kernel

/-- ADD, FADD, JMP, ST and SPWR with g1 empty, and VADD with v1 empty. -/
theorem witness_EmptySourceIsWaitedFor :
    let s := one (fun t => { t with gFull := 0 })
    let v := one (fun t => { t with vFull := 0 })
    [Instr.add 0 false (.g 2) (r 1) (.imm 1), .fadd 0 false .rne (.g 2) (r 1) (r 2), .jmp 0 (r 1) 0, .st 0 .w (r 1).reg mem1, .spwr 0 .wlim (r 1)].all
      (fun i => i.wf && !i.isEvent && s.me.guardOk i.guard && s.listed s.me (instrExt i)) = true ∧
    (s.exchangeDue s.me = false ∧ s.me.wakeCause = 0 ∧ s.me.anc = true ∧ s.me.sup = true ∧ s.me.full (r 1).reg = false ∧ s.me.marks = []) ∧
    (let i := Instr.vadd 0 false .f32 .rne ⟨0, false⟩ (.v 2) (rv 1) (rv 3)
     i.wf = true ∧ v.reaches i ∧ v.listed v.me (instrExt i) = true ∧ v.me.full (rv 1).reg = false) := by
  unfold State.reaches; and_intros <;> decide +kernel

/-- An event in the agenda; a PC off a word; ADD, no instruction, and a word of the extension range in the TCM. -/
theorem witness_StepRunsTheDecodedInstruction :
    let off : State := { one (fun t => { t with pc := 2 }) with issue := some 0 }
    let s := fun (w : Word) => withMem [(tcm.toNat, w)] { base with issue := some 0 }
    let at0 := fun (w : Word) => ({ s w with issue := none, cur := 0 } : State)
    (State.agenda { base with agenda := [.routerCycle 0] } = [.routerCycle 0]) ∧
    (off.agenda = [] ∧ off.issue = some 0 ∧ (off.thread 0).pc.toNat % 8 ≠ 0) ∧
    (∀ w, (s w).agenda = [] ∧ (s w).issue = some 0) ∧
    [(0x01003050B0000000 : Word), 0, 0xF002000000000000].all (fun w =>
      ((s w).thread 0).pc.toNat % 8 == 0 && (at0 w).resolve ((s w).thread 0).ctx ((s w).thread 0).pc .fetch == (at0 w, .at tcm.toNat none) &&
      (at0 w).poisoned ((at0 w).viewOf ((s w).thread 0).domid (leafShadow none) tcm.toNat) 8 == false &&
      KMap.find ((at0 w).core ((s w).thread 0).core).icache (lineOf tcm.toNat) == none &&
      (at0 w).peekW ((at0 w).viewOf ((s w).thread 0).domid (leafShadow none) tcm.toNat) == w) = true ∧
    decode 0x01003050B0000000 = .instr (.add 0 false (.g 12) (r 10) (.reg (r 11))) ∧ decode 0 = .illegal .noInstruction ∧
    decode 0xF002000000000000 = .extRange 16 2 ∧ base.me.guardOk 2 = false := by
  and_intros <;> first | exact fun _ => ⟨rfl, rfl⟩ | decide +kernel

/-- An instruction that is well formed. -/
theorem witness_DecodeOfEncodeIsTheInstruction :
    let i := Instr.vcmp 0 .gt .f32 ⟨0, false⟩ (.m 3) (rv 8) rz
    i.isEvent = false ∧ i.wf = true := by decide +kernel

/-- Memory in canonical form, and a step that answers a next state. -/
theorem witness_MemoryStaysCanonical :
    let s : State := { base with agenda := [.barrelSelect 0] }
    s.memOk ∧ ∃ t, step s = .next t := by
  refine ⟨by decide +kernel, _, rfl⟩

/-! ### Decoding: words written out from the example lines and encodings of the spec -/

/-- A g source with take. -/
def rt (n : Fin 16) : Src := ⟨.g n, true⟩

/-- ScalarInteger: words of the spec, bit by bit. -/
theorem test_decode_scalarinteger :
    decode 0x01003050B0000000 = .instr (.add 0 false (.g 12) (r 10) (.reg (r 11))) ∧
    decode 0x011B322000000001 = .instr (.add 0xB false (.g 12) (rt 4) (.imm 1)) ∧
    decode 0x1800298800000000 = .instr (.popc 0 false (.g 10) ⟨.m 1, false⟩) ∧
    decode 0x1F001D0000000000 = .instr (.movw 0 (.g 7) 0x10000000000) ∧
    decode 0x20001C0000048D15 = .instr (.movh 0 (.g 7) 0x48D15) ∧
    decode 0x2100246000000040 = .instr (.cmp 0 .eq 1 (r 12) (.imm 64)) ∧
    decode 0x21000E2060000000 = .instr (.cmp 0 .eq 3 (rt 4) (.reg (r 6))) ∧
    decode 0x22000C00000000A1 = .instr (.flop 0 .and 3 false 1 true 2) ∧
    decode 0x2A00000000000000 = .instr (.nop 0) := by
  and_intros <;> rfl

/-- ScalarFloat: words of the spec, bit by bit. -/
theorem test_decode_scalarfloat :
    decode 0x3900080800000180 = .instr (.fcvt 0 .rne .e8m7 .f32 (.g 2) (r 1)) := by
  rfl

/-- Memory: words of the spec, bit by bit. -/
theorem test_decode_memory :
    decode 0x40300403C0000000 = .instr (.ld 0 .w false (.g 1) ⟨r 0, rz, 0, 0, 0⟩) ∧
    decode 0x41301C1BC0000008 = .instr (.st 0 .w (.g 7) ⟨r 3, rz, 0, 0, 8⟩) ∧
    decode 0x4810102BC0000080 = .instr (.fetch 0 .q false (.g 4) ⟨r 5, rz, 0, 0, 0x80⟩) ∧
    decode 0x4900001BC0000100 = .instr (.pref 0 ⟨r 3, rz, 0, 0, 0x100⟩) ∧
    decode 0x5000003000000000 = .instr (.migr 0 (r 6)) ∧
    decode 0x5100081800000000 = .instr (.home 0 (.g 2) (r 3)) ∧
    decode 0x5200100000000000 = .instr (.cord 0 (.g 4) .own) := by
  and_intros <;> rfl

/-- Tags and atomics: words of the spec, bit by bit. -/
theorem test_decode_tags_and_atomics :
    decode 0x42302443C0000000 = .instr (.ldf 0 .w false (.g 9) ⟨r 8, rz, 0, 0, 0⟩) ∧
    decode 0x43301C53C0000000 = .instr (.stf 0 .w false (.g 7) ⟨r 10, rz, 0, 0, 0⟩) ∧
    decode 0x4430101BC0000000 = .instr (.feset 0 false (.g 4) ⟨r 3, rz, 0, 0, 0⟩) ∧
    decode 0x4530081BC0000000 = .instr (.feqry 0 (.g 2) ⟨r 3, rz, 0, 0, 0⟩) ∧
    decode 0x4630081840000000 = .instr (.lda 0 .w (.g 2) (r 3) 0 (.reg (r 4))) ∧
    decode 0x4770141800000000 = .instr (.stl 0 .w (.g 5) (r 3) 0 .sys) ∧
    decode 0x6030081840000000 = .instr (.aadd 0 true (.g 2) (r 3) 0 (r 4)) ∧
    decode 0x6170081840000000 = .instr (.alog 0 .or true (.g 2) (r 3) 0 (r 4)) ∧
    decode 0x6270081840000000 = .instr (.amnx 0 .max true (.g 2) (r 3) 0 (r 4)) ∧
    decode 0x6330081840000000 = .instr (.axch 0 true (.g 2) (r 3) 0 (r 4)) ∧
    decode 0x6430081840000000 = .instr (.acas 0 true (.g 2) (r 3) 0 (r 4)) ∧
    decode 0x6520081840000000 = .instr (.afadd 0 false (.g 2) (r 3) 0 (r 4)) ∧
    decode 0x6630002000000000 = .instr (.fence 0 .ar (.reg (r 4))) := by
  and_intros <;> rfl

/-- Waiting, barriers, semaphores: words of the spec, bit by bit. -/
theorem test_decode_waiting_barriers_semaphores :
    decode 0x5800001BC0000000 = .instr (.marm 0 ⟨r 3, rz, 0, 0, 0⟩) ∧
    decode 0x5900082800000000 = .instr (.mwait 0 (.g 2) (r 5)) ∧
    decode 0x5A00000820600000 = .instr (.binit 0 (r 1) (r 2) (r 3)) ∧
    decode 0x5B00100800000000 = .instr (.barv 0 (.g 4) (r 1)) ∧
    decode 0x5C00000840000000 = .instr (.barw 0 (r 1) (r 4)) ∧
    decode 0x5D00000800000000 = .instr (.bdrop 0 (r 1)) ∧
    decode 0x5E000003C0000003 = .instr (.semi 0 3 rz 0) ∧
    decode 0x5E100003C0000403 = .instr (.sema 0 3 rz 4) ∧
    decode 0x5E2008000000000D = .instr (.semr 0 (.g 2) 13) ∧
    decode 0x5F000003C000020D = .instr (.semw 0 13 rz 2) := by
  and_intros <;> rfl

/-- Channels: words of the spec, bit by bit. -/
theorem test_decode_channels :
    decode 0x6810141BC0000000 = .instr (.push 0 true (.g 5) ⟨r 3, rz, 0, 0, 0⟩) ∧
    decode 0x6910081BC0000000 = .instr (.pop 0 true (.g 2) ⟨r 3, rz, 0, 0, 0⟩) ∧
    decode 0x6A00101BC0000000 = .instr (.chinit 0 (.g 4) ⟨r 3, rz, 0, 0, 0⟩) ∧
    decode 0x6B00183800000002 = .instr (.send 0 (.g 6) (r 7) ⟨.g 0, false⟩ 2) ∧
    decode 0x6C00183881200000 = .instr (.sendm 0 (.g 6) (r 7) (r 8) (r 9)) ∧
    decode 0x6D00004000000005 = .instr (.recv 0 (r 8) 5) ∧
    decode 0x6E000043C0000011 = .instr (.chbind 0 (r 8) rz 17) ∧
    decode 0x6F900C3800000000 = .instr (.trdy 0 .set .clear (.g 3) (r 7)) := by
  and_intros <;> rfl

/-- Vector: words of the spec, bit by bit. -/
theorem test_decode_vector :
    decode 0x9200400BC0000000 = .instr (.vld 0 .f32 (.v 0) ⟨r 1, rz, 0, 0, 0⟩) ∧
    decode 0x9200440BC0000080 = .instr (.vld 0 .f32 (.v 1) ⟨r 1, rz, 0, 0, 0x80⟩) ∧
    decode 0x9300401BC0000000 = .instr (.vst 0 .f32 (.v 0) ⟨r 3, rz, 0, 0, 0⟩) ∧
    decode 0x8E00488000000000 = .instr (.vqnt 0 .bs4 .f32 .rne ⟨0, false⟩ (.v 2) (rv 0)) ∧
    decode 0x8F00509000000000 = .instr (.vdqnt 0 .bs4 .f32 .rne ⟨0, false⟩ (.v 4) (rv 2)) ∧
    decode 0x8900189000014004 = .instr (.vgetl 0 .n32 (.g 6) (rv 2) (.imm 4)) ∧
    decode 0x8500C4B140000000 = .instr (.vcmp 0 .eq .f32 ⟨0, false⟩ (.m 1) (rv 6) (rv 4)) ∧
    decode 0x8550CCC3C0000000 = .instr (.vcmp 0 .gt .f32 ⟨0, false⟩ (.m 3) (rv 8) rz) ∧
    decode 0xA700002800000000 = .instr (.fmtld 0 (.a (r 5))) ∧
    decode 0xA710002800000000 = .instr (.fmtld 0 (.b (r 5))) ∧
    decode 0xA720000000000001 = .instr (.fmtld 0 (.fsh 1)) := by
  and_intros <;> rfl

/-- Matrix: words of the spec, bit by bit. -/
theorem test_decode_matrix :
    decode 0xA10000000C104100 = .instr (.mxrun 0 ⟨3, 1, 4, 1⟩) ∧
    decode 0xA2000C2000028100 = .instr (.mxsend 0 (r 6) (r 8) ⟨0, 0, 40, 1⟩) ∧
    decode 0xA3004C0000000107 = .instr (.tard 0 .f32 .rne ⟨0, false⟩ (.v 3) 1 (.imm 7)) ∧
    decode 0xA40000A800000000 = .instr (.tawr 0 ⟨0, false⟩ (rv 5) 0 (.imm 0)) ∧
    decode 0xA500000000005102 = .instr (.taz 0 2 ⟨0, 0, 5, 1⟩) ∧
    decode 0xA600100000000000 = .instr (.taq 0 false (.g 4)) ∧
    decode 0xA800143000000000 = .instr (.mxcap 0 (.g 5) (r 6)) ∧
    decode 0xA9000050B0000000 = .instr (.tacc 0 0 (r 10) (r 11)) := by
  and_intros <;> rfl

/-- Copy, streams, bitstreams: words of the spec, bit by bit. -/
theorem test_decode_copy_streams_bitstreams :
    decode 0xB700061000007100 = .instr (.stor 0 false 0 (r 3) (r 4) ⟨0, 0, 7, 1⟩) ∧
    decode 0xB200E04000000000 = .instr (.strm 0 false 0 (r 8)) ∧
    decode 0xB30015C000000000 = .instr (.strcGet 0 (.g 5) 0) ∧
    decode 0xB400100000000003 = .instr (.cpq 0 (.g 4) 3) ∧
    decode 0xB500100000000003 = .instr (.cpcan 0 (.g 4) 3) ∧
    decode 0xB600001000000001 = .instr (.scout 0 (r 2) 1) ∧
    decode 0xC8100C000000000C = .instr (.bsget 0 (.g 3) (.imm 12)) ∧
    decode 0xCA1000200000000C = .instr (.bsput 0 (r 4) (.imm 12)) ∧
    decode 0xCE00040000000000 = .instr (.qtake 0 (.g 1)) ∧
    decode 0xCF00001000000000 = .instr (.qdone 0 (r 2)) := by
  and_intros <;> rfl

/-- Graphs and collectives: words of the spec, bit by bit. -/
theorem test_decode_graphs_and_collectives :
    decode 0xB8001043C0000000 = .instr (.gcopy 0 (.g 4) (r 8) rz) ∧
    decode 0xB900104090000000 = .instr (.gsend 0 (.g 4) (r 8) (r 9)) ∧
    decode 0xBA00144090000000 = .instr (.gcmp 0 (.g 5) (r 8) (r 9)) ∧
    decode 0xBB00104090000000 = .instr (.ghash 0 (.g 4) (r 8) (r 9)) ∧
    decode 0xBC001043C0000000 = .instr (.gfree 0 (.g 4) (r 8) rz) ∧
    decode 0xBD10081840000000 = .instr (.gtype 0 (.g 2) (r 3) (some (r 4))) ∧
    decode 0xBE00184000000000 = .instr (.gqry 0 (.g 6) (r 8)) ∧
    decode 0xC000143000000000 = .instr (.cjoin 0 (.g 5) (r 6)) ∧
    decode 0xC160008010400000 = .instr (.cred 0 .rscl (rv 0) (r 1) (r 2)) ∧
    decode 0xC200008810400000 = .instr (.cmcst 0 (rv 1) (r 1) (r 2)) ∧
    decode 0xC310480830000000 = .instr (.crcvRed 0 (.v 2) (r 1) (.g 3)) := by
  and_intros <;> rfl

/-- Threads and launches: words of the spec, bit by bit. -/
theorem test_decode_threads_and_launches :
    decode 0x5300180827800000 = .instr (.spawn 0 (.g 6) (r 1) (r 2) rz) ∧
    decode 0x5400000000000000 = .instr (.exit 0) ∧
    decode 0x5510000000000000 = .instr (.yieldRq 0) ∧
    decode 0x5610000000000000 = .instr (.anchR 0) ∧
    decode 0xD7001C4000000000 = .instr (.launch 0 (.g 7) (r 8)) ∧
    decode 0xD800245000000000 = .instr (.qctl 0 (.g 9) (r 10)) ∧
    decode 0xE100000000000000 = .instr (.lsync 0) ∧
    decode 0xE400140000000000 = .instr (.extl 0 (.g 5)) ∧
    decode 0xE500041000000000 = .instr (.thrm 0 (.g 1) (r 2)) := by
  and_intros <;> rfl

/-- System: words of the spec, bit by bit. -/
theorem test_decode_system :
    decode 0xD209000000000001 = .instr (.trap 9 1) ∧
    decode 0xD300000000000000 = .instr (.rett 0 false) ∧
    decode 0xD40008000000000B = .instr (.sprd 0 (.g 2) .cycle) ∧
    decode 0xD500002000000005 = .instr (.spwr 0 .wlim (r 4)) ∧
    decode 0xD6000C0000000000 = .instr (.time 0 (.g 3)) ∧
    decode 0xD900041030000000 = .instr (.kill 0 (.g 1) (r 2) (r 3)) ∧
    decode 0xDA00041030000000 = .instr (.rclf 0 (.g 1) (r 2) (r 3)) ∧
    decode 0xDB00041000000000 = .instr (.gang 0 (.g 1) (r 2)) ∧
    decode 0xDC00041030000000 = .instr (.plbinv 0 (.g 1) (some (r 2)) (r 3)) ∧
    decode 0xDE10041000000000 = .instr (.pairOff 0 (.g 1) (r 2)) ∧
    decode 0xDF00180000000000 = .instr (.fpck 0 (.g 6)) ∧
    decode 0xE010041000000000 = .instr (.coffDef 0 (.g 1) (r 2)) ∧
    decode 0xE200041030000000 = .instr (.wipe 0 (.g 1) (r 2) (r 3)) ∧
    decode 0xE610041000000000 = .instr (.replQ 0 (.g 1) (r 2)) ∧
    decode 0xD000041030000000 = .instr (.sysc 0 (.g 1) (r 2) (r 3)) ∧
    decode 0xD100100800000000 = .instr (.sysw 0 (.g 4) (r 1)) ∧
    decode 0xE300000000000041 = .instr (.halt 0 0x41) := by
  and_intros <;> rfl

/-- Words with an unused field set, the guard 0b1000, a reserved class, no opcode and a bad operand are no instructions. -/
theorem test_decode_refuses :
    [(0x01103050B0000000 : Word), (0x01083050B0000000 : Word), (0x01003053F0000000 : Word), (0x7000000000000000 : Word), (0xF008000000000000 : Word), (0x0000000000000000 : Word), (0xFFFFFFFFFFFFFFFF : Word)].all (fun w => match decode w with | .illegal _ => true | .instr _ => false | .extRange _ _ => false) = true := by decide +kernel

/-! ### Well-formedness: for each check a term that it refuses -/

/-- Terms whose operands lie outside the classes and limits of their entries, and the guard 0b1000. -/
theorem test_wellformed_refuses_scalar :
    ([.add 0 false .ip (r 1) (.imm 1),
     .add 0 false (.g 1) ⟨.m 1, true⟩ (.imm 1),
     .add 8 false (.g 1) (r 1) (.imm 1),
     .add 0 false (.g 1) (rv 1) (.imm 1),
     .div 0 false (.g 1) (r 1) (.imm 0),
     .or 0 false .pw (r 1) (.reg (r 2)),
     .shl 0 true (.g 1) (r 1) (.imm 32),
     .ext 0 true false (.g 1) (r 1) (.imm 0x20),
     .ext 0 true false (.g 1) (r 1) (.imm 0x2100),
     .lea 0 false (.g 1) ⟨rz, rz, 0, 0, 0⟩,
     .ld 0 .w false (.g 1) ⟨r 1, rz, 0, 3, 0⟩,
     .ld 0 .w true (.g 1) ⟨r 1, rz, 0, 0, 0⟩,
     .st 0 .w (.g 1) ⟨r 1, ⟨.ip, false⟩, 0, 0, 0⟩,
     .ldf 0 .w false (.g 1) ⟨r 1, rz, 0, 1, 0⟩,
     .lda 0 .w (.g 1) rz 0 .sys,
     .fence 0 .ar (.reg (rv 1)),
     .loop 0 .z 0,
     .jmp 0 (rm 1) 0] : List Instr).all (fun i => !i.wf) = true := by decide +kernel

/-- Terms whose operands lie outside the classes and limits of their entries, and the guard 0b1000. -/
theorem test_wellformed_refuses_memory_and_waits :
    ([.fadd 0 false .rne (.g 1) (rv 1) rz,
     .fcvt 0 .rne .i32 .i64 (.g 1) (r 1),
     .fcvt 0 .rtz .f64 .f32 (.g 1) (r 1),
     .home 0 (.g 1) rz,
     .cord 0 (.g 1) (.cl rz),
     .binit 0 rz (r 1) (r 2),
     .send 0 (.g 1) (r 1) ⟨.g 14, true⟩ 3,
     .recv 0 rz 0] : List Instr).all (fun i => !i.wf) = true := by decide +kernel

/-- Terms whose operands lie outside the classes and limits of their entries, and the guard 0b1000. -/
theorem test_wellformed_refuses_vector_and_units :
    ([.vadd 0 true .f32 .rne ⟨0, false⟩ (.v 1) (rv 1) (rv 2),
     .vmov 0 .f32 ⟨0, true⟩ (.v 1) (rv 1),
     .vadd 0 false .i32 .rtz ⟨0, false⟩ (.v 1) (rv 1) (rv 2),
     .vcmp 0 .un .i32 ⟨0, false⟩ (.m 1) (rv 1) (rv 2),
     .vshl 0 .i8 ⟨0, false⟩ (.v 1) (rv 1) (.imm 8),
     .vgetl 0 .f64 (.g 1) (rv 1) (.imm 16),
     .vfma 0 .i32 .rne ⟨0, false⟩ (.v 1) (rv 1) (rv 2) (rv 3),
     .vqnt 0 .bs4 .f64 .rne ⟨0, false⟩ (.v 1) (rv 1),
     .mops 0 .not (.m 1) (r 1),
     .tard 0 .f64 .rne ⟨0, false⟩ (.v 1) 0 (.imm 0),
     .tawr 0 ⟨1, true⟩ (rv 1) 0 (.imm 0),
     .fmtld 0 (.a rz),
     .strm 0 false 0 rz,
     .bsget 0 (.g 1) (.imm 0),
     .spwr 0 .mode (r 1),
     .cpq 0 (.g 1) 9,
     .bsaln 0 false 7,
     .spwrBnd 0 3 (r 1),
     .routerCycle 0] : List Instr).all (fun i => !i.wf) = true := by decide +kernel

end Sys2Proof.Tests
end

section
/-! SUPPORT. LD and FETCH at a local home (R7, R20, R259): what the bytes of memory make of a read value, and the two effects
as one register write after the checks of the access. -/

namespace Sys2Proof.Machine

/-! ### The value that a read of memory gives -/

/-- R7: bit `i` of `n` bytes read from `a` is bit `i % 8` of the byte `i / 8` places above. -/
theorem State.testBit_peek (s : State) (n : Nat) : ∀ a i, (s.peek a n).testBit i =
    (decide (i < 8 * n) && (s.byte (a + i / 8)).getLsbD (i % 8)) := by
  induction n with
  | zero => intro a i; simp [State.peek]
  | succ n ih =>
    intro a i
    have hb : (s.byte a).toNat < 2 ^ 8 := (s.byte a).isLt
    rw [State.peek, Nat.add_comm, show 256 = 2 ^ 8 from rfl, Nat.testBit_two_pow_mul_add _ hb]
    split
    · next h =>
      rw [Nat.div_eq_of_lt h, Nat.mod_eq_of_lt h, decide_eq_true (by omega)]
      simp [BitVec.getLsbD]
    · next h =>
      rw [ih, show a + 1 + (i - 8) / 8 = a + i / 8 by omega, show (i - 8) % 8 = i % 8 by omega]
      congr 1
      exact decide_eq_decide.mpr (by omega)

/-- A view through no shadow and over no gated store is memory itself (R429, R448). -/
theorem State.view_eq_peek (s : State) (t : Thread) (h : t.gated = []) (n : Nat) : ∀ pa, s.view t false pa n = s.peek pa n := by
  induction n with
  | zero => intro pa; rfl
  | succ n ih => intro pa; simp [State.view, State.peek, State.viewOf, h, ih]

/-- R259: the extension of the low `z` bytes of a word, bit by bit. -/
theorem getLsbD_extend (v : Word) (z : Size) (x : Bool) (i : Nat) (hi : i < 64) :
    (extend v (Size.bytes z) x).getLsbD i =
      if i < 8 * Size.bytes z then v.getLsbD i else x && v.getLsbD (8 * Size.bytes z - 1) := by
  cases z <;> cases x <;> simp [extend, Size.bytes, hi]
  all_goals grind

/-- R7, R259: what a read of `z` bytes at `pa` writes holds these bytes, extended. -/
theorem State.holds_extend_peek (s : State) (pa : Nat) (z : Size) (x : Bool) :
    Holds s pa (Size.bytes z) x (extend (BitVec.ofNat 64 (s.peek pa (Size.bytes z))) (Size.bytes z) x) := by
  intro i hi
  have hz : 1 ≤ Size.bytes z ∧ Size.bytes z ≤ 8 := by cases z <;> decide
  have top : (8 * Size.bytes z - 1) / 8 = Size.bytes z - 1 ∧ (8 * Size.bytes z - 1) % 8 = 7 := by omega
  rw [getLsbD_extend _ z x i hi]
  simp only [BitVec.getLsbD_ofNat, State.testBit_peek, top]
  split
  · next h => simp [hi, h]
  · rw [decide_eq_true (show 8 * Size.bytes z - 1 < 64 by omega), decide_eq_true (show 8 * Size.bytes z - 1 < 8 * Size.bytes z by omega),
      show pa + (Size.bytes z - 1) = pa + Size.bytes z - 1 by omega]
    simp

/-! ### A register write after the checks of an access -/

/-- What the checks of an access keep of the threads. -/
theorem State.Cached.cur_me {s u : State} (h : s.Cached u) : u.cur = s.cur ∧ u.me = s.me := by
  have hc := congrArg State.cur h.other
  have ht := congrArg State.threads h.other
  dsimp only at hc ht
  exact ⟨hc, by simp only [State.me, State.thread, hc, ht]⟩

/-- An access that the checks let through goes on with the state after them, which differs in held translations only. -/
theorem State.access_of_reach {s s1 : State} {a : Word} {n : Nat} {k : Acc} {pa : Nat} {leaf : Option Word}
    (h : s.reach a n k = some (s1, pa, leaf)) :
    (∀ f, s.access s.cur a n k f = f s1 pa leaf) ∧ s.Cached s1 := by
  have hc := State.resolve_cached s s.me.ctx a k false
  unfold State.reach at h
  split at h
  · cases h
  · next ha =>
    split at h
    · next hr =>
      cases h
      rw [hr] at hc
      exact ⟨fun f => by rw [State.access, if_neg ha, hr], hc⟩
    all_goals cases h

/-- An instruction that executes, whose effect after an access's checks is one write of a scalar register, completes. -/
theorem exec_next_of_write {i : Instr} {s s1 : State} {g : Guard} {srcs : List Src} {d : Reg} {f : State → Thread → Res} {v : Word}
    (he : exec i s = run s g { ext := .base, srcs := srcs, fills := [d] } f)
    (hr : s.runs g { ext := .base, srcs := srcs, fills := [d] } = true) (hc : s.Cached s1)
    (hf : f s s.me = .ok (s1.write s.cur d v)) (hd : Reg.scalarDest d = true) :
    ∃ t, exec i s = .next t ∧ s.Cached s1 ∧ s1.After t (s.out srcs d v) := by
  obtain ⟨hcur, hme⟩ := hc.cur_me
  have hw : s1.Wrote (s1.write s.cur d v) { Out.none s1 with reg := d, val := v } :=
    hcur ▸ (State.Wrote.refl s1).write rfl d hd v
  have ha := hw.retire (takesOf srcs [d]) false (s.me.pc + 8) 0 false
    (notMem_takesOf (.inl (List.mem_singleton_self d))) (fun h => by cases h)
  rw [hcur, Out.none, hme] at ha
  exact ⟨_, by rw [he, run_eq f hr, hf]; rfl, hc, ha⟩

theorem gz_scalarDest {d : Reg} (h : gz d = true) : Reg.scalarDest d = true := by
  cases d <;> simp_all [gz, Reg.isG, Reg.isZ, Reg.scalarDest]

theorem exec_ld (g : Guard) (z : Size) (x : Bool) (d : Reg) (m : MemOp) (s : State) :
    exec (.ld g z x d m) s = execLd g z x d m s := rfl

theorem exec_fetch (g : Guard) (z : Size) (x : Bool) (d : Reg) (m : MemOp) (s : State) :
    exec (.fetch g z x d m) s = execFetch g z x d m s := rfl

/-- Settles O9: the checks let the access through to a home that is local, where neither a shadow, a gated store, a response
that gd awaits nor poison stands between the read and memory, so that LD and FETCH have the same effect. -/
theorem localLoadAndFetchReadMemory : Obligations.LocalLoadAndFetchReadMemory := by
  unfold Obligations.LocalLoadAndFetchReadMemory
  rintro s s1 g z x d m pa leaf hr ⟨hreach, hhome, hshadow, hpaired, hgated⟩ haw hpoison
  obtain ⟨haccess, hc⟩ := State.access_of_reach hreach
  have hme : s1.thread s.cur = s.me := by
    obtain ⟨hcur, hme⟩ := hc.cur_me
    rwa [State.me, hcur] at hme
  have hview : s1.view s.me (leafShadow leaf) pa (Size.bytes z) = s1.peek pa (Size.bytes z) := by
    rw [hshadow]; exact s1.view_eq_peek s.me hgated _ pa
  have hpoison' : s1.poisoned (s1.viewOf s.me.domid (leafShadow leaf) pa) (Size.bytes z) = false := by
    rw [hshadow]; exact hpoison
  refine ⟨_, s1.holds_extend_peek pa z x, fun hwf => ?_, fun hwf => ?_⟩
  · have hd : Reg.scalarDest d = true := gz_scalarDest (by simp [Instr.wf, Instr.operandsOk] at hwf; simp [hwf])
    refine exec_next_of_write (exec_ld g z x d m s) hr hc ?_ hd
    rw [haccess]
    simp [State.loadAt, State.loadLocal, hme, hhome, haw, hpoison', hview]
  · have hd : Reg.scalarDest d = true := by
      cases d <;> simp_all [Instr.wf, Instr.operandsOk, Reg.isG, Reg.scalarDest]
    refine exec_next_of_write (exec_fetch g z x d m s) hr hc ?_ hd
    simp only [haccess]
    simp [hhome, haw, hpoison', hview]

end Sys2Proof.Machine
end

section
/-! The canonical form of memory is kept by every step (O60). Memory itself is changed by writes of bytes (`poke`), by copies of
granules (`copyGranule`) and by removals (`zeroRange`, `bndApply`, `resetPackage`); everything else only passes the state on. For
every function of the model that answers a state there is one lemma, under the function's name in `State.Canon`: from a canonical
state it answers a canonical one. What the answer looks like decides the predicate: a state alone, or the type of answer whose
states the predicate names. The proofs follow the branches of the functions; where the branches are many or pass states on through
answers of several accesses, `grind` does so with the lemmas of the functions called. -/

namespace Sys2Proof.Machine

/-! ### What is kept -/

/-- The bytes of a memory are in canonical form. -/
structure MemCanon (m : List Host.Cell) : Prop where
  wf : Memory.wf m

/-- The memory of a state is in canonical form. -/
def State.Canon (s : State) : Prop := MemCanon s.mem

/-- The state that an instruction answers is canonical; a trap and a wait leave the state they began in. -/
def Res.Canon : Res → Prop
  | .ok s | .jump s _ | .pend s | .gone s => s.Canon
  | .trap _ _ | .wait _ _ _ => True

/-- The state after an access to a range, complete or not, is canonical. -/
def Got.Canon {α : Type} : Got α → Prop
  | .ok s _ | .bad s _ _ | .absent s _ => s.Canon

/-- The state after an operation on a channel object is canonical. -/
def ChanRes.Canon : ChanRes → Prop
  | .done s _ => s.Canon
  | .fail _ | .blocked => True

/-- The state after the fetch of a word is canonical. -/
def Fetched.Canon : Fetched → Prop
  | .word s _ | .gone s => s.Canon

/-- The state after a launch request is canonical. -/
def Accepted.Canon : Accepted → Prop
  | .over s _ _ | .stall s => s.Canon
  | .full _ => True

/-- The state after the placement of a bulk message is canonical. -/
def Placed.Canon : Placed → Prop
  | .over s | .absent s _ _ => s.Canon

/-- The state that a stop of a walk has kept, if any, is canonical. -/
def Stop.Canon : Stop → Prop
  | .trap _ _ (some s) | .page _ _ (some s) => s.Canon
  | .trap _ _ none | .page _ _ none | .fenced | .held => True

/-- The state to which a part of a walk comes, or which its stop keeps, is canonical. -/
def WalkCanon {α : Type} : Except Stop (State × α) → Prop
  | .ok p => p.1.Canon
  | .error e => e.Canon

/-- The state after an event or instruction is canonical. -/
def NextCanon : Host.Outcome State Fault Refusal → Prop
  | .next s => s.Canon
  | .fault _ | .refused _ => True

namespace State.Canon

/-! ### How states are passed on -/

theorem of_mem {s t : State} (h : s.Canon) (e : t.mem = s.mem) : t.Canon := by
  rw [State.Canon, e]
  exact h

/-- A record update that leaves memory alone, in the form in which `grind` meets it. -/
theorem mk_iff {s : State} {a b c d e f g h i j k l m n o p q r u v w x y z a1 b1 c1 d1 e1 f1 g1 h1 i1 j1 k1 l1 m1 n1 o1 p1} :
    (State.mk a b c d e f g h i j k l m n o p q r u v s.mem w x y z a1 b1 c1 d1 e1 f1 g1 h1 i1 j1 k1 l1 m1 n1 o1 p1).Canon ↔
      s.Canon := Iff.rfl

theorem of_pair {α : Type} {p : State × α} {u : State} {a : α} (h : p.1.Canon) (e : p = (u, a)) : u.Canon := by
  subst e
  exact h

section
variable {α : Type} {r : Got α} {u : State} (h : r.Canon)
include h
theorem of_ok {a : α} (e : r = .ok u a) : u.Canon := by
  subst e
  exact h
theorem of_bad {c va} (e : r = .bad u c va) : u.Canon := by
  subst e
  exact h
theorem of_absent {va} (e : r = .absent u va) : u.Canon := by
  subst e
  exact h
end

theorem getD {s : State} {o : Option State} (h : s.Canon) (ho : ∀ t, o = some t → t.Canon) : (o.getD s).Canon := by
  cases o with
  | none => exact h
  | some t => exact ho t rfl

theorem ifElse {c : Prop} [Decidable c] {s t : State} (h : s.Canon) (h' : t.Canon) : (if c then s else t).Canon := by
  split
  · exact h
  · exact h'

theorem foldl {α : Type} {l : List α} {f : State → α → State} {s : State} (h : s.Canon)
    (hf : ∀ t a, t.Canon → (f t a).Canon) : (l.foldl f s).Canon := by
  induction l generalizing s with
  | nil => exact h
  | cons a l ih => exact ih (hf s a h)

theorem getFoldl {α β : Type} {l : List β} {f : Got α → β → Got α} {r : Got α} (h : r.Canon)
    (hf : ∀ (r : Got α) a, r.Canon → (f r a).Canon) : (l.foldl f r).Canon := by
  induction l generalizing r with
  | nil => exact h
  | cons a l ih => exact ih (hf r a h)

theorem walkBind {α β : Type} {x : Except Stop (State × α)} {f : State × α → Except Stop (State × β)}
    (hx : WalkCanon x) (hf : ∀ (s : State) a, s.Canon → WalkCanon (f (s, a))) : WalkCanon (x >>= f) := by
  cases x with
  | error e => exact hx
  | ok p => exact hf p.1 p.2 hx

theorem walkOk {α β : Type} {p : State × α} {f : State × α → Except Stop (State × β)} (h : WalkCanon (f p)) :
    WalkCanon (Except.ok p >>= f) := h

theorem walkFoldlM {α β : Type} {l : List β} {f : State × α → β → Except Stop (State × α)} {r : State × α}
    (h : r.1.Canon) (hf : ∀ (s : State) x a, s.Canon → WalkCanon (f (s, x) a)) : WalkCanon (l.foldlM f r) := by
  induction l generalizing r with
  | nil => exact h
  | cons a l ih => exact walkBind (hf r.1 r.2 a h) fun s x hs => ih hs

end State.Canon

/-! ### Records of the state -/

namespace State.Canon
theorem setPkg {s : State} {p r} (h : s.Canon) : (s.setPkg p r).Canon := h.of_mem rfl
theorem modPkg {s : State} {p} {f : Package → Package} (h : s.Canon) : (s.modPkg p f).Canon := setPkg h
end State.Canon

/-! ### Named operations over the state -/

namespace State.Canon
theorem bumpFree {s : State} (h : s.Canon) : s.bumpFree.Canon := h.of_mem rfl
theorem bumpId {s : State} (h : s.Canon) : s.bumpId.Canon := h.of_mem rfl
theorem setCore {s : State} {k c} (h : s.Canon) : (s.setCore k c).Canon := h.of_mem rfl
theorem modCore {s : State} {k} {f : Core → Core} (h : s.Canon) : (s.modCore k f).Canon := setCore h
theorem setCluster {s : State} {k c} (h : s.Canon) : (s.setCluster k c).Canon := h.of_mem rfl
theorem modCluster {s : State} {k} {f : Cluster → Cluster} (h : s.Canon) : (s.modCluster k f).Canon := setCluster h
theorem modDie {s : State} {k} {f : Die → Die} (h : s.Canon) : (s.modDie k f).Canon := h.of_mem rfl
theorem setThread {s : State} {tid t} (h : s.Canon) : (s.setThread tid t).Canon := h.of_mem rfl
theorem modThread {s : State} {tid} {f : Thread → Thread} (h : s.Canon) : (s.modThread tid f).Canon := setThread h
theorem dropThread {s : State} {tid} (h : s.Canon) : (s.dropThread tid).Canon := h.of_mem rfl
theorem poke {s : State} {a n v} (h : s.Canon) : (s.poke a n v).Canon := ⟨memWrite_wf h.wf a n v⟩
theorem setTag {s : State} {a full} (h : s.Canon) : (s.setTag a full).Canon :=
  ifElse (h.of_mem rfl) (ifElse h (h.of_mem rfl))
theorem fillTags {s : State} {a n} (h : s.Canon) : (s.fillTags a n).Canon := h.of_mem rfl
theorem clearPoison {s : State} {a n} (h : s.Canon) : (s.clearPoison a n).Canon := h.of_mem rfl
theorem logWrite {s : State} {tid r x} (h : s.Canon) : (s.logWrite tid r x).Canon := ifElse (modCore h) h
theorem feed {s : State} {tid v n} (h : s.Canon) : (s.feed tid v n).Canon := ifElse (modThread h) h
theorem write {s : State} {tid r x} (h : s.Canon) : (s.write tid r x).Canon := by
  unfold State.write
  split
  · exact feed (logWrite (modThread h))
  · exact feed (logWrite (modThread h))
  · exact modThread h
  · exact h
  · exact h
  · exact h
  · exact h
theorem writeV {s : State} {tid r x} (h : s.Canon) : (s.writeV tid r x).Canon := by
  unfold State.writeV
  split
  · exact feed (logWrite (modThread h))
  · exact h
theorem raise {s : State} {tid fl} (h : s.Canon) : (s.raise tid fl).Canon := modThread h
theorem setFlag {s : State} {tid n b} (h : s.Canon) : (s.setFlag tid n b).Canon := ifElse h (modThread h)
theorem orphaned {s : State} {cl} (h : s.Canon) : (s.orphaned cl).Canon := modCluster h
theorem noteWrite {s : State} {pa n} (h : s.Canon) : (s.noteWrite pa n).Canon :=
  ifElse (foldl (foldl (h.of_mem rfl) fun _ _ => modThread) fun _ _ => orphaned) h
theorem putWords {s : State} {a a1} (h : s.Canon) : (s.putWords a a1).Canon := by
  fun_induction State.putWords s a a1 with grind [poke, setTag, clearPoison, noteWrite]
theorem rest {s : State} {tid} (h : s.Canon) : (s.rest tid).Canon := putWords h
theorem freeUp {s : State} {t} (h : s.Canon) : (s.freeUp t).Canon := by
  unfold State.freeUp
  split
  · exact modCore h
  · exact h
theorem leave {s : State} {tid p} (h : s.Canon) : (s.leave tid p).Canon := modThread (rest (freeUp h))
theorem svc {s : State} {die m} (h : s.Canon) : (s.svc die m).Canon := modDie h
theorem freeze {s : State} {tid recs} (h : s.Canon) : (s.freeze tid recs).Canon := svc (modThread (leave h))
theorem putRecord {s : State} {tid a ws} (h : s.Canon) : (s.putRecord tid a ws).Canon := ifElse (modThread h) (putWords h)
theorem takeTrap {s : State} {tid cause addr tpc iword} (h : s.Canon) : (s.takeTrap tid cause addr tpc iword).Canon := by
  unfold State.takeTrap
  grind [modThread, freeze, putWords, putRecord]
theorem retire {s : State} {tid pc} (h : s.Canon) : (s.retire tid pc).Canon := modThread h
theorem block {s : State} {tid w counted addr} (h : s.Canon) : (s.block tid w counted addr).Canon := modThread h
theorem sendFlit {s : State} {from_ dest kind dom cin tag pri body} (h : s.Canon) :
    (s.sendFlit from_ dest kind dom cin tag pri body).Canon := mk_iff.2 (bumpId h)
theorem trapMark {s : State} {tid m taken} (h : s.Canon) : (s.trapMark tid m taken).Canon :=
  takeTrap (ifElse (modThread h) h)
theorem migrate {s : State} {tid dest any why ext pc} (h : s.Canon) : (s.migrate tid dest any why ext pc).Canon := by
  unfold State.migrate
  dsimp only
  split
  · exact trapMark h
  · split
    · trivial
    split
    · trivial
    split
    · trivial
    · exact sendFlit (modThread (leave h))
theorem extSearch {s : State} {tid e} (h : s.Canon) : (s.extSearch tid e).Canon := by
  unfold State.extSearch
  dsimp only
  split
  · trivial
  split
  · exact migrate h
  · trivial
theorem repair {s : State} {tid a} (h : s.Canon) : (s.repair tid a).1.Canon := by
  fun_induction State.repair s tid a with grind [modThread]
theorem trapHere {s : State} {cause addr} (h : s.Canon) : (s.trapHere cause addr).Canon := takeTrap h
theorem agree {s : State} {tid} (h : s.Canon) : (s.agree tid).Canon := modCore (modThread h)
theorem agreeAfter {s : State} {tid outside} (h : s.Canon) : (s.agreeAfter tid outside).Canon := ifElse (agree h) h
theorem retireWaiting {s : State} {takes w outside} (h : s.Canon) : (s.retireWaiting takes w outside).Canon :=
  modThread (agreeAfter (retire (modThread h)))
theorem finish {s : State} {takes outside} {a : Res} (h : s.Canon) (ha : a.Canon) : (s.finish takes outside a).Canon := by
  cases a with
  | ok u => exact agreeAfter (retire (modThread ha))
  | jump u pc => exact agreeAfter (retire (feed (modThread ha)))
  | trap c v => exact trapHere h
  | wait w c v => exact block h
  | pend u => exact modThread ha
  | gone u => exact ha
theorem unready {s : State} {r l} (h : s.Canon) : (s.unready r l).Canon := modCore (block h)
theorem run {s : State} {g n} {f : State → Thread → Res} (h : s.Canon) (hf : ∀ a0 a1, a0.Canon → (f a0 a1).Canon) :
    NextCanon (Machine.run s g n f) := by
  show State.Canon _
  dsimp only
  split
  · exact block h
  split
  · exact trapHere h
  split
  · exact retire h
  split
  · exact finish h (extSearch h)
  split
  · exact trapHere h
  split
  · exact trapHere h
  split
  · split
    · exact trapMark h
    · exact unready h
  · split
    · exact trapHere h
    · next u hu =>
      have hc : u.Canon := of_pair (repair h) hu
      split
      · exact block h
      · exact finish hc (hf u _ hc)
theorem returnTrap {s : State} {tid} (h : s.Canon) : (s.returnTrap tid).Canon := modThread h
end State.Canon

/-! ### From an address to its home -/

namespace State.Canon
theorem paged {s : State} {c va k allowC} (h : s.Canon) : (s.paged c va k allowC).1.Canon := by
  unfold State.paged
  dsimp only
  split
  · exact h
  split
  · exact h.of_mem rfl
  · split
    · exact ifElse (modCore (modCluster (h.of_mem rfl))) (h.of_mem rfl)
    · split
      · exact ifElse (modCore (modCluster (h.of_mem rfl))) (h.of_mem rfl)
      split
      · split
        · exact ifElse (modCore (modCluster (h.of_mem rfl))) (h.of_mem rfl)
        · exact ifElse (modCore (modCluster (h.of_mem rfl))) (h.of_mem rfl)
      · exact ifElse (modCore (modCluster (h.of_mem rfl))) (h.of_mem rfl)
theorem resolve {s : State} {c va k allowC} (h : s.Canon) : (s.resolve c va k allowC).1.Canon := by
  unfold State.resolve
  split
  · exact h
  split
  · exact h
  · exact paged h
theorem pageFault {s : State} {tid va access} (h : s.Canon) : (s.pageFault tid va access).Canon :=
  ifElse (svc (block h)) (ifElse (block h) (svc (modThread (leave h))))
theorem copyGranule {s : State} {src dst} (h : s.Canon) : (s.copyGranule src dst).Canon :=
  ⟨foldl_memSet_wf _ (fun c : Host.Cell => dst + (c.1 - src)) (fun c => c.2) (filter_wf h.wf _)⟩
theorem shadowFor {s : State} {dom shadow pa} (h : s.Canon) : ∀ t, s.shadowFor dom shadow pa = some t → t.Canon := by
  intro t e
  unfold State.shadowFor at e
  grind [bumpId, copyGranule, mk_iff]
theorem perform {s : State} {pa n v full} (h : s.Canon) : (s.perform pa n v full).Canon :=
  noteWrite (ifElse (fillTags (clearPoison (poke h))) (clearPoison (poke h)))
theorem performFor {s : State} {dom shadow pa n v full} (h : s.Canon) : (s.performFor dom shadow pa n v full).Canon := by
  unfold State.performFor
  split
  · next e => exact ifElse (perform (shadowFor h _ e)) (noteWrite (perform (shadowFor h _ e)))
  · exact perform h
end State.Canon

/-! ### Requests and their answers -/

namespace State.Canon
theorem request {s : State} {t dest kind body} (h : s.Canon) : (s.request t dest kind body).Canon := sendFlit h
theorem awaitReg {s : State} {tid d n sx read va pa} (h : s.Canon) : (s.awaitReg tid d n sx read va pa).Canon :=
  bumpId (modThread h)
theorem pendOn {s : State} {tid w counted fin acquire addr} (h : s.Canon) :
    (s.pendOn tid w counted fin acquire addr).Canon := bumpId (modThread (block h))
theorem pendLine {s : State} {tid pa} (h : s.Canon) : (s.pendLine tid pa).Canon := modThread h
theorem dropCand {s : State} {cl la} (h : s.Canon) : (s.dropCand cl la).Canon := mk_iff.2 (modCluster h)
theorem fillCand {s : State} {cl va la data stamp keep} (h : s.Canon) : (s.fillCand cl va la data stamp keep).Canon :=
  modCluster h
theorem acquire {s : State} {core sc} (h : s.Canon) : (s.acquire core sc).Canon := bumpId (modCore (modCluster h))
theorem complete {s : State} {tid p v} (h : s.Canon) : (s.complete tid p v).Canon := by
  unfold State.complete
  grind [modThread, dropCand, write, acquire, agreeAfter, retire]
theorem fill {s : State} {tid a v} (h : s.Canon) : (s.fill tid a v).Canon := by
  unfold State.fill
  split
  · split
    · exact write (modThread h)
    · exact modThread h
  · split
    · exact ifElse (modThread (modThread h)) (writeV (modThread h))
    · exact modThread h
  · exact dropCand (modThread h)
  · exact modThread h
theorem keepInCkpt {s : State} {tid tok} {f : Thread → Thread} (h : s.Canon) : (s.keepInCkpt tid tok f).Canon :=
  ifElse (modCore h) h
theorem markReg {s : State} {tid a cause} (h : s.Canon) : (s.markReg tid a cause).Canon := modThread h
theorem stray {s : State} {who a} (h : s.Canon) : (s.stray who a).Canon := by
  unfold State.stray
  split
  · exact sendFlit h
  · exact orphaned h
theorem answer {s : State} {who a} (h : s.Canon) : (s.answer who a).Canon := by
  unfold State.answer
  grind [stray, fillCand, markReg, keepInCkpt, fill, takeTrap, complete, modThread]
theorem reply {s : State} {who pos kind a} (h : s.Canon) : (s.reply who pos kind a).Canon := ifElse (answer h) (sendFlit h)
theorem goHome {s : State} {tid h1 why} (h : s.Canon) : (s.goHome tid h1 why).Canon := by
  unfold State.goHome
  split <;> exact migrate h
theorem access {s : State} {tid a n kind} {k : State → ℕ → Option Word → Res} (h : s.Canon)
    (hk : ∀ a0 a1 a2, a0.Canon → (k a0 a1 a2).Canon) : (s.access tid a n kind k).Canon := by
  unfold State.access
  grind [resolve, pageFault, Res.Canon]
theorem stackStore {s : State} {tid base} (h : s.Canon) : (s.stackStore tid base).Canon := ifElse (modThread h) h
theorem store {s : State} {tid pa n shadow v} (h : s.Canon) : (s.store tid pa n shadow v).Canon :=
  ifElse (performFor h) (request (dropCand (bumpId (modThread h))))
theorem storeWord {s : State} {tid shadow l} (h : s.Canon) : (s.storeWord tid shadow l).Canon := by
  unfold State.storeWord
  split
  · exact h
  · exact store h
  · exact ifElse (foldl h fun _ _ => performFor) (request (dropCand (bumpId (modThread h))))
theorem storeOrGate {s : State} {tid pa n shadow v} (h : s.Canon) : (s.storeOrGate tid pa n shadow v).Canon :=
  ifElse (feed (feed (modThread h))) (store h)
theorem sendRead {s : State} {tid d va pa n shadow keep} (h : s.Canon) : (s.sendRead tid d va pa n shadow keep).Canon :=
  request (bumpId (modThread h))
theorem requestOr {s : State} {t pos} {r : Res} (hr : r.Canon) : (s.requestOr t pos r).Canon := by
  unfold State.requestOr
  split
  · trivial
  · exact hr
end State.Canon

/-! ### What a home does with a request -/

namespace State.Canon
theorem dropMsg {s : State} {id} (h : s.Canon) : (s.dropMsg id).Canon := h.of_mem rfl
theorem atHome {s : State} {id} {f : State → Msg → Option State} (h : s.Canon)
    (hf : ∀ a0 a1, a0.Canon → ∀ t, f a0 a1 = some t → t.Canon) : (s.atHome id f).Canon := by
  unfold State.atHome
  grind [dropMsg, getD]
theorem serveAccess {s : State} {m} (h : s.Canon) : ∀ t, s.serveAccess m = some t → t.Canon := by
  intro t e
  unfold State.serveAccess at e
  grind [reply, bumpId, bumpFree, performFor, foldl]
theorem execHomeReadWrite {s : State} {msg} (h : s.Canon) : NextCanon (Machine.execHomeReadWrite msg s) :=
  atHome h fun _ _ => serveAccess
theorem waitlim {s : State} {tid} (h : s.Canon) : (s.waitlim tid).Canon := takeTrap h
theorem orWait {s join : State} {who room} (h : s.Canon) (hjoin : join.Canon) :
    ∀ t, s.orWait who room join = some t → t.Canon := by
  intro t e
  unfold State.orWait at e
  grind [waitlim]
theorem ldfServe {s : State} {w empty pos} (h : s.Canon) : (s.ldfServe w empty pos).Canon :=
  ifElse (reply h) (reply (ifElse (setTag (getD h (shadowFor h))) h))
theorem stfServe {s : State} {w d pos} (h : s.Canon) : (s.stfServe w d pos).Canon := reply (performFor h)
theorem dropTagWaiter {s : State} {cl w} (h : s.Canon) : (s.dropTagWaiter cl w).Canon := modCluster h
theorem serveTags {s : State} {cl word pos a} (h : s.Canon) : (s.serveTags cl word pos a).Canon := by
  fun_induction State.serveTags s cl word pos a with grind [ldfServe, stfServe, dropTagWaiter]
theorem tagChanged {s : State} {cl word pos} (h : s.Canon) : (s.tagChanged cl word pos).Canon := serveTags h
theorem settleTags {s : State} {cl} (h : s.Canon) : (s.settleTags cl).Canon := by
  unfold State.settleTags
  split
  · exact h
  · exact tagChanged h
theorem setTags {s : State} {cl who full pos pa a} (h : s.Canon) : (s.setTags cl who full pos pa a).Canon := by
  fun_induction State.setTags s cl who full pos pa a with grind [setTag, shadowFor, tagChanged, getD]
theorem tagRequest {s : State} {cl pos w} (h : s.Canon) : ∀ t, s.tagRequest cl pos w = some t → t.Canon := by
  intro t e
  unfold State.tagRequest at e
  grind [orWait, modCluster, ldfServe, tagChanged, stfServe, reply, setTags]
theorem execTagRequestAtHome {s : State} {msg} (h : s.Canon) : NextCanon (Machine.execTagRequestAtHome msg s) := by
  unfold Machine.execTagRequestAtHome
  grind [atHome, tagRequest, NextCanon]
theorem atomic {s : State} {r pos} (h : s.Canon) : ∀ t, s.atomic r pos = some t → t.Canon := by
  intro t e
  unfold State.atomic at e
  grind [shadowFor, reply, perform]
theorem enterProxy {s : State} {cl r} (h : s.Canon) : ∀ t, s.enterProxy cl r = some t → t.Canon := by
  intro t e
  unfold State.enterProxy at e
  grind [modCluster, bumpId]
theorem reserve {s : State} {cl r} (h : s.Canon) : (s.reserve cl r).Canon := modCluster h
theorem execProxyContinuation {s : State} {msg} (h : s.Canon) : NextCanon (Machine.execProxyContinuation msg s) := by
  unfold Machine.execProxyContinuation
  grind [atHome, enterProxy, NextCanon]
theorem grant {s : State} {addr} (h : s.Canon) : (s.grant addr).Canon := by
  unfold State.grant
  split
  · exact h
  · split
    · exact h
    · exact ifElse (modCluster h) (getD h (atomic (modCluster h)))
theorem execAtomicReservationGrant {s : State} {addr} (h : s.Canon) :
    NextCanon (Machine.execAtomicReservationGrant addr s) := grant h
theorem toHost {s : State} {pkg ws} (h : s.Canon) : (s.toHost pkg ws).Canon :=
  ifElse (setPkg h) (setPkg (foldl h fun _ _ => perform))
theorem toAgent {s : State} {pos r} (h : s.Canon) : (s.toAgent pos r).Canon := ifElse (reply h) (toHost (modPkg (bumpId h)))
theorem execHostAtomic {s : State} {msg answer} (h : s.Canon) : NextCanon (Machine.execHostAtomic msg answer s) := by
  refine atHome (s := s) h fun u m hu t ht => ?_
  grind [toAgent, reply, perform, poke]
theorem execAgentTimeout {s : State} {req} (h : s.Canon) : NextCanon (Machine.execAgentTimeout req s) := by
  unfold Machine.execAgentTimeout
  split
  · exact h
  · split
    · exact h
    · exact ifElse (reply (setPkg h)) h
theorem objSet {s : State} {who pa x} (h : s.Canon) : (s.objSet who pa x).Canon := performFor h
theorem pushObj {s : State} {w k cap count head x} (h : s.Canon) : (s.pushObj w k cap count head x).Canon := by
  unfold State.pushObj
  grind [objSet, ChanRes.Canon]
theorem popObj {s : State} {w k cap count head} (h : s.Canon) : (s.popObj w k cap count head).Canon := by
  unfold State.popObj
  grind [objSet, bumpFree, ChanRes.Canon]
theorem chanDo {s : State} {w} (h : s.Canon) : (s.chanDo w).Canon := by
  unfold State.chanDo
  grind [performFor, pushObj, popObj, ChanRes.Canon]
theorem serveChan {s : State} {cl pos obj a} (h : s.Canon) : (s.serveChan cl pos obj a).Canon := by
  fun_induction State.serveChan s cl pos obj a with grind [modCluster, reply, chanDo, ChanRes.Canon]
theorem chanRequest {s : State} {cl pos w} (h : s.Canon) : ∀ t, s.chanRequest cl pos w = some t → t.Canon := by
  intro t e
  unfold State.chanRequest at e
  grind [orWait, modCluster, chanDo, reply, tagChanged, serveChan, ChanRes.Canon]
theorem execChannelOpAtHome {s : State} {msg} (h : s.Canon) : NextCanon (Machine.execChannelOpAtHome msg s) := by
  unfold Machine.execChannelOpAtHome
  grind [atHome, chanRequest, NextCanon]
theorem takeAnswer {s : State} {id ack} (h : s.Canon) : (s.takeAnswer id ack).Canon := by
  unfold State.takeAnswer
  split
  · exact h
  · split
    · exact ifElse h (answer (dropMsg h))
    · exact h
theorem execStoreAck {s : State} {msg} (h : s.Canon) : NextCanon (Machine.execStoreAck msg s) := takeAnswer h
theorem registerWatch {s : State} {who line pos} (h : s.Canon) : (s.registerWatch who line pos).Canon :=
  reply (dropCand (modCluster h))
theorem execWatchRegistrationAck {s : State} {msg} (h : s.Canon) : NextCanon (Machine.execWatchRegistrationAck msg s) := by
  unfold Machine.execWatchRegistrationAck
  grind [atHome, registerWatch, NextCanon]
end State.Canon

/-! ### Loads, stores and migration -/

namespace State.Canon
theorem fetchAt {s : State} {tid d a pa n x leaf keep} (h : s.Canon) : (s.fetchAt tid d a pa n x leaf keep).Canon := by
  unfold State.fetchAt
  dsimp only
  split
  · trivial
  split
  · trivial
  split
  · exact write (h.of_mem rfl)
  · exact modThread (sendRead (h.of_mem rfl))
theorem loadLocal {s : State} {tid d a pa n x leaf} (h : s.Canon) : (s.loadLocal tid d a pa n x leaf).Canon := by
  unfold State.loadLocal
  dsimp only
  split
  · trivial
  split
  · trivial
  · exact write h
theorem loadAt {s : State} {tid d a pa n x leaf keep} (h : s.Canon) : (s.loadAt tid d a pa n x leaf keep).Canon := by
  unfold State.loadAt
  dsimp only
  split
  · exact loadLocal h
  split
  · exact goHome h
  · exact fetchAt h
theorem execFetch {s : State} {g z x d m} (h : s.Canon) : NextCanon (Machine.execFetch g z x d m s) := by
  unfold Machine.execFetch
  dsimp only
  refine run h fun _ _ hu => ?_
  refine access hu fun _ _ _ hu => ?_
  split
  · split
    · trivial
    split
    · exact modThread hu
    · exact write hu
  · exact fetchAt hu
theorem execPref {s : State} {g m} (h : s.Canon) : NextCanon (Machine.execPref g m s) := by
  unfold Machine.execPref
  refine run h fun _ _ hu => ?_
  split
  · next e =>
      split
      · exact fillCand (mk_iff.2 (of_pair (resolve hu) e))
      · exact mk_iff.2 (of_pair (resolve hu) e)
  · exact hu
  · exact hu
theorem storeAt {s : State} {tid a pa n leaf v base} (h : s.Canon) : (s.storeAt tid a pa n leaf v base).Canon := by
  unfold State.storeAt
  dsimp only
  split
  · exact goHome h
  split
  · exact pageFault h
  split
  · trivial
  · exact stackStore (storeOrGate h)
theorem storeNow {s : State} {tid a pa n leaf v base} (h : s.Canon) : (s.storeNow tid a pa n leaf v base).Canon := by
  unfold State.storeNow
  dsimp only
  split
  · exact goHome h
  split
  · exact pageFault h
  · exact stackStore (store h)
theorem execMigr {s : State} {g a} (h : s.Canon) : NextCanon (Machine.execMigr g a s) := by
  refine run h fun u t hu => ?_
  grind [migrate, rest, modThread, Res.Canon]
theorem execCord {s : State} {g d op} (h : s.Canon) : NextCanon (Machine.execCord g d op s) := by
  unfold Machine.execCord
  dsimp only
  refine run h fun _ _ hu => ?_
  split
  · exact write hu
  · exact write hu
  · split
    · exact write hu
    · trivial
  · split
    · exact write hu
    · trivial
end State.Canon

/-! ### Contexts in slots -/

namespace State.Canon
theorem enterSlot {s : State} {tid core slot} (h : s.Canon) : (s.enterSlot tid core slot).Canon := modCore (modThread h)
theorem placeProxy {s : State} {cl} (h : s.Canon) : (s.placeProxy cl).Canon := by
  unfold State.placeProxy
  split
  · exact h
  · split
    · exact h
    · exact modCore (modCluster h)
theorem joinQueue {s : State} {tid cl target anchored} (h : s.Canon) :
    ∀ t, s.joinQueue tid cl target anchored = some t → t.Canon := by
  intro t e
  unfold State.joinQueue at e
  grind [bumpId, modThread]
theorem arrive {s : State} {tid cl target anchored} (h : s.Canon) :
    ∀ t, s.arrive tid cl target anchored = some t → t.Canon := by
  intro t e
  unfold State.arrive at e
  grind [joinQueue, enterSlot, bumpFree]
theorem equip {s : State} {tid cl} (h : s.Canon) : (s.equip tid cl).Canon := mk_iff.2 (modThread h)
theorem setBarrier {s : State} {core idx b} (h : s.Canon) : (s.setBarrier core idx b).Canon := modCore h
theorem releaseWaiters {s : State} {tids brk} (h : s.Canon) : (s.releaseWaiters tids brk).Canon := by
  unfold State.releaseWaiters
  grind [sendFlit, complete, foldl]
theorem phaseCheck {s : State} {core idx} (h : s.Canon) : (s.phaseCheck core idx).Canon :=
  ifElse (releaseWaiters (setBarrier h)) h
theorem memberEnds {s : State} {killed m} (h : s.Canon) : (s.memberEnds killed m).Canon :=
  ifElse (phaseCheck (setBarrier h)) h
theorem ownerGone {s : State} {core} (h : s.Canon) : (s.ownerGone core).Canon := by
  unfold State.ownerGone
  dsimp only
  split
  · exact h
  · exact ifElse h (modCore h)
theorem disarm {s : State} {tid} (h : s.Canon) : (s.disarm tid).Canon := ifElse (modThread h) (mk_iff.2 (modThread h))
theorem launchEnd {s : State} {l killed} (h : s.Canon) : (s.launchEnd l killed).Canon := by
  unfold State.launchEnd
  split
  · exact h
  · split
    · exact h
    · exact h.of_mem rfl
theorem launchUnjoin {s : State} {l tid} (h : s.Canon) : (s.launchUnjoin l tid).Canon := by
  unfold State.launchUnjoin
  split
  · exact h
  · split
    · exact h
    · exact h.of_mem rfl
theorem endThread {s : State} {tid killed} (h : s.Canon) : (s.endThread tid killed).Canon := by
  unfold State.endThread
  grind [launchEnd, memberEnds, disarm, freeUp, modThread, dropThread, ownerGone, foldl]
theorem toQueue {s : State} {tid anchored pc retires displaced} (h : s.Canon) :
    (s.toQueue tid anchored pc retires displaced).Canon := by
  unfold State.toQueue
  dsimp only
  split
  · exact trapMark h
  · split
    · trivial
    split
    · trivial
    split
    · trivial
    · exact bumpId (modThread (leave (modThread h)))
end State.Canon

/-! ### Semaphores -/

namespace State.Canon
theorem setSema {s : State} {cl n x} (h : s.Canon) : (s.setSema cl n x).Canon := modCluster h
theorem testClauses {s : State} {cl n count} (h : s.Canon) : (s.testClauses cl n count).Canon := h.of_mem rfl
theorem serveSema {s : State} {cl n a} (h : s.Canon) : (s.serveSema cl n a).Canon := by
  fun_induction State.serveSema s cl n a with grind [complete, setSema, testClauses]
theorem semaChange {s : State} {cl n count ovf} (h : s.Canon) : (s.semaChange cl n count ovf).Canon :=
  serveSema (testClauses (setSema h))
theorem semaAdd {s : State} {cl n v} (h : s.Canon) : (s.semaAdd cl n v).Canon := semaChange h
theorem signal {s : State} {cl c} (h : s.Canon) : (s.signal cl c).Canon := ifElse h (semaAdd h)
theorem execResponseArrival {s : State} {msg} (h : s.Canon) : NextCanon (Machine.execResponseArrival msg s) := by
  unfold Machine.execResponseArrival
  split
  · exact h
  · split
    · exact ifElse (signal (dropMsg h)) (dropMsg h)
    · exact takeAnswer h
theorem execSemi {s : State} {g n b v} (h : s.Canon) : NextCanon (Machine.execSemi g n b v s) := by
  unfold Machine.execSemi
  dsimp only
  refine run h fun _ _ hu => ?_
  split
  · trivial
  split
  · trivial
  · exact semaChange hu
theorem execSema {s : State} {g n b v} (h : s.Canon) : NextCanon (Machine.execSema g n b v s) := by
  unfold Machine.execSema
  refine run h fun _ _ hu => ?_
  split
  · trivial
  · exact semaAdd hu
theorem execSemr {s : State} {g d n} (h : s.Canon) : NextCanon (Machine.execSemr g d n s) := by
  unfold Machine.execSemr
  refine run h fun _ _ hu => ?_
  split
  · trivial
  · exact write hu
theorem execSemw {s : State} {g n b v} (h : s.Canon) : NextCanon (Machine.execSemw g n b v s) := by
  unfold Machine.execSemw
  dsimp only
  refine run h fun _ _ hu => ?_
  split
  · trivial
  split
  · trivial
  split
  · exact hu
  split
  · exact semaChange hu
  · exact pendOn (setSema hu)
end State.Canon

/-! ### Ranges of memory -/

namespace State.Canon
theorem readPiece {s : State} {c va n allowC} (h : s.Canon) : (s.readPiece c va n allowC).Canon := by
  unfold State.readPiece
  dsimp only
  split
  · next e => exact of_pair (resolve h) e
  · next e => exact of_pair (resolve h) e
  · next e =>
      split
      · exact of_pair (resolve h) e
      split
      · exact of_pair (resolve h) e
      · exact of_pair (resolve h) e
theorem readRange {s : State} {c va n allowC} (h : s.Canon) : (s.readRange c va n allowC).Canon := by
  unfold State.readRange
  grind [readPiece, Got.Canon, getFoldl]
theorem tagsChanged {s : State} {core pa q n} (h : s.Canon) : (s.tagsChanged core pa q n).Canon :=
  foldl h fun _ _ => tagChanged
theorem fillSaved {s : State} {pa n} (h : s.Canon) : (s.fillSaved pa n).Canon := h.of_mem rfl
theorem writePiece {s : State} {c va n v mask allowC} (h : s.Canon) : (s.writePiece c va n v mask allowC).Canon := by
  unfold State.writePiece
  dsimp only
  split
  · next e => exact of_pair (resolve h) e
  · next e => exact of_pair (resolve h) e
  · next e =>
      split
      · exact of_pair (resolve h) e
      split
      · exact fillSaved (perform (of_pair (resolve h) e))
      · split
        · exact of_pair (resolve h) e
        · exact tagsChanged (performFor (of_pair (resolve h) e))
theorem writeMask {s : State} {c va n v mask allowC} (h : s.Canon) : (s.writeMask c va n v mask allowC).Canon := by
  unfold State.writeMask
  grind [writePiece, Got.Canon, getFoldl]
theorem writeRange {s : State} {c va n v allowC} (h : s.Canon) : (s.writeRange c va n v allowC).Canon := writeMask h
theorem readBits {s : State} {c at_ n allowC} (h : s.Canon) : (s.readBits c at_ n allowC).Canon := by
  unfold State.readBits
  grind [readRange, Got.Canon]
theorem writeBits {s : State} {c at_ n v allowC} (h : s.Canon) : (s.writeBits c at_ n v allowC).Canon := writeMask h
theorem svcOnce {s : State} {die m} (h : s.Canon) : (s.svcOnce die m).Canon := ifElse h (svc h)
theorem stallMsg {s : State} {core unit c va} (h : s.Canon) : (s.stallMsg core unit c va).Canon := svcOnce h
theorem readBlock {s : State} {c p n desc} {k : State → ℕ → Res} (h : s.Canon) (hk : ∀ a0 a1, a0.Canon → (k a0 a1).Canon) :
    (s.readBlock c p n desc k).Canon := by
  unfold State.readBlock
  grind [readRange, pageFault, Got.Canon, Res.Canon]
theorem threadAfterStores {t} {f : Res} (hf : f.Canon) : (Machine.Thread.afterStores t f).Canon := by
  unfold Machine.Thread.afterStores
  split
  · trivial
  split
  · trivial
  · exact hf
end State.Canon

/-! ### Thread life -/

namespace State.Canon
theorem launchJoin {s : State} {l tid} (h : s.Canon) : (s.launchJoin l tid).Canon := by
  unfold State.launchJoin
  split
  · exact h
  · split
    · exact h
    · exact h.of_mem rfl
theorem execSpawn {s : State} {g d a b c} (h : s.Canon) : NextCanon (Machine.execSpawn g d a b c s) := by
  refine run h fun u t hu => ?_
  grind [awaitReg, launchJoin, setThread, bumpId, sendFlit, Res.Canon]
theorem execExit {s : State} {g} (h : s.Canon) : NextCanon (Machine.execExit g s) := by
  unfold Machine.execExit
  refine run h fun _ _ hu => ?_
  split
  · trivial
  split
  · trivial
  · exact endThread hu
theorem yield {s : State} {tid} (h : s.Canon) : (s.yield tid).Canon := modThread (retire h)
theorem execYieldRq {s : State} {g} (h : s.Canon) : NextCanon (Machine.execYieldRq g s) := by
  unfold Machine.execYieldRq
  refine run h fun _ _ hu => ?_
  split
  · exact toQueue hu
  · exact yield hu
theorem execAnch {s : State} {g} (h : s.Canon) : NextCanon (Machine.execAnch g s) := by
  refine run h fun u t hu => ?_
  grind [extSearch, modCore, modThread, toQueue, Res.Canon]
theorem execAnchR {s : State} {g} (h : s.Canon) : NextCanon (Machine.execAnchR g s) := by
  refine run h fun u t hu => ?_
  grind [modThread, modCore, Res.Canon]
theorem land {s : State} {id} (h : s.Canon) : (s.land id).Canon := by
  unfold State.land
  dsimp only
  split
  · exact h
  · split
    · split
      · exact endThread (dropMsg h)
      split
      · exact orphaned (endThread (dropMsg h))
      split
      · exact h
      split
      · exact h
      · next e =>
          split
          · exact reply (acquire (arrive (ifElse (modThread (equip (dropMsg h))) (dropMsg h)) _ e))
          · exact arrive (ifElse (modThread (equip (dropMsg h))) (dropMsg h)) _ e
    · exact h
theorem execImageArrival {s : State} {msg} (h : s.Canon) : NextCanon (Machine.execImageArrival msg s) := land h
theorem agreeStart {s : State} {tid} (h : s.Canon) : (s.agreeStart tid).Canon := ifElse (agree h) h
theorem execRestingStateReload {s : State} {tid} (h : s.Canon) : NextCanon (Machine.execRestingStateReload tid s) :=
  ifElse (agreeStart (ifElse (retire (modThread h)) (modThread h))) h
theorem execSlotLoadDone {s : State} {tid} (h : s.Canon) : NextCanon (Machine.execSlotLoadDone tid s) :=
  ifElse (ifElse (modCore h) (agreeStart (modCore h))) h
theorem execSlotFill {s : State} {core slot} (h : s.Canon) : NextCanon (Machine.execSlotFill core slot s) := by
  unfold Machine.execSlotFill
  split
  · exact ifElse (enterSlot h) h
  · exact h
end State.Canon

/-! ### Channels and messages -/

namespace State.Canon
theorem chanIssue {s : State} {t a op pr fin counted kind} (h : s.Canon) :
    (s.chanIssue t a op pr fin counted kind).Canon := by
  unfold State.chanIssue
  split
  · trivial
  split
  · trivial
  · next e => exact pageFault (of_pair (resolve h) e)
  · next e =>
      split
      · trivial
      split
      · trivial
      · exact requestOr (request (pendLine (pendOn (of_pair (resolve h) e))))
theorem startTask {s : State} {core e m} (h : s.Canon) : ∀ t, s.startTask core e m = some t → t.Canon := by
  intro t e
  unfold State.startTask at e
  grind [equip, setThread, bumpId, arrive, acquire]
theorem startParked {s : State} {core n a} (h : s.Canon) : (s.startParked core n a).Canon := by
  fun_induction State.startParked s core n a with grind [modCore, startTask]
theorem resumeParked {s : State} {core} (h : s.Canon) : (s.resumeParked core).Canon := foldl h fun _ _ => startParked
theorem tell {s : State} {who pos v} (h : s.Canon) : (s.tell who pos v).Canon := by
  unfold State.tell
  split
  · exact reply h
  · exact h
theorem chanMessage {s : State} {core who m} (h : s.Canon) : ∀ t, s.chanMessage core who m = some t → t.Canon := by
  intro t e
  unfold State.chanMessage at e
  grind [tell, modCore, orphaned, startTask, startParked, Option.map_eq_some_iff]
theorem execChannelMessageArrival {s : State} {msg} (h : s.Canon) : NextCanon (Machine.execChannelMessageArrival msg s) := by
  unfold Machine.execChannelMessageArrival
  split
  · exact h
  · split
    · exact getD h (chanMessage (dropMsg h))
    · exact h
theorem execSend {s : State} {g d a b n} (h : s.Canon) : NextCanon (Machine.execSend g d a b n s) := by
  unfold Machine.execSend
  dsimp only
  refine run h fun _ _ hu => ?_
  split
  · trivial
  · split
    · trivial
    split
    · trivial
    · exact request (awaitReg hu)
theorem readSource {s : State} {c va n} (h : s.Canon) : (s.readSource c va n).Canon := by
  unfold State.readSource
  grind [readPiece, Got.Canon, getFoldl]
theorem execSendm {s : State} {g d a b c} (h : s.Canon) : NextCanon (Machine.execSendm g d a b c s) := by
  refine run h fun u t hu => ?_
  grind [threadAfterStores, readSource, pageFault, sendFlit, awaitReg, Got.Canon, Res.Canon]
theorem bulkEnd {s : State} {m who ch b size len n} (h : s.Canon) : (s.bulkEnd m who ch b size len n).Canon := by
  unfold State.bulkEnd
  dsimp only
  split
  · next e => exact reply (modCore (of_ok (writeRange h) e))
  · next e => exact reply (modCore (of_bad (writeRange h) e))
  · next e => exact of_absent (writeRange h) e
theorem bulkPlace {s : State} {m who ch b data len placed} (h : s.Canon) :
    (s.bulkPlace m who ch b data len placed).Canon := by
  unfold State.bulkPlace
  dsimp only
  split
  · exact bulkEnd h
  · split
    · next e => exact bulkEnd (of_ok (writeRange h) e)
    · next e => exact bulkEnd (of_bad (writeRange h) e)
    · next e => exact of_absent (writeRange h) e
theorem bulkAt {s : State} {id m placed held} (h : s.Canon) : ∀ t, s.bulkAt id m placed held = some t → t.Canon := by
  intro t e
  unfold State.bulkAt at e
  grind [bulkPlace, dropMsg, stallMsg, Placed.Canon, mk_iff]
theorem execBulkMessagePlacement {s : State} {msg} (h : s.Canon) : NextCanon (Machine.execBulkMessagePlacement msg s) := by
  unfold Machine.execBulkMessagePlacement
  split
  · exact h
  · split
    · exact ifElse (getD h (bulkAt h)) (dropMsg h)
    · split
      · exact h
      · exact ifElse (getD h (bulkAt h)) (dropMsg h)
theorem execRecv {s : State} {g a ch} (h : s.Canon) : NextCanon (Machine.execRecv g a ch s) := by
  refine run h fun u t hu => ?_
  grind [threadAfterStores, readBlock, resolve, shadowFor, tagsChanged, setTag, modCore, Res.Canon, getD]
theorem bindChan {s : State} {core n e} (h : s.Canon) : (s.bindChan core n e).Canon :=
  ifElse (startParked (modCore h)) (foldl (modCore (modCore h)) fun _ _ => orphaned)
theorem execChbind {s : State} {g a b ch} (h : s.Canon) : NextCanon (Machine.execChbind g a b ch s) := by
  refine run h fun u t hu => ?_
  grind [threadAfterStores, readBlock, bindChan, Res.Canon]
theorem execTrdy {s : State} {g r h1 d a} (h : s.Canon) : NextCanon (Machine.execTrdy g r h1 d a s) := by
  unfold Machine.execTrdy
  dsimp only
  refine run h fun _ _ hu => ?_
  split
  · trivial
  · split
    · trivial
    split
    · trivial
    · exact write (startParked (modCore hu))
end State.Canon

/-! ### Scalar instructions -/

namespace State.Canon
theorem runAlu {s : State} {g d a b} {f : Word → Word → Word} (h : s.Canon) : NextCanon (Machine.runAlu s g d a b f) :=
  run h fun _ _ => write
theorem runAlu1 {s : State} {g d a} {f : Word → Word} (h : s.Canon) : NextCanon (Machine.runAlu1 s g d a f) :=
  run h fun _ _ => write
theorem runDiv {s : State} {g h1 d a b} {f : Word → Word → Word} (h : s.Canon) :
    NextCanon (Machine.runDiv s g h1 d a b f) := by
  refine run (s := s) h fun u t hu => ?_
  grind [Res.Canon, write]
theorem transfer {s : State} {tgt} (h : s.Canon) : (Machine.transfer s tgt).Canon := by
  unfold Machine.transfer
  split
  · trivial
  · exact h
theorem execLoop {s : State} {g d i} (h : s.Canon) : NextCanon (Machine.execLoop g d i s) := by
  unfold Machine.execLoop
  dsimp only
  refine run h fun _ _ hu => ?_
  split
  · exact write hu
  · exact transfer (write hu)
end State.Canon

/-! ### Scalar floating point -/

namespace State.Canon
theorem rnd1 {s : State} {rm} (h : s.Canon) : (s.rnd1 rm).1.Canon := by
  unfold State.rnd1
  split
  · exact modThread h
  · exact h
theorem runFp {s : State} {g single rm d srcs} {f : RM → Thread → Raw} (h : s.Canon) :
    NextCanon (Machine.runFp s g single rm d srcs f) := run h fun _ _ hu => write (raise (rnd1 hu))
theorem execFcvt {s : State} {g rm dt ty d a} (h : s.Canon) : NextCanon (Machine.execFcvt g rm dt ty d a s) := by
  unfold Machine.execFcvt
  refine run h fun _ _ hu => ?_
  split
  · trivial
  · exact write (raise (rnd1 hu))
theorem execFsgn {s : State} {g s_ op d a b} (h : s.Canon) : NextCanon (Machine.execFsgn g s_ op d a b s) := by
  unfold Machine.execFsgn
  dsimp only
  refine run h fun _ _ hu => ?_
  split
  · exact write (raise hu)
  · exact write hu
end State.Canon

/-! ### Vector computation -/

namespace State.Canon
theorem runV {α : Type} {s : State} {g n ty rm} {put : State → α → State} {f : RM → Thread → Vx → Vx × α} (h : s.Canon)
    (hput : ∀ a0 a1, a0.Canon → (put a0 a1).Canon) : NextCanon (Machine.runV s g n ty rm put f) := by
  refine run (s := s) h fun u t hu => ?_
  grind [Res.Canon, raise, modThread]
theorem runElem {s : State} {g k t rm d a b c} {f : Thread → RM → ℕ → ℕ → ℕ → Vx → Vx × ℕ} (h : s.Canon) :
    NextCanon (Machine.runElem s g k t rm d a b c f) := runV h fun _ _ => writeV
theorem runFun {s : State} {g k t rm d a} {f : Num → Raw} (h : s.Canon) : NextCanon (Machine.runFun s g k t rm d a f) :=
  runElem h
theorem runShift {s : State} {g right t k d a b} (h : s.Canon) : NextCanon (Machine.runShift s g right t k d a b) := by
  unfold Machine.runShift
  split <;> exact runElem h
end State.Canon

/-! ### Vector memory access -/

namespace State.Canon
theorem resolveAll {s : State} {c k a} (h : s.Canon) : (s.resolveAll c k a).1.Canon := by
  fun_induction State.resolveAll s c k a with grind [resolve]
theorem vaccess {s : State} {t l ws kind} {f : State → List VAt → Res} (h : s.Canon)
    (hf : ∀ a0 a1, a0.Canon → (f a0 a1).Canon) : (s.vaccess t l ws kind f).Canon := by
  unfold State.vaccess
  grind [resolveAll, pageFault, Res.Canon]
theorem fetchV {s : State} {v keep x} (h : s.Canon) : (s.fetchV v keep x).1.Canon := by
  unfold State.fetchV
  dsimp only
  split
  · exact h.of_mem rfl
  · exact sendRead (h.of_mem rfl)
theorem loadWords {s : State} {v keep base a} (h : s.Canon) : (s.loadWords v keep base a).1.Canon := by
  fun_induction State.loadWords s v keep base a with grind [fetchV]
theorem vload {s : State} {d keep base l} (h : s.Canon) : (s.vload d keep base l).Canon := by
  unfold State.vload
  dsimp only
  split
  · trivial
  · split
    · trivial
    · split
      · trivial
      split
      · split
        · exact modThread (loadWords h)
        · exact writeV (loadWords h)
      · exact h
theorem runVmem {s : State} {g n t kind} {elems : Thread → ℕ → List (ℕ × ℕ × ℕ)} {f : State → Thread → List VAt → Res} (h : s.Canon)
    (hf : ∀ a0 a1 a2, a0.Canon → (f a0 a1 a2).Canon) : NextCanon (Machine.runVmem s g n t kind elems f) := by
  unfold Machine.runVmem
  grind [run, vaccess, Res.Canon]
theorem shadowAll {s : State} {t a} (h : s.Canon) : (s.shadowAll t a).1.Canon := by
  fun_induction State.shadowAll s t a with grind [shadowFor]
theorem vstore {s : State} {v base l} (h : s.Canon) : (s.vstore v base l).Canon := by
  unfold State.vstore
  grind [stackStore, shadowAll, pageFault, storeOrGate, storeWord, Res.Canon, foldl]
theorem setFmt {s : State} {v} {f : Thread → BitVec 24 → Thread} (h : s.Canon) : (s.setFmt v f).Canon := by
  unfold State.setFmt
  dsimp only
  split
  · exact modThread h
  · trivial
theorem fmtFrom {s : State} {p d} (h : s.Canon) : (s.fmtFrom p d).Canon := by
  unfold State.fmtFrom
  split
  · trivial
  split
  · trivial
  split
  · trivial
  · exact modThread h
theorem execFmtld {s : State} {g op} (h : s.Canon) : NextCanon (Machine.execFmtld g op s) := by
  refine run h fun u t hu => ?_
  grind [setFmt, access, goHome, fmtFrom, Res.Canon]
end State.Canon

/-! ### The matrix engine -/

namespace State.Canon
theorem runMx {s : State} {g n} {f : State → Thread → Matrix → Res} (h : s.Canon)
    (hf : ∀ a0 a1 a2, a0.Canon → (f a0 a1 a2).Canon) : NextCanon (Machine.runMx s g n f) := by
  refine run (s := s) h fun u t hu => ?_
  have h1 := hf u t (u.core t.core).mx hu
  have h2 := fun f m => hf (u.modCore t.core f) t m (modCore hu)
  grind [Res.Canon, trapHere, block, modCore]
theorem modMx {s : State} {core} {f : Matrix → Matrix} (h : s.Canon) : (s.modMx core f).Canon := modCore h
theorem execMxset {s : State} {g a} (h : s.Canon) : NextCanon (Machine.execMxset g a s) := by
  unfold Machine.execMxset
  dsimp only
  refine runMx h fun _ _ _ hu => ?_
  split
  · trivial
  split
  · trivial
  · exact threadAfterStores (readBlock hu (fun _ _ => modMx))
theorem execMxrun {s : State} {g cl} (h : s.Canon) : NextCanon (Machine.execMxrun g cl s) := by
  unfold Machine.execMxrun
  refine runMx h fun _ _ _ hu => ?_
  split
  · trivial
  · trivial
  · exact threadAfterStores (modMx hu)
theorem mxSend {s : State} {t cap b cl} (h : s.Canon) : (s.mxSend t cap b cl).Canon := by
  unfold State.mxSend
  dsimp only
  split
  · exact orphaned h
  split
  · trivial
  · exact request (bumpId h)
theorem execMxsend {s : State} {g a b cl} (h : s.Canon) : NextCanon (Machine.execMxsend g a b cl s) := by
  refine run h fun u t hu => ?_
  grind [mxSend, threadAfterStores, readBlock, block, Res.Canon]
theorem execTard {s : State} {g t rm k d tile row} (h : s.Canon) : NextCanon (Machine.execTard g t rm k d tile row s) := by
  unfold Machine.execTard
  dsimp only
  refine runMx h fun _ _ _ hu => ?_
  split
  · trivial
  split
  · trivial
  · exact writeV (raise (modThread hu))
theorem execTawr {s : State} {g k a tile row} (h : s.Canon) : NextCanon (Machine.execTawr g k a tile row s) := by
  unfold Machine.execTawr
  dsimp only
  refine runMx h fun _ _ _ hu => ?_
  split
  · trivial
  split
  · trivial
  · exact modMx hu
theorem acceptOp {s : State} {t m tile chain cl} (h : s.Canon) : (s.acceptOp t m tile chain cl).Canon := by
  unfold State.acceptOp
  split
  · trivial
  · exact modMx h
theorem execTacc {s : State} {g tile a b} (h : s.Canon) : NextCanon (Machine.execTacc g tile a b s) := by
  unfold Machine.execTacc
  dsimp only
  refine runMx h fun _ _ _ hu => ?_
  split
  · trivial
  split
  · trivial
  split
  · trivial
  · exact acceptOp hu
theorem execTaq {s : State} {g wt d} (h : s.Canon) : NextCanon (Machine.execTaq g wt d s) := by
  unfold Machine.execTaq
  refine runMx h fun _ _ _ hu => ?_
  split
  · trivial
  · exact write hu
theorem execMxcap {s : State} {g d a} (h : s.Canon) : NextCanon (Machine.execMxcap g d a s) := by
  unfold Machine.execMxcap
  dsimp only
  refine runMx h fun _ _ _ hu => ?_
  split
  · trivial
  split
  · exact write (modMx hu)
  · exact write (modMx (bumpFree hu))
theorem mxSignal {s : State} {core c} (h : s.Canon) : (s.mxSignal core c).Canon := ifElse (signal h) (ifElse h (sendFlit h))
theorem mxReport {s : State} {core c st} (h : s.Canon) : ∀ t, s.mxReport core c st = some t → t.Canon := by
  intro t e
  unfold State.mxReport at e
  grind [writeRange, Got.Canon]
theorem mxStall {s : State} {core c va} (h : s.Canon) : (s.mxStall core c va).Canon := modMx (stallMsg h)
theorem mxReject {s : State} {core c code here} (h : s.Canon) : (s.mxReject core c code here).Canon := by
  unfold State.mxReject
  split
  · next e => exact mxSignal (ifElse (modMx (mxReport h _ e)) (mxReport h _ e))
  · exact modMx (stallMsg h)
theorem mxRejects {s : State} {core lost} (h : s.Canon) : (s.mxRejects core lost).Canon :=
  foldl (modMx h) fun _ _ => mxReject
theorem mxComplete {s : State} {core} (h : s.Canon) : (s.mxComplete core).Canon := by
  unfold State.mxComplete
  dsimp only
  split
  · exact h
  split
  · split
    · exact mxStall h
    · next e => exact ownerGone (mxSignal (modMx (mxReport h _ e)))
  · exact ifElse h (mxRejects h)
theorem engcArrive {s : State} {core who cap b cl from_} (h : s.Canon) :
    ∀ t, s.engcArrive core who cap b cl from_ = some t → t.Canon := by
  intro t e
  unfold State.engcArrive at e
  grind [mxReject, modMx]
theorem execRemoteCommandArrival {s : State} {msg} (h : s.Canon) : NextCanon (Machine.execRemoteCommandArrival msg s) := by
  unfold Machine.execRemoteCommandArrival
  grind [atHome, engcArrive, NextCanon]
theorem pinLine {s : State} {core c l} (h : s.Canon) : (s.pinLine core c l).Canon := by
  unfold State.pinLine
  split
  · exact h
  split
  · next e => exact of_pair (resolve h) e
  · next e => exact of_pair (resolve h) e
  · next e =>
      split
      · exact of_pair (resolve h) e
      · exact modMx (of_pair (resolve h) e)
theorem pinLines {s : State} {core c a} (h : s.Canon) : (s.pinLines core c a).Canon := by
  fun_induction State.pinLines s core c a with grind [pinLine, Got.Canon]
theorem pinRead {s : State} {core c a n} (h : s.Canon) : (s.pinRead core c a n).Canon := by
  unfold State.pinRead
  grind [pinLines, Got.Canon]
theorem readRows {s : State} {core c f rows base str sc scs k0 n} (h : s.Canon) :
    (s.readRows core c f rows base str sc scs k0 n).Canon := by
  unfold State.readRows
  grind [pinRead, Got.Canon, getFoldl]
theorem mxGroups {s : State} {core c h1 a} (h : s.Canon) : (s.mxGroups core c h1 a).Canon := by
  fun_induction State.mxGroups s core c h1 a with grind [modMx, mxStall, readRows, Got.Canon]
theorem mxRun {s : State} {core} (h : s.Canon) : (s.mxRun core).Canon := by
  unfold State.mxRun
  dsimp only
  split
  · exact h
  split
  · split
    · exact modMx h
    · exact mxGroups (ifElse (modMx h) h)
  · exact h
theorem execMxCommandStart {s : State} {core} (h : s.Canon) : NextCanon (Machine.execMxCommandStart core s) := by
  unfold Machine.execMxCommandStart
  dsimp only
  split
  · exact mxRun h
  · split
    · exact mxRun (modMx h)
    · exact h
theorem opDone {s : State} {core o code fl} (h : s.Canon) : (s.opDone core o code fl).Canon := ownerGone (signal (modMx h))
theorem execTazPerform {s : State} {core} (h : s.Canon) : NextCanon (Machine.execTazPerform core s) := by
  unfold Machine.execTazPerform
  dsimp only
  split
  · exact opDone (modMx h)
  · exact h
theorem setOp {s : State} {core o ch fl} (h : s.Canon) : (s.setOp core o ch fl).Canon := modMx h
theorem opStall {s : State} {core o c va} (h : s.Canon) : (s.opStall core o c va).Canon := modMx (stallMsg h)
theorem taccTake {s : State} {core o ch} (h : s.Canon) : (s.taccTake core o ch).Canon := by
  unfold State.taccTake
  grind [setOp, modMx, resolve, opDone, opStall, tagsChanged, setTag]
theorem taccSend {s : State} {core o ch i} (h : s.Canon) : (s.taccSend core o ch i).Canon := by
  unfold State.taccSend
  dsimp only
  split
  · exact ifElse (opDone h) (setOp h)
  split
  · next e => exact opDone (of_pair (resolve h) e)
  · next e => exact opStall (of_pair (resolve h) e)
  · next e =>
      split
      · exact h
      split
      · next e2 => exact setOp (of_ok (writeRange (of_pair (resolve h) e)) e2)
      · next e2 => exact opDone (of_bad (writeRange (of_pair (resolve h) e)) e2)
      · next e2 => exact opStall (of_absent (writeRange (of_pair (resolve h) e)) e2)
theorem taccRow {s : State} {core acc row a} (h : s.Canon) : (s.taccRow core acc row a).Canon := by
  fun_induction State.taccRow s core acc row a with grind [taccTake, taccSend]
theorem execTaccRow {s : State} {core} (h : s.Canon) : NextCanon (Machine.execTaccRow core s) := by
  unfold Machine.execTaccRow
  grind [opDone, taccRow, NextCanon, foldl]
end State.Canon

/-! ### The copy port -/

namespace State.Canon
theorem readDescs {s : State} {c a a1} (h : s.Canon) : (s.readDescs c a a1).2.Canon := by
  fun_induction State.readDescs s c a a1 with grind [readRange, Got.Canon]
theorem readOp {s : State} {c op} (h : s.Canon) : (s.readOp c op).Canon := by
  unfold State.readOp
  grind [readDescs, Got.Canon]
theorem modQueue {s : State} {core q} {f : CopyQueue → CopyQueue} (h : s.Canon) : (s.modQueue core q f).Canon := modCore h
theorem modCmd {s : State} {core q} {f : CopyCmd → CopyCmd} (h : s.Canon) : (s.modCmd core q f).Canon := modQueue h
theorem headTest {s : State} {core q} (h : s.Canon) : (s.headTest core q).Canon := by
  unfold State.headTest
  split
  · exact ifElse (modCmd h) h
  · exact h
theorem accept {s : State} {t q op cl} (h : s.Canon) : (s.accept t q op cl).Canon :=
  ifElse (headTest (modQueue h)) (modQueue h)
theorem copyIssue {s : State} {t q cl acb op} (h : s.Canon) : (s.copyIssue t q cl acb op).Canon := by
  unfold State.copyIssue
  grind [threadAfterStores, readOp, accept, Got.Canon, Res.Canon]
theorem execCpy {s : State} {g q dec cd a b cl} (h : s.Canon) : NextCanon (Machine.execCpy g q dec cd a b cl s) := by
  unfold Machine.execCpy
  dsimp only
  refine run h fun _ _ hu => ?_
  split
  · trivial
  split
  · trivial
  · exact copyIssue hu
theorem execCpyx {s : State} {g a b cl} (h : s.Canon) : NextCanon (Machine.execCpyx g a b cl s) := by
  unfold Machine.execCpyx
  dsimp only
  refine run h fun _ _ hu => ?_
  split
  · trivial
  split
  · trivial
  · exact copyIssue hu
theorem execStor {s : State} {g wr q a b cl} (h : s.Canon) : NextCanon (Machine.execStor g wr q a b cl s) := by
  unfold Machine.execStor
  dsimp only
  refine run h fun _ _ hu => ?_
  split
  · trivial
  split
  · trivial
  · exact copyIssue hu
theorem gotThen {α β : Type} {r : Got α} {f : State → α → Got β} (hr : r.Canon)
    (hf : ∀ a0 a1, a0.Canon → (f a0 a1).Canon) : (Machine.Got.then r f).Canon := by
  unfold Machine.Got.then
  grind [Got.Canon]
theorem getElem {s : State} {c x k} (h : s.Canon) : (s.getElem c x k).Canon := readBits h
theorem imageBits {s : State} {c x b n} (h : s.Canon) : (s.imageBits c x b n).Canon := by
  unfold State.imageBits
  grind [gotThen, getElem, Got.Canon, getFoldl]
theorem getElems {s : State} {c x k n} (h : s.Canon) : (s.getElems c x k n).Canon := by
  unfold State.getElems
  grind [gotThen, getElem, Got.Canon, getFoldl]
theorem encUnit {s : State} {c codec x data scale aux fa u pos} (h : s.Canon) :
    (s.encUnit c codec x data scale aux fa u pos).Canon := by
  unfold State.encUnit
  split
  · split
    · exact h
    · exact gotThen (getElem h) fun _ _ hu => hu
  · split
    · split
      · exact h
      · exact gotThen (getElem h) fun _ _ hu => hu
    · split
      · split
        · exact h
        · exact gotThen (imageBits h) fun _ _ hu => hu
      · split
        · exact h
        · exact gotThen (getElems h) fun _ _ hu => hu
theorem decUnit {s : State} {c codec x data scale aux fa u pos} (h : s.Canon) :
    (s.decUnit c codec x data scale aux fa u pos).Canon := by
  unfold State.decUnit
  grind [gotThen, readBits, readRange, Got.Canon]
theorem copyUnit {s : State} {c op u pos} (h : s.Canon) : (s.copyUnit c op u pos).Canon := by
  unfold State.copyUnit
  split
  · exact gotThen (getElem h) fun _ _ hu => hu
  · exact encUnit h
  · exact decUnit h
  · exact h
  · exact h
  · exact h
  · exact h
  · exact h
theorem copyEnd {s : State} {core q code} (h : s.Canon) : (s.copyEnd core q code).Canon := modCmd h
theorem scoutPages {s : State} {core q us ud at_} (h : s.Canon) : (s.scoutPages core q us ud at_).Canon := by
  unfold State.scoutPages
  grind [modQueue, stallMsg, foldl]
theorem scoutHead {s : State} {core q at_} (h : s.Canon) : (s.scoutHead core q at_).Canon := by
  unfold State.scoutHead
  split
  · exact h
  · split
    · exact scoutPages h
    · exact scoutPages h
    · exact scoutPages h
theorem copyStall {s : State} {core q c va} (h : s.Canon) : (s.copyStall core q c va).Canon :=
  scoutHead (modQueue (ifElse h (stallMsg h)))
theorem unstall {s : State} {core q} (h : s.Canon) : (s.unstall core q).Canon := ifElse h (mk_iff.2 (modQueue h))
theorem copyPuts {s : State} {core q l} (h : s.Canon) : (s.copyPuts core q l).1.Canon := by
  fun_induction State.copyPuts s core q l with grind [writeBits, modCmd, copyStall, Got.Canon]
theorem copyMove {s : State} {core q a} (h : s.Canon) : (s.copyMove core q a).Canon := by
  fun_induction State.copyMove s core q a with grind [modCmd, copyUnit, copyEnd, copyStall, copyPuts, Got.Canon]
theorem copyRead {s : State} {core q c} (h : s.Canon) : (s.copyRead core q c).Canon := by
  unfold State.copyRead
  split
  · next e => exact modCmd (of_ok (readOp h) e)
  · next e => exact modCmd (of_bad (readOp h) e)
  · next e => exact copyStall (modCmd (of_absent (readOp h) e))
theorem copyStart {s : State} {core q} (h : s.Canon) : (s.copyStart core q).Canon := by
  unfold State.copyStart
  split
  · exact h
  · split
    · exact copyEnd h
    · exact copyRead h
    · exact copyRead h
    · exact modCmd h
    · exact modCmd h
    · exact ifElse h (copyMove (modCmd h))
    · exact ifElse h (copyMove (modCmd h))
    · exact ifElse h (copyMove (modCmd h))
theorem execCpyCommandStart {s : State} {core q} (h : s.Canon) : NextCanon (Machine.execCpyCommandStart core q s) :=
  copyStart h
theorem copySignal {s : State} {core c} (h : s.Canon) : (s.copySignal core c).Canon := by
  unfold State.copySignal
  dsimp only
  split
  · exact signal h
  · exact ifElse h (h.of_mem rfl)
theorem copyDone {s : State} {core q code} (h : s.Canon) : (s.copyDone core q code).Canon := by
  unfold State.copyDone
  split
  · exact h
  · exact headTest (copySignal (modQueue (unstall h)))
theorem execCpyCommandComplete {s : State} {core q} (h : s.Canon) : NextCanon (Machine.execCpyCommandComplete core q s) := by
  unfold Machine.execCpyCommandComplete
  split
  · split
    · exact copyDone h
    · exact h
  · exact h
theorem cancelAll {s : State} {core q a} (h : s.Canon) : (s.cancelAll core q a).Canon := by
  fun_induction State.cancelAll s core q a with grind [copyDone]
theorem execScout {s : State} {g a q} (h : s.Canon) : NextCanon (Machine.execScout g a q s) := by
  unfold Machine.execScout
  dsimp only
  refine run h fun _ _ hu => ?_
  split
  · trivial
  · exact ifElse (scoutHead (modQueue hu)) (modQueue hu)
theorem placeRecord {s : State} {c acb base size kind n body} (h : s.Canon) :
    (s.placeRecord c acb base size kind n body).Canon := by
  unfold State.placeRecord
  dsimp only
  refine gotThen (readRange h) fun _ _ hu => ?_
  split
  · exact hu
  split
  · exact hu
  split <;> exact hu
theorem execArenaPlacement {s : State} {core q} (h : s.Canon) : NextCanon (Machine.execArenaPlacement core q s) := by
  unfold Machine.execArenaPlacement
  dsimp only
  repeat' split
  all_goals grind [NextCanon, Got.Canon, copyEnd, copyPuts, imageBits, copyStall, resolve, modCmd, bumpId, placeRecord]
end State.Canon

/-! ### Storage, streams and the scarab -/

namespace State.Canon
theorem execStorageBlockCheck {s : State} {core q} (h : s.Canon) : NextCanon (Machine.execStorageBlockCheck core q s) := by
  unfold Machine.execStorageBlockCheck
  split
  · exact h
  · split
    · exact ifElse h (ifElse (modCmd h) (ifElse (modCmd h) (scoutHead (modCmd h))))
    · exact h
theorem storageRead {s : State} {core c wr dev blk mem} (h : s.Canon) : (s.storageRead core c wr dev blk mem).Canon := by
  unfold State.storageRead
  split
  · exact readRange h
  · exact h
theorem storageWrite {s : State} {pkg dev blk v} (h : s.Canon) : (s.storageWrite pkg dev blk v).Canon := modPkg h
theorem execStorageBlockComplete {s : State} {core q block} (h : s.Canon) :
    NextCanon (Machine.execStorageBlockComplete core q block s) := by
  unfold Machine.execStorageBlockComplete
  dsimp only
  repeat' split
  all_goals grind [NextCanon, Got.Canon, copyPuts, copyStall, storageRead, storageWrite, modCmd]
theorem strmEof {n} : (Machine.strmEof n).Canon := by trivial
theorem execStrm {s : State} {g wr sm a} (h : s.Canon) : NextCanon (Machine.execStrm g wr sm a s) := by
  refine run h fun u t hu => ?_
  grind [threadAfterStores, readBlock, modThread, Res.Canon]
theorem streamStep {α : Type} {s : State} {x access} {r : Got α} {f : State → α → Res} (hr : r.Canon)
    (hf : ∀ a0 a1, a0.Canon → (f a0 a1).Canon) : (Machine.streamStep s x access r f).Canon := by
  cases r with
  | ok u a => exact hf u a hr
  | bad u e va => trivial
  | absent u va => exact pageFault hr
theorem streamNext {s : State} {sm x} (h : s.Canon) : (s.streamNext sm x).Canon := modThread h
theorem execStrcGet {s : State} {g d sm} (h : s.Canon) : NextCanon (Machine.execStrcGet g d sm s) := by
  unfold Machine.execStrcGet
  refine run h fun _ _ hu => ?_
  split
  · exact strmEof
  · split
    · exact strmEof
    · exact streamStep (readBits hu) fun _ _ hu => write (streamNext hu)
theorem execStrcPut {s : State} {g sm a} (h : s.Canon) : NextCanon (Machine.execStrcPut g sm a s) := by
  refine run h fun u t hu => ?_
  grind [strmEof, streamStep, writeBits, modThread, Res.Canon]
theorem execStrcEnd {s : State} {g sm} (h : s.Canon) : NextCanon (Machine.execStrcEnd g sm s) := by
  unfold Machine.execStrcEnd
  refine run h fun _ _ hu => ?_
  split
  · exact strmEof
  · split
    · trivial
    · exact modThread hu
theorem drainPuts {s : State} {c a a1} (h : s.Canon) : (s.drainPuts c a a1).1.Canon := by
  fun_induction State.drainPuts s c a a1 with grind [writeBits, Got.Canon]
theorem streamMove {s : State} {tid} (h : s.Canon) : (s.streamMove tid).Canon := by
  unfold State.streamMove
  grind [drainPuts, modThread, mk_iff, foldl]
theorem streamsMove {s : State} (h : s.Canon) : s.streamsMove.Canon := foldl h fun _ _ => streamMove
theorem execStrcQ {s : State} {g d sm} (h : s.Canon) : NextCanon (Machine.execStrcQ g d sm s) := by
  unfold Machine.execStrcQ
  refine run h fun _ _ hu => ?_
  split
  · exact strmEof
  · exact write hu
theorem execCustItemEnqueue {s : State} {core q} (h : s.Canon) : NextCanon (Machine.execCustItemEnqueue core q s) := by
  unfold Machine.execCustItemEnqueue
  split
  · exact h
  · exact ifElse h (ifElse (copyEnd h) (modCore (modCmd h)))
theorem execQwait {s : State} {g} (h : s.Canon) : NextCanon (Machine.execQwait g s) := by
  unfold Machine.execQwait
  refine run h fun _ _ hu => ?_
  split
  · trivial
  · exact hu
theorem execQtake {s : State} {g d} (h : s.Canon) : NextCanon (Machine.execQtake g d s) := by
  unfold Machine.execQtake
  dsimp only
  refine run h fun _ _ hu => ?_
  split
  · trivial
  split
  · trivial
  · split
    · trivial
    · exact write (modCore hu)
theorem modItem {s : State} {core} {f : WorkItem → WorkItem} (h : s.Canon) : (s.modItem core f).Canon := modCore h
theorem onItem {s : State} {t out} {f : WorkItem → CopyCmd → Tensor → ℕ → Res}
    (hf : ∀ a0 a1 a2 a3, (f a0 a1 a2 a3).Canon) : (Machine.onItem s t out f).Canon := by
  unfold Machine.onItem
  grind [Res.Canon]
theorem itemAccess {α : Type} {s : State} {t i c pos} {r : Got α} {f : State → α → Res} (h : s.Canon) (hr : r.Canon)
    (hf : ∀ a0 a1, a0.Canon → (f a0 a1).Canon) : (Machine.itemAccess s t i c pos r f).Canon := by
  cases r with
  | ok u a => exact hf u a hr
  | bad u e va => exact trapHere (modItem (copyEnd hr))
  | absent u va => exact block (copyStall h)
theorem itemRead {s : State} {core i c x data n} (h : s.Canon) : (s.itemRead core i c x data n).Canon := by
  unfold State.itemRead
  split
  · exact readBits h
  · exact imageBits h
theorem itemWrite {s : State} {t i c l} {f : State → Res} (h : s.Canon) (hf : ∀ a0, a0.Canon → (f a0).Canon) :
    (Machine.itemWrite s t i c l f).Canon := by
  unfold Machine.itemWrite
  grind [copyPuts, trapHere, modItem, copyEnd, block, Res.Canon]
theorem bitCount {t n} {f : ℕ → Res} (hf : ∀ a0, (f a0).Canon) : (Machine.bitCount t n f).Canon := by
  unfold Machine.bitCount
  grind [Res.Canon]
theorem bsRead {s : State} {t d n advance} (h : s.Canon) : (s.bsRead t d n advance).Canon := by
  unfold State.bsRead
  grind [bitCount, onItem, itemAccess, itemRead, write, modItem, Res.Canon]
theorem bsOut {s : State} {t i c x data n v} {f : State → Res} (h : s.Canon) (hf : ∀ a0, a0.Canon → (f a0).Canon) :
    (s.bsOut t i c x data n v f).Canon := by
  unfold State.bsOut
  grind [itemWrite, modItem]
theorem execBsput {s : State} {g a n} (h : s.Canon) : NextCanon (Machine.execBsput g a n s) := by
  unfold Machine.execBsput
  refine run h fun _ _ hu => ?_
  refine bitCount fun _ => ?_
  refine onItem fun _ _ _ _ => ?_
  split
  · trivial
  · exact bsOut hu fun _ hu => hu
theorem execBsaln {s : State} {g out k} (h : s.Canon) : NextCanon (Machine.execBsaln g out k s) := by
  unfold Machine.execBsaln
  refine run h fun _ _ hu => ?_
  refine onItem fun _ _ _ _ => ?_
  split
  · exact bsOut hu fun _ hu => hu
  · exact modItem hu
theorem bsFlush {s : State} {t} {f : State → Res} (h : s.Canon) (hf : ∀ a0, a0.Canon → (f a0).Canon) :
    (s.bsFlush t f).Canon := by
  unfold State.bsFlush
  grind [onItem, itemWrite, modItem]
theorem execQdone {s : State} {g a} (h : s.Canon) : NextCanon (Machine.execQdone g a s) := by
  unfold Machine.execQdone
  refine run h fun _ _ hu => ?_
  split
  · trivial
  · split
    · exact modCore hu
    · exact bsFlush hu fun _ hu => modCore (copyEnd (modCmd hu))
end State.Canon

/-! ### Monitors, barriers and the wait limit -/

namespace State.Canon
theorem execMarm {s : State} {g m} (h : s.Canon) : NextCanon (Machine.execMarm g m s) := by
  refine run h fun u t hu => ?_
  grind [access, toQueue, modThread, dropCand, modCluster, request, pendOn, Res.Canon]
theorem execMwait {s : State} {g d a} (h : s.Canon) : NextCanon (Machine.execMwait g d a s) := by
  unfold Machine.execMwait
  refine run h fun _ _ hu => ?_
  split
  · exact disarm (write (modThread hu))
  split
  · exact disarm (write (modThread hu))
  split
  · exact disarm (write (modThread hu))
  · exact pendOn hu
theorem mwake {s : State} {tid code} (h : s.Canon) : (s.mwake tid code).Canon := by
  unfold State.mwake
  split
  · exact disarm (complete h)
  · exact h
theorem execMonitorTrigger {s : State} {tid} (h : s.Canon) : NextCanon (Machine.execMonitorTrigger tid s) :=
  ifElse (mwake h) h
theorem execMwaitTimeout {s : State} {tid} (h : s.Canon) : NextCanon (Machine.execMwaitTimeout tid s) := by
  unfold Machine.execMwaitTimeout
  split
  · exact ifElse (mwake h) h
  · exact h
theorem intrWake {s : State} {tid} (h : s.Canon) : (s.intrWake tid).Canon := by
  unfold State.intrWake
  dsimp only
  split
  · exact h
  · exact ifElse h (mwake h)
theorem atBarrier {s : State} {t name} {f : ℕ → ℕ → Res} (h : s.Canon) (hf : ∀ a0 a1, (f a0 a1).Canon) :
    (s.atBarrier t name f).Canon := by
  unfold State.atBarrier
  grind [pendOn, Res.Canon]
theorem execBinit {s : State} {g a b c} (h : s.Canon) : NextCanon (Machine.execBinit g a b c s) := by
  unfold Machine.execBinit
  dsimp only
  refine run h fun _ _ hu => ?_
  refine atBarrier hu fun _ _ => ?_
  split
  · trivial
  split
  · trivial
  split
  · trivial
  · exact releaseWaiters (setBarrier hu)
theorem setMember {s : State} {tid core idx dropped} (h : s.Canon) : (s.setMember tid core idx dropped).Canon := modThread h
theorem arriveAt {s : State} {tid core idx} (h : s.Canon) : (s.arriveAt tid core idx).Canon := setBarrier (setMember h)
theorem arriving {s : State} {t name} {f : ℕ → ℕ → Res} (h : s.Canon) (hf : ∀ a0 a1, (f a0 a1).Canon) :
    (s.arriving t name f).Canon := by
  unfold State.arriving
  grind [atBarrier, Res.Canon]
theorem execBarv {s : State} {g d a} (h : s.Canon) : NextCanon (Machine.execBarv g d a s) :=
  run h fun _ _ hu => arriving hu fun _ _ => write (phaseCheck (arriveAt hu))
theorem setBrk {s : State} {tid b} (h : s.Canon) : (s.setBrk tid b).Canon := modThread h
theorem barWait {s : State} {tid core idx name arrived joined} (h : s.Canon) :
    (s.barWait tid core idx name arrived joined).Canon := pendOn (setBarrier h)
theorem barReturn {s : State} {t core idx brk} (h : s.Canon) : (s.barReturn t core idx brk).Canon := setBrk (acquire h)
theorem execBarw {s : State} {g a b} (h : s.Canon) : NextCanon (Machine.execBarw g a b s) := by
  unfold Machine.execBarw
  dsimp only
  refine run h fun _ _ hu => ?_
  refine atBarrier hu fun _ _ => ?_
  split
  · trivial
  split
  · exact barWait hu
  split
  · exact barReturn hu
  split
  · exact barReturn hu
  · trivial
theorem execBarwA {s : State} {g a} (h : s.Canon) : NextCanon (Machine.execBarwA g a s) := by
  unfold Machine.execBarwA
  dsimp only
  refine run h fun _ _ hu => ?_
  refine arriving hu fun _ _ => ?_
  split
  · exact barWait (arriveAt hu)
  · exact barReturn (phaseCheck (arriveAt hu))
theorem execBdrop {s : State} {g a} (h : s.Canon) : NextCanon (Machine.execBdrop g a s) :=
  run h fun _ _ hu => atBarrier hu fun _ _ => phaseCheck (setMember (setBarrier hu))
theorem unwait {s : State} {tid} (h : s.Canon) : (s.unwait tid).Canon := by
  unfold State.unwait
  dsimp only
  split
  · exact modThread (setBarrier h)
  · exact serveSema (setSema h)
  · exact h
theorem cancelAtHome {s : State} {tid tok} (h : s.Canon) : (s.cancelAtHome tid tok).1.Canon := by
  unfold State.cancelAtHome
  dsimp only
  split
  · exact h.of_mem rfl
  · exact h
theorem execWaitlimExpiry {s : State} {tid} (h : s.Canon) : NextCanon (Machine.execWaitlimExpiry tid s) := by
  unfold Machine.execWaitlimExpiry
  dsimp only
  split
  · exact h
  split
  · split
    · exact rest (modThread (waitlim h))
    · exact waitlim h
  · split
    · exact ifElse (waitlim (cancelAtHome h)) (ifElse (modThread h) (ifElse h (waitlim h)))
    · exact waitlim (unwait h)
end State.Canon

/-! ### Whole-graph instructions -/

namespace State.Canon
theorem stopKeeping {s : State} {e} (h : s.Canon) (he : e.Canon) : (Machine.Stop.keeping e s).Canon := by
  rcases e with ⟨c, a, _ | u⟩ | ⟨va, acc, _ | u⟩ | _ | _
  · exact h
  · exact he
  · exact h
  · exact he
  · trivial
  · trivial
theorem trapOf {α : Type} {cause addr} : WalkCanon (Machine.trapOf cause addr : Except Stop (State × α)) := by trivial
theorem walkAccess {s : State} {t va acc} (h : s.Canon) : WalkCanon (s.walkAccess t va acc) := by
  unfold State.walkAccess
  dsimp only
  split
  · exact trapOf
  · trivial
  · next e => exact of_pair (resolve h) e
theorem wsbAccess {s : State} {t wsb va acc} (h : s.Canon) : WalkCanon (s.wsbAccess t wsb va acc) := by
  unfold State.wsbAccess
  grind [walkAccess, trapOf, WalkCanon, walkBind]
theorem wsbRead {s : State} {t wsb off n} (h : s.Canon) : WalkCanon (s.wsbRead t wsb off n) := by
  unfold State.wsbRead
  grind [wsbAccess, trapOf, WalkCanon, walkBind, walkFoldlM]
theorem wsbWrite {s : State} {t wsb off n v} (h : s.Canon) : WalkCanon (s.wsbWrite t wsb off n v) := by
  unfold State.wsbWrite
  grind [wsbAccess, performFor, tagsChanged, Stop.Canon, WalkCanon, walkBind, walkFoldlM]
theorem walkWrite {s : State} {t va n v} (h : s.Canon) : WalkCanon (s.walkWrite t va n v) := by
  unfold State.walkWrite
  split
  · next e => exact of_ok (writeRange h) e
  · split
    · trivial
    · exact trapOf
  · trivial
theorem walkRead {s : State} {t va n} (h : s.Canon) : WalkCanon (s.walkRead t va n) := by
  unfold State.walkRead
  split
  · next e => exact of_ok (readRange h) e
  · split
    · trivial
    · exact trapOf
  · trivial
theorem modWatch {s : State} {cl wid} {f : Watch → Watch} (h : s.Canon) : (s.modWatch cl wid f).Canon := modCluster h
theorem walkLine {s : State} {t w line watched} (h : s.Canon) : WalkCanon (s.walkLine t w line watched) := by
  unfold State.walkLine
  grind [walkAccess, trapOf, modWatch, WalkCanon, walkBind]
theorem graphWord {s : State} {t w va} (h : s.Canon) : WalkCanon (s.graphWord t w va) :=
  walkBind (walkLine h) fun _ _ h0 => h0
theorem typeOf {s : State} {t w h1 taddr} (h : s.Canon) : WalkCanon (s.typeOf t w h1 taddr) := by
  unfold State.typeOf
  grind [trapOf, walkLine, WalkCanon, walkBind]
theorem wsbView {s : State} {t wsb} (h : s.Canon) : WalkCanon (s.wsbView t wsb) :=
  walkBind (wsbRead h) fun _ _ h0 => walkBind (wsbRead h0) fun _ _ h1 => h1
theorem putCounts {s : State} {t wsb objs depth} (h : s.Canon) : WalkCanon (s.putCounts t wsb objs depth) := wsbWrite h
theorem visited {s : State} {t wsb objs} (h : s.Canon) : WalkCanon (s.visited t wsb objs) := wsbRead h
theorem holdWatch {s : State} {cl w} (h : s.Canon) : (s.holdWatch cl w).Canon := modCluster h
theorem readArena {s : State} {t dest} (h : s.Canon) : WalkCanon (s.readArena t dest) := by
  unfold State.readArena
  grind [trapOf, walkRead, walkAccess, WalkCanon, walkBind]
theorem walkBad {α : Type} {s : State} {t q w0} (h : s.Canon) : WalkCanon (s.walkBad t q w0 : Except Stop (State × α)) :=
  walkBind (wsbWrite h) fun _ _ h0 => h0
theorem walkArena {s : State} {t q v} (h : s.Canon) : WalkCanon (s.walkArena t q v) := by
  unfold State.walkArena
  grind [readArena, walkBad, WalkCanon]
theorem walkCheck {s : State} {t q w0 v} (h : s.Canon) : WalkCanon (s.walkCheck t q w0 v) := by
  unfold State.walkCheck
  grind [walkArena, stopKeeping, wsbWrite, walkBad, WalkCanon, walkBind]
theorem walkFresh {s : State} {t q v} (h : s.Canon) : WalkCanon (s.walkFresh t q v) := by
  unfold State.walkFresh
  refine walkBind (wsbRead h) fun s1 _ h1 => walkBind (wsbWrite h1) fun s2 _ h2 => walkBind (wsbWrite h2) fun s3 _ h3 =>
    walkBind (wsbWrite h3) fun s4 _ h4 => walkBind (walkCheck (holdWatch (modCluster h4))) fun s5 _ h5 => h5
theorem walkResume {s : State} {t q v} (h : s.Canon) : WalkCanon (s.walkResume t q v) := by
  unfold State.walkResume
  grind [wsbRead, walkCheck, holdWatch, wsbWrite, modCluster, WalkCanon, walkBind]
theorem walkOpen {s : State} {t q} (h : s.Canon) : WalkCanon (s.walkOpen t q) := by
  unfold State.walkOpen
  grind [wsbRead, walkResume, walkFresh, walkBind]
theorem arenaTrap {α : Type} {s : State} {t w x} (h : s.Canon) :
    WalkCanon (s.arenaTrap t w x : Except Stop (State × α)) :=
  walkBind (wsbRead h) fun _ _ h0 => walkBind (wsbWrite h0) fun _ _ h1 => h1
theorem walkRestart {s : State} {t w tail restarted} (h : s.Canon) : WalkCanon (s.walkRestart t w tail restarted) :=
  walkBind (wsbWrite h) fun _ _ h0 => walkBind (putCounts h0) fun _ _ h1 => h1
theorem differ {s : State} {t w k d v1 v2} (h : s.Canon) : WalkCanon (s.differ t w k d v1 v2) :=
  walkBind (wsbWrite h) fun _ _ h0 => walkBind (wsbWrite h0) fun _ _ h1 => h1
theorem reachHeader {s : State} {t w x g a taddr} (h : s.Canon) : WalkCanon (s.reachHeader t w x g a taddr) := by
  unfold State.reachHeader
  grind [graphWord, trapOf, WalkCanon, walkBind]
theorem copyState {s : State} {t w a} (h : s.Canon) : WalkCanon (s.copyState t w a) := walkBind (wsbRead h) fun _ _ h0 => h0
/-- The parts of `discover`, from the last to the first: `visit` follows the second header; in it `counts`,
    `frame` and `enter`
write the new object's entry, and `place` finds its place in the arena. -/
theorem discover {s : State} {t w x a1 a2 ta1 ta2 from_} (h : s.Canon) :
    WalkCanon (s.discover t w x a1 a2 ta1 ta2 from_) := by
  unfold State.discover
  extract_lets wsb two
  split
  · exact h
  split
  · trivial
  split
  · trivial
  split
  · trivial
  refine walkBind (reachHeader h) fun s1 h1 hs1 => ?_
  dsimp -zeta only
  extract_lets visit
  have hvisit : ∀ p, p.1.Canon → WalkCanon (visit p) := by
    intro p hp
    dsimp -zeta only [visit]
    clear visit
    extract_lets equal counts frame enter place
    have hcounts : ∀ p, p.1.Canon → WalkCanon (counts p) := fun p hp => walkBind (putCounts hp) fun _ _ h => h
    have hframe : ∀ p, p.1.Canon → WalkCanon (frame p) := by
      intro p hp
      dsimp only [frame]
      split
      · exact walkBind (wsbWrite hp) fun u a => hcounts (u, a)
      · exact walkOk (hcounts _ hp)
    have henter : ∀ u n, u.Canon → WalkCanon (enter u n) := by
      intro u n hu
      refine walkBind (wsbWrite hu) fun u1 _ hu1 => ?_
      dsimp only
      split
      · exact walkBind (wsbWrite hu1) fun u a => hframe (u, a)
      · exact walkOk (hframe _ hu1)
    clear_value enter
    have hplace : ∀ p, p.1.Canon → WalkCanon (place p) := by
      intro p hp
      dsimp -zeta only [place]
      split
      · refine walkBind (henter _ _ hp) fun u1 _ hu1 => ?_
        grind [WalkCanon, differ]
      · refine walkBind (copyState hp) fun u1 _ hu1 => ?_
        dsimp -zeta only
        extract_lets grown
        split
        · exact arenaTrap hu1
        · exact hu1
        · exact walkRestart hu1
        · refine walkBind (walkWrite hu1) fun u2 _ hu2 => ?_
          dsimp only
          split
          · refine walkBind (wsbRead hu2) fun u3 _ hu3 => walkBind (walkWrite hu3) fun u4 _ hu4 => ?_
            exact walkBind (wsbWrite hu4) fun _ _ => henter _ _
          · exact walkOk (walkBind (wsbWrite hu2) fun _ _ => henter _ _)
    clear_value place
    split
    · exact walkBind (typeOf hp) fun u a => hplace (u, a)
    · exact walkOk (hplace _ hp)
  clear_value visit
  split
  · exact walkBind (reachHeader hs1) fun u a => hvisit (u, a)
  · exact walkOk (hvisit _ hs1)
theorem serialise {s : State} {t w x vl} (h : s.Canon) : WalkCanon (s.serialise t w x vl) := by
  unfold State.serialise
  grind [graphWord, typeOf, WalkCanon, walkBind, walkFoldlM]
theorem scanned {s : State} {t w x} (h : s.Canon) : WalkCanon (s.scanned t w x) := by
  unfold State.scanned
  grind [visited, serialise, copyState, walkRestart, arenaTrap, WalkCanon, walkBind]
theorem scan {s : State} {t w x} (h : s.Canon) : WalkCanon (s.scan t w x) := by
  unfold State.scan
  refine walkBind (wsbRead h) fun s1 fr h1 => walkBind (visited h1) fun s2 vl h2 => walkBind (graphWord h2) fun s3 hd h3 => ?_
  dsimp only
  split
  · refine walkBind (copyState h3) fun s4 _ h4 => walkOk ?_
    dsimp only
    split
    · exact walkBind (putCounts h4) fun _ _ h => h
    · refine walkBind (typeOf h4) fun s5 e h5 => walkBind (graphWord h5) fun s6 v1 h6 => ?_
      grind [walkBind, walkOk, WalkCanon, wsbWrite, graphWord, differ, discover, walkWrite]
  · refine walkOk ?_
    dsimp only
    split
    · exact walkBind (putCounts h3) fun _ _ h => h
    · refine walkBind (typeOf h3) fun s5 e h5 => walkBind (graphWord h5) fun s6 v1 h6 => ?_
      grind [walkBind, walkOk, WalkCanon, wsbWrite, graphWord, differ, discover, walkWrite]
theorem reserveArena {s : State} {t w x} (h : s.Canon) : WalkCanon (s.reserveArena t w x) := by
  unfold State.reserveArena
  grind [readArena, bumpId, wsbRead, walkRestart, Stop.Canon, WalkCanon, walkBind]
theorem walkStep {s : State} {t w} (h : s.Canon) : WalkCanon (s.walkStep t w) := by
  unfold State.walkStep
  grind [wsbView, reserveArena, scan, scanned, trapOf, discover, walkBind]
theorem engineFree {s : State} {cl} (h : s.Canon) : (s.engineFree cl).Canon := modCluster h
theorem walkStop {s : State} {cl tid e} (h : s.Canon) (he : e.Canon) : (s.walkStop cl tid e).Canon := by
  rcases e with ⟨c, a, _ | u⟩ | ⟨va, acc, _ | u⟩ | _ | _
  · exact takeTrap (engineFree h)
  · exact takeTrap (engineFree he)
  · exact pageFault (modThread (engineFree (h.of_mem rfl)))
  · exact pageFault (modThread (engineFree (State.Canon.of_mem he rfl)))
  · exact h
  · exact h
theorem keepFlag {old s : State} {cl wid} (h : s.Canon) : (old.keepFlag s cl wid).Canon := by
  unfold State.keepFlag
  split
  · exact modWatch h
  · exact h
theorem walkRetire {s : State} {cl tid v} (h : s.Canon) : (s.walkRetire cl tid v).Canon := by
  unfold State.walkRetire
  split
  · exact ifElse (raise (complete (engineFree h))) (complete (engineFree h))
  · exact h
theorem execGraphWalkStart {s : State} {cluster} (h : s.Canon) : NextCanon (Machine.execGraphWalkStart cluster s) := by
  unfold Machine.execGraphWalkStart
  grind [engineFree, modCluster, walkOpen, keepFlag, walkStop, NextCanon, WalkCanon]
theorem execGraphLineRead {s : State} {cluster} (h : s.Canon) : NextCanon (Machine.execGraphLineRead cluster s) := by
  unfold Machine.execGraphLineRead
  grind [walkStep, keepFlag, wsbRead, walkRetire, walkStop, modCluster, NextCanon, WalkCanon]
theorem execGraphSweep {s : State} {cluster} (h : s.Canon) : NextCanon (Machine.execGraphSweep cluster s) := by
  unfold Machine.execGraphSweep
  split
  · exact h
  · exact ifElse h (modCluster h)
theorem dropWatch {s : State} {cl wid} (h : s.Canon) : (s.dropWatch cl wid).Canon := modCluster h
theorem walkFinish {s : State} {cl t w mutd code} (h : s.Canon) : WalkCanon (s.walkFinish cl t w mutd code) := by
  unfold State.walkFinish
  grind [wsbRead, wsbWrite, walkRetire, dropWatch, WalkCanon, walkBind]
theorem walkSettle {s : State} {cl t w} (h : s.Canon) : WalkCanon (s.walkSettle cl t w) := by
  unfold State.walkSettle
  grind [modCluster, wsbRead, wsbWrite, WalkCanon, walkBind]
theorem publish {s : State} {t w x a} (h : s.Canon) : WalkCanon (s.publish t w x a) := by
  unfold State.publish
  grind [copyState, readArena, walkWrite, WalkCanon, walkBind]
theorem walkAsk {s : State} {cl w addr} (h : s.Canon) : (s.walkAsk cl w addr).Canon := bumpId (modCluster (modThread h))
theorem sendTask {s : State} {cl t w x start seq} (h : s.Canon) : WalkCanon (s.sendTask cl t w x start seq) := by
  unfold State.sendTask
  dsimp only
  split
  · exact trapOf
  · split
    · exact trapOf
    · exact request (walkAsk h)
theorem releaseOne {s : State} {cl t w x k} (h : s.Canon) : WalkCanon (s.releaseOne cl t w x k) := by
  unfold State.releaseOne
  grind [wsbRead, walkRead, walkWrite, walkAccess, stopKeeping, request, walkAsk, Stop.Canon, WalkCanon, walkBind]
theorem walkSecond {s : State} {cl t w} (h : s.Canon) : WalkCanon (s.walkSecond cl t w) :=
  walkBind (wsbWrite h) fun _ _ h0 => modCluster h0
theorem releaseStep {s : State} {cl t w x mutd} (h : s.Canon) : WalkCanon (s.releaseStep cl t w x mutd) := by
  unfold State.releaseStep
  grind [wsbRead, walkFinish, releaseOne, walkRead, trapOf, walkSecond, dropWatch, WalkCanon, walkBind]
theorem sendStep {s : State} {cl t w x a mutd code} (h : s.Canon) : WalkCanon (s.sendStep cl t w x a mutd code) := by
  unfold State.sendStep
  grind [wsbRead, walkFinish, sendTask, publish, wsbWrite, walkSecond, walkBind]
theorem walkEnd {s : State} {cl t w code mutd} (h : s.Canon) : WalkCanon (s.walkEnd cl t w code mutd) := by
  unfold State.walkEnd
  grind [wsbView, walkSettle, walkFinish, releaseStep, publish, sendStep, walkBind]
theorem execGraphWalkComplete {s : State} {cluster} (h : s.Canon) : NextCanon (Machine.execGraphWalkComplete cluster s) := by
  unfold Machine.execGraphWalkComplete
  grind [walkEnd, modCluster, walkStop, NextCanon, WalkCanon]
theorem dropWalks {s : State} {cl} {old : BitVec 12 → BitVec 16 → Bool} (h : s.Canon) : (s.dropWalks cl old).Canon :=
  modCluster h
theorem walkSuspend {s : State} {cl tid} (h : s.Canon) : (s.walkSuspend cl tid).Canon := by
  unfold State.walkSuspend
  grind [walkSettle, cancelAtHome, modThread, modCluster, WalkCanon]
theorem walkIssue {s : State} {op g d a b} (h : s.Canon) : NextCanon (Machine.walkIssue op g d a b s) := by
  unfold Machine.walkIssue
  dsimp only
  refine run h fun _ _ hu => ?_
  split
  · trivial
  · exact threadAfterStores (modCluster (pendOn hu))
theorem gtypeEntry {s : State} {t a h1} {k : State → Option TypeEnt → Res} (h : s.Canon)
    (hk : ∀ a0 a1, a0.Canon → (k a0 a1).Canon) : (s.gtypeEntry t a h1 k).Canon := by
  unfold State.gtypeEntry
  grind [readRange, pageFault, Got.Canon, Res.Canon]
theorem execGtype {s : State} {g d a p} (h : s.Canon) : NextCanon (Machine.execGtype g d a p s) := by
  unfold Machine.execGtype
  dsimp only
  refine run h fun _ _ hu => ?_
  split
  · trivial
  refine access hu fun _ _ _ hu => ?_
  split
  · exact goHome hu
  split
  · trivial
  split
  · trivial
  split
  · trivial
  · exact gtypeEntry hu fun _ _ => write
theorem walkQuery {s : State} {t wsb} (h : s.Canon) : WalkCanon (s.walkQuery t wsb) := walkBind (wsbRead h) fun _ _ h0 => h0
theorem execGqry {s : State} {g d a} (h : s.Canon) : NextCanon (Machine.execGqry g d a s) := by
  refine run h fun u t hu => ?_
  grind [walkQuery, write, pageFault, WalkCanon, Res.Canon]
end State.Canon

/-! ### Multicast and collectives -/

namespace State.Canon
theorem modTrestle {s : State} {e} {f : Trestle → Trestle} (h : s.Canon) : (s.modTrestle e f).Canon := modCluster h
theorem dropTrestles {s : State} {dom cin gid l} (h : s.Canon) : (s.dropTrestles dom cin gid l).Canon :=
  foldl h fun _ _ => modCluster
theorem execTrestleCombine {s : State} {cluster group} (h : s.Canon) :
    NextCanon (Machine.execTrestleCombine cluster group s) := by
  unfold Machine.execTrestleCombine
  dsimp only
  split
  · exact h
  · split
    · exact modTrestle h
    · exact sendFlit (modTrestle h)
theorem contribAt {s : State} {m} (h : s.Canon) : ∀ t, s.contribAt m = some t → t.Canon := by
  intro t e
  unfold State.contribAt at e
  grind [modTrestle]
theorem execContribArrival {s : State} {msg} (h : s.Canon) : NextCanon (Machine.execContribArrival msg s) :=
  atHome h fun _ _ => contribAt
theorem setupAt {s : State} {m} (h : s.Canon) : ∀ t, s.setupAt m = some t → t.Canon := by
  intro t e
  unfold State.setupAt at e
  grind [reply, dropTrestles, modCluster, sendFlit]
theorem execSetupArrival {s : State} {msg} (h : s.Canon) : NextCanon (Machine.execSetupArrival msg s) :=
  atHome h fun _ _ => setupAt
theorem onDescriptor {s : State} {t p} {f : State → ℕ → List (BitVec 24) → BitVec 16 → Res} (h : s.Canon)
    (hf : ∀ a0 a1 a2 a3, a0.Canon → (f a0 a1 a2 a3).Canon) : (s.onDescriptor t p f).Canon := by
  unfold State.onDescriptor
  grind [threadAfterStores, readBlock, Res.Canon]
theorem execCjoin {s : State} {g d a} (h : s.Canon) : NextCanon (Machine.execCjoin g d a s) := by
  unfold Machine.execCjoin
  refine run h fun _ _ hu => ?_
  refine onDescriptor hu fun _ _ _ _ hu => ?_
  split
  · trivial
  · exact request (awaitReg hu)
theorem groupName {w} {f : BitVec 16 → Res} (hf : ∀ a0, (f a0).Canon) : (Machine.groupName w f).Canon := by
  unfold Machine.groupName
  grind [Res.Canon]
theorem execCjoinLv {s : State} {g d a} (h : s.Canon) : NextCanon (Machine.execCjoinLv g d a s) := by
  unfold Machine.execCjoinLv
  refine run h fun _ _ hu => ?_
  refine groupName fun _ => ?_
  split
  · exact write hu
  · exact write (dropTrestles hu)
theorem execCred {s : State} {g op a b c} (h : s.Canon) : NextCanon (Machine.execCred g op a b c s) := by
  unfold Machine.execCred
  refine run h fun _ _ hu => ?_
  refine groupName fun _ => ?_
  split
  · trivial
  · split
    · trivial
    split
    · trivial
    · exact modTrestle hu
theorem execCmcst {s : State} {g a b c} (h : s.Canon) : NextCanon (Machine.execCmcst g a b c s) := by
  unfold Machine.execCmcst
  refine run h fun _ _ hu => ?_
  refine onDescriptor hu fun _ _ _ _ hu => ?_
  split
  · trivial
  · exact retireWaiting (request hu)
theorem execCrcvMc {s : State} {g d a b} (h : s.Canon) : NextCanon (Machine.execCrcvMc g d a b s) := by
  unfold Machine.execCrcvMc
  refine run h fun _ _ hu => ?_
  refine groupName fun _ => ?_
  split
  · trivial
  · exact write (writeV (modCore hu))
theorem execCrcvRed {s : State} {g d a b} (h : s.Canon) : NextCanon (Machine.execCrcvRed g d a b s) := by
  unfold Machine.execCrcvRed
  refine run h fun _ _ hu => ?_
  refine groupName fun _ => ?_
  split
  · trivial
  · split
    · trivial
    split
    · trivial
    · exact write (writeV (modTrestle hu))
theorem deliver {s : State} {core m data scalar gid} (h : s.Canon) :
    ∀ t, s.deliver core m data scalar gid = some t → t.Canon := by
  intro t e
  unfold State.deliver at e
  grind [modCore]
theorem mcastCore {s : State} {id} (h : s.Canon) : ∀ t, s.mcastCore id = some t → t.Canon := by
  intro t e
  unfold State.mcastCore at e
  grind [deliver, mk_iff, Option.map_eq_some_iff]
theorem execMcastDelivery {s : State} {core msg} (h : s.Canon) : NextCanon (Machine.execMcastDelivery core msg s) := by
  unfold Machine.execMcastDelivery
  split
  · exact h
  · exact ifElse (getD h (mcastCore h)) h
theorem execMcastNode {s : State} {msg} (h : s.Canon) : NextCanon (Machine.execMcastNode msg s) := by
  refine atHome (s := s) h fun u m _ t ht => ?_
  have hc := mcastCore (id := msg) h
  grind [sendFlit, dropMsg, mk_iff, foldl]
end State.Canon

/-! ### The fabric -/

namespace State.Canon
theorem modLink {s : State} {l} {f : Link → Link} (h : s.Canon) : (s.modLink l f).Canon := h.of_mem rfl
theorem modRouter {s : State} {p} {f : Router → Router} (h : s.Canon) : (s.modRouter p f).Canon := h.of_mem rfl
theorem modMsg {s : State} {id} {f : Msg → Msg} (h : s.Canon) : (s.modMsg id f).Canon := by
  unfold State.modMsg
  split
  · exact h.of_mem rfl
  · exact h
theorem routerAnswer {s : State} {p m kind who a} (h : s.Canon) : (s.routerAnswer p m kind who a).Canon :=
  modMsg (sendFlit h)
theorem pairAnswer {s : State} {p m v} (h : s.Canon) : (s.pairAnswer p m v).Canon := by
  unfold State.pairAnswer
  split
  · exact routerAnswer h
  · exact routerAnswer h
  · exact h
theorem pairUp {s : State} {p held id v} (h : s.Canon) : (s.pairUp p held id v).Canon := by
  unfold State.pairUp
  split
  · exact pairAnswer (pairAnswer (dropMsg (dropMsg h)))
  · exact h
theorem execPairMatch {s : State} {held msg} (h : s.Canon) : NextCanon (Machine.execPairMatch held msg s) := by
  unfold Machine.execPairMatch
  split
  · exact h
  · split
    · exact h
    · split
      · exact ifElse (pairUp h) h
      · exact h
theorem execPairHoldExpiry {s : State} {msg} (h : s.Canon) : NextCanon (Machine.execPairHoldExpiry msg s) := by
  unfold Machine.execPairHoldExpiry
  split
  · exact h
  · split
    · exact ifElse (modMsg h) h
    · exact h
theorem tryHold {s : State} {p id m} (h : s.Canon) : ∀ t, s.tryHold p id m = some t → t.Canon := by
  intro t e
  unfold State.tryHold at e
  grind [modMsg]
theorem pairInputs {s : State} {p a} (h : s.Canon) : (s.pairInputs p a).Canon := by
  fun_induction State.pairInputs s p a with grind [pairUp, tryHold, getD]
theorem noteSeen {s : State} {p id} (h : s.Canon) : (s.noteSeen p id).Canon := by
  unfold State.noteSeen
  split
  · exact h
  · split
    · exact h
    · exact ifElse h (modCluster h)
theorem leaveBy {s : State} {p d q id} (h : s.Canon) : (s.leaveBy p d q id).Canon := by
  unfold State.leaveBy
  grind [noteSeen, dropMsg, modMsg]
theorem eject {s : State} {p id m} (h : s.Canon) : (s.eject p id m).Canon :=
  ifElse (orphaned (dropMsg h)) (ifElse (modMsg h) (modMsg h))
theorem route {s : State} {p a a1 a11} (h : s.Canon) : (s.route p a a1 a11).1.Canon := by
  fun_induction State.route s p a a1 a11 with grind [leaveBy, eject]
theorem park {s : State} {id} (h : s.Canon) : (s.park id).Canon := modMsg h
theorem inject {s : State} {p id m free} (h : s.Canon) : (s.inject p id m free).Canon := by
  unfold State.inject
  grind [modRouter, dropMsg, park, pairUp, tryHold, leaveBy, mk_iff]
theorem takeAcks {s : State} {l} (h : s.Canon) : (s.takeAcks l).Canon := ifElse h (modLink h)
theorem transmit {s : State} {l a} (h : s.Canon) : (s.transmit l a).Canon := by
  fun_induction State.transmit s l a with grind [modLink, modMsg]
theorem enterFrom {s : State} {p l} (h : s.Canon) : (s.enterFrom p l).Canon := by
  unfold State.enterFrom
  split
  · split
    · exact ifElse (modMsg h) h
    · exact h
  · exact h
theorem driveLinks {s : State} {p} (h : s.Canon) : (s.driveLinks p).Canon :=
  foldl (foldl h fun _ _ hu => transmit (takeAcks hu)) fun _ _ => enterFrom
theorem execRouterCycle {s : State} {pos} (h : s.Canon) : NextCanon (Machine.execRouterCycle pos s) := by
  unfold Machine.execRouterCycle
  grind [driveLinks, modRouter, pairInputs, route, inject, NextCanon]
theorem execInjectionStarvation {s : State} {pos} (h : s.Canon) : NextCanon (Machine.execInjectionStarvation pos s) := by
  unfold Machine.execInjectionStarvation
  split
  · split
    · exact ifElse (modRouter h) h
    · exact h
  · exact h
theorem imageBack {s : State} {tid m} (h : s.Canon) : (s.imageBack tid m).Canon := by
  unfold State.imageBack
  exact modThread (rest (takeTrap (bumpId (modThread h))))
theorem fencedBack {s : State} {id m} (h : s.Canon) : (s.fencedBack id m).Canon := by
  unfold State.fencedBack
  grind [dropMsg, answer, modThread, dropThread, launchUnjoin, imageBack, mxReject, dropTrestles, park]
theorem parkBack {s : State} {id m} (h : s.Canon) : (s.parkBack id m).Canon := by
  unfold State.parkBack
  dsimp only
  split
  · exact park h
  split
  · exact h
  · split
    · exact ifElse (takeTrap (dropMsg h)) h
    · exact h
theorem execFlitNack {s : State} {msg fenced} (h : s.Canon) : NextCanon (Machine.execFlitNack msg fenced s) := by
  unfold Machine.execFlitNack
  grind [fencedBack, parkBack, modMsg, dropMsg, NextCanon]
theorem execParkedFlitResend {s : State} {msg} (h : s.Canon) : NextCanon (Machine.execParkedFlitResend msg s) := by
  unfold Machine.execParkedFlitResend
  split
  · exact h
  · split
    · exact ifElse (modMsg h) h
    · exact h
theorem modPackets {s : State} {l} {f : Msg → Msg} (h : s.Canon) : (s.modPackets l f).Canon := foldl h fun _ _ => modMsg
theorem execLinkPacketReceive {s : State} {link crcOk} (h : s.Canon) :
    NextCanon (Machine.execLinkPacketReceive link crcOk s) := by
  unfold Machine.execLinkPacketReceive
  dsimp only
  split
  · exact h
  · split
    · exact ifElse h (ifElse (modLink (modMsg h)) (modLink (modPackets h)))
    · exact h
theorem replay {s : State} {l} (h : s.Canon) : (s.replay l).Canon := modPackets h
theorem execLinkReplayTimeout {s : State} {link} (h : s.Canon) : NextCanon (Machine.execLinkReplayTimeout link s) :=
  ifElse (replay h) h
theorem execLinkNegativeAck {s : State} {link} (h : s.Canon) : NextCanon (Machine.execLinkNegativeAck link s) :=
  ifElse (modLink (replay h)) h
theorem execLinkWidthChange {s : State} {link width} (h : s.Canon) :
    NextCanon (Machine.execLinkWidthChange link width s) := by
  unfold Machine.execLinkWidthChange
  split
  · exact h
  split
  · exact modLink h
  split
  · exact ifElse (bumpFree (modLink h)) (modLink (modMsg (bumpFree (modLink h))))
  · exact modLink h
theorem failOne {s : State} {l} (h : s.Canon) : (s.failOne l).Canon := by
  unfold State.failOne
  grind [modLink, modMsg, foldl]
theorem execLinkFail {s : State} {link} (h : s.Canon) : NextCanon (Machine.execLinkFail link s) := by
  unfold Machine.execLinkFail
  split
  · exact failOne (failOne h)
  · exact failOne h
end State.Canon

/-! ### Kill and containment -/

namespace State.Canon
theorem issueCin {s : State} {dom} (h : s.Canon) : ∀ q t, s.issueCin dom = some (q, t) → t.Canon := by
  intro t q e
  unfold State.issueCin at e
  grind [mk_iff]
theorem setLive {s : State} {cl dom n} (h : s.Canon) : (s.setLive cl dom n).Canon := modCluster h
theorem strike {s : State} {l} (h : s.Canon) : (s.strike l).Canon := by
  unfold State.strike
  split
  · exact h
  · split
    · exact h
    · exact h.of_mem rfl
theorem killThread {s : State} {strikes tid} (h : s.Canon) : (s.killThread strikes tid).Canon :=
  endThread (ifElse (strike h) h)
theorem discardFlit {s : State} {strikes id} (h : s.Canon) : (s.discardFlit strikes id).Canon := by
  unfold State.discardFlit
  split
  · exact h
  · split
    · exact killThread (dropMsg h)
    · exact dropMsg h
theorem unstallOld {s : State} {cl old} (h : s.Canon) : (s.unstallOld cl old).Canon :=
  foldl h fun _ _ hu => foldl hu fun _ _ => unstall
theorem serveSemas {s : State} {cl} (h : s.Canon) : (s.serveSemas cl).Canon := foldl h fun _ _ => serveSema
theorem purge {s : State} {cl old strikes} (h : s.Canon) : (s.purge cl old strikes).Canon := by
  unfold State.purge
  grind [dropWalks, unstallOld, serveSemas, modCluster, discardFlit, killThread, headTest, mk_iff, foldl]
theorem onContext {s : State} {d r} {f : BitVec 12 → Res} (hf : ∀ a0, (f a0).Canon) :
    (s.onContext d r f).Canon := by
  unfold State.onContext
  grind [Res.Canon]
theorem startWave {s : State} {t d dom n r} (h : s.Canon) : (s.startWave t d dom n r).Canon := by
  unfold State.startWave
  split
  · exact write h
  · exact mk_iff.2 (bumpId (awaitReg h))
theorem killIssue {s : State} {t d ctx r zero} (h : s.Canon) : (s.killIssue t d ctx r zero).Canon := by
  refine onContext fun dom => ?_
  grind [Res.Canon, write, startWave, issueCin]
theorem execKillMarkerPass {s : State} {wave cluster} (h : s.Canon) :
    NextCanon (Machine.execKillMarkerPass wave cluster s) := by
  unfold Machine.execKillMarkerPass
  split
  · exact h
  · exact ifElse h (ifElse (answer (mk_iff.2 (purge (setLive h)))) (mk_iff.2 (purge (setLive h))))
theorem execRclf {s : State} {g d a b} (h : s.Canon) : NextCanon (Machine.execRclf g d a b s) :=
  run h fun _ _ hu => onContext fun _ => mk_iff.2 (bumpId (awaitReg hu))
theorem reclaimDone {s : State} {f} (h : s.Canon) : (s.reclaimDone f).Canon := answer (ifElse (h.of_mem rfl) (h.of_mem rfl))
theorem execRclfWave {s : State} {fence} (h : s.Canon) : NextCanon (Machine.execRclfWave fence s) := by
  unfold Machine.execRclfWave
  grind [modCluster, purge, reclaimDone, NextCanon, mk_iff, foldl]
theorem callEnd {s : State} {c result status} (h : s.Canon) : (s.callEnd c result status).Canon := by
  unfold State.callEnd
  grind [shadowFor, tagChanged, perform, modThread, mk_iff, getD]
theorem answerFenced {s : State} {inside cl} (h : s.Canon) : (s.answerFenced inside cl).Canon := by
  unfold State.answerFenced
  grind [answer, takeTrap, mxReject, callEnd, setPkg, mk_iff, foldl]
theorem zeroRange {s : State} {a n} (h : s.Canon) : (s.zeroRange a n).Canon := ⟨filter_wf h.wf _⟩
theorem resetCore {s : State} {core} (h : s.Canon) : (s.resetCore core).Canon := zeroRange (setCore (h.of_mem rfl))
theorem resetCluster {s : State} {cl} (h : s.Canon) : (s.resetCluster cl).Canon :=
  zeroRange (setCluster (foldl h fun _ _ => resetCore))
theorem renewInside {s : State} {cls} (h : s.Canon) : (s.renewInside cls).Canon := by
  unfold State.renewInside
  grind [issueCin, setLive, foldl]
theorem coffer {s : State} {cls} (h : s.Canon) : (s.coffer cls).Canon := by
  unfold State.coffer
  grind [modCluster, answerFenced, purge, killThread, renewInside, resetCluster, foldl]
theorem writeIf {s : State} {d v} (h : s.Canon) : (s.writeIf d v).Canon := by
  unfold State.writeIf
  split
  · exact write h
  · exact h
theorem execCoff {s : State} {g d a} (h : s.Canon) : NextCanon (Machine.execCoff g d a s) := by
  unfold Machine.execCoff
  dsimp only
  refine run h fun _ _ hu => ?_
  split
  · trivial
  split
  · exact write hu
  split
  · exact write hu
  · exact writeIf (coffer hu)
theorem execCoffDef {s : State} {g d a} (h : s.Canon) : NextCanon (Machine.execCoffDef g d a s) := by
  unfold Machine.execCoffDef
  dsimp only
  refine run h fun _ _ hu => ?_
  split
  · trivial
  split
  · exact write hu
  · exact write (foldl hu fun _ _ => modCluster)
theorem execCoffLift {s : State} {g d a} (h : s.Canon) : NextCanon (Machine.execCoffLift g d a s) := by
  unfold Machine.execCoffLift
  dsimp only
  refine run h fun _ _ hu => ?_
  split
  · trivial
  split
  · exact write hu
  · exact write (foldl hu fun _ _ => modCluster)
theorem strikeLive {s : State} {cl} (h : s.Canon) : (s.strikeLive cl).Canon := h.of_mem rfl
theorem event {s : State} {pkg kind ws} (h : s.Canon) : (s.event pkg kind ws).Canon := toHost (bumpId h)
theorem execUncorrectableError {s : State} {cluster} (h : s.Canon) :
    NextCanon (Machine.execUncorrectableError cluster s) :=
  ifElse h (event (svc (ifElse (ifElse (strikeLive h) h) (coffer (ifElse (strikeLive h) h)))))
theorem wipe {s : State} {c va a a1} (h : s.Canon) : (s.wipe c va a a1).1.Canon := by
  fun_induction State.wipe s c va a a1 with grind [writeRange, Got.Canon]
theorem execWipe {s : State} {g d a b} (h : s.Canon) : NextCanon (Machine.execWipe g d a b s) := by
  unfold Machine.execWipe
  dsimp only
  refine run h fun _ _ hu => ?_
  split
  · trivial
  split
  · trivial
  split
  · next e => exact pageFault (of_pair (wipe hu) e)
  · next e => exact write (of_pair (wipe hu) e)
end State.Canon

/-! ### Launch -/

namespace State.Canon
theorem modLQueue {s : State} {pkg q} {f : LQueue → LQueue} (h : s.Canon) : (s.modLQueue pkg q f).Canon := modPkg h
theorem modLaunch {s : State} {id} {f : Launch → Launch} (h : s.Canon) : (s.modLaunch id f).Canon := by
  unfold State.modLaunch
  split
  · exact h.of_mem rfl
  · exact h
theorem testHead {s : State} {pkg q} (h : s.Canon) : (s.testHead pkg q).Canon := by
  unfold State.testHead
  split
  · exact modLaunch h
  · exact h
theorem writeRecord {s : State} {c at_ ws} (h : s.Canon) : (s.writeRecord c at_ ws).Canon := by
  unfold State.writeRecord
  grind [writeRange, Got.Canon]
theorem queueStat {s : State} {pkg q dom code addr} (h : s.Canon) : (s.queueStat pkg q dom code addr).Canon :=
  ifElse (modLQueue h) h
theorem unitStall {s : State} {pkg c access va} (h : s.Canon) : (s.unitStall pkg c access va).Canon := svcOnce h
theorem refusePacket {s : State} {pkg c cluster addr ws code signal} (h : s.Canon) :
    (s.refusePacket pkg c cluster addr ws code signal).Canon := by
  unfold State.refusePacket
  grind [queueStat, signal, writeRecord, unitStall, Accepted.Canon, Got.Canon]
theorem readArgs {s : State} {c args a a1 a11} (h : s.Canon) : (s.readArgs c args a a1 a11).Canon := by
  fun_induction State.readArgs s c args a a1 a11 with grind [readRange, Got.Canon]
theorem savedArgs {s : State} {c ws} (h : s.Canon) : (s.savedArgs c ws).Canon := by
  unfold State.savedArgs
  dsimp only
  split
  · exact h
  · exact readArgs h
theorem saveArea {s : State} {c ws r} (h : s.Canon) : (s.saveArea c ws r).Canon := writeRange h
theorem placeSingle {s : State} {pkg target r c ws stages} (h : s.Canon) :
    (s.placeSingle pkg target r c ws stages).Canon := testHead (modLQueue (mk_iff.2 (bumpId h)))
theorem placeCopy {s : State} {id p} (h : s.Canon) : (s.placeCopy id p).Canon := by
  unfold State.placeCopy
  split
  · exact h
  · split
    · exact ifElse (modLaunch (modLaunch h)) (modLQueue (modLaunch h))
    · exact modLaunch (modLaunch h)
    · exact modLaunch (queueStat (modLaunch h))
theorem placeMulti {s : State} {pkg r c ws stages} (h : s.Canon) : (s.placeMulti pkg r c ws stages).Canon :=
  foldl (mk_iff.2 (bumpId h)) fun _ _ => placeCopy
theorem placePacket {s : State} {pkg r c ws stages} (h : s.Canon) : (s.placePacket pkg r c ws stages).Canon := by
  unfold State.placePacket
  dsimp only
  repeat' split
  all_goals grind [Accepted.Canon, Got.Canon, refusePacket, savedArgs, saveArea, unitStall, placeSingle, placeMulti]
theorem requestCtx {s : State} {pkg r} (h : s.Canon) : (s.requestCtx pkg r).Canon := by
  unfold State.requestCtx
  split
  · exact h
  · split
    · next e => exact of_ok (readRange h) e
    · next e => exact of_bad (readRange h) e
    · next e => exact of_absent (readRange h) e
theorem takeRequest {s : State} {pkg r} (h : s.Canon) : (s.takeRequest pkg r).Canon := by
  unfold State.takeRequest
  dsimp only
  repeat' split
  all_goals grind [Accepted.Canon, Got.Canon, requestCtx, unitStall, readRange, queueStat, refusePacket, placePacket]
theorem launchAnswer {s : State} {pkg r q code} (h : s.Canon) : (s.launchAnswer pkg r q code).Canon := by
  unfold State.launchAnswer
  split
  · exact answer h
  · exact toHost h
theorem bounceRequest {s : State} {pkg r} (h : s.Canon) : (s.bounceRequest pkg r).Canon := by
  unfold State.bounceRequest
  split
  · exact h
  · exact ifElse h (modPkg h)
theorem execLaunchPacketAccept {s : State} {pkg req} (h : s.Canon) :
    NextCanon (Machine.execLaunchPacketAccept pkg req s) := by
  unfold Machine.execLaunchPacketAccept
  grind [modPkg, answer, takeRequest, launchAnswer, bounceRequest, Accepted.Canon, NextCanon]
theorem placeReserved {s : State} {pkg a} (h : s.Canon) : (s.placeReserved pkg a).Canon := by
  fun_induction State.placeReserved s pkg a with grind [modPkg, takeRequest, launchAnswer, Accepted.Canon]
theorem execLaunchReservationPlace {s : State} {pkg} (h : s.Canon) :
    NextCanon (Machine.execLaunchReservationPlace pkg s) := placeReserved h
theorem buildThread {s : State} {id x q n e} (h : s.Canon) : (s.buildThread id x q n e).Canon :=
  modLaunch (equip (setThread (bumpId h)))
theorem buildOn {s : State} {id pkg} (h : s.Canon) : (s.buildOn id pkg).Canon := by
  unfold State.buildOn
  split
  · exact h
  · exact modLaunch (foldl h fun _ _ => buildThread)
theorem releaseOn {s : State} {id pkg} (h : s.Canon) : (s.releaseOn id pkg).Canon := by
  unfold State.releaseOn
  grind [arrive, acquire, getD, foldl]
theorem unqueue {s : State} {id pkg q} (h : s.Canon) : (s.unqueue id pkg q).Canon := testHead (modLQueue h)
theorem startOn {s : State} {id pkg x ts} (h : s.Canon) : (s.startOn id pkg x ts).Canon :=
  releaseOn (unqueue (ifElse (modLQueue (modLaunch h)) (modLaunch h)))
theorem execLaunchStart {s : State} {pkg q} (h : s.Canon) : NextCanon (Machine.execLaunchStart pkg q s) := by
  unfold Machine.execLaunchStart
  grind [modPkg, buildOn, startOn, modLaunch, releaseOn, unqueue, NextCanon]
theorem execMultiPackageHoldRelease {s : State} {pkg q} (h : s.Canon) :
    NextCanon (Machine.execMultiPackageHoldRelease pkg q s) := by
  unfold Machine.execMultiPackageHoldRelease
  dsimp only
  split
  · exact placeCopy h
  · split
    · exact h
    · exact testHead (modLQueue h)
theorem execLaunchArrival {s : State} {launch pkg} (h : s.Canon) : NextCanon (Machine.execLaunchArrival launch pkg s) := by
  unfold Machine.execLaunchArrival
  split
  · exact h
  · exact ifElse h (modLaunch h)
theorem execLaunchStartMessage {s : State} {launch pkg} (h : s.Canon) :
    NextCanon (Machine.execLaunchStartMessage launch pkg s) := by
  unfold Machine.execLaunchStartMessage
  split
  · exact h
  · split
    · exact h
    · exact ifElse h (ifElse (startOn (modLaunch h)) (modLaunch h))
theorem execStartTimeRelease {s : State} {launch pkg} (h : s.Canon) :
    NextCanon (Machine.execStartTimeRelease launch pkg s) := by
  unfold Machine.execStartTimeRelease
  split
  · exact h
  · split
    · exact releaseOn h
    split
    · exact h
    · exact ifElse (startOn h) h
theorem execStartBarrierCancel {s : State} {launch} (h : s.Canon) : NextCanon (Machine.execStartBarrierCancel launch s) := by
  unfold Machine.execStartBarrierCancel
  split
  · exact h
  · exact ifElse h (modLaunch (foldl (foldl h fun _ _ => dropThread) fun _ _ => unqueue))
theorem commitShadow {s : State} {g} (h : s.Canon) : (s.commitShadow g).Canon := zeroRange (noteWrite (copyGranule h))
theorem discardShadows {s : State} {id} (h : s.Canon) : (s.discardShadows id).Canon :=
  mk_iff.2 (foldl h fun _ _ => zeroRange)
theorem commitShadows {s : State} {id} (h : s.Canon) : (s.commitShadows id).Canon :=
  mk_iff.2 (foldl h fun _ _ => commitShadow)
theorem retireLaunch {s : State} {id x} (h : s.Canon) : (s.retireLaunch id x).Canon := by
  unfold State.retireLaunch
  grind [commitShadows, discardShadows, signal, writeRecord, unitStall, Got.Canon, mk_iff]
theorem execLaunchRetire {s : State} {launch} (h : s.Canon) : NextCanon (Machine.execLaunchRetire launch s) := by
  unfold Machine.execLaunchRetire
  split
  · exact h
  · exact ifElse (retireLaunch h) h
theorem flushPacket {s : State} {pkg q code id} (h : s.Canon) : (s.flushPacket pkg q code id).Canon := by
  unfold State.flushPacket
  split
  · exact h
  · exact ifElse h (ifElse (modLaunch (queueStat h)) (modLaunch (unqueue (queueStat h))))
theorem flushQueue {s : State} {pkg q} (h : s.Canon) : (s.flushQueue pkg q).Canon := foldl h fun _ _ => flushPacket
theorem tearDown {s : State} {x} (h : s.Canon) : (s.tearDown x).Canon := foldl h fun _ _ hu => flushQueue (modLQueue hu)
theorem endMembers {s : State} {id x} (h : s.Canon) : (s.endMembers id x).Canon :=
  foldl (foldl (h.of_mem rfl) fun _ _ => serveSemas) fun _ _ => endThread
theorem execLaunchStrike {s : State} {launch} (h : s.Canon) : NextCanon (Machine.execLaunchStrike launch s) := by
  unfold Machine.execLaunchStrike
  grind [modLaunch, tearDown, endMembers, NextCanon]
theorem restoreArgs {s : State} {x args saved a a1} (h : s.Canon) : (s.restoreArgs x args saved a a1).Canon := by
  fun_induction State.restoreArgs s x args saved a a1 with grind [writeRange, Got.Canon]
theorem replayBuild {s : State} {id x} (h : s.Canon) : (s.replayBuild id x).Canon := by
  unfold State.replayBuild
  grind [discardShadows, readRange, restoreArgs, unitStall, buildOn, modLaunch, Got.Canon, foldl]
theorem execLaunchReplay {s : State} {launch} (h : s.Canon) : NextCanon (Machine.execLaunchReplay launch s) := by
  unfold Machine.execLaunchReplay
  split
  · exact h
  · exact ifElse h (ifElse (endMembers h) (ifElse h (replayBuild h)))
theorem execLaunch {s : State} {g d a} (h : s.Canon) : NextCanon (Machine.execLaunch g d a s) := by
  unfold Machine.execLaunch
  dsimp only
  refine run h fun _ _ hu => ?_
  split
  · trivial
  split
  · trivial
  · next e =>
      split
      · trivial
      · exact modPkg (bumpId (modThread (awaitReg (of_pair (resolve hu) e))))
theorem execLsync {s : State} {g} (h : s.Canon) : NextCanon (Machine.execLsync g s) := by
  unfold Machine.execLsync
  refine run h fun _ _ hu => ?_
  split
  · trivial
  · exact hu
theorem qctlIssue {s : State} {t d form sel val} (h : s.Canon) : (s.qctlIssue t d form sel val).Canon := by
  unfold State.qctlIssue
  dsimp only
  split
  · trivial
  · exact modPkg (modThread (awaitReg h))
theorem writeQcfg {s : State} {pkg q v} (h : s.Canon) : (s.writeQcfg pkg q v).Canon := by
  unfold State.writeQcfg
  grind [flushQueue, modLQueue, flushPacket, foldl]
theorem execQctlWriteApply {s : State} {pkg} (h : s.Canon) : NextCanon (Machine.execQctlWriteApply pkg s) := by
  unfold Machine.execQctlWriteApply
  grind [modPkg, answer, writeQcfg, modLQueue, NextCanon]
theorem execRepl {s : State} {g d a} (h : s.Canon) : NextCanon (Machine.execRepl g d a s) := by
  unfold Machine.execRepl
  dsimp only
  refine run h fun _ _ hu => ?_
  split
  · trivial
  split
  · split
    · exact write (modLaunch hu)
    · exact write hu
  · exact write hu
theorem execReplQ {s : State} {g d a} (h : s.Canon) : NextCanon (Machine.execReplQ g d a s) := by
  unfold Machine.execReplQ
  dsimp only
  refine run h fun _ _ hu => ?_
  split
  · trivial
  · exact write hu
theorem execThrmSet {s : State} {g a b} (h : s.Canon) : NextCanon (Machine.execThrmSet g a b s) := by
  unfold Machine.execThrmSet
  dsimp only
  refine run h fun _ _ hu => ?_
  split
  · exact hu
  · exact modDie hu
end State.Canon

/-! ### Tagged and ordered access -/

namespace State.Canon
theorem tagLocal {s : State} {tid a w fin} {now : State → Res} (h : s.Canon) (hnow : ∀ a0, a0.Canon → (now a0).Canon) :
    (s.tagLocal tid a w fin now).Canon := by
  unfold State.tagLocal
  grind [pendOn, modCluster, Res.Canon]
theorem execLdf {s : State} {g z e d m} (h : s.Canon) : NextCanon (Machine.execLdf g z e d m s) := by
  unfold Machine.execLdf
  dsimp only
  refine run h fun _ _ hu => ?_
  refine access hu fun _ _ _ hu => ?_
  split
  · trivial
  split
  · refine tagLocal hu fun _ hu => ?_
    split
    · trivial
    split
    · exact pageFault hu
    · exact write (ifElse (tagChanged (setTag (getD hu (shadowFor hu)))) hu)
  · split
    · exact goHome hu
    · exact requestOr (request (pendLine (pendOn hu)))
theorem execStf {s : State} {g z e d m} (h : s.Canon) : NextCanon (Machine.execStf g z e d m s) := by
  unfold Machine.execStf
  dsimp only
  refine run h fun _ _ hu => ?_
  refine access hu fun _ _ _ hu => ?_
  split
  · trivial
  split
  · exact goHome hu
  split
  · exact pageFault hu
  split
  · exact tagLocal hu fun _ hu => stackStore (tagChanged (performFor hu))
  split
  · exact requestOr (request (pendLine (pendOn hu)))
  · exact stackStore (request (dropCand (bumpId (modThread hu))))
theorem fesetWords {s : State} {c a runs a1} (h : s.Canon) : (s.fesetWords c a runs a1).1.Canon := by
  fun_induction State.fesetWords s c a runs a1 with grind [resolve]
/-- What a word of FESET that fails answers. -/
theorem fesetWords_inr {s : State} {c a runs k} (h : s.Canon) : ∀ r, (s.fesetWords c a runs k).2 = .inr r → r.Canon := by
  fun_induction State.fesetWords s c a runs k with grind [resolve, pageFault, shadowFor, Res.Canon]
theorem execFeset {s : State} {g full d m} (h : s.Canon) : NextCanon (Machine.execFeset g full d m s) := by
  refine run (s := s) h fun u t hu => ?_
  have hw := fun a k => fesetWords (c := t.ctx) (a := a) (runs := []) (a1 := k) hu
  have hw' := fun a k => fesetWords_inr (c := t.ctx) (a := a) (runs := []) (k := k) hu
  grind [Res.Canon, foldl, setTags, pendOn, modThread, request]
theorem execFeqry {s : State} {g d m} (h : s.Canon) : NextCanon (Machine.execFeqry g d m s) := by
  unfold Machine.execFeqry
  dsimp only
  refine run h fun _ _ hu => ?_
  refine access hu fun _ _ _ hu => ?_
  split
  · exact write hu
  split
  · exact goHome hu
  · exact request (awaitReg hu)
theorem execLda {s : State} {g z d base disp sc} (h : s.Canon) : NextCanon (Machine.execLda g z d base disp sc s) := by
  refine run h fun u t hu => ?_
  grind [acquire, write, access, goHome, request, pendLine, pendOn, Res.Canon]
theorem execStl {s : State} {g z d base disp sc} (h : s.Canon) : NextCanon (Machine.execStl g z d base disp sc s) := by
  unfold Machine.execStl
  dsimp only
  refine run h fun _ _ hu => ?_
  split
  · trivial
  refine access hu fun _ _ _ hu => ?_
  split
  · trivial
  · exact storeNow hu
theorem execFence {s : State} {g k sc} (h : s.Canon) : NextCanon (Machine.execFence g k sc s) := by
  unfold Machine.execFence
  dsimp only
  refine run h fun _ _ hu => ?_
  split
  · trivial
  split
  · split
    · exact hu
    · trivial
  · split
    · exact acquire hu
    · trivial
  · split
    · exact acquire hu
    · trivial
end State.Canon

/-! ### System instructions -/

namespace State.Canon
theorem execRett {s : State} {g n} (h : s.Canon) : NextCanon (Machine.execRett g n s) := by
  unfold Machine.execRett
  dsimp only
  refine run h fun _ _ hu => ?_
  split
  · trivial
  · exact returnTrap hu
theorem setFpint {s : State} {t v} (h : s.Canon) : (s.setFpint t v).Canon := modCore h
theorem sprWrite {s : State} {t r v} (h : s.Canon) : (s.sprWrite t r v).Canon := by
  unfold State.sprWrite
  grind [modThread, setFpint, Res.Canon, mk_iff]
theorem execSpwrTypebase {s : State} {g a} (h : s.Canon) : NextCanon (Machine.execSpwrTypebase g a s) := by
  unfold Machine.execSpwrTypebase
  dsimp only
  refine run h fun _ _ hu => ?_
  split
  · trivial
  · exact hu.of_mem rfl
theorem execSpwrXlbase {s : State} {g a} (h : s.Canon) : NextCanon (Machine.execSpwrXlbase g a s) := by
  unfold Machine.execSpwrXlbase
  dsimp only
  refine run h fun _ _ hu => ?_
  split
  · trivial
  · exact hu.of_mem rfl
theorem execSpwrBnd {s : State} {g n a} (h : s.Canon) : NextCanon (Machine.execSpwrBnd g n a s) := by
  unfold Machine.execSpwrBnd
  dsimp only
  refine run h fun _ _ hu => ?_
  split
  · trivial
  split
  · trivial
  split
  · trivial
  · exact modCluster (pendOn hu)
theorem bndApply {s : State} {cl} (h : s.Canon) : (s.bndApply cl).Canon := by
  have hm : ∀ f, ({ s with mem := s.mem.filter f } : State).Canon := fun f => ⟨filter_wf h.wf f⟩
  unfold State.bndApply
  grind [complete, bumpId, modCluster]
theorem execBndWriteApply {s : State} {cluster} (h : s.Canon) : NextCanon (Machine.execBndWriteApply cluster s) := bndApply h
theorem execPlbinv {s : State} {g d va b} (h : s.Canon) : NextCanon (Machine.execPlbinv g d va b s) := by
  unfold Machine.execPlbinv
  dsimp only
  refine run h fun _ _ hu => ?_
  split
  · trivial
  · exact write (hu.of_mem rfl)
theorem xlinvAt {s : State} {va cl} (h : s.Canon) : (s.xlinvAt va cl).Canon := mk_iff.2 (bumpId (modCluster h))
theorem execXlinv {s : State} {g d va b} (h : s.Canon) : NextCanon (Machine.execXlinv g d va b s) := by
  unfold Machine.execXlinv
  dsimp only
  refine run h fun _ _ hu => ?_
  split
  · trivial
  split
  · exact write (foldl hu fun _ _ => xlinvAt)
  · exact mk_iff.2 (bumpId (awaitReg (foldl hu fun _ _ => xlinvAt)))
theorem execXlinvUnitAck {s : State} {inv cluster} (h : s.Canon) : NextCanon (Machine.execXlinvUnitAck inv cluster s) := by
  unfold Machine.execXlinvUnitAck
  split
  · exact h
  · exact ifElse h (ifElse (answer (mk_iff.2 (xlinvAt h))) (mk_iff.2 (xlinvAt h)))
theorem emptyWord {s : State} {t shadow pa} (h : s.Canon) : (s.emptyWord t shadow pa).Canon :=
  tagChanged (setTag (getD h (shadowFor h)))
theorem execSysc {s : State} {g d a b} (h : s.Canon) : NextCanon (Machine.execSysc g d a b s) := by
  unfold Machine.execSysc
  dsimp only
  refine run h fun _ _ hu => ?_
  split
  · trivial
  split
  · trivial
  refine access hu fun _ _ _ hu => ?_
  split
  · trivial
  split
  · trivial
  split
  · exact write (emptyWord (emptyWord hu))
  · exact write (modThread (mk_iff.2 (bumpId (emptyWord (emptyWord hu)))))
theorem execSysw {s : State} {g d a} (h : s.Canon) : NextCanon (Machine.execSysw g d a s) := by
  refine run h fun u t hu => ?_
  grind [write, acquire, access, modCluster, pendOn, goHome, requestOr, request, Res.Canon]
theorem halt {s : State} {tid code} (h : s.Canon) : (s.halt tid code).Canon := event (svc (modThread (leave (retire h))))
theorem execHalt {s : State} {g code} (h : s.Canon) : NextCanon (Machine.execHalt g code s) := by
  unfold Machine.execHalt
  refine run h fun _ _ hu => ?_
  split
  · trivial
  · exact halt hu
end State.Canon

/-! ### The barrel -/

namespace State.Canon
theorem select {s : State} {core} (h : s.Canon) : (s.select core).Canon := mk_iff.2 (modCore h)
theorem execBarrelSelect {s : State} {core} (h : s.Canon) : NextCanon (Machine.execBarrelSelect core s) :=
  ifElse h (select h)
theorem rankRewrite {s : State} {die temps} (h : s.Canon) : (s.rankRewrite die temps).Canon :=
  mk_iff.2 (foldl (modDie h) fun _ _ => modCore)
theorem execSlotDisable {s : State} {core} (h : s.Canon) : NextCanon (Machine.execSlotDisable core s) := by
  unfold Machine.execSlotDisable
  grind [modCore, NextCanon]
theorem execSlotReenable {s : State} {core} (h : s.Canon) : NextCanon (Machine.execSlotReenable core s) := by
  unfold Machine.execSlotReenable
  dsimp only
  split
  · exact ifElse (modCore h) h
  · exact h
theorem execThermalDisplacement {s : State} {tid} (h : s.Canon) : NextCanon (Machine.execThermalDisplacement tid s) := by
  unfold Machine.execThermalDisplacement
  grind [migrate, toQueue, NextCanon, Res.Canon]
end State.Canon

/-! ### Paired cores -/

namespace State.Canon
theorem agreeGated {s : State} {tid} (h : s.Canon) : (s.agreeGated tid).Canon := by
  unfold State.agreeGated
  grind [modThread, putWords, store, agree, foldl]
theorem rollBack {s : State} {tid} (h : s.Canon) : (s.rollBack tid).Canon := by
  unfold State.rollBack
  dsimp only
  split
  · exact h
  · exact setThread h
theorem rollBackIf {s : State} {tid} (h : s.Canon) : (s.rollBackIf tid).Canon := ifElse (rollBack h) h
theorem copyTcm {s : State} {from_ dest} (h : s.Canon) : (s.copyTcm from_ dest).Canon :=
  foldl h fun _ _ hu => noteWrite (copyGranule hu)
theorem uncouple {s : State} {even odd} (h : s.Canon) : (s.uncouple even odd).Canon := copyTcm (modCore (modCore h))
theorem pairTrap {s : State} {even tid} (h : s.Canon) : (s.pairTrap even tid).Canon :=
  takeTrap (bumpFree (rollBack (ifElse (walkSuspend (unwait h)) (unwait h))))
theorem disagree {s : State} {even odd} {undo : State → State} (h : s.Canon) (hundo : ∀ a0, a0.Canon → (undo a0).Canon) :
    (s.disagree even odd undo).Canon := by
  unfold State.disagree
  grind [modCore, pairTrap, uncouple, foldl]
theorem exchange {s : State} {core tid agree} (h : s.Canon) : (s.exchange core tid agree).Canon := by
  unfold State.exchange
  split
  · exact ifElse (modThread (agreeGated h)) (modThread (disagree h (fun _ => rollBack)))
  · exact h
theorem execFingerprintExchange {s : State} {core slot agree} (h : s.Canon) :
    NextCanon (Machine.execFingerprintExchange core slot agree s) := by
  unfold Machine.execFingerprintExchange
  split
  · exact h
  · exact ifElse (exchange h) h
theorem execMxCommandComplete {s : State} {core} (h : s.Canon) : NextCanon (Machine.execMxCommandComplete core s) := by
  unfold Machine.execMxCommandComplete
  dsimp only
  split
  · exact ifElse h (ifElse (mxComplete (bumpFree h)) (disagree (bumpFree h) (fun _ => modMx)))
  · exact mxComplete h
theorem couple {s : State} {even} (h : s.Canon) : (s.couple even).Canon :=
  foldl (modCore (modCore (copyTcm h))) fun _ _ => agree
theorem execPair {s : State} {g d a} (h : s.Canon) : NextCanon (Machine.execPair g d a s) := by
  unfold Machine.execPair
  dsimp only
  refine run h fun _ _ hu => ?_
  split
  · trivial
  split
  · exact write hu
  split
  · exact write hu
  · exact write (couple hu)
theorem exchangeAll {s : State} {even} (h : s.Canon) : (s.exchangeAll even).Canon :=
  foldl h fun _ _ hu => ifElse (exchange (bumpFree hu)) hu
theorem execPairOff {s : State} {g d a} (h : s.Canon) : NextCanon (Machine.execPairOff g d a s) := by
  unfold Machine.execPairOff
  dsimp only
  refine run h fun _ _ hu => ?_
  split
  · trivial
  split
  · split
    · exact write (uncouple (exchangeAll hu))
    split
    · exact exchangeAll hu
    · exact write (exchangeAll hu)
  · exact write hu
theorem execFpck {s : State} {g d} (h : s.Canon) : NextCanon (Machine.execFpck g d s) := by
  unfold Machine.execFpck
  refine run h fun _ _ hu => ?_
  split <;> exact write hu
end State.Canon

/-! ### The gang switch -/

namespace State.Canon
theorem arm {s : State} {t header} {w : ℕ → Word} (h : s.Canon) : (s.arm t w header).Canon :=
  foldl (mk_iff.2 (bumpId h)) fun _ _ => modCluster
theorem gangArm {s : State} {t d b} {w : ℕ → Word} (h : s.Canon) : (s.gangArm t d b w).Canon := by
  unfold State.gangArm
  dsimp only
  split
  · trivial
  · split
    · exact write h
    split
    · exact write h
    split
    · next e => exact write (arm (of_pair (resolve h) e))
    · next e => exact pageFault (of_pair (resolve h) e)
    · trivial
theorem execGang {s : State} {g d a} (h : s.Canon) : NextCanon (Machine.execGang g d a s) := by
  refine run h fun u t hu => ?_
  grind [threadAfterStores, readBlock, gangArm, Res.Canon]
theorem saveWait {s : State} {cl tid} (h : s.Canon) : (s.saveWait cl tid).Canon := by
  unfold State.saveWait
  dsimp only
  split
  · exact modThread h
  · exact ifElse (modThread (mwake h)) (modThread h)
  · exact modThread (walkSuspend h)
  · exact modThread h
  · exact modThread h
  · exact modThread h
theorem gangStall {s : State} {g va} (h : s.Canon) : (s.gangStall g va).Canon := stallMsg h
theorem saveThread {s : State} {cl tid} (h : s.Canon) : (s.saveThread cl tid).Canon := by
  unfold State.saveThread
  dsimp only
  split
  · exact leave (saveWait h)
  · exact modThread h
theorem partPairs {s : State} {cl} (h : s.Canon) : (s.partPairs cl).Canon := by
  unfold State.partPairs
  grind [uncouple, rollBackIf, foldl]
theorem modGang {s : State} {id} {f : Gang → Gang} (h : s.Canon) : (s.modGang id f).Canon := h.of_mem rfl
theorem saveCluster {s : State} {g cl imgs} (h : s.Canon) : (s.saveCluster g cl imgs).Canon := by
  unfold State.saveCluster
  grind [partPairs, saveThread, noteWrite, fillTags, copyGranule, modCluster, modMsg, modGang, mk_iff, foldl]
theorem execGangStop {s : State} {gang cluster} (h : s.Canon) : NextCanon (Machine.execGangStop gang cluster s) := by
  unfold Machine.execGangStop
  dsimp only
  split
  · exact h
  · split
    · exact h
    split
    · exact gangStall h
    · exact saveCluster h
theorem execGangFallOut {s : State} {msg} (h : s.Canon) : NextCanon (Machine.execGangFallOut msg s) := by
  unfold Machine.execGangFallOut
  split
  · exact h
  · split
    · exact ifElse h (modMsg h)
    · exact h
theorem restoreThread {s : State} {cl tid old} (h : s.Canon) : (s.restoreThread cl tid old).Canon := by
  unfold State.restoreThread
  dsimp only
  split
  · exact h
  split
  · exact endThread h
  split
  · exact ifElse (enterSlot (modThread h)) (bumpId (modThread h))
  · exact modThread h
theorem restorePart {s : State} {r cl} (h : s.Canon) : (s.restorePart r cl).Canon :=
  modGang (foldl (foldl (modCluster h) fun _ _ => modCore) fun _ _ => restoreThread)
theorem restoreTags {s : State} {r a} (h : s.Canon) : (s.restoreTags r a).Canon := mk_iff.2 (fillTags h)
theorem restoreCluster {s : State} {g cl imgs} (h : s.Canon) : (s.restoreCluster g cl imgs).Canon := by
  unfold State.restoreCluster
  grind [modGang, noteWrite, copyGranule, restorePart, restoreTags, bumpId, modCluster, foldl]
theorem execGangRestore {s : State} {gang cluster} (h : s.Canon) : NextCanon (Machine.execGangRestore gang cluster s) := by
  unfold Machine.execGangRestore
  dsimp only
  split
  · exact h
  · split
    · exact h
    · split
      · exact h
      split
      · exact gangStall h
      · exact restoreCluster h
theorem gangWrite {s : State} {g va v} (h : s.Canon) : ∀ t, s.gangWrite g va v = .ok t → t.Canon := by
  intro t e
  unfold State.gangWrite at e
  grind [writeRange, Got.Canon]
theorem reinject {s : State} {cls} (h : s.Canon) : (s.reinject cls).Canon := foldl h fun _ _ => modMsg
theorem gangEnd {s : State} {g} (h : s.Canon) : ∀ t, s.gangEnd g = .ok t → t.Canon := by
  intro t e
  unfold State.gangEnd at e
  extract_lets src s1 jp at e
  have hjp : ∀ u, u.Canon → jp u = .ok t → t.Canon := by
    intro u hu
    simp only [jp, bind, Except.bind]
    grind [gangWrite, foldl, modCluster, modGang, reinject, mk_iff]
  have h1 : s1.Canon := perform (perform (perform h))
  clear_value jp s1
  simp only [bind, Except.bind] at e
  grind [gangWrite]
theorem execGangStart {s : State} {gang} (h : s.Canon) : NextCanon (Machine.execGangStart gang s) := by
  unfold Machine.execGangStart
  grind [gangEnd, gangStall, NextCanon]
end State.Canon

/-! ### Apertures and wakes -/

namespace State.Canon
theorem aperture {s : State} {c va n val} (h : s.Canon) : ∀ t q, s.aperture c va n val = some (t, q) → t.Canon := by
  intro t q e
  unfold State.aperture at e
  grind [resolve, performFor]
theorem hostAnswer {s : State} {pkg read a} (h : s.Canon) : (s.hostAnswer pkg read a).Canon := ifElse (modPkg h) h
theorem hostAccess {s : State} {pkg off n val} (h : s.Canon) : (s.hostAccess pkg off n val).Canon := by
  unfold State.hostAccess
  grind [aperture, bumpId, modPkg, hostAnswer, stallMsg]
theorem apertureAtomic {s : State} {c va n op val cmp} (h : s.Canon) :
    ∀ t q, s.apertureAtomic c va n op val cmp = some (t, q) → t.Canon := by
  intro t q e
  unfold State.apertureAtomic at e
  repeat' split at e
  all_goals grind [aperture, Option.map_eq_some_iff]
theorem execHostApertureAtomic {s : State} {pkg off op wide val cmp} (h : s.Canon) :
    NextCanon (Machine.execHostApertureAtomic pkg off op wide val cmp s) := by
  unfold Machine.execHostApertureAtomic
  grind [apertureAtomic, NextCanon, hostAnswer, stallMsg]
theorem execApertureReadTimeout {s : State} {pkg req} (h : s.Canon) :
    NextCanon (Machine.execApertureReadTimeout pkg req s) := by
  unfold Machine.execApertureReadTimeout
  split
  · exact ifElse (hostAnswer (modPkg h)) h
  · exact h
theorem portRetry {s : State} {pkg code a} (h : s.Canon) : (s.portRetry pkg code a).Canon := by
  fun_induction State.portRetry s pkg code a with
  | case1 s => exact h
  | _ => grind [modPkg, aperture, hostAnswer]
theorem wakeUnit {s : State} {core unit dom cin code} (h : s.Canon) : (s.wakeUnit core unit dom cin code).Canon := by
  unfold State.wakeUnit
  split
  · exact orphaned h
  split
  · exact ifElse (unstall h) (copyEnd (unstall h))
  split
  · exact modMx h
  split
  · exact mxRejects h
  split
  · split
    · exact h
    · exact ifElse (modMx h) (opDone h)
  · exact ifElse (portRetry h) h
theorem wakeThread {s : State} {tid code} (h : s.Canon) : (s.wakeThread tid code).Canon := by
  unfold State.wakeThread
  split
  · exact bumpId (modThread (modThread h))
  · exact modThread h
theorem execWake {s : State} {w0 w1} (h : s.Canon) : NextCanon (Machine.execWake w0 w1 s) := by
  unfold Machine.execWake
  dsimp only
  split
  · exact h
  split
  · exact wakeUnit h
  split
  · exact wakeThread h
  · exact ifElse h (orphaned h)
end State.Canon

/-! ### Resets -/

namespace State.Canon
theorem waves {s : State} {pkg} (h : s.Canon) : (s.waves pkg).Canon :=
  foldl (foldl (h.of_mem rfl) fun _ _ => answer) fun _ _ => answer
theorem domainReset {s : State} {pkg} (h : s.Canon) : (s.domainReset pkg).Canon :=
  ifElse (mk_iff.2 (ifElse (h.of_mem rfl) h)) (ifElse (h.of_mem rfl) h)
theorem copyPlace {s : State} {pkg} (h : s.Canon) : (s.copyPlace pkg).Canon := ifElse h (foldl h fun _ _ => modDie)
theorem resetPackage {s : State} {pkg} (h : s.Canon) : (s.resetPackage pkg).Canon := by
  unfold State.resetPackage
  extract_lets threads s1 flits s2 ours s3 s4
  have h1 : s1.Canon := foldl h fun _ _ => killThread
  clear_value s1
  have h2 : s2.Canon := foldl h1 fun _ _ => discardFlit
  clear_value s2
  have h3 : s3.Canon := waves (foldl h2 fun _ _ => discardShadows)
  clear_value s3
  have h4 : s4.Canon := ⟨filter_wf h3.wf _⟩
  clear_value s4
  exact domainReset (copyPlace (modPkg h4))
theorem execThermalTrip {s : State} {pkg} (h : s.Canon) : NextCanon (Machine.execThermalTrip pkg s) := by
  unfold Machine.execThermalTrip
  grind [resetPackage, coffer, NextCanon, foldl]
end State.Canon

/-! ### The mailbox -/

namespace State.Canon
theorem taken {s : State} {pkg} (h : s.Canon) : (s.taken pkg).Canon := modPkg h
theorem onEntry {s : State} {pkg ty} {f : Word → State} (h : s.Canon) (hf : ∀ a0, (f a0).Canon) :
    (s.onEntry pkg ty f).Canon := by
  unfold State.onEntry
  grind
theorem replyTo {s : State} {pkg ty w arg} (h : s.Canon) : (s.replyTo pkg ty w arg).Canon := toHost h
theorem release {s : State} {pkg a} (h : s.Canon) : (s.release pkg a).Canon := by
  fun_induction State.release s pkg a with grind [modPkg, toHost]
theorem execRegisterWrite {s : State} {pkg off val} (h : s.Canon) : NextCanon (Machine.execRegisterWrite pkg off val s) :=
  ifElse h (ifElse (modPkg h) (ifElse (modPkg h) (ifElse (release (modPkg h)) (ifElse (modPkg h) h))))
theorem execMbLaunch {s : State} {pkg} (h : s.Canon) : NextCanon (Machine.execMbLaunch pkg s) := by
  unfold Machine.execMbLaunch
  grind [onEntry, takeRequest, bumpId, launchAnswer, taken, modPkg, Accepted.Canon, NextCanon, mk_iff]
theorem execCapload {s : State} {pkg} (h : s.Canon) : NextCanon (Machine.execCapload pkg s) :=
  onEntry h fun _ => replyTo (taken (ifElse (modPkg h) h))
theorem execCapdrop {s : State} {pkg} (h : s.Canon) : NextCanon (Machine.execCapdrop pkg s) :=
  onEntry h fun _ => replyTo (taken (modPkg h))
theorem agentFail {s : State} {pkg r} (h : s.Canon) : (s.agentFail pkg r).Canon := reply h
theorem execAgentreg {s : State} {pkg} (h : s.Canon) : NextCanon (Machine.execAgentreg pkg s) := by
  unfold Machine.execAgentreg
  grind [onEntry, modPkg, agentFail, replyTo, taken, NextCanon, foldl]
theorem execAgentrsp {s : State} {pkg} (h : s.Canon) : NextCanon (Machine.execAgentrsp pkg s) := by
  unfold Machine.execAgentrsp
  grind [onEntry, taken, modPkg, reply, agentFail, NextCanon]
theorem execUnknownEntry {s : State} {pkg} (h : s.Canon) : NextCanon (Machine.execUnknownEntry pkg s) :=
  ifElse (replyTo (taken h)) h
theorem execLcreq {s : State} {pkg} (h : s.Canon) : NextCanon (Machine.execLcreq pkg s) :=
  onEntry h fun _ => ifElse (replyTo (taken h)) (ifElse h (resetPackage (modPkg (replyTo (taken h)))))
end State.Canon

/-! ### Service pairs -/

namespace State.Canon
theorem execHeartbeatSend {s : State} {die} (h : s.Canon) : NextCanon (Machine.execHeartbeatSend die s) :=
  ifElse h (modDie (foldl h fun _ _ => modDie))
theorem replayJournal {s : State} (h : s.Canon) : s.replayJournal.Canon :=
  foldl h fun _ _ hu => ifElse (callEnd (bumpFree hu)) (bumpFree hu)
theorem takeOver {s : State} {die} (h : s.Canon) : (s.takeOver die).Canon :=
  event (foldl (modDie (replayJournal (ifElse h (coffer h)))) fun _ _ => svc)
theorem execHeartbeatTimeout {s : State} {die} (h : s.Canon) : NextCanon (Machine.execHeartbeatTimeout die s) :=
  ifElse h (takeOver h)
theorem execLeaderAnnouncement {s : State} {die from_ egen} (h : s.Canon) :
    NextCanon (Machine.execLeaderAnnouncement die from_ egen s) := ifElse h (ifElse (modDie (modDie h)) (modDie (modDie h)))
theorem resume {s : State} {tid pc} (h : s.Canon) : (s.resume tid pc).Canon := bumpId (modThread (putWords h))
theorem execThreadResumeMessage {s : State} {w0 w1} (h : s.Canon) : NextCanon (Machine.execThreadResumeMessage w0 w1 s) := by
  unfold Machine.execThreadResumeMessage
  dsimp only
  split
  · exact orphaned h
  split
  · exact resume h
  · exact orphaned h
theorem execSyscallExecute {s : State} {call} (h : s.Canon) : NextCanon (Machine.execSyscallExecute call s) := by
  unfold Machine.execSyscallExecute
  split
  · exact h
  · exact ifElse h (ifElse (h.of_mem rfl) (ifElse (callEnd h) (callEnd (h.of_mem rfl))))
theorem readmit {s : State} {core bin} (h : s.Canon) : (s.readmit core bin).Canon := modCore h
theorem writePlace {s : State} {die row} (h : s.Canon) : (s.writePlace die row).Canon :=
  foldl (h.of_mem rfl) fun _ _ => modDie
theorem setCmap {s : State} {die c e} (h : s.Canon) : (s.setCmap die c e).Canon := writePlace h
theorem moveCluster {s : State} {die c e} (h : s.Canon) : (s.moveCluster die c e).Canon :=
  foldl (setCmap h) fun _ _ hu => ifElse (readmit hu) hu
theorem retireCore {s : State} {core} (h : s.Canon) : (s.retireCore core).Canon := by
  unfold State.retireCore
  split
  · exact ifElse (moveCluster h) h
  · exact mk_iff.2 (modCore h)
theorem execPlacementSwap {s : State} {die entry} (h : s.Canon) : NextCanon (Machine.execPlacementSwap die entry s) := by
  unfold Machine.execPlacementSwap
  split
  · exact h
  split
  · exact ifElse (writePlace h) h
  · exact ifElse h (ifElse (setCmap h) (moveCluster h))
theorem manage {s : State} {a} (h : s.Canon) : (s.manage a).Canon := by
  unfold State.manage
  split
  · exact ifElse (modCore h) h
  · exact ifElse (modCluster h) h
  · exact ifElse (modDie h) h
  · exact modDie h
  · exact modDie h
  · exact h.of_mem rfl
  · exact ifElse (modCluster h) h
  · exact modCluster h
theorem execMakeContextLive {s : State} {dom} (h : s.Canon) : NextCanon (Machine.execMakeContextLive dom s) := by
  unfold Machine.execMakeContextLive
  grind [issueCin, NextCanon, foldl, setLive, mk_iff]
end State.Canon

/-! ### Events -/

/-- Every event of the list keeps memory canonical. -/
def AllKeep (l : List Event) : Prop := ∀ e ∈ l, ∀ t : State, t.Canon → NextCanon (e t)

@[simp] theorem nextCanon_next {s : State} : NextCanon (.next s) ↔ s.Canon := Iff.rfl
@[simp] theorem allKeep_nil : AllKeep [] := by simp [AllKeep]
@[simp] theorem allKeep_cons {e : Event} {l : List Event} :
    AllKeep (e :: l) ↔ (∀ t : State, t.Canon → NextCanon (e t)) ∧ AllKeep l := by simp [AllKeep]
@[simp] theorem allKeep_append {l m : List Event} : AllKeep (l ++ m) ↔ AllKeep l ∧ AllKeep m := by
  simp [AllKeep, or_imp, forall_and]
@[simp] theorem allKeep_map {α : Type} {f : α → Event} {l : List α} :
    AllKeep (l.map f) ↔ ∀ a ∈ l, ∀ t : State, t.Canon → NextCanon (f a t) := by
  simp [AllKeep]
@[simp] theorem allKeep_flatMap {α : Type} {f : α → List Event} {l : List α} :
    AllKeep (l.flatMap f) ↔ ∀ a ∈ l, AllKeep (f a) := by
  simp only [AllKeep, List.mem_flatMap]
  exact ⟨fun h a ha e he => h e ⟨a, ha, he⟩, fun h e ⟨a, ha, he⟩ => h a ha e he⟩

namespace State.Canon
theorem threadEvents {tid} : AllKeep (Machine.threadEvents tid) := by
  simp +contextual [Machine.threadEvents, execSlotLoadDone, execRestingStateReload, execMonitorTrigger,
      execMwaitTimeout, execWaitlimExpiry, execThermalDisplacement]
theorem takeEvents {id m} : AllKeep (Machine.takeEvents id m) := by
  unfold Machine.takeEvents
  split <;>
    simp +contextual [execImageArrival, execHomeReadWrite, execProxyContinuation, execTagRequestAtHome,
        execChannelOpAtHome, execChannelMessageArrival, execBulkMessagePlacement, execRemoteCommandArrival,
        execMcastNode, execContribArrival, execSetupArrival, execWatchRegistrationAck, execResponseArrival,
        execStoreAck]
theorem msgEvents {id m} : AllKeep (Machine.msgEvents id m) := by
  unfold Machine.msgEvents
  split <;>
    simp +contextual [takeEvents, execGangFallOut, execFlitNack, execPairHoldExpiry, execParkedFlitResend,
        execBulkMessagePlacement, execInjectionStarvation]
theorem coreEvents {core c} : AllKeep (Machine.coreEvents core c) := by
  have hout : ∀ (k : Nat) (q : CopyQueue), AllKeep (match q.cmds with
        | x :: _ => x.out.map (Machine.execStorageBlockComplete core k)
        | [] => []) := by
    intro k q
    split <;> simp +contextual [execStorageBlockComplete]
  simp +contextual [Machine.coreEvents, execSlotFill, execFingerprintExchange, execCustItemEnqueue,
      execCpyCommandStart, execStorageBlockCheck, execArenaPlacement, execCpyCommandComplete, execTazPerform,
      execTaccRow, execMxCommandStart, execMxCommandComplete, execSlotDisable, execSlotReenable]
  exact fun k q _ => hout k q
theorem clusterEvents {cl c} : AllKeep (Machine.clusterEvents cl c) := by
  simp +contextual [Machine.clusterEvents, execBndWriteApply, execAtomicReservationGrant, execGraphWalkStart,
      execGraphLineRead, execGraphSweep, execGraphWalkComplete, execTrestleCombine]
theorem packageEvents {pkg p} : AllKeep (Machine.packageEvents pkg p) := by
  simp +contextual [Machine.packageEvents, execQctlWriteApply, execLaunchReservationPlace, execLaunchPacketAccept,
      execMultiPackageHoldRelease, execLaunchStart, execMbLaunch, execCapload, execCapdrop, execAgentreg,
      execAgentrsp, execLcreq, execUnknownEntry, execAgentTimeout, execApertureReadTimeout]
theorem launchEvents {id x} : AllKeep (Machine.launchEvents id x) := by
  simp +contextual [Machine.launchEvents, execStartBarrierCancel, execLaunchStrike, execLaunchReplay,
      execLaunchArrival, execLaunchStartMessage, execStartTimeRelease, execLaunchRetire]
theorem dieEvents {die d} : AllKeep (Machine.dieEvents die d) := by
  have hann : AllKeep (d.svc.filterMap (fun m =>
    if m.kind = svcAnnounce then some (Machine.execLeaderAnnouncement die m.w0.toNat (m.w1.setWidth 32)) else none)) := by
    intro e he t ht
    obtain ⟨m, _, hm⟩ := List.mem_filterMap.1 he
    obtain ⟨_, he⟩ := Option.ite_none_right_eq_some.1 hm
    rw [← Option.some.inj he]
    exact execLeaderAnnouncement ht
  simp +contextual [Machine.dieEvents, execHeartbeatSend, execHeartbeatTimeout, hann]
theorem events {s : State} : AllKeep s.events := by
  simp +contextual [State.events, settleTags, resumeParked, placeProxy, msgEvents, threadEvents, coreEvents,
      clusterEvents, packageEvents, launchEvents, dieEvents, execKillMarkerPass, execRclfWave, execXlinvUnitAck,
      execGangStop, execGangRestore, execGangStart, execSyscallExecute, execLinkNegativeAck, execLinkPacketReceive,
      execLinkReplayTimeout, execRouterCycle]
theorem advance {s : State} (h : s.Canon) : s.advance.Canon := mk_iff.2 (streamsMove h)
theorem auto {s : State} (h : s.Canon) : NextCanon (s.auto) := by
  unfold State.auto
  split
  · next e he => exact events e (List.mem_of_find?_eq_some he) s h
  · grind [execBarrelSelect, NextCanon, advance]
end State.Canon

/-! ### Atomics -/

namespace State.Canon
theorem runAtomic {s : State} {g op wide d base disp b reads} (h : s.Canon) :
    NextCanon (s.runAtomic g op wide d base disp b reads) := by
  unfold State.runAtomic
  grind [run, access, goHome, pageFault, pendOn, enterProxy, reserve, performFor, write, requestOr, request, pendLine,
      Res.Canon]
end State.Canon

/-! ### Instruction fetch -/

namespace State.Canon
theorem fetchWord {s : State} {tid} (h : s.Canon) : (s.fetchWord tid).Canon := by
  unfold State.fetchWord
  dsimp only
  split
  · exact takeTrap h
  split
  · exact takeTrap h
  · next e =>
      split
      · exact takeTrap h
      · exact pageFault (mk_iff.2 (of_pair (resolve h) e))
  · next e =>
      split
      · exact takeTrap (of_pair (resolve h) e)
      · exact modCore (mk_iff.2 (of_pair (resolve h) e))
theorem extRange {s : State} {id g} (h : s.Canon) : (s.extRange id g).Canon := ifElse (retire h) (finish h (extSearch h))
theorem illegal {s : State} (h : s.Canon) : s.illegal.Canon := trapHere h
end State.Canon

/-! ### The dispatch -/

namespace State.Canon
theorem exec {s : State} {i} (h : s.Canon) : NextCanon (Machine.exec i s) := by
  unfold Machine.exec
  cases i with
  | add | sub | mul | mulh | mulhn | and | or | xor | andn | shl | shr | sar | rot | min | max | minn | maxn | ext =>
    exact runAlu h
  | div | divn | rem | remn => exact runDiv h
  | clz | ctz | popc | brev | bswp => exact runAlu1 h
  | dep | sel | lea | movw | movh | pwrd | fcls | cpq | sprd | time | extl | thrm => exact run h fun _ _ => write
  | cmp | flop => exact run h fun _ _ => setFlag
  | pwwr => exact run h fun _ _ => modThread
  | br | jmp => exact run h fun _ _ => transfer
  | brl | jmpl => exact run h fun _ _ hu => transfer (write hu)
  | loop => exact execLoop h
  | nop => exact run h fun _ _ hu => hu
  | fadd | fsub | fmul | ffma | fdiv | fsqrt | fmin | fmax => exact runFp h
  | fcmp => exact run h fun _ _ hu => setFlag (raise hu)
  | fcvt => exact execFcvt h
  | fsgn => exact execFsgn h
  | ld => exact run h fun _ _ hu => access hu fun _ _ _ => loadAt
  | st => exact run h fun _ _ hu => access hu fun _ _ _ => storeAt
  | ldf => exact execLdf h
  | stf => exact execStf h
  | feset => exact execFeset h
  | feqry => exact execFeqry h
  | lda => exact execLda h
  | stl => exact execStl h
  | fetch => exact execFetch h
  | pref => exact execPref h
  | migr => exact execMigr h
  | home => exact run h fun _ _ hu => write (hu.of_mem rfl)
  | cord => exact execCord h
  | spawn => exact execSpawn h
  | exit => exact execExit h
  | yield => exact run h fun _ _ => yield
  | yieldRq => exact execYieldRq h
  | anch => exact execAnch h
  | anchR => exact execAnchR h
  | marm => exact execMarm h
  | marmClr => exact run h fun _ _ => disarm
  | mwait => exact execMwait h
  | binit => exact execBinit h
  | barv => exact execBarv h
  | barvQ => exact run h fun _ _ hu => atBarrier hu fun _ _ => write hu
  | barw => exact execBarw h
  | barwA => exact execBarwA h
  | bdrop => exact execBdrop h
  | semi => exact execSemi h
  | sema => exact execSema h
  | semr => exact execSemr h
  | semw => exact execSemw h
  | aadd | alog | amnx | axch | acas | afadd => exact runAtomic h
  | fence => exact execFence h
  | push | pop | chinit => exact run h fun _ _ => chanIssue
  | send => exact execSend h
  | sendm => exact execSendm h
  | recv => exact execRecv h
  | chbind => exact execChbind h
  | trdy => exact execTrdy h
  | vadd | vsub | vmul | vfma | vfms | vfnma | vmin | vmax | vabs | vneg | vdiv | vand | vor | vxor | vbcst =>
    exact runElem h
  | vsqrt | vrcp | vrsq | vexp2 | vlog2 => exact runFun h
  | vshl | vshr => exact runShift h
  | vcmp | vgetl | vred | mops | vdot => exact runV h fun _ _ => write
  | vsel | vmov | vputl | vperm | vrot | vcvt | vqnt | vdqnt | vscan | vidx => exact runV h fun _ _ => writeV
  | vld | vlds | vgth => exact runVmem h fun _ _ _ => vload
  | vst | vsts | vsct => exact runVmem h fun _ _ _ => vstore
  | mxset => exact execMxset h
  | mxrun => exact execMxrun h
  | mxsend => exact execMxsend h
  | tard => exact execTard h
  | tawr => exact execTawr h
  | taz => exact runMx h fun _ _ _ => acceptOp
  | taq => exact execTaq h
  | fmtld => exact execFmtld h
  | mxcap => exact execMxcap h
  | tacc => exact execTacc h
  | cpy => exact execCpy h
  | cpyx => exact execCpyx h
  | strm => exact execStrm h
  | strcGet => exact execStrcGet h
  | strcPut => exact execStrcPut h
  | strcEnd => exact execStrcEnd h
  | strcQ => exact execStrcQ h
  | cpcan => exact run h fun _ _ hu => write (cancelAll (modCore hu))
  | scout => exact execScout h
  | stor => exact execStor h
  | gcopy | gsend | gcmp | ghash | gfree => exact walkIssue h
  | gtype => exact execGtype h
  | gqry => exact execGqry h
  | cjoin => exact execCjoin h
  | cjoinQ => exact run h fun _ _ hu => groupName fun _ => write hu
  | cjoinLv => exact execCjoinLv h
  | cred => exact execCred h
  | cmcst => exact execCmcst h
  | crcvMc => exact execCrcvMc h
  | crcvRed => exact execCrcvRed h
  | bsget | bspeek => exact run h fun _ _ => bsRead
  | bsput => exact execBsput h
  | bsaln => exact execBsaln h
  | bsfls => exact run h fun _ _ hu => bsFlush hu fun _ hu => hu
  | qwait => exact execQwait h
  | qtake => exact execQtake h
  | qdone => exact execQdone h
  | sysc => exact execSysc h
  | sysw => exact execSysw h
  | trap => exact run h fun _ _ => takeTrap
  | rett => exact execRett h
  | spwr => exact run h fun _ _ => sprWrite
  | spwrTypebase => exact execSpwrTypebase h
  | spwrXlbase => exact execSpwrXlbase h
  | spwrBnd => exact execSpwrBnd h
  | launch => exact execLaunch h
  | qctl | qctlWr | qctlRst => exact run h fun _ _ => qctlIssue
  | kill | killZ => exact run h fun _ _ => killIssue
  | rclf => exact execRclf h
  | gang => exact execGang h
  | plbinv => exact execPlbinv h
  | xlinv => exact execXlinv h
  | pair => exact execPair h
  | pairOff => exact execPairOff h
  | fpck => exact execFpck h
  | coff => exact execCoff h
  | coffDef => exact execCoffDef h
  | coffLift => exact execCoffLift h
  | lsync => exact execLsync h
  | wipe => exact execWipe h
  | halt => exact execHalt h
  | thrmSet => exact execThrmSet h
  | repl => exact execRepl h
  | replQ => exact execReplQ h
  | bndWriteApply => exact execBndWriteApply h
  | qctlWriteApply => exact execQctlWriteApply h
  | barrelSelect => exact execBarrelSelect h
  | slotLoadDone => exact execSlotLoadDone h
  | slotFill => exact execSlotFill h
  | imageArrival => exact execImageArrival h
  | restingStateReload => exact execRestingStateReload h
  | thermalRankRewrite => exact ifElse (rankRewrite h) h
  | slotDisable => exact execSlotDisable h
  | slotReenable => exact execSlotReenable h
  | thermalDisplacement => exact execThermalDisplacement h
  | waitlimExpiry => exact execWaitlimExpiry h
  | mwaitTimeout => exact execMwaitTimeout h
  | monitorTrigger => exact execMonitorTrigger h
  | watchRegistrationAck => exact execWatchRegistrationAck h
  | responseArrival => exact execResponseArrival h
  | storeAck => exact execStoreAck h
  | homeReadWrite => exact execHomeReadWrite h
  | tagRequestAtHome => exact execTagRequestAtHome h
  | proxyContinuation => exact execProxyContinuation h
  | atomicReservationGrant => exact execAtomicReservationGrant h
  | hostAtomic => exact execHostAtomic h
  | agentTimeout => exact execAgentTimeout h
  | wake => exact execWake h
  | xlinvUnitAck => exact execXlinvUnitAck h
  | launchPacketAccept => exact execLaunchPacketAccept h
  | launchReservationPlace => exact execLaunchReservationPlace h
  | launchStart => exact execLaunchStart h
  | multiPackageHoldRelease => exact execMultiPackageHoldRelease h
  | launchArrival => exact execLaunchArrival h
  | launchStartMessage => exact execLaunchStartMessage h
  | startTimeRelease => exact execStartTimeRelease h
  | startBarrierCancel => exact execStartBarrierCancel h
  | launchRetire => exact execLaunchRetire h
  | launchStrike => exact execLaunchStrike h
  | launchReplay => exact execLaunchReplay h
  | channelMessageArrival => exact execChannelMessageArrival h
  | placementSwap => exact execPlacementSwap h
  | extensionDirectoryWrite | coreMarginal => exact ifElse (modCore h) h
  | cpyCommandStart => exact execCpyCommandStart h
  | cpyCommandComplete => exact execCpyCommandComplete h
  | custItemEnqueue => exact execCustItemEnqueue h
  | arenaPlacement => exact execArenaPlacement h
  | bulkMessagePlacement => exact execBulkMessagePlacement h
  | storageBlockCheck => exact execStorageBlockCheck h
  | storageBlockComplete => exact execStorageBlockComplete h
  | mxCommandStart => exact execMxCommandStart h
  | mxCommandComplete => exact execMxCommandComplete h
  | remoteCommandArrival => exact execRemoteCommandArrival h
  | tazPerform => exact execTazPerform h
  | taccRow => exact execTaccRow h
  | graphWalkStart => exact execGraphWalkStart h
  | graphLineRead => exact execGraphLineRead h
  | graphSweep => exact execGraphSweep h
  | graphWalkComplete => exact execGraphWalkComplete h
  | channelOpAtHome => exact execChannelOpAtHome h
  | pairMatch => exact execPairMatch h
  | pairHoldExpiry => exact execPairHoldExpiry h
  | routerCycle => exact execRouterCycle h
  | injectionStarvation => exact execInjectionStarvation h
  | flitNack => exact execFlitNack h
  | parkedFlitResend => exact execParkedFlitResend h
  | linkPacketReceive => exact execLinkPacketReceive h
  | linkReplayTimeout => exact execLinkReplayTimeout h
  | linkNegativeAck => exact execLinkNegativeAck h
  | linkWidthChange => exact execLinkWidthChange h
  | linkFail => exact execLinkFail h
  | mcastNode => exact execMcastNode h
  | mcastDelivery => exact execMcastDelivery h
  | setupArrival => exact execSetupArrival h
  | contribArrival => exact execContribArrival h
  | trestleCombine => exact execTrestleCombine h
  | gangStop => exact execGangStop h
  | gangFallOut => exact execGangFallOut h
  | gangRestore => exact execGangRestore h
  | gangStart => exact execGangStart h
  | fingerprintExchange => exact execFingerprintExchange h
  | killMarkerPass => exact execKillMarkerPass h
  | rclfWave => exact execRclfWave h
  | uncorrectableError => exact execUncorrectableError h
  | h2dDoorbell | spdmRequest => exact ifElse (modPkg h) h
  | mbLaunch => exact execMbLaunch h
  | capload => exact execCapload h
  | capdrop => exact execCapdrop h
  | agentreg => exact execAgentreg h
  | agentrsp => exact execAgentrsp h
  | lcreq => exact execLcreq h
  | unknownEntry => exact execUnknownEntry h
  | hostApertureRead | hostApertureWrite => exact hostAccess h
  | hostApertureAtomic => exact execHostApertureAtomic h
  | apertureReadTimeout => exact execApertureReadTimeout h
  | registerWrite => exact execRegisterWrite h
  | heartbeatSend => exact execHeartbeatSend h
  | heartbeatTimeout => exact execHeartbeatTimeout h
  | leaderAnnouncement => exact execLeaderAnnouncement h
  | threadResumeMessage => exact execThreadResumeMessage h
  | syscallExecute => exact execSyscallExecute h
  | powerThrottle => exact ifElse h (setPkg h)
  | thermalTrip => exact execThermalTrip h
  | timeBaseCorrection => exact ifElse (modDie h) h
  | packageReset => exact ifElse (resetPackage h) h
  | functionLevelReset => exact ifElse h (modPkg h)
  | rebinning => exact ifElse h (ifElse (readmit h) (ifElse (readmit h) (retireCore h)))
  | servicePairIntrWake => exact intrWake h
  | managementWrite => exact manage h
  | makeContextLive => exact execMakeContextLive h
  | dramDataError => exact ifElse (h.of_mem rfl) h
end State.Canon

/-! ### The step -/

namespace State.Canon
theorem issueWord {s : State} {w} (h : s.Canon) : NextCanon (Machine.issueWord s w) := by
  unfold Machine.issueWord
  split
  · exact exec h
  · exact extRange h
  · exact illegal h
theorem step {s : State} (h : s.Canon) : NextCanon (Machine.step s) := by
  unfold Machine.step
  split
  · exact exec (h.of_mem rfl)
  · split
    · next tid _ =>
      have hf : (State.fetchWord { s with issue := none, cur := tid } tid).Canon := fetchWord (h.of_mem rfl)
      generalize State.fetchWord _ tid = f at hf
      cases f with
      | word u w => exact issueWord (of_mem hf rfl)
      | gone u => exact hf
    · with_reducible exact auto h
end State.Canon

end Sys2Proof.Machine

namespace Sys2Proof

/-- Settles O60: memory is changed only by writes of bytes, copies of granules and removals of bytes, each of which keeps the
canonical form, and the lemmas of `State.Canon` carry this through every function of the step. -/
theorem memoryStaysCanonical : Obligations.MemoryStaysCanonical := by
  unfold Obligations.MemoryStaysCanonical
  intro s t h e
  have hn := Machine.State.Canon.step (s := s) ⟨h⟩
  rw [e] at hn
  exact hn.wf

end Sys2Proof

end

section
/-! The guard of an instruction (R18, R120, R134 step 3): every instruction goes through `run` under its own guard, so that one
whose guard is false retires and does nothing else (O51). -/

namespace Sys2Proof.Machine

/-! ### Every instruction runs under its guard -/

/-- The outcome is that of the steps of R134 under the guard `g`. -/
def RunsUnder (s : State) (g : Guard) (o : Host.Outcome State Fault Refusal) : Prop := ∃ n f, o = run s g n f

namespace RunsUnder

theorem run {s : State} {g : Guard} {n f} : RunsUnder s g (Machine.run s g n f) := ⟨n, f, rfl⟩
theorem runAlu {s : State} {g d a b f} : RunsUnder s g (Machine.runAlu s g d a b f) := run
theorem runAlu1 {s : State} {g d a f} : RunsUnder s g (Machine.runAlu1 s g d a f) := run
theorem runDiv {s : State} {g h d a b f} : RunsUnder s g (Machine.runDiv s g h d a b f) := run
theorem runFp {s : State} {g x rm d l f} : RunsUnder s g (Machine.runFp s g x rm d l f) := run
theorem runAtomic {s : State} {g op w d base disp b l} : RunsUnder s g (s.runAtomic g op w d base disp b l) := run
theorem runV {α : Type} {s : State} {g n ty rm f} {put : State → α → State} : RunsUnder s g (Machine.runV s g n ty rm put f) := run
theorem runElem {s : State} {g k t rm d a b c f} : RunsUnder s g (Machine.runElem s g k t rm d a b c f) := runV
theorem runFun {s : State} {g k t rm d a f} : RunsUnder s g (Machine.runFun s g k t rm d a f) := runElem
theorem runShift {s : State} {g right t k d a b} : RunsUnder s g (Machine.runShift s g right t k d a b) := by
  unfold Machine.runShift
  cases b with
  | imm => exact runElem
  | reg => exact runElem
theorem runVmem {s : State} {g n t kind elems f} : RunsUnder s g (Machine.runVmem s g n t kind elems f) := run
theorem runMx {s : State} {g n f} : RunsUnder s g (Machine.runMx s g n f) := run
theorem walkIssue {s : State} {op g d a b} : RunsUnder s g (Machine.walkIssue op g d a b s) := run

theorem execSend {s : State} {g d a b n} : RunsUnder s g (Machine.execSend g d a b n s) := by
  unfold Machine.execSend
  exact run

/-- R134: an instruction goes through the steps of R134 under its own guard. -/
theorem exec (i : Instr) (s : State) (hi : i.isEvent = false) : RunsUnder s i.guard (Machine.exec i s) := by
  unfold Machine.exec
  cases i with
  | add | sub | mul | mulh | mulhn | and | or | xor | andn | shl | shr | sar | rot | min | max | minn | maxn | ext => exact runAlu
  | div | divn | rem | remn => exact runDiv
  | clz | ctz | popc | brev | bswp => exact runAlu1
  | fadd | fsub | fmul | ffma | fdiv | fsqrt | fmin | fmax => exact runFp
  | aadd | alog | amnx | axch | acas | afadd => exact runAtomic
  | vadd | vsub | vmul | vfma | vfms | vfnma | vmin | vmax | vabs | vneg | vdiv | vand | vor | vxor | vbcst => exact runElem
  | vsqrt | vrcp | vrsq | vexp2 | vlog2 => exact runFun
  | vshl | vshr => exact runShift
  | vcmp | vsel | vmov | vgetl | vputl | vperm | vrot | vcvt | vqnt | vdqnt | vred | vscan | mops | vidx | vdot => exact runV
  | vld | vst | vlds | vsts | vgth | vsct => exact runVmem
  | mxset | mxrun | tard | tawr | taz | taq | mxcap | tacc => exact runMx
  | gcopy | gsend | gcmp | ghash | gfree => exact walkIssue
  | dep | sel | lea | movw | movh | cmp | flop | pwrd | pwwr | br | brl | jmp | jmpl | loop | nop | fcmp | fcvt | fsgn
    | fcls | ld | st | ldf | stf | feset | feqry | lda | stl | fetch | pref | migr | home | cord | spawn | exit | yield
    | yieldRq | anch | anchR | marm | marmClr | mwait | binit | barv | barvQ | barw | barwA | bdrop | semi | sema | semr
    | semw | fence | push | pop | chinit | sendm | recv | chbind | trdy | mxsend | fmtld | cpy | cpyx | strm | strcGet
    | strcPut | strcEnd | strcQ | cpq | cpcan | scout | stor | gtype | gqry | cjoin | cjoinQ | cjoinLv | cred | cmcst
    | crcvMc | crcvRed | bsget | bspeek | bsput | bsaln | bsfls | qwait | qtake | qdone | sysc | sysw | trap | rett | sprd
    | spwr | spwrTypebase | spwrXlbase | spwrBnd | time | launch | qctl | qctlWr | qctlRst | kill | killZ | rclf | gang
    | plbinv | xlinv | pair | pairOff | fpck | coff | coffDef | coffLift | lsync | wipe | halt | extl | thrm | thrmSet
    | repl | replQ => exact run
  | send => exact execSend
  | _ => cases hi

end RunsUnder

/-! ### A false guard -/

theorem KMap.set_set {α : Type} (m : KMap α) (k : Nat) (a b : α) : KMap.set (KMap.set m k a) k b = KMap.set m k b := by
  induction m with
  | nil => simp [KMap.set]
  | cons p r ih =>
    obtain ⟨i, c⟩ := p
    by_cases hlt : k < i
    · simp [KMap.set, hlt]
    · by_cases heq : i = k
      · simp [KMap.set, heq]
      · simp [KMap.set, hlt, heq, ih]

theorem State.modThread_modThread (s : State) (k : Nat) (f h : Thread → Thread) :
    (s.modThread k f).modThread k h = s.modThread k (fun t => h (f t)) := by
  rw [State.modThread, State.thread_modThread_same]
  simp only [State.modThread, State.setThread, KMap.set_set]

/-- R120: the guard that names the flag `n`, or its negation. -/
theorem Thread.guardOk_flag (t : Thread) (n : BitVec 3) (neg : Bool) :
    t.guardOk ((if neg then 8 else 0) ||| n.setWidth 4) = (t.flag n != neg) := by
  have hbits : ((if neg then 8 else 0) ||| n.setWidth 4 : Guard).extractLsb' 0 3 = n ∧
      ((if neg then 8 else 0) ||| n.setWidth 4 : Guard).getLsbD 3 = neg := by
    revert n neg; decide
  obtain ⟨hflag, hneg⟩ := hbits
  rw [Thread.guardOk, hflag, hneg]

/-- R134 step 2: a word with the guard 0b1000 is ILLEGAL, before its opcode is looked at. -/
theorem decode_guardNever {w : Word} (hg : w.extractLsb' 48 4 = 8) : decode w = .illegal .guardNever := by
  rw [decode, if_pos hg]

/-- R134 step 3: an instruction whose guard is false retires. -/
theorem run_of_guard_false {s : State} {g : Guard} {n : Need} {f : State → Thread → Res} (hx : s.exchangeDue s.me = false)
    (hw : s.me.wakeCause = 0) (hg : s.me.guardOk g = false) : run s g n f = .next (s.retire s.cur (s.me.pc + 8)) := by
  have hflag : (s.thread s.cur).flag (g.extractLsb' 0 3) = g.getLsbD 3 := by simpa [Thread.guardOk] using hg
  simp [run, hx, hw, hflag]

/-- R18: retirement alone advances the PC and RETIRED. -/
theorem State.after_retire (s : State) (pc : Word) : s.After (s.retire s.cur pc) { Out.none s with takes := [], pc := pc } := by
  have h := (State.Wrote.refl s).retire [] false pc 0 false (fun _ => List.not_mem_nil) (fun _ => List.not_mem_nil)
  have hno : (s.modThread s.cur (fun t => t.takeAll [])).retire s.cur pc = s.retire s.cur pc := s.modThread_modThread s.cur _ _
  rwa [if_neg Bool.false_ne_true, hno] at h

/-- Settles O51: every instruction runs under its own guard, and `run` only retires where the guard is false. -/
theorem falseGuardHasNoEffect : Obligations.FalseGuardHasNoEffect := by
  unfold Obligations.FalseGuardHasNoEffect
  refine ⟨Thread.guardOk_flag, fun _ => decode_guardNever, fun i s hi hx hw hg => ?_⟩
  obtain ⟨n, f, hrun⟩ := RunsUnder.exec i s hi
  exact ⟨_, hrun.trans (run_of_guard_false hx hw hg), s.after_retire _⟩

end Sys2Proof.Machine
end

section
/-! An instruction with an empty source (R19, R134 step 6): it waits for every register that it lacks (O54). -/

namespace Sys2Proof.Machine

/-! ### The wait for registers -/

/-- R134 step 6: an instruction of an anchored supervisor thread, one of whose sources is empty, is not ready. -/
theorem run_of_empty_source {s : State} {i : Instr} {n : Need} {q : Reg} (f : State → Thread → Res) (hi : s.reaches i)
    (hl : s.listed s.me n.ext = true) (ha : s.me.anc = true) (hs : s.me.sup = true) (hm : s.me.marks = [])
    (hq : q ∈ srcRegs n.srcs ++ n.reads) (he : s.me.full q = false) :
    ∃ r, run s i.guard n f = .next (s.unready r (s.me.lacking n)) := by
  obtain ⟨_, hx, hw, hg⟩ := hi
  have hflag : ¬ (s.thread s.cur).flag (i.guard.extractLsb' 0 3) = i.guard.getLsbD 3 := by simpa [Thread.guardOk] using hg
  obtain ⟨r, hr⟩ : ∃ r, (srcRegs n.srcs ++ n.reads).find? (fun r => !s.me.full r) = some r := by
    rw [← Option.isSome_iff_exists, List.find?_isSome]
    exact ⟨q, hq, by rw [he]; rfl⟩
  have hready : (s.thread s.cur).notReady n = some r := by rw [Thread.notReady, hr]; rfl
  have hmark : (s.thread s.cur).markOf r = none := by rw [Thread.markOf, hm]; rfl
  refine ⟨r, ?_⟩
  simp only [run, hx, hw, hflag, hl, ha, hs, hready, hmark, ne_eq, not_true_eq_false, Bool.not_true, Bool.and_false,
    Bool.false_eq_true, if_false]

/-- R19: what an instruction lacks: the empty ones of its sources, and the destinations that await a response. -/
theorem Thread.mem_lacking {t : Thread} {n : Need} {r : Reg} :
    r ∈ t.lacking n ↔ (r ∈ srcRegs n.srcs ++ n.reads ∧ t.full r = false) ∨ (r ∈ n.dests ∧ t.awaited r = true) := by
  simp only [Thread.lacking, List.mem_append, List.mem_filter, Bool.not_eq_true']

/-- The thread of an instruction that is not ready stands at the instruction, with its registers, and waits. -/
theorem State.thread_unready_same (s : State) (r : Reg) (l : List Reg) :
    (s.unready r l).thread s.cur = { s.me with
      wait := some (.reg (l.map regNum)), counted := true, waitAddr := BitVec.ofNat 64 (regNum r), iw := s.iword
      since := if s.me.since.isSome then s.me.since else some (s.nowOf s.me) } := by
  rw [State.unready, State.modCore_thread, State.block, State.thread_modThread_same]

theorem State.thread_unready_ne (s : State) (r : Reg) (l : List Reg) {k : Nat} (h : k ≠ s.cur) :
    (s.unready r l).thread k = s.thread k := by
  rw [State.unready, State.modCore_thread, State.block, State.thread_modThread_ne _ _ (Ne.symm h)]

/-- R140: the barrel of the thread's core chooses again; the other cores stand. -/
theorem State.core_unready (s : State) (r : Reg) (l : List Reg) (k : Nat) :
    (s.unready r l).core k = if k = s.me.core then (s.core k).unselect else s.core k := by
  rw [State.unready, State.block]
  split
  · next h => rw [h, State.core_modCore_same, State.modThread_core]
  · next h => rw [State.core_modCore_ne _ _ (Ne.symm h), State.modThread_core]

/-! ### The opcode of a word, and its extension -/

@[simp] theorem opcode_encA (op : BitVec 8) (sub : BitVec 4) (g : Guard) (d : BitVec 6) (a b c : BitVec 7) (i : BitVec 21) :
    (encA op sub g d a b c i).extractLsb' 56 8 = op := by
  simp (disch := omega) only [encA, BitVec.extractLsb'_append_eq_of_le]
  exact BitVec.extractLsb'_eq_self

@[simp] theorem opcode_encM (op : BitVec 8) (sub : BitVec 4) (g : Guard) (d : BitVec 6) (m : MemOp) :
    (encM op sub g d m).extractLsb' 56 8 = op := by
  simp (disch := omega) only [encM, encMf, BitVec.extractLsb'_append_eq_of_le]
  exact BitVec.extractLsb'_eq_self

@[simp] theorem opcode_encV (op : BitVec 8) (sub : BitVec 4) (g : Guard) (d : BitVec 6) (a b c : BitVec 7) (k : VMask) (t : ETyp)
    (rm : RM) (i : BitVec 10) : (encV op sub g d a b c k t rm i).extractLsb' 56 8 = op := by
  simp (disch := omega) only [encV, BitVec.extractLsb'_append_eq_of_le]
  exact BitVec.extractLsb'_eq_self

/-- R130: an instruction belongs to the extension of its word's opcode. -/
theorem instrExt_of_opcode {i : Instr} {op : BitVec 8} (h : (encode i).extractLsb' 56 8 = op) : instrExt i = extensionOf op.toNat := by
  rw [instrExt, h]

theorem instrExt_add (g : Guard) (h : Bool) (d : Reg) (a : Src) (b : Opd) : instrExt (.add g h d a b) = .base :=
  instrExt_of_opcode (op := 1) (opcode_encA ..)
theorem instrExt_fadd (g : Guard) (x : Bool) (m : RM) (d : Reg) (a b : Src) : instrExt (.fadd g x m d a b) = .fps :=
  instrExt_of_opcode (op := 48) (opcode_encA ..)
theorem instrExt_vadd (g : Guard) (q : Bool) (ty : ETyp) (m : RM) (k : VMask) (d : Reg) (a b : Src) :
    instrExt (.vadd g q ty m k d a b) = .vec :=
  instrExt_of_opcode (op := 112) (opcode_encV ..)
theorem instrExt_jmp (g : Guard) (a : Src) (x : BitVec 21) : instrExt (.jmp g a x) = .base :=
  instrExt_of_opcode (op := 0x27) (opcode_encA ..)
theorem instrExt_st (g : Guard) (z : Size) (d : Reg) (m : MemOp) : instrExt (.st g z d m) = .base :=
  instrExt_of_opcode (op := 0x41) (opcode_encM ..)
theorem instrExt_spwr (g : Guard) (r : Spr) (a : Src) : instrExt (.spwr g r a) = .sys :=
  instrExt_of_opcode (op := 0xD5) (opcode_encA ..)

/-! ### The first source of some instructions -/

theorem exec_add (g : Guard) (h : Bool) (d : Reg) (a : Src) (b : Opd) (s : State) :
    exec (.add g h d a b) s = execAdd g h d a b s := rfl
theorem exec_fadd (g : Guard) (x : Bool) (m : RM) (d : Reg) (a b : Src) (s : State) :
    exec (.fadd g x m d a b) s = execFadd g x m d a b s := rfl
theorem exec_vadd (g : Guard) (q : Bool) (ty : ETyp) (m : RM) (k : VMask) (d : Reg) (a b : Src) (s : State) :
    exec (.vadd g q ty m k d a b) s = execVadd g q ty m k d a b s := rfl
theorem exec_jmp (g : Guard) (a : Src) (x : BitVec 21) (s : State) : exec (.jmp g a x) s = execJmp g a x s := rfl
theorem exec_st (g : Guard) (z : Size) (d : Reg) (m : MemOp) (s : State) : exec (.st g z d m) s = execSt g z d m s := rfl
theorem exec_spwr (g : Guard) (r : Spr) (a : Src) (s : State) : exec (.spwr g r a) s = execSpwr g r a s := rfl

/-- The outcome is that of the steps of R134 under the guard `g`, with a need of the extension `e` and of the register `q`. -/
def RunsReading (s : State) (g : Guard) (e : Ext) (q : Reg) (o : Host.Outcome State Fault Refusal) : Prop :=
  ∃ n f, o = run s g n f ∧ n.ext = e ∧ q ∈ srcRegs n.srcs ++ n.reads

namespace RunsReading

theorem runAlu {s : State} {g d a b f} : RunsReading s g .base a.reg (Machine.runAlu s g d a b f) :=
  ⟨_, _, rfl, rfl, List.mem_cons_self⟩
theorem runFp {s : State} {g x m d a l f} : RunsReading s g .fps a.reg (Machine.runFp s g x m d (a :: l) f) :=
  ⟨_, _, rfl, rfl, List.mem_cons_self⟩
theorem runV {α : Type} {s : State} {g n ty m f q} {put : State → α → State} (hq : q ∈ srcRegs n.srcs ++ n.reads) :
    RunsReading s g n.ext q (Machine.runV s g n ty m put f) :=
  ⟨_, _, rfl, rfl, hq⟩
theorem runElem {s : State} {g k ty m d a b c f} : RunsReading s g .vec a.reg (Machine.runElem s g k ty m d a b c f) :=
  runV (n := vneed k d [a, b, c] []) List.mem_cons_self
theorem execJmp {s : State} {g a x} : RunsReading s g .base a.reg (Machine.execJmp g a x s) :=
  ⟨_, _, rfl, rfl, List.mem_cons_self⟩
theorem execSt {s : State} {g z d m} : RunsReading s g .base d (Machine.execSt g z d m s) :=
  ⟨_, _, rfl, rfl, List.mem_append_right _ List.mem_cons_self⟩
theorem execSpwr {s : State} {g r a} : RunsReading s g .sys a.reg (Machine.execSpwr g r a s) :=
  ⟨_, _, rfl, rfl, List.mem_cons_self⟩

/-- The named instructions read their first source, and ST its data, before they execute. -/
theorem exec {s : State} {g : Guard} {a : Src} {i : Instr}
    (hi : (∃ h d b, i = .add g h d a b) ∨ (∃ x m d b, i = .fadd g x m d a b) ∨ (∃ q ty m k d b, i = .vadd g q ty m k d a b) ∨
      (∃ x, i = .jmp g a x) ∨ (∃ z m, i = .st g z a.reg m) ∨ (∃ r, i = .spwr g r a)) :
    RunsReading s i.guard (instrExt i) a.reg (Machine.exec i s) := by
  obtain ⟨h, d, b, rfl⟩ | ⟨x, m, d, b, rfl⟩ | ⟨q, ty, m, k, d, b, rfl⟩ | ⟨x, rfl⟩ | ⟨z, m, rfl⟩ | ⟨r, rfl⟩ := hi
  · rw [exec_add, instrExt_add]; exact runAlu
  · rw [exec_fadd, instrExt_fadd]; exact runFp
  · rw [exec_vadd, instrExt_vadd]; exact runElem
  · rw [exec_jmp, instrExt_jmp]; exact execJmp
  · rw [exec_st, instrExt_st]; exact execSt
  · rw [exec_spwr, instrExt_spwr]; exact execSpwr

end RunsReading

/-- Settles O54: an instruction that reads an empty register is not ready, and `State.unready` changes only the wait of its thread and
the choice of its core's barrel. -/
theorem emptySourceIsWaitedFor : Obligations.EmptySourceIsWaitedFor := by
  unfold Obligations.EmptySourceIsWaitedFor
  intro s g a i _ hreach hlisted hanc hsup hempty hmarks hi
  obtain ⟨n, f, hrun, hext, hmem⟩ := RunsReading.exec (s := s) hi
  obtain ⟨r, hr⟩ := run_of_empty_source f hreach (hext ▸ hlisted) hanc hsup hmarks hmem hempty
  have hme := s.thread_unready_same r (s.me.lacking n)
  have hlacks : a.reg ∈ s.me.lacking n := Thread.mem_lacking.mpr (.inl ⟨hmem, hempty⟩)
  refine ⟨_, (s.me.lacking n).map regNum, hrun.trans hr, ?_, List.mem_map_of_mem hlacks, ?_, ?_, ?_, ?_,
    fun k hk => s.thread_unready_ne r _ hk, rfl, s.core_unready r _⟩
  · rw [hme]
  · intro k hk
    obtain ⟨q, hq, rfl⟩ := List.mem_map.mp hk
    exact ⟨q, rfl, (Thread.mem_lacking.mp hq).imp And.right And.right⟩
  · rw [hme]
  · rw [hme]
  · intro q
    rw [hme]
    exact ⟨by cases q <;> rfl, by cases q <;> rfl, by cases q <;> rfl⟩

end Sys2Proof.Machine
end

section
/-! The words that the spec writes out, and their fate (O58). -/

namespace Sys2Proof.Machine

/-- Settles O58: each word is decoded as it stands; the two with G = 0b1000 fall at the check of the guard, whatever their opcode. -/
theorem wordsOfTheSpecDecode : Obligations.WordsOfTheSpecDecode := by
  unfold Obligations.WordsOfTheSpecDecode
  exact ⟨rfl, rfl, rfl, rfl, rfl, rfl, rfl, rfl, decode_guardNever rfl, rfl, rfl, decode_guardNever rfl, rfl, rfl⟩

end Sys2Proof.Machine
end

section
/-! VQNT, VRED, VSCAN and VDOT (R200, R202 to R204): what a vector instruction that runs leaves of its thread, the elements of
the register that an elementwise loop builds, and integer reductions as sums (O21). -/

namespace Sys2Proof.Machine

/-! ### What a vector instruction leaves -/

/-- R51, R52: the flags and the generator that the elements of an instruction have accumulated. -/
theorem State.Wrote.accumulated (s : State) (x : Vx) :
    s.Wrote ((s.modThread s.cur (fun t => { t with rnd := x.rnd })).raise s.cur x.fl.bits)
      { Out.none s with pw := s.me.pw ||| x.fl.bits, rnd := x.rnd } := by
  have h := State.Wrote.refl s
  refine State.Wrote.raise (o := { Out.none s with rnd := x.rnd }) ?_ (by simp) _
  refine h.thread _ _ h.g h.v h.m (fun r => ?_) h.pw rfl h.retired h.marks h.mask
  rw [← h.full r]; cases r <;> rfl

/-- R190: a vector instruction whose format registers are valid ends by what it puts, over the flags and the generator. -/
theorem completes_runV {α : Type} {i : Instr} {s : State} {g : Guard} {n : Need} {ty : List ETyp} {rm : RM} {put : State → α → State}
    {f : RM → Thread → Vx → Vx × α} {o : Out} (he : exec i s = runV s g n ty rm put f) (hr : s.runs g n = true)
    (hb : badFmt s.me.fa s.me.fb ty = none)
    (hw : let p := f (rm.eff s.me.pw) s.me ⟨{}, s.me.rnd⟩
      s.Wrote (put ((s.modThread s.cur (fun t => { t with rnd := p.1.rnd })).raise s.cur p.1.fl.bits) p.2) o)
    (h1 : o.reg ∈ n.dests ++ n.fills ∨ o.reg = .z) (h2 : o.vreg ∈ n.dests ++ n.fills ∨ o.vreg = .z) :
    Completes i s { o with takes := takesOf n.srcs (n.dests ++ n.fills), pc := s.me.pc + 8 } :=
  completes_ok he hr (by simp only [hb]) hw h1 h2

/-- A vector instruction with a scalar result. -/
theorem completes_runV_write {i : Instr} {s : State} {g : Guard} {k : VMask} {d : Reg} {srcs : List Src} {ty : List ETyp} {rm : RM}
    {f : RM → Thread → Vx → Vx × Word} (he : exec i s = runV s g (vneed k d srcs []) ty rm (fun s v => s.write s.cur d v) f)
    (hr : s.runs g (vneed k d srcs []) = true) (hb : badFmt s.me.fa s.me.fb ty = none) (hd : Reg.scalarDest d = true) :
    let p := f (rm.eff s.me.pw) s.me ⟨{}, s.me.rnd⟩
    Completes i s { s.out srcs d p.2 with pw := s.me.pw ||| p.1.fl.bits, rnd := p.1.rnd } :=
  completes_runV he hr hb ((State.Wrote.accumulated s _).write rfl d hd _) (.inl (by simp [vneed])) (.inr rfl)

/-- A vector instruction with a vector result. -/
theorem completes_runV_writeV {i : Instr} {s : State} {g : Guard} {k : VMask} {d : Reg} {srcs : List Src} {ty : List ETyp} {rm : RM}
    {f : RM → Thread → Vx → Vx × BitVec 1024} (he : exec i s = runV s g (vneed k d srcs []) ty rm (fun s v => s.writeV s.cur d v) f)
    (hr : s.runs g (vneed k d srcs []) = true) (hb : badFmt s.me.fa s.me.fb ty = none) (hd : d.isV = true) :
    let p := f (rm.eff s.me.pw) s.me ⟨{}, s.me.rnd⟩
    Completes i s { vreg := d, vec := p.2, pw := s.me.pw ||| p.1.fl.bits, rnd := p.1.rnd, takes := takesOf srcs [d], pc := s.me.pc + 8 } :=
  completes_runV he hr hb ((State.Wrote.accumulated s _).writeV rfl d (.inl hd) _) (.inr rfl) (.inl (by simp [vneed]))

/-- A vector instruction with a scalar result that raises no flag and takes no step of the generator. -/
theorem completes_runV_out {i : Instr} {s : State} {g : Guard} {k : VMask} {d : Reg} {srcs : List Src} {ty : List ETyp} {rm : RM}
    {f : RM → Thread → Vx → Vx × Word} (he : exec i s = runV s g (vneed k d srcs []) ty rm (fun s v => s.write s.cur d v) f)
    (hr : s.runs g (vneed k d srcs []) = true) (hb : badFmt s.me.fa s.me.fb ty = none) (hd : Reg.scalarDest d = true) {v : Word}
    (hf : f (rm.eff s.me.pw) s.me ⟨{}, s.me.rnd⟩ = (⟨{}, s.me.rnd⟩, v)) : Completes i s (s.out srcs d v) := by
  have h := completes_runV_write he hr hb hd
  have hpw : s.me.pw ||| Fl.bits {} = s.me.pw := BitVec.or_zero
  simpa only [hf, hpw, State.out] using h

/-! ### The cells of a vector register -/

theorem cellOf_lt {c w : Nat} (h : w ≤ c) (sx : Bool) (n : Nat) : cellOf c w sx n < 2 ^ c := by
  have hm : n % 2 ^ w < 2 ^ w := Nat.mod_lt _ (Nat.two_pow_pos w)
  have hc : 2 ^ w ≤ 2 ^ c := Nat.pow_le_pow_right (by decide) h
  unfold cellOf
  dsimp only
  split <;> omega

theorem elemOf_lt (t : ETyp) (w : Nat) (v : BitVec 1024) (i : Nat) : elemOf t w v i < 2 ^ w := Nat.mod_lt _ (Nat.two_pow_pos w)

/-- R185: the cells of a register fill it. -/
theorem cell_mul_count (t : ETyp) : ETyp.cell t * t.count = 1024 := by cases t <;> rfl

/-- R36, R185: an element fits its cell. -/
theorem bits_le_cell (t : ETyp) (fa fb : BitVec 24) : t.bits fa fb ≤ ETyp.cell t := by
  have hfmt (r : BitVec 24) : (fmtOf r).width ≤ 32 := by
    simp only [fmtOf, Fmt.width, Fmt.mag]
    grind
  cases t with
  | fna => exact hfmt fa
  | fnb => exact hfmt fb
  | _ => simp [ETyp.bits, ETyp.isNarrow, ETyp.fixedWidth, ETyp.cell, ETyp.count]

theorem sum_digits_lt {c : Nat} {d : Nat → Nat} (hd : ∀ i, d i < 2 ^ c) (n : Nat) :
    ((List.range n).map (fun i => d i * 2 ^ (c * i))).sum < 2 ^ (c * n) := by
  induction n with
  | zero => simp
  | succ n ih =>
    rw [List.sum_range_succ, Nat.mul_succ, pow_add]
    calc _ < 2 ^ (c * n) + d n * 2 ^ (c * n) := Nat.add_lt_add_right ih _
      _ = (d n + 1) * 2 ^ (c * n) := by ring
      _ ≤ 2 ^ c * 2 ^ (c * n) := Nat.mul_le_mul_right _ (hd n)
      _ = 2 ^ (c * n) * 2 ^ c := Nat.mul_comm _ _

theorem toNat_ofNat_sum_digits {c n w : Nat} (hw : c * n = w) {d : Nat → Nat} (hd : ∀ i, d i < 2 ^ c) :
    (BitVec.ofNat w ((List.range n).map (fun i => d i * 2 ^ (c * i))).sum).toNat = ((List.range n).map (fun i => d i * 2 ^ (c * i))).sum := by
  subst hw
  rw [BitVec.toNat_ofNat, Nat.mod_eq_of_lt (sum_digits_lt hd n)]

/-- A number put together from digits of base `2 ^ c` holds each of them. -/
theorem digit_of_sum_digits {c n : Nat} {d : Nat → Nat} (hd : ∀ i, d i < 2 ^ c) {j : Nat} (hj : j < n) :
    ((List.range n).map (fun i => d i * 2 ^ (c * i))).sum / 2 ^ (c * j) % 2 ^ c = d j := by
  induction n with
  | zero => omega
  | succ n ih =>
    rw [List.sum_range_succ]
    rcases Nat.lt_succ_iff_lt_or_eq.mp hj with h | rfl
    · obtain ⟨e, he⟩ := Nat.exists_eq_add_of_lt h
      have hpow : d n * 2 ^ (c * n) = 2 ^ (c * j) * (2 ^ c * (d n * 2 ^ (c * e))) := by
        rw [he]; ring
      rw [hpow, Nat.add_mul_div_left _ _ (Nat.two_pow_pos _), Nat.add_mul_mod_self_left, ih h]
    · rw [Nat.add_mul_div_right _ _ (Nat.two_pow_pos _), Nat.div_eq_of_lt (sum_digits_lt hd j), Nat.zero_add, Nat.mod_eq_of_lt (hd j)]

/-- R186, R187: the cell that an elementwise loop leaves at a place whose computed element is `n`. -/
def loopCell (t : ETyp) (w : Nat) (lane : Nat → Lane) (old : BitVec 1024) (n : Nat → Nat) (i : Nat) : Nat :=
  match lane i with
  | .active => cellOf (ETyp.cell t) w t.signed (n i)
  | .zero => 0
  | .keep => elemOf t (ETyp.cell t) old i

theorem loopCell_lt {t : ETyp} {w : Nat} (hw : w ≤ ETyp.cell t) (lane : Nat → Lane) (old : BitVec 1024) (n : Nat → Nat) (i : Nat) :
    loopCell t w lane old n i < 2 ^ ETyp.cell t := by
  unfold loopCell
  split
  · exact cellOf_lt hw _ _
  · exact Nat.two_pow_pos _
  · exact elemOf_lt _ _ _ _

/-- R186, R187: a loop whose elements take no flag and no rounding leaves flags and generator alone, and each cell on its own. -/
theorem vloop_of_pure {t : ETyp} {w : Nat} (hw : w ≤ ETyp.cell t) (lane : Nat → Lane) (old : BitVec 1024) (x : Vx) (n : Nat → Nat) :
    ∃ v, vloop t w lane old x (fun i x => (x, n i)) = (x, v) ∧
      ∀ j, j < t.count → elemOf t (ETyp.cell t) v j = loopCell t w lane old n j := by
  have hfold (l : List Nat) (a : Nat) :
      l.foldl (fun (p : Vx × Nat) i => (p.1, p.2 + loopCell t w lane old n i * 2 ^ (ETyp.cell t * i))) (x, a) =
        (x, a + (l.map (fun i => loopCell t w lane old n i * 2 ^ (ETyp.cell t * i))).sum) := by
    induction l generalizing a with
    | nil => rfl
    | cons i l ih => rw [List.foldl_cons, List.map_cons, List.sum_cons, ← Nat.add_assoc, ← ih]
  refine ⟨BitVec.ofNat 1024 ((List.range t.count).map (fun i => loopCell t w lane old n i * 2 ^ (ETyp.cell t * i))).sum, ?_, ?_⟩
  · unfold vloop
    dsimp only
    rw [List.foldl_ext (g := fun (p : Vx × Nat) i => (p.1, p.2 + loopCell t w lane old n i * 2 ^ (ETyp.cell t * i))) (H := ?_), hfold,
      Nat.zero_add]
    intro p i _
    unfold loopCell
    cases lane i <;> simp
  · intro j hj
    have hlt := loopCell_lt hw lane old n
    rw [elemOf, toNat_ofNat_sum_digits (cell_mul_count t) hlt, digit_of_sum_digits hlt hj]

/-! ### Integers of an element type -/

theorem isNarrow_of_isInt {t : ETyp} (h : t.isInt = true) : t.isNarrow = false := by cases t <;> simp_all [ETyp.isInt, ETyp.isNarrow]

theorem bits_of_isInt {t : ETyp} (h : t.isInt = true) (fa fb : BitVec 24) : t.bits fa fb = t.fixedWidth := by
  rw [ETyp.bits, isNarrow_of_isInt h]; rfl

/-- R35: the integer of an element is congruent to its bits. -/
theorem intOf_modEq (t : ETyp) (n : Nat) : t.intOf n ≡ n [ZMOD (2 ^ t.fixedWidth : Nat)] := by
  have hmod : ((n % 2 ^ t.fixedWidth : Nat) : Int) ≡ n [ZMOD (2 ^ t.fixedWidth : Nat)] := by
    rw [Int.natCast_mod]; exact Int.mod_modEq _ _
  unfold ETyp.intOf
  dsimp only
  split
  · exact Int.sub_modulus_modEq_iff.mpr hmod
  · exact hmod

theorem intOf_mod (t : ETyp) (n : Nat) : t.intOf (n % 2 ^ t.fixedWidth) = t.intOf n := by
  simp only [ETyp.intOf, Nat.mod_mod]

/-- R193: an integer sum that wraps is the sum modulo 2^w. -/
theorem wrap_add_modEq (t : ETyp) (a b : Nat) : ETyp.wrap t false (t.intOf a + t.intOf b) ≡ a + b [MOD 2 ^ t.fixedWidth] := by
  have hpos : (0 : Int) < (2 ^ t.fixedWidth : Nat) := Int.natCast_pos.mpr (Nat.two_pow_pos _)
  rw [← Int.natCast_modEq_iff]
  simp only [ETyp.wrap, Bool.false_eq_true, if_false]
  rw [Int.toNat_of_nonneg (Int.emod_nonneg _ hpos.ne'), Int.natCast_add]
  exact (Int.mod_modEq _ _).trans ((intOf_modEq t a).add (intOf_modEq t b))

theorem testBit_top {w m : Nat} (hw : 1 ≤ w) (hm : m < 2 ^ w) : m.testBit (w - 1) = decide (2 ^ (w - 1) ≤ m) := by
  obtain ⟨k, rfl⟩ := Nat.exists_eq_add_of_le' hw
  rw [Nat.add_sub_cancel]
  by_cases h : 2 ^ k ≤ m
  · rw [Nat.testBit_of_two_pow_le_and_two_pow_add_one_gt h hm, decide_eq_true h]
  · rw [Nat.testBit_lt_two_pow (Nat.lt_of_not_le h), decide_eq_false h]

/-- R197: an integer element as a scalar is the integer it stands for. -/
theorem elemWord_fixedWidth {t : ETyp} (h : t.isInt = true) (n : Nat) :
    elemWord t t.fixedWidth n = BitVec.ofInt 64 (t.intOf n) := by
  have hw : 1 ≤ t.fixedWidth ∧ t.fixedWidth ≤ 64 := by cases t <;> decide
  have hm : n % 2 ^ t.fixedWidth < 2 ^ t.fixedWidth := Nat.mod_lt _ (Nat.two_pow_pos _)
  have hpow : 2 ^ t.fixedWidth ≤ 2 ^ 64 := Nat.pow_le_pow_right (by decide) hw.2
  simp only [elemWord, cellOf, ETyp.intOf, testBit_top hw.1 hm]
  split
  · have hsub : ((n % 2 ^ t.fixedWidth + (2 ^ 64 - 2 ^ t.fixedWidth) : Nat) : Int) =
        ((n % 2 ^ t.fixedWidth : Nat) : Int) - (2 ^ t.fixedWidth : Nat) + (2 ^ 64 : Nat) := by omega
    rw [← BitVec.ofInt_natCast, hsub, BitVec.ofInt_add]
    exact BitVec.add_zero _
  · rw [BitVec.ofInt_natCast]

/-! ### Integer reductions -/

/-- The sum of the elements present. -/
def presentSum (l : List (Option Nat)) : Nat := (l.map (fun o => o.getD 0)).sum

/-- R202: an integer sum raises nothing. -/
theorem combine_sum {t : ETyp} (ht : t.isInt = true) (th : Thread) (rm : RM) (a b : Nat) (x : Vx) :
    RedOp.combine .sum t th rm a b x = (x, ETyp.wrap t false (t.intOf a + t.intOf b)) := by
  simp only [RedOp.combine, vArith, ht, if_true]

section
variable {t : ETyp} (ht : t.isInt = true) (th : Thread) (rm : RM)
include ht

/-- R58: the sum of two elements of which either may be absent. -/
theorem combineOpt_sum (a b : Option Nat) (x : Vx) :
    ∃ o, combineOpt (RedOp.combine .sum t th rm) a b x = (x, o) ∧ o.getD 0 ≡ a.getD 0 + b.getD 0 [MOD 2 ^ t.fixedWidth] := by
  cases a with
  | none => exact ⟨b, rfl, by simp [Nat.ModEq]⟩
  | some p =>
    cases b with
    | none => exact ⟨some p, rfl, by simp [Nat.ModEq]⟩
    | some q => exact ⟨some (ETyp.wrap t false (t.intOf p + t.intOf q)), by rw [combineOpt, combine_sum ht], wrap_add_modEq t p q⟩

theorem combineAll_sum (x : Vx) (l r : List (Option Nat)) (h : l.length = r.length) :
    ∃ q, combineAll (RedOp.combine .sum t th rm) l r x = (x, q) ∧ q.length = l.length ∧
      presentSum q ≡ presentSum l + presentSum r [MOD 2 ^ t.fixedWidth] := by
  induction l generalizing r with
  | nil =>
    obtain rfl := List.length_eq_zero_iff.mp h.symm
    exact ⟨[], rfl, rfl, rfl⟩
  | cons a l ih =>
    cases r with
    | nil => cases h
    | cons b r =>
      obtain ⟨o, ho, hsum⟩ := combineOpt_sum ht th rm a b x
      obtain ⟨q, hq, hlen, hrest⟩ := ih r (Nat.succ.inj h)
      refine ⟨o :: q, by rw [combineAll, ho, hq], congrArg Nat.succ hlen, ?_⟩
      have hcons (c : Option Nat) (m : List (Option Nat)) : presentSum (c :: m) = c.getD 0 + presentSum m := by simp [presentSum]
      rw [hcons, hcons, hcons, Nat.add_add_add_comm]
      exact hsum.add hrest

/-- R58, R202: the tree over integers computes the sum of the elements present. -/
theorem redTree_sum (x : Vx) (k : Nat) (l : List (Option Nat)) (h : l.length = 2 ^ k) :
    ∃ o, redTree (RedOp.combine .sum t th rm) k l x = (x, o) ∧ o.getD 0 ≡ presentSum l [MOD 2 ^ t.fixedWidth] := by
  induction k generalizing l with
  | zero =>
    obtain ⟨a, rfl⟩ := List.length_eq_one_iff.mp h
    exact ⟨a, rfl, by simp [presentSum, Nat.ModEq]⟩
  | succ k ih =>
    rw [pow_succ] at h
    obtain ⟨q, hq, hlen, hsum⟩ := combineAll_sum ht th rm x (l.take (2 ^ k)) (l.drop (2 ^ k)) (by simp; omega)
    obtain ⟨o, ho, hrest⟩ := ih q (by rw [hlen]; simp; omega)
    refine ⟨o, by rw [redTree, hq, ho], hrest.trans (hsum.trans ?_)⟩
    rw [presentSum, presentSum, ← List.sum_append, ← List.map_append, List.take_append_drop]
    rfl

end

/-- The sum of the elements present is that over the active ones. -/
theorem presentSum_actives (t : ETyp) (k : VMask) (th : Thread) (v : BitVec 1024) :
    presentSum (actives t k th v) =
      (((List.range t.count).filter (VMask.on k th)).map (fun j => elemOf t (t.bits th.fa th.fb) v j)).sum := by
  rw [presentSum, actives]
  induction List.range t.count with
  | nil => rfl
  | cons i l ih => by_cases h : VMask.on k th i = true <;> simp_all

theorem length_actives (t : ETyp) (k : VMask) (th : Thread) (v : BitVec 1024) : (actives t k th v).length = 2 ^ ETyp.logCount t := by
  rw [actives, List.length_map, List.length_range]
  cases t <;> rfl

/-- R202: an integer sum over a register raises nothing, and is that of the active elements modulo 2^w. -/
theorem redTree_sum_actives {t : ETyp} (ht : t.isInt = true) (k : VMask) (th : Thread) (rm : RM) (v : BitVec 1024) (x : Vx) :
    ∃ o, redTree (RedOp.combine .sum t th rm) (ETyp.logCount t) (actives t k th v) x = (x, o) ∧
      t.intOf (o.getD 0) = t.intOf ((((List.range t.count).filter (VMask.on k th)).map
        (fun j => elemOf t t.fixedWidth v j)).sum % 2 ^ t.fixedWidth) := by
  obtain ⟨o, ho, hsum⟩ := redTree_sum ht th rm x _ (actives t k th v) (length_actives t k th v)
  rw [presentSum_actives, bits_of_isInt ht] at hsum
  exact ⟨o, ho, by rw [← intOf_mod t (o.getD 0), hsum]⟩

/-- R204: an integer dot product is the sum of the products of the active elements, modulo 2^64. -/
theorem dotInt_eq_sum (t : ETyp) (k : VMask) (th : Thread) (u v : BitVec 1024) :
    dotInt t k th u v = BitVec.ofInt 64 (((List.range t.count).filter (VMask.on k th)).map (fun j =>
      t.intOf (elemOf t t.fixedWidth u j) * t.intOf (elemOf t t.fixedWidth v j))).sum := by
  rw [dotInt, List.sum_eq_foldl, List.foldl_map, List.foldl_filter]

/-! ### The four instructions -/

theorem exec_vqnt (g : Guard) (cd : VCodec) (t : ETyp) (rm : RM) (k : VMask) (d : Reg) (a : Src) (s : State) :
    exec (.vqnt g cd t rm k d a) s = execVqnt g cd t rm k d a s := rfl
theorem exec_vred (g : Guard) (op : RedOp) (t : ETyp) (rm : RM) (k : VMask) (d : Reg) (a : Src) (s : State) :
    exec (.vred g op t rm k d a) s = execVred g op t rm k d a s := rfl
theorem exec_vscan (g : Guard) (op : RedOp) (t : ETyp) (rm : RM) (k : VMask) (d : Reg) (a : Src) (s : State) :
    exec (.vscan g op t rm k d a) s = execVscan g op t rm k d a s := rfl
theorem exec_vdot (g : Guard) (t : ETyp) (rm : RM) (k : VMask) (d : Reg) (a b : Src) (s : State) :
    exec (.vdot g t rm k d a b) s = execVdot g t rm k d a b s := rfl

theorem scalarDest_of_wf_vred {g op t rm k d a} (h : (Instr.vred g op t rm k d a).wf = true) : Reg.scalarDest d = true := by
  simp [Instr.wf, Instr.operandsOk] at h
  exact gz_scalarDest (by simp [h])
theorem scalarDest_of_wf_vdot {g t rm k d a b} (h : (Instr.vdot g t rm k d a b).wf = true) : Reg.scalarDest d = true := by
  simp [Instr.wf, Instr.operandsOk] at h
  exact gz_scalarDest (by simp [h])
theorem isV_of_wf_vqnt {g cd t rm k d a} (h : (Instr.vqnt g cd t rm k d a).wf = true) : d.isV = true := by
  simp [Instr.wf, Instr.operandsOk] at h
  simp [h]
theorem isV_of_wf_vscan {g op t rm k d a} (h : (Instr.vscan g op t rm k d a).wf = true) : d.isV = true := by
  simp [Instr.wf, Instr.operandsOk] at h
  simp [h]

/-- Settles O21: each of the four goes through `runV`, so that only its result is left: integer reductions are sums modulo 2^w,
and the loop of VSCAN writes each cell on its own. -/
theorem vectorReductionsScansAndBlocks : Obligations.VectorReductionsScansAndBlocks := by
  unfold Obligations.VectorReductionsScansAndBlocks
  refine ⟨fun s g cd t rm k d a hwf hr hb => ?_, fun s g op t rm k d a hwf hr hb => ?_, fun s g op t rm k d a hwf hr hb => ?_,
    fun s g t rm k d a b hwf hr hb => ?_⟩
  · exact completes_runV_writeV (exec_vqnt g cd t rm k d a s) hr hb (isV_of_wf_vqnt hwf)
  · have hd := scalarDest_of_wf_vred hwf
    refine ⟨completes_runV_write (exec_vred g op t rm k d a s) hr hb hd, ?_⟩
    rintro rfl ht
    obtain ⟨o, ho, hint⟩ := redTree_sum_actives ht k s.me (rm.eff s.me.pw) (s.me.vreg a.reg) ⟨{}, s.me.rnd⟩
    refine ⟨_, completes_runV_out (exec_vred g .sum t rm k d a s) hr hb hd (by rw [ho]), ?_⟩
    rw [RedOp.empty, bits_of_isInt ht, elemWord_fixedWidth ht, hint]
  · intro r
    have h := completes_runV_writeV (exec_vscan g op t rm k d a s) hr hb (isV_of_wf_vscan hwf)
    obtain ⟨v, hloop, hcells⟩ := vloop_of_pure (bits_le_cell t s.me.fa s.me.fb) (VMask.lane k s.me) (s.me.vreg d) r.1
      (fun i => (r.2.getD i none).getD 0)
    dsimp only at h
    rw [hloop] at h
    exact ⟨v, h, hcells⟩
  · have hd := scalarDest_of_wf_vdot hwf
    refine ⟨fun ht => ?_, fun ht => ?_⟩
    · refine completes_runV_out (exec_vdot g t rm k d a b s) hr hb hd ?_
      rw [if_pos ht, dotInt_eq_sum]
    · have h := completes_runV_write (exec_vdot g t rm k d a b s) hr hb hd
      simpa only [ht, Bool.false_eq_true, if_false] using h

end Sys2Proof.Machine
end

section
/-! Arithmetic before the one rounding (R42, R60, R179): finite numbers as rationals, the codes of a format as numbers that round
to themselves, and the sum of a group (O26). -/

namespace Sys2Proof.Machine

/-! ### Finite numbers as rationals -/

/-- The signed integer at a lower exponent is the number in units of that exponent. -/
theorem Ex.rat_eq_at {x : Ex} {e : Int} (h : e ≤ x.exp) : x.rat = x.at e * (2 : ℚ) ^ e := by
  obtain ⟨k, hk⟩ := Int.le.dest h
  rw [Ex.rat, Ex.at, ← hk, add_sub_cancel_left, Int.toNat_natCast, zpow_add₀ two_ne_zero, zpow_natCast]
  push_cast
  split <;> ring

/-- A signed integer in units of `2 ^ e`; the sign of zero is free. -/
theorem Ex.rat_of_int (v : Int) (e : Int) (z : Bool) :
    Ex.rat ⟨if v = 0 then z else decide (v < 0), v.natAbs, e, false⟩ = v * (2 : ℚ) ^ e := by
  rcases lt_trichotomy v 0 with h | rfl | h
  · have hv : (v.natAbs : ℚ) = -v := by rw [Nat.cast_natAbs, abs_of_neg h, Int.cast_neg]
    simp [Ex.rat, h, h.ne, hv]
  · simp [Ex.rat]
  · have hv : (v.natAbs : ℚ) = v := by rw [Nat.cast_natAbs, abs_of_pos h]
    simp [Ex.rat, h.ne', h.not_gt, hv]

theorem Ex.rat_of_man_eq_zero {x : Ex} (h : x.man = 0) : x.rat = 0 := by simp [Ex.rat, h]

/-- A finite number times `2 ^ k`. -/
def Ex.scale (x : Ex) (k : Int) : Ex := { x with exp := x.exp + k }

theorem Ex.rat_scale (x : Ex) (k : Int) : (x.scale k).rat = x.rat * (2 : ℚ) ^ k := by
  rw [Ex.rat, Ex.rat, Ex.scale, zpow_add₀ two_ne_zero, mul_assoc _ _ ((2 : ℚ) ^ k)]

/-! ### Exact sums, products and order -/

/-- R42: the sum of two finite numbers is exact. -/
theorem addEx_rat (m : RM) (x y : Ex) : (addEx m x y).rat = x.rat + y.rat := by
  unfold addEx
  split
  · next h =>
    obtain ⟨hx, hy⟩ : x.man = 0 ∧ y.man = 0 := by simpa using h
    rw [Ex.rat_of_man_eq_zero rfl, Ex.rat_of_man_eq_zero hx, Ex.rat_of_man_eq_zero hy, add_zero]
  · rw [Ex.rat_of_int, Ex.rat_eq_at (min_le_left x.exp y.exp), Ex.rat_eq_at (min_le_right x.exp y.exp), Int.cast_add, add_mul]

@[simp] theorem addEx_sticky (m : RM) (x y : Ex) : (addEx m x y).sticky = false := by
  unfold addEx
  split <;> rfl

/-- R42: the product of two finite numbers is exact. -/
theorem mulEx_rat (x y : Ex) : (mulEx x y).rat = x.rat * y.rat := by
  have hsign : (if (x.neg != y.neg) = true then (-1 : ℚ) else 1) = (if x.neg = true then -1 else 1) * (if y.neg = true then -1 else 1) := by
    rcases x.neg <;> rcases y.neg <;> norm_num
  rw [Ex.rat, Ex.rat, Ex.rat, mulEx, zpow_add₀ two_ne_zero, hsign, Nat.cast_mul]
  ring

theorem addNum_fin (m : RM) (x y : Ex) : addNum m (.fin x) (.fin y) = ⟨.fin (addEx m x y), false, false⟩ := rfl
theorem mulNum_fin (x y : Ex) : mulNum (.fin x) (.fin y) = ⟨.fin (mulEx x y), false, false⟩ := rfl

/-- The order of finite numbers is that of the rationals they stand for. -/
theorem Num.cmp_fin (x y : Ex) : (Num.fin x).cmp (.fin y) = compare x.rat y.rat := by
  have hmono : StrictMono (fun n : Int => (n : ℚ) * (2 : ℚ) ^ min x.exp y.exp) := fun a b h =>
    mul_lt_mul_of_pos_right (Int.cast_lt.mpr h) (zpow_pos two_pos _)
  rw [Ex.rat_eq_at (min_le_left x.exp y.exp), Ex.rat_eq_at (min_le_right x.exp y.exp), ← cmp_eq_compare]
  rw [hmono.cmp_map_eq, cmp_eq_compare]
  rfl

/-! ### A code of a wide format is its own rounding -/

/-- R48: nothing is rounded up when nothing remains. -/
theorem roundUp_exact (rm : RM) (r : BitVec 32) (neg odd : Bool) : roundUp rm r neg odd 0 0 false = false := by
  cases rm <;> simp [roundUp, r.isLt]

/-- R32: the exponent field and the fraction field of a code. -/
def Fmt.expField (f : Fmt) (code : Nat) : Nat := code % 2 ^ f.mag / 2 ^ f.m
def Fmt.fracField (f : Fmt) (code : Nat) : Nat := code % 2 ^ f.mag % 2 ^ f.m

theorem Fmt.fracField_lt (f : Fmt) (code : Nat) : f.fracField code < 2 ^ f.m := Nat.mod_lt _ (Nat.two_pow_pos _)

theorem Fmt.expField_lt (f : Fmt) (code : Nat) : f.expField code < 2 ^ f.e := by
  refine Nat.div_lt_of_lt_mul ?_
  rw [← pow_add, Nat.add_comm]
  exact Nat.mod_lt _ (Nat.two_pow_pos _)

section
variable {f : Fmt} (rm : RM) (r : BitVec 32) (hsg : f.sg = true) (he : f.e ≠ 0) (hspm : f.spm = 2)

include hsg he in
/-- R42: a number whose last place is a place of the format rounds to the code that holds it. -/
theorem round_of_exact {x : Ex} {c : Nat} (hman : x.man ≠ 0) (hsticky : x.sticky = false)
    (hq : max (x.exp + x.man.log2 - f.m) (1 - (f.bias : Int) - f.m) = x.exp)
    (hc : (if x.man < 2 ^ f.m then x.man else ((x.exp - (1 - (f.bias : Int) - f.m)).toNat + 1) * 2 ^ f.m + (x.man - 2 ^ f.m)) = c)
    (hmax : c ≤ f.maxCode) : f.round rm r x = (f.signBit x.neg + c, {}) := by
  subst hc
  simp [Fmt.round, hsg, he, hman, hsticky, hq, roundUp_exact, Nat.not_lt.mpr hmax]

include hspm in
/-- R40: the codes below the exponent field of all ones are at most MAXF. -/
theorem le_maxCode {ef mf : Nat} (hmf : mf < 2 ^ f.m) (hef : ef < 2 ^ f.e - 1) :
    ef * 2 ^ f.m + mf ≤ f.maxCode := by
  have h : (ef + 1) * 2 ^ f.m ≤ (2 ^ f.e - 1) * 2 ^ f.m := Nat.mul_le_mul_right _ hef
  rw [Nat.succ_mul] at h
  simp only [Fmt.maxCode, hspm, OfNat.ofNat_ne_zero, OfNat.ofNat_ne_one, if_false]
  omega

include hsg he hspm in
/-- R39: a subnormal number rounds to its fraction. -/
theorem round_subnormal (neg : Bool) {mf : Nat} (hmf : mf < 2 ^ f.m) (hef : 0 < 2 ^ f.e - 1) :
    f.round rm r ⟨neg, mf, 1 - (f.bias : Int) - f.m, false⟩ = (f.signBit neg + mf, {}) := by
  by_cases h0 : mf = 0
  · subst h0
    simp [Fmt.round]
  · have hlog : mf.log2 < f.m := (Nat.log2_lt h0).mpr hmf
    have hle := le_maxCode hspm hmf hef
    rw [Nat.zero_mul, Nat.zero_add] at hle
    exact round_of_exact rm r hsg he h0 rfl (max_eq_right (by dsimp only; omega)) (if_pos hmf) hle

include hsg he hspm in
/-- R39: a normal number rounds to its exponent and fraction. -/
theorem round_normal (neg : Bool) {ef mf : Nat} (hmf : mf < 2 ^ f.m) (h0 : ef ≠ 0) (hef : ef < 2 ^ f.e - 1) :
    f.round rm r ⟨neg, 2 ^ f.m + mf, (ef : Int) - f.bias - f.m, false⟩ = (f.signBit neg + (ef * 2 ^ f.m + mf), {}) := by
  have hman : 2 ^ f.m + mf ≠ 0 := (Nat.add_pos_left (Nat.two_pow_pos _) _).ne'
  have hlog : (2 ^ f.m + mf).log2 = f.m := (Nat.log2_eq_iff hman).mpr ⟨by omega, by rw [pow_succ]; omega⟩
  refine round_of_exact rm r hsg he hman rfl (by dsimp only; rw [hlog]; omega) ?_ (le_maxCode hspm hmf hef)
  dsimp only
  rw [if_neg (by omega), show ((ef : Int) - f.bias - f.m - (1 - f.bias - f.m)).toNat + 1 = ef by omega, Nat.add_sub_cancel_left]

include hsg in
/-- R32: a code is put together from its sign and its two fields. -/
theorem code_eq_fields {code : Nat} (hcode : code < 2 ^ f.width) :
    f.signBit (code.testBit f.mag) + (f.expField code * 2 ^ f.m + f.fracField code) = code := by
  have hw : f.width = f.mag + 1 := by rw [Fmt.width, if_pos hsg]
  rw [hw] at hcode
  have htop : code.testBit f.mag = decide (2 ^ f.mag ≤ code) := testBit_top (w := f.mag + 1) (by omega) hcode
  rw [pow_succ] at hcode
  rw [Fmt.expField, Fmt.fracField, Nat.div_add_mod']
  simp only [Fmt.signBit, hsg, htop, Bool.true_and, decide_eq_true_eq]
  split
  · next h => rw [Nat.mod_eq_sub_mod h, Nat.mod_eq_of_lt (by omega), Nat.add_sub_cancel' h]
  · next h => rw [Nat.mod_eq_of_lt (by omega), Nat.zero_add]

include hsg he hspm in
/-- R39, R40: the value of a code by its fields. -/
theorem value_eq_fields {code : Nat} (hcode : code < 2 ^ f.width) :
    f.value code =
      if f.expField code = 2 ^ f.e - 1 then
        if f.fracField code = 0 then .inf (code.testBit f.mag) else .nan (!(f.fracField code).testBit (f.m - 1))
      else if f.expField code = 0 then .of (code.testBit f.mag) (f.fracField code) (1 - (f.bias : Int) - f.m)
      else .of (code.testBit f.mag) (2 ^ f.m + f.fracField code) ((f.expField code : Int) - f.bias - f.m) := by
  simp only [Fmt.value, Nat.mod_eq_of_lt hcode, hsg, hspm, he, Bool.true_and, decide_true, decide_eq_true_eq, if_false,
    OfNat.ofNat_ne_one, decide_false, Bool.false_and, Bool.false_eq_true]
  rfl

include hsg he hspm in
/-- R39, R40: a code that stands for a finite number has no exponent field of all ones; the number, subnormal or normal. -/
theorem value_fin {code : Nat} (hcode : code < 2 ^ f.width) {x : Ex} (hx : f.value code = .fin x) :
    f.expField code < 2 ^ f.e - 1 ∧
      x = if f.expField code = 0 then ⟨code.testBit f.mag, f.fracField code, 1 - (f.bias : Int) - f.m, false⟩
        else ⟨code.testBit f.mag, 2 ^ f.m + f.fracField code, (f.expField code : Int) - f.bias - f.m, false⟩ := by
  have hef := f.expField_lt code
  rw [value_eq_fields hsg he hspm hcode] at hx
  split at hx
  · split at hx <;> cases hx
  · refine ⟨by omega, ?_⟩
    split at hx
    · next h0 => rw [if_pos h0]; exact (Num.fin.inj hx).symm
    · next h0 => rw [if_neg h0]; exact (Num.fin.inj hx).symm

include hsg he hspm in
/-- R39, R42: a code of an IEEE format that stands for a finite number is the rounding of that number. -/
theorem put_value {code : Nat} (hcode : code < 2 ^ f.width) {x : Ex} (hx : f.value code = .fin x) : f.put rm r (.fin x) = (code, {}) := by
  obtain ⟨hef, rfl⟩ := value_fin hsg he hspm hcode hx
  have hfields := code_eq_fields hsg hcode
  rw [Fmt.put]
  split
  · next h0 =>
    rw [h0, Nat.zero_mul, Nat.zero_add] at hfields
    rw [round_subnormal rm r hsg he hspm _ (f.fracField_lt code) (h0 ▸ hef), hfields]
  · next h0 => rw [round_normal rm r hsg he hspm _ (f.fracField_lt code) h0 hef, hfields]

end

/-! ### Group sums -/

theorem products_fin (as bs : List Ex) : products (as.map Num.fin) (bs.map Num.fin) = (List.zipWith mulEx as bs).map Num.fin := by
  simp only [products, List.zipWith_map, mulNum_fin, List.map_zipWith]

/-- R60: the sum of finite numbers is exact. -/
theorem sumEx_fin (l : List Ex) (hl : ∀ x ∈ l, x.sticky = false) :
    (sumEx (l.map Num.fin)).sticky = false ∧ (sumEx (l.map Num.fin)).rat = (l.map Ex.rat).sum := by
  induction l with
  | nil => exact ⟨rfl, by simp [sumEx, Ex.rat]⟩
  | cons x l ih =>
    cases l with
    | nil => exact ⟨hl x (by simp), by simp [sumEx]⟩
    | cons y l =>
      obtain ⟨-, hrat⟩ := ih (fun z hz => hl z (by simp [hz]))
      exact ⟨addEx_sticky _ _ _, (addEx_rat _ _ _).trans (by rw [hrat]; rfl)⟩

/-- R60, R61: the value of a group of finite products under finite scales: their sum, scaled. -/
theorem groupSum_fin (as bs : List Ex) {ca cb : Nat} (ha : ca ≠ 0) (ha' : ca ≠ 255) (hb : cb ≠ 0) (hb' : cb ≠ 255) :
    groupSum (as.map Num.fin, ca) (bs.map Num.fin, cb) =
      .fin ((sumEx ((List.zipWith mulEx as bs).map Num.fin)).scale ((ca : Int) - 127 + ((cb : Int) - 127))) := by
  have hnone {p : Num → Bool} (hp : ∀ x, p (.fin x) = false) : ((List.zipWith mulEx as bs).map Num.fin).any p = false := by
    rw [List.any_map, List.any_eq_false]
    exact fun x _ => by rw [Function.comp_apply, hp]; exact Bool.false_ne_true
  have hnan := hnone (p := Num.isNan) (fun _ => rfl)
  have hinf (neg : Bool) := hnone (p := Num.isInf neg) (fun _ => rfl)
  have hexp (e : Int) : e + ca - 127 + cb - 127 = e + ((ca : Int) - 127 + ((cb : Int) - 127)) := by ring
  simp only [groupSum, products_fin, hnan, hinf, ha, ha', hb, hb', hexp, Ex.scale, or_self, if_false, Bool.or_self, Bool.and_self,
    Bool.false_eq_true]

/-- Settles O26: sums, products and order through `Ex.rat`, the codes of a wide format by their three fields, and the group by
induction on its products. -/
theorem floatValuesAreExactBeforeOneRounding : Obligations.FloatValuesAreExactBeforeOneRounding := by
  unfold Obligations.FloatValuesAreExactBeforeOneRounding
  refine ⟨⟨fun m x y _ _ => ?_, fun x y _ _ => ?_, Num.cmp_fin⟩, fun f hf code hcode x hx rm _ r => ?_,
    fun as bs ca cb _ _ _ ha ha' hb hb' => ?_⟩
  · exact ⟨rfl, addEx m x y, rfl, addEx_sticky m x y, addEx_rat m x y⟩
  · exact ⟨mulEx x y, rfl, rfl, mulEx_rat x y⟩
  · have hwide : f.sg = true ∧ f.e ≠ 0 ∧ f.spm = 2 := by
      simp only [List.mem_cons, List.not_mem_nil, or_false] at hf
      rcases hf with rfl | rfl | rfl | rfl <;> decide
    obtain ⟨hsg, he, hspm⟩ := hwide
    exact put_value rm r hsg he hspm hcode hx
  · have hexact : ∀ x ∈ List.zipWith mulEx as bs, x.sticky = false := by
      rw [← List.map_uncurry_zip_eq_zipWith, List.forall_mem_map]
      exact fun _ _ => rfl
    obtain ⟨hsticky, hrat⟩ := sumEx_fin (List.zipWith mulEx as bs) hexact
    refine ⟨_, groupSum_fin as bs ha ha' hb hb', hsticky, ?_⟩
    rw [Ex.rat_scale, hrat, List.map_zipWith]
    simp only [mulEx_rat]

end Sys2Proof.Machine
end

section
/-! How the effect of an instruction that executes ends, and what leaving a slot and the end of a thread leave of a state (R83, R103,
R153, R154). -/

namespace Sys2Proof.Machine

/-! ### The end of an effect -/

/-- R134: an instruction whose effect leaves its slot, or has taken a trap, ends as the effect does. -/
theorem exec_of_gone {i : Instr} {s u : State} {g : Guard} {n : Need} {f : State → Thread → Res} (he : exec i s = run s g n f)
    (hr : s.runs g n = true) (hf : f s s.me = .gone u) : exec i s = .next u := by
  rw [he, run_eq f hr, hf]; rfl

/-- R134, R141: an instruction whose effect must wait leaves the rotation. -/
theorem exec_of_wait {i : Instr} {s : State} {g : Guard} {n : Need} {f : State → Thread → Res} {w : Why} {c : Bool} {a : Word}
    (he : exec i s = run s g n f) (hr : s.runs g n = true) (hf : f s s.me = .wait w c a) : exec i s = .next (s.block s.cur w c a) := by
  rw [he, run_eq f hr, hf]; rfl

/-- An instruction that executes and changes nothing but pw and the PC completes. -/
theorem completes_nothing {i : Instr} {s : State} {g : Guard} {n : Need} {f : State → Thread → Res} (he : exec i s = run s g n f)
    (hr : s.runs g n = true) (hf : f s s.me = .ok s) (hn : takesOf n.srcs (n.dests ++ n.fills) = []) :
    Completes i s (s.outPw [] s.me.pw) := by
  have h := completes_ok he hr hf (State.Wrote.refl s) (.inr rfl) (.inr rfl)
  rw [hn] at h
  exact h

theorem Thread.After.reg_of_unwritten {a b : Thread} {o : Out} (h : Thread.After a b o) (hz : o.reg = .z) (hpw : o.pw = a.pw) {r : Reg}
    (hr : r ≠ .ip) : b.reg r = a.reg r := by
  cases r with
  | g n => simpa [hz, Thread.reg] using h.g n n.isLt
  | m n => have hm := h.m n n.isLt; simp only [hz, reduceCtorEq, if_false] at hm; simp [Thread.reg, hm]
  | pw => have hp := h.pw; simp only [hz, reduceCtorEq, if_false, hpw] at hp; simp [Thread.reg, hp]
  | ip => exact absurd rfl hr
  | z | v | sm => rfl

theorem Thread.After.vreg_of_unwritten {a b : Thread} {o : Out} (h : Thread.After a b o) (hz : o.vreg = .z) (r : Reg) :
    b.vreg r = a.vreg r := by
  cases r with
  | v n => simpa [hz, Thread.vreg] using h.v n n.isLt
  | z | g | m | pw | ip | sm => rfl

theorem Thread.After.full_of_unwritten {a b : Thread} {o : Out} (h : Thread.After a b o) (hz : o.reg = .z) (hv : o.vreg = .z) (r : Reg) :
    b.full r = if Reg.tagged r = true ∧ r ∈ o.takes then false else a.full r := by
  rw [h.full r]
  by_cases hr : r = .z
  · subst hr; simp [hz, Reg.tagged, Thread.full]
  · rw [if_neg (by rw [hz, hv, or_self]; exact hr)]

/-- What an instruction leaves whose effect is `u`, where the running thread and memory are those of `s`. -/
theorem State.After.goes {s u t : State} {srcs : List Src} {pc : Word}
    (h : u.After t { Out.none u with takes := takesOf srcs [], pc := pc }) (hcur : u.cur = s.cur) (hme : u.me = s.me)
    (hbyte : ∀ a, u.byte a = s.byte a) (hpc : pc = s.me.pc + 8) : s.Goes t srcs := by
  obtain ⟨hth, -, -, -, hbytes⟩ := h
  rw [hcur, hme] at hth
  have hpw : u.me.pw = s.me.pw := by rw [hme]
  refine ⟨hth.pc.trans hpc, hth.retired, ⟨hth.idle.1, hth.idle.2.2.1⟩, fun r hr => ⟨hth.reg_of_unwritten rfl hpw hr, ?_⟩,
    hth.full_of_unwritten rfl rfl, fun a => (hbytes a).trans (hbyte a)⟩
  exact hth.vreg_of_unwritten rfl r

/-! ### Words put at an address, and the resting state (R83, R411) -/

/-- What words written at an address leave: threads but for their monitors' triggers, and everything but memory and the watches
of clusters. -/
structure State.Recorded (s t : State) : Prop where
  threads : ∀ k, { t.thread k with mon := (s.thread k).mon } = s.thread k
  other : { t with threads := s.threads, clusters := s.clusters, mem := s.mem, empties := s.empties, poison := s.poison } = s

theorem State.Recorded.refl (s : State) : s.Recorded s := ⟨fun _ => rfl, rfl⟩

theorem State.Recorded.trans {s t u : State} (h : s.Recorded t) (k : t.Recorded u) : s.Recorded u where
  threads j := by
    have e := h.threads j
    rwa [← k.threads j] at e
  other := by
    have e := h.other
    rwa [← k.other] at e

theorem State.Noted.recorded {s t : State} (h : s.Noted t) : s.Recorded t :=
  ⟨h.threads, congrArg (fun x : State => { x with mem := s.mem, empties := s.empties, poison := s.poison }) h.other⟩

theorem State.recorded_putWords (s : State) (a : Nat) (l : List Word) : s.Recorded (s.putWords a l) := by
  induction l generalizing s a with
  | nil => exact .refl s
  | cons w l ih =>
    have hword : s.Recorded (((s.poke a 8 w.toNat).setTag a true).clearPoison a 8) := by
      rw [State.setTag, if_pos rfl]
      exact ⟨fun _ => rfl, rfl⟩
    exact (hword.trans (State.noteWrite_noted _ a 8).recorded).trans (ih _ _)

theorem State.recorded_rest (s : State) (tid : Nat) : s.Recorded (s.rest tid) := s.recorded_putWords _ _

/-- R145: the slot that a thread holds becomes free; only its core is changed. -/
theorem State.freeUp_eq (s : State) (t : Thread) : ∃ cs, s.freeUp t = { s with cores := cs } := by
  unfold State.freeUp
  split <;> exact ⟨_, rfl⟩

theorem State.freeUp_thread (s : State) (t : Thread) (k : Nat) : (s.freeUp t).thread k = s.thread k := by
  obtain ⟨cs, hfree⟩ := s.freeUp_eq t
  rw [hfree]; rfl

/-- R83: what a thread's departure from its slot leaves of its record. -/
theorem State.thread_leave_same (s : State) (tid : Nat) (p : Place) :
    ∃ mon cyc, (s.leave tid p).thread tid = { s.thread tid with mon := mon, cyc := cyc, place := p, seenFrom := s.nextId } := by
  have h := ((s.freeUp (s.thread tid)).recorded_rest tid).threads tid
  rw [State.freeUp_thread] at h
  rw [State.leave, State.thread_modThread_same]
  generalize ((s.freeUp (s.thread tid)).rest tid).thread tid = u at h ⊢
  generalize s.thread tid = t at h ⊢
  generalize t.mon = m at h
  subst h
  exact ⟨u.mon, s.cycleOf u, rfl⟩

theorem State.thread_leave_ne (s : State) {tid k : Nat} (p : Place) (hk : k ≠ tid) :
    { (s.leave tid p).thread k with mon := (s.thread k).mon } = s.thread k := by
  have h := ((s.freeUp (s.thread tid)).recorded_rest tid).threads k
  rw [State.freeUp_thread] at h
  rw [State.leave, State.thread_modThread_ne _ _ (Ne.symm hk)]
  exact h

theorem State.core_leave (s : State) (tid : Nat) (p : Place) (k : Nat) : (s.leave tid p).core k = (s.freeUp (s.thread tid)).core k := by
  have h := congrArg State.cores ((s.freeUp (s.thread tid)).recorded_rest tid).other
  exact congrArg (KMap.getD · k (Core.reset (isPylon k))) h

/-! ### Leaving for the run queue (R146, R149, R154, R155) -/

/-- R81, R157: nothing keeps the thread from leaving its core: no marked register, no disagreement, nothing awaited or asked. -/
structure State.MayLeave (s : State) (t : Thread) : Prop where
  marks : t.marks = []
  agreed : s.unagreed t = false
  await : t.await = []
  asks : t.asks = []

/-- The thread has left its slot for the run queue of its cluster; one that `retires` has completed its instruction. -/
def State.queued (s : State) (tid : Nat) (anchored : Bool) (pc : Word) (retires displaced : Bool) : State :=
  (((s.modThread tid (fun t => if retires then { t.settle with pc := pc, retired := t.retired + 1 } else t)).leave tid
    (.runq (s.thread tid).cluster (if displaced then none else some (s.thread tid).core) anchored)).modThread tid (fun t =>
      { t with seq := s.nextId, whyCause := if displaced then 4 else 5, resting := true })).bumpId

/-- A thread that nothing keeps leaves its slot for the run queue of its cluster. -/
theorem State.toQueue_of_mayLeave {s : State} {tid : Nat} (h : s.MayLeave (s.thread tid)) (anchored : Bool) (pc : Word) (retires displaced : Bool) :
    s.toQueue tid anchored pc retires displaced = .gone (s.queued tid anchored pc retires displaced) := by
  obtain ⟨hmarks, hagreed, hawait, hasks⟩ := h
  simp only [State.toQueue, hmarks, hagreed, Thread.drained, hawait, Thread.asked, hasks, List.isEmpty_nil, Bool.not_true,
    Bool.false_eq_true, if_false]
  rfl

theorem State.thread_queued_same (s : State) (tid : Nat) (anchored : Bool) (pc : Word) (retires displaced : Bool) :
    ∃ mon cyc, (s.queued tid anchored pc retires displaced).thread tid =
      { (if retires then { (s.thread tid).settle with pc := pc, retired := (s.thread tid).retired + 1 } else s.thread tid) with
        mon := mon, cyc := cyc, seenFrom := s.nextId, seq := s.nextId, whyCause := if displaced then 4 else 5, resting := true
        place := .runq (s.thread tid).cluster (if displaced then none else some (s.thread tid).core) anchored } := by
  obtain ⟨mon, cyc, hleave⟩ := (s.modThread tid (fun t => if retires then { t.settle with pc := pc, retired := t.retired + 1 } else t)).thread_leave_same
    tid (.runq (s.thread tid).cluster (if displaced then none else some (s.thread tid).core) anchored)
  rw [State.thread_modThread_same] at hleave
  refine ⟨mon, cyc, ?_⟩
  rw [State.queued, State.bumpId_thread, State.thread_modThread_same, hleave, State.modThread_nextId]

theorem State.thread_queued_ne (s : State) {tid k : Nat} (hk : k ≠ tid) (anchored : Bool) (pc : Word) (retires displaced : Bool) :
    { (s.queued tid anchored pc retires displaced).thread k with mon := (s.thread k).mon } = s.thread k := by
  have h := (s.modThread tid (fun t => if retires then { t.settle with pc := pc, retired := t.retired + 1 } else t)).thread_leave_ne
    (.runq (s.thread tid).cluster (if displaced then none else some (s.thread tid).core) anchored) hk
  rw [State.thread_modThread_ne _ _ (Ne.symm hk)] at h
  rw [State.queued, State.bumpId_thread, State.thread_modThread_ne _ _ (Ne.symm hk)]
  exact h

theorem State.core_queued {s : State} {tid c n : Nat} (hp : (s.thread tid).place = .slot c n) (anchored : Bool) (pc : Word)
    (retires displaced : Bool) : (s.queued tid anchored pc retires displaced).core c = (s.core c).freeSlot n (s.now c) := by
  have hplace : ((s.modThread tid (fun t => if retires then { t.settle with pc := pc, retired := t.retired + 1 } else t)).thread tid).place =
      .slot c n := by
    rw [State.thread_modThread_same]
    cases retires <;> exact hp
  rw [State.queued, State.bumpId_core, State.modThread_core, State.core_leave, State.freeUp, hplace]
  exact State.core_modCore_same _ _ _

/-! ### The end of a thread (R153) -/

/-- R344, R348: the monitor record is released; the watches of its lines lapse. -/
theorem State.disarm_eq (s : State) (tid : Nat) :
    ∃ cs, s.disarm tid = { s.modThread tid (fun t => { t with mon := {} }) with clusters := cs } ∧
      ∀ c, (KMap.getD cs c {}).orphan = (s.cluster c).orphan := by
  unfold State.disarm
  split
  · exact ⟨s.clusters, rfl, fun _ => rfl⟩
  · refine ⟨_, rfl, fun c => ?_⟩
    dsimp only
    simp only [KMap.getD, State.cluster, State.modThread_clusters]
    rw [KMap.find_map s.clusters (fun x => { x with
      watchers := x.watchers.filter (fun w => !decide (w.2 = tid))
      lapsed := x.lapsed ++ (x.watchers.filter (fun w => decide (w.2 = tid))).map (fun w => (w.1, (s.thread tid).recordCluster)) })]
    cases KMap.find s.clusters c <;> rfl

theorem State.launchEnd_eq (s : State) (l : Option Nat) (killed : Bool) : ∃ ls, s.launchEnd l killed = { s with launches := ls } := by
  unfold State.launchEnd
  repeat' split
  all_goals exact ⟨_, rfl⟩

theorem State.ownerGone_eq (s : State) (core : Nat) : ∃ cs, s.ownerGone core = { s with cores := cs } := by
  unfold State.ownerGone
  dsimp only
  repeat' split
  all_goals exact ⟨_, rfl⟩

/-- R153, R441: what the end of a thread that belongs to no barrier leaves. -/
theorem State.endThread_of_no_members {s : State} {tid : Nat} (hm : (s.thread tid).members = []) (ht : tid < 2 ^ 40) (killed : Bool) :
    KMap.find (s.endThread tid killed).threads tid = none ∧ (∀ k, k ≠ tid → (s.endThread tid killed).thread k = s.thread k) ∧
      (s.endThread tid killed).mem = s.mem ∧ (s.endThread tid killed).msgs = s.msgs ∧
      ∀ c, ((s.endThread tid killed).cluster c).orphan = (s.cluster c).orphan := by
  obtain ⟨cls, hdisarm, horphan⟩ := s.disarm_eq tid
  have hscarab : ¬ scarabBase ≤ tid := by unfold scarabBase; omega
  obtain ⟨ls, hlaunch⟩ := (s.disarm tid).launchEnd_eq (s.thread tid).launch killed
  obtain ⟨cs, hfree⟩ := ((s.disarm tid).launchEnd (s.thread tid).launch killed).freeUp_eq (s.thread tid)
  let u := (((s.disarm tid).launchEnd (s.thread tid).launch killed).freeUp (s.thread tid)).dropThread tid
  obtain ⟨cs', hgone⟩ := u.ownerGone_eq (s.thread tid).core
  have hend : (s.endThread tid killed).threads = u.threads ∧ (s.endThread tid killed).mem = u.mem ∧
      (s.endThread tid killed).msgs = u.msgs ∧ (s.endThread tid killed).clusters = u.clusters := by
    unfold State.endThread
    simp only [hm, List.foldl_nil, hscarab, if_false]
    split
    · change (u.ownerGone _).threads = _ ∧ (u.ownerGone _).mem = _ ∧ (u.ownerGone _).msgs = _ ∧ (u.ownerGone _).clusters = _
      rw [hgone]; exact ⟨rfl, rfl, rfl, rfl⟩
    · exact ⟨rfl, rfl, rfl, rfl⟩
  have hu : u.threads = ((s.modThread tid (fun t => { t with mon := {} })).dropThread tid).threads ∧ u.mem = s.mem ∧
      u.msgs = s.msgs ∧ u.clusters = cls := by
    simp only [u]
    rw [hfree, hlaunch, hdisarm]
    exact ⟨rfl, rfl, rfl, rfl⟩
  obtain ⟨hthreads, hmem, hmsgs, hclusters⟩ := hend
  obtain ⟨huthreads, humem, humsgs, huclusters⟩ := hu
  have hdrop := hthreads.trans huthreads
  refine ⟨?_, fun k hk => ?_, hmem.trans humem, hmsgs.trans humsgs, fun c => ?_⟩
  · rw [hdrop]; simp [State.dropThread, KMap.find_erase]
  · rw [← State.thread_modThread_ne s (fun t => { t with mon := {} }) (Ne.symm hk)]
    simp only [State.thread, hdrop, State.dropThread, KMap.getD, KMap.find_erase, if_neg (Ne.symm hk)]
  · rw [State.cluster, hclusters.trans huclusters]; exact horphan c

end Sys2Proof.Machine
end

section
/-! EXTL, SPAWN, EXIT, YIELD and ANCH (R80, R83, R140, R145, R150 to R155): what each leaves of its thread and of the rest (O28). -/

namespace Sys2Proof.Machine

theorem exec_extl (g : Guard) (d : Reg) (s : State) : exec (.extl g d) s = execExtl g d s := rfl
theorem exec_spawn (g : Guard) (d : Reg) (a b c : Src) (s : State) : exec (.spawn g d a b c) s = execSpawn g d a b c s := rfl
theorem exec_exit (g : Guard) (s : State) : exec (.exit g) s = execExit g s := rfl
theorem exec_yield (g : Guard) (s : State) : exec (.yield g) s = execYield g s := rfl
theorem exec_yieldRq (g : Guard) (s : State) : exec (.yieldRq g) s = execYieldRq g s := rfl
theorem exec_anch (g : Guard) (s : State) : exec (.anch g) s = execAnch g s := rfl
theorem exec_anchR (g : Guard) (s : State) : exec (.anchR g) s = execAnchR g s := rfl

/-! ### EXTL -/

/-- R130, R150: the extensions of a slot; the variant B9-X4L lacks those of GRAPH and BSX. -/
theorem State.extList_eq (s : State) (core slot : Nat) :
    s.extList core slot =
      let all : Word := if isPylon core then 0x123 else if slot = 7 then 0x1FF else 0x17F
      if (s.pkg (pkgOf core)).variant = 2 then all &&& ~~~0xA0 else all := by
  unfold State.extList
  by_cases hv : (s.pkg (pkgOf core)).variant = 2
  · by_cases hp : isPylon core = true
    · simp [hv, hp]
    · by_cases hs : slot = 7 <;> simp [hv, hp, hs]
  · by_cases hp : isPylon core = true
    · simp [hv, hp]
    · by_cases hs : slot = 7 <;> simp [hv, hp, hs]

/-! ### SPAWN -/

/-- The low bits of a word are 0 where the word is a multiple. -/
theorem extractLsb'_low_eq_zero (x : Word) (k : Nat) : x.extractLsb' 0 k = 0 ↔ x.toNat % 2 ^ k = 0 := by
  rw [← BitVec.toNat_inj]
  simp [BitVec.extractLsb'_toNat]

theorem Reg.isZ_eq (r : Reg) : r.isZ = decide (r = .z) := by cases r <;> simp [Reg.isZ]

theorem Thread.reg_empty (t : Thread) (d r : Reg) : (t.empty d).reg r = t.reg r := by
  cases d <;> cases r <;> rfl

theorem Thread.vreg_empty (t : Thread) (d r : Reg) : (t.empty d).vreg r = t.vreg r := by
  cases d <;> cases r <;> rfl

theorem Thread.full_empty (t : Thread) (d r : Reg) : (t.empty d).full r = if r = d ∧ Reg.tagged d = true then false else t.full r := by
  rw [← Thread.full_setFull]
  cases r <;> rfl

/-- R151: a thread joins a launch; only the launches are changed. -/
theorem State.launchJoin_eq (s : State) (l : Option Nat) (tid : Nat) : ∃ ls, s.launchJoin l tid = { s with launches := ls } := by
  unfold State.launchJoin
  repeat' split
  all_goals exact ⟨_, rfl⟩

theorem KMap.mem_set_self {α : Type} (m : KMap α) (k : Nat) (a : α) : (k, a) ∈ KMap.set m k a := by
  induction m with
  | nil => simp [KMap.set]
  | cons p r ih =>
    obtain ⟨i, b⟩ := p
    simp only [KMap.set]
    split
    · simp
    · split
      · simp
      · simp [ih]

/-- R151: gd awaits the new thread's tag; the thread's image is on its way. -/
def State.spawning (s : State) (d : Reg) (entry arg : Word) (dest : Nat) : State :=
  let s1 := s.awaitReg s.cur d 8 false false 0 0
  let s2 := (s1.bumpId.setThread s1.nextId (spawned s.me entry arg (s1.nextId + 1))).launchJoin s.me.launch s1.nextId
  s2.sendFlit s.me.core dest kImage s.me.domid s.me.cin s.me.tag s.me.prio (.image s1.nextId false (some (s.me.asker s.cur s.nextId false)))

theorem State.spawning_spec (s : State) (d : Reg) (entry arg : Word) (dest : Nat) :
    let u := s.spawning d entry arg dest
    u.cur = s.cur ∧ u.mem = s.mem ∧
      (s.nextId + 1 ≠ s.cur → u.me = { s.me.empty d with await := s.me.await ++ [⟨s.nextId, destOf d 8 false, false, 0, 0⟩] }) ∧
      u.thread (s.nextId + 1) = spawned s.me entry arg (s.nextId + 2) ∧
      ∃ f, (s.nextId + 2, f) ∈ u.msgs ∧ f.kind = kImage ∧ f.ldest = dest ∧
        f.body = .image (s.nextId + 1) false (some (s.me.asker s.cur s.nextId false)) := by
  obtain ⟨ls, hjoin⟩ := ((s.awaitReg s.cur d 8 false false 0 0).bumpId.setThread (s.nextId + 1)
    (spawned s.me entry arg (s.nextId + 2))).launchJoin_eq s.me.launch (s.nextId + 1)
  dsimp only
  unfold State.spawning
  dsimp only
  rw [show (s.awaitReg s.cur d 8 false false 0 0).nextId = s.nextId + 1 from rfl, hjoin]
  refine ⟨rfl, rfl, fun hne => ?_, ?_, _, KMap.mem_set_self _ _ _, rfl, rfl, rfl⟩
  · refine (State.thread_setThread_ne _ _ hne).trans ?_
    rw [State.bumpId_thread, State.awaitReg, State.bumpId_thread, State.thread_modThread_same]
  · exact State.thread_setThread_same _ _ _

/-- R121, R151: what an instruction asks for whose effect leaves gd empty until the answer comes. -/
theorem State.After.asks {s u t : State} {srcs : List Src} {d : Reg} {x : List Await}
    (h : u.After t { Out.none u with takes := takesOf srcs [d], pc := s.me.pc + 8 }) (hcur : u.cur = s.cur)
    (hme : u.me = { s.me.empty d with await := x }) (hbyte : ∀ a, u.byte a = s.byte a)
    (haw : d.isG = true → ({ s.me.empty d with await := x } : Thread).awaited d = true) : s.Asks t srcs d := by
  obtain ⟨hth, -, -, -, hbytes⟩ := h
  have hawait := congrArg Thread.await hth.other
  rw [hcur, hme] at hth hawait
  have hempty : ∀ r, ({ s.me.empty d with await := x } : Thread).reg r = s.me.reg r ∧
      ({ s.me.empty d with await := x } : Thread).vreg r = s.me.vreg r ∧
      ({ s.me.empty d with await := x } : Thread).full r = if r = d ∧ Reg.tagged d = true then false else s.me.full r := by
    intro r
    refine ⟨Eq.trans ?_ (s.me.reg_empty d r), Eq.trans ?_ (s.me.vreg_empty d r), Eq.trans ?_ (s.me.full_empty d r)⟩ <;> cases r <;> rfl
  have hpc : ({ s.me.empty d with await := x } : Thread).retired = s.me.retired ∧ u.me.pw = s.me.pw := by
    rw [hme]; cases d <;> exact ⟨rfl, rfl⟩
  have hpw : ({ s.me.empty d with await := x } : Thread).pw = s.me.pw := by cases d <;> rfl
  refine ⟨hth.pc, ?_, ⟨hth.idle.1, hth.idle.2.2.1⟩, fun r hr => ⟨?_, ?_⟩, fun r => ?_, fun hd => ?_, fun a => (hbytes a).trans (hbyte a)⟩
  · rw [hth.retired, hpc.1]
  · rw [hth.reg_of_unwritten rfl (hpc.2.trans hpw.symm) hr, (hempty r).1]
  · rw [hth.vreg_of_unwritten rfl, (hempty r).2.1]
  · rw [hth.full_of_unwritten rfl rfl, (hempty r).2.2]
    by_cases hrd : r = d
    · subst hrd
      by_cases ht : Reg.tagged r = true <;> simp [ht]
    · simp [hrd]
  · have hd' := haw hd
    obtain ⟨n, rfl⟩ : ∃ n, d = .g n := by cases d <;> simp_all [Reg.isG]
    simp only [Thread.awaited] at hd' ⊢
    rwa [show (t.thread s.cur).await = x from hawait]

theorem isG_or_z_of_gz {d : Reg} (h : gz d = true) : d.isG = true ∨ d = .z := by
  cases d <;> simp_all [gz, Reg.isG, Reg.isZ]

/-- R151, R152: SPAWN, whose operands name an entry and a present core, once its earlier writes are performed. -/
theorem spawn_completes {s : State} {g : Guard} {d : Reg} {a b c : Src}
    (hr : s.runs g { ext := .base, srcs := [a, b, c], dests := [d], outside := true } = true)
    (hentry : (s.me.reg a.reg).toNat % 8 = 0)
    (hcore : s.coreOperand (if c.reg = .z then BitVec.ofNat 64 s.me.core else s.me.reg c.reg) = true)
    (hrel : s.me.domReleased = true) (hroom : s.sendOverflow s.me.core = false) :
    ∃ t, exec (.spawn g d a b c) s = .next t ∧
      (s.spawning d (s.me.reg a.reg) (s.me.reg b.reg) (if c.reg = .z then BitVec.ofNat 64 s.me.core else s.me.reg c.reg).toNat).After t
        { Out.none (s.spawning d (s.me.reg a.reg) (s.me.reg b.reg) (if c.reg = .z then BitVec.ofNat 64 s.me.core else s.me.reg c.reg).toNat) with
          takes := takesOf [a, b, c] [d], pc := s.me.pc + 8 } := by
  have halign : (s.me.reg a.reg).extractLsb' 0 3 = 0 := (extractLsb'_low_eq_zero _ 3).2 hentry
  refine completes_as (exec_spawn g d a b c s) hr ?_ (s.spawning_spec d _ _ _).1
  simp only [Reg.isZ_eq, decide_eq_true_eq, halign, hcore, hrel, hroom, bne_self_eq_false, Bool.false_eq_true, if_false, Bool.not_true]
  rfl

/-! ### EXIT, YIELD -/

theorem State.yield_thread_same (s : State) (tid : Nat) : (s.yield tid).thread tid =
    { (s.thread tid).settle with
      pc := (s.thread tid).pc + 8, retired := (s.thread tid).retired + 1, wait := some (.yield (s.now (s.thread tid).core + 9)) } := by
  rw [State.yield, State.retire, State.modThread_modThread, State.thread_modThread_same]

/-- R154: a yield changes only the record of its thread. -/
theorem onlyMe_of_yield {i : Instr} {s : State} {g : Guard} {n : Need} {f : State → Thread → Res} (he : exec i s = run s g n f)
    (hr : s.runs g n = true) (hf : f s s.me = .gone (s.yield s.cur)) :
    OnlyMe i s { s.me.settle with
      pc := s.me.pc + 8, retired := s.me.retired + 1, wait := some (.yield (s.now s.me.core + 9)) } := by
  refine ⟨_, exec_of_gone he hr hf, s.yield_thread_same s.cur, fun k hk => ?_, rfl⟩
  rw [State.yield, State.retire, State.modThread_modThread, State.thread_modThread_ne _ _ (Ne.symm hk)]

/-! ### ANCH -/

/-- R155: what `anch` and `anch.r` leave of the vector and mask registers. -/
theorem Thread.clearVec_cleared (t : Thread) : (∀ n, t.clearVec.reg (.m n) = 0 ∧ t.clearVec.full (.m n) = true) ∧
    ∀ n, t.clearVec.vreg (.v n) = 0 ∧ t.clearVec.full (.v n) = true := by
  have hm (n : Nat) (h : n < 8) : (BitVec.allOnes 8)[n] = true := BitVec.getElem_allOnes n h
  have hv (n : Nat) (h : n < 32) : (BitVec.allOnes 32)[n] = true := BitVec.getElem_allOnes n h
  refine ⟨fun n => ⟨?_, hm n n.isLt⟩, fun n => ⟨?_, hv n n.isLt⟩⟩ <;> simp [Thread.clearVec, Thread.reg, Thread.vreg]

theorem Thread.After.g_of_unwritten {a b : Thread} {o : Out} (h : Thread.After a b o) (hz : o.reg = .z) : b.g = a.g := by
  refine Vector.ext fun n hn => ?_
  rw [h.g n hn, hz, if_neg (by simp)]

/-- R131, R155: `anch` of a thread on a core that knows no core with VEC traps, on a pylon core. -/
theorem State.extSearch_none {s : State} {e : Nat} (h : s.extEntry s.me.core e = none) : s.extSearch s.cur e = .trap 0x02 s.iword := by
  unfold State.extSearch
  dsimp only
  rw [h]
  split <;> rfl

end Sys2Proof.Machine

namespace Sys2Proof.Machine

theorem State.me_modThread (s : State) (f : Thread → Thread) : (s.modThread s.cur f).me = f s.me := s.thread_modThread_same _ _

theorem State.me_modCore (s : State) (k : Nat) (f : Core → Core) : (s.modCore k f).me = s.me := rfl

/-- An instruction without sources and destinations that leaves `u`, in which the running thread has the pw and the generator that it
had, completes as `u`. -/
theorem completes_as_pw {i : Instr} {s u : State} {g : Guard} {e : Ext} {f : State → Thread → Res}
    (he : exec i s = run s g { ext := e } f) (hr : s.runs g { ext := e } = true) (hf : f s s.me = .ok u) (hc : u.cur = s.cur)
    (hpw : u.me.pw = s.me.pw) (hrnd : u.me.rnd = s.me.rnd) : CompletesAs i s u (s.outPw [] s.me.pw) := by
  have h := completes_as he hr hf hc
  rw [Out.none, hpw, hrnd] at h
  exact h

/-- The running thread owns its core's matrix engine. -/
def State.minesMx (s : State) : Bool := s.myMx.owner.any s.me.owns

/-- `anch.r` of an anchored thread for which no vector load, stream or matrix operation is outstanding. -/
theorem execAnchR_releases {s : State} {g : Guard} (hr : s.runs g { ext := .base } = true) (hanc : s.me.anc = true)
    (hst : s.me.strmDone = true) (hlane : ∀ x ∈ s.me.await, ∀ n p, x.dest ≠ .lane n p)
    (hbusy : (s.minesMx && s.myMx.busyFor s.cur) = false) :
    let u := s.modThread s.cur (fun x => { x.clearVec with anc := decide (s.me.slot = 7), sm := [] })
    CompletesAs (.anchR g) s (if s.minesMx then u.modCore s.me.core (fun c => { c with mx := c.mx.release }) else u) (s.outPw [] s.me.pw) := by
  intro u
  have hme : u.me = { s.me.clearVec with anc := decide (s.me.slot = 7), sm := [] } := s.me_modThread _
  have hother : (if s.minesMx then u.modCore s.me.core (fun c => { c with mx := c.mx.release }) else u).cur = s.cur ∧
      (if s.minesMx then u.modCore s.me.core (fun c => { c with mx := c.mx.release }) else u).me = u.me := by
    cases s.minesMx <;> exact ⟨rfl, rfl⟩
  refine completes_as_pw (exec_anchR g s) hr ?_ hother.1 (by rw [hother.2, hme]; rfl) (by rw [hother.2, hme]; rfl)
  have hmine : (match s.myMx.owner with | some o => s.me.owns o | none => false) = s.minesMx := by
    unfold State.minesMx
    cases s.myMx.owner <;> rfl
  refine (if_neg (by simp [hanc])).trans ((if_neg ?_).trans ((if_neg (by simp [hst])).trans ?_))
  · rw [Bool.or_eq_true, List.any_eq_true]
    rintro (⟨x, hx, hd⟩ | hb)
    · have h := hlane x hx
      split at hd
      · next n p he => exact h n p he
      · exact absurd hd (by simp)
    · exact absurd ((congrArg (· && s.myMx.busyFor s.cur) hmine).symm.trans hb) (by simp [hbusy])
  · exact congrArg (fun b => Res.ok (if b = true then u.modCore s.me.core (fun c => { c with mx := c.mx.release }) else u)) hmine

/-- Settles O28: each instruction's effect is read off its definition; the common lemmas say how it ends. -/
theorem threadLifeInstructions : Obligations.ThreadLifeInstructions := by
  unfold Obligations.ThreadLifeInstructions
  refine ⟨fun s g d hwf hr => ?_, fun s g d a b c hwf hr => ⟨fun he => ?_, fun he hc => ?_, fun he hc hrel hov => ?_, fun he hc hrel hov hne => ?_⟩,
    fun s g hr haw hst hmem hcur => ?_, fun s g hr => ⟨?_, fun hno => ?_, fun hanc hbest hmarks hagreed hawait hasks => ?_⟩,
    fun s g hr => ⟨fun hanc => ?_, fun hanc hp hx => ?_, fun hanc hp hslot => ?_, fun hanc hp hslot hmarks hagreed hawait hasks => ?_,
      fun hanc => ?_, fun hanc hst hlane hown => ?_, fun hanc hst hlane hown hbusy => ?_⟩⟩
  · have hd : Reg.scalarDest d = true := gz_scalarDest (by simp [Instr.wf, Instr.operandsOk] at hwf; exact hwf.1)
    have h := completes_ok (exec_extl g d s) hr rfl ((State.Wrote.refl s).write rfl d hd _) (.inl (by simp)) (.inr rfl)
    rw [State.extList_eq] at h
    exact h
  · have halign := mt (extractLsb'_low_eq_zero (s.me.reg a.reg) 3).1 he
    exact traps_of (exec_spawn g d a b c s) hr (if_pos (bne_iff_ne.2 halign))
  · have halign := (extractLsb'_low_eq_zero (s.me.reg a.reg) 3).2 he
    refine traps_of (exec_spawn g d a b c s) hr ?_
    simp [Reg.isZ_eq, halign, hc]
  · have halign := (extractLsb'_low_eq_zero (s.me.reg a.reg) 3).2 he
    refine traps_of (exec_spawn g d a b c s) hr ?_
    simp [Reg.isZ_eq, halign, hc, hrel, hov]
  · obtain ⟨t, ht, hafter⟩ := spawn_completes hr he hc hrel hov
    obtain ⟨hcur, hmem, hme, hnew, f, hf, hkind, hdest, hbody⟩ := s.spawning_spec d (s.me.reg a.reg) (s.me.reg b.reg)
      (if c.reg = .z then BitVec.ofNat 64 s.me.core else s.me.reg c.reg).toNat
    have hmsgs := congrArg State.msgs hafter.other
    have hthread := (hafter.threads (s.nextId + 1) (by rwa [hcur])).trans hnew
    have hasks : s.Asks t [a, b, c] d := by
      refine hafter.asks hcur (hme hne) (fun x => by rw [State.byte, hmem]; rfl) fun hd => ?_
      obtain ⟨n, rfl⟩ : ∃ n, d = .g n := by cases d <;> simp_all [Reg.isG]
      simp [Thread.awaited, destOf]
    refine ⟨t, ht, hasks, ?_⟩
    dsimp only
    rw [hthread]
    exact ⟨rfl, rfl, rfl, rfl, rfl, rfl, rfl, rfl, rfl, rfl, rfl, rfl, rfl, rfl, f, _, hmsgs ▸ hf, hkind, hdest, hbody⟩
  · have hend := State.endThread_of_no_members hmem hcur false
    obtain ⟨hgone, hothers, hmem', -, -⟩ := hend
    refine ⟨_, exec_of_gone (exec_exit g s) hr (by simp [haw, hst]), hgone, hothers, fun a => by rw [State.byte, hmem', State.byte]⟩
  · exact onlyMe_of_yield (exec_yield g s) hr rfl
  · exact onlyMe_of_yield (exec_yieldRq g s) hr (if_neg (by rcases hno with h | h <;> simp [h]))
  · have hleave := State.toQueue_of_mayLeave ⟨hmarks, hagreed, hawait, hasks⟩ false (s.me.pc + 8) true false
    obtain ⟨mon, cyc, hq⟩ := s.thread_queued_same s.cur false (s.me.pc + 8) true false
    refine ⟨_, exec_of_gone (exec_yieldRq g s) hr ((if_pos ?_).trans hleave), ?_⟩
    · simpa [hanc, Option.isSome_iff_ne_none] using hbest
    · rw [hq]
      exact ⟨rfl, rfl, rfl, rfl, rfl, fun k hk => s.thread_queued_ne hk false _ true false⟩
  · exact completes_nothing (exec_anch g s) hr (if_pos hanc) rfl
  · refine traps_of (exec_anch g s) hr ?_
    simp only [hanc, hp, if_true, Bool.false_eq_true, if_false]
    exact State.extSearch_none hx
  · obtain ⟨t, ht, hafter⟩ := completes_as (u := (s.modThread s.cur (fun t => { t.clearVec with anc := true })).modCore s.me.core
      (fun c => c.keepSlot s.me.slot)) (exec_anch g s) hr (by simp [hanc, hp, hslot]) rfl
    have hme : ((s.modThread s.cur (fun t => { t.clearVec with anc := true })).modCore s.me.core
      (fun c => c.keepSlot s.me.slot)).me = { s.me.clearVec with anc := true } := (State.me_modCore _ _ _).trans (s.me_modThread _)
    obtain ⟨hth, hothers, -, -, hbytes⟩ := hafter
    rw [hme] at hth
    obtain ⟨hm, hv⟩ := s.me.clearVec_cleared
    have hpw : ∀ x : State, x.me = { s.me.clearVec with anc := true } → x.me.pw = s.me.pw := fun x hx => by rw [hx]; rfl
    refine ⟨t, ht, congrArg Thread.anc hth.other, hth.pc, hth.retired, hth.g_of_unwritten rfl, ?_, fun n => ⟨?_, ?_⟩, fun n => ⟨?_, ?_⟩,
      fun k hk => ?_, hbytes⟩
    · exact hth.pw.trans (hpw _ hme)
    · exact (hth.reg_of_unwritten rfl (hpw _ hme) (by simp)).trans (hm n).1
    · exact (hth.full_of_unwritten rfl rfl _).trans (hm n).2
    · exact (hth.vreg_of_unwritten rfl _).trans (hv n).1
    · exact (hth.full_of_unwritten rfl rfl _).trans (hv n).2
    · exact (hothers k hk).trans ((State.modCore_thread _ _ _ _).trans (s.thread_modThread_ne _ (Ne.symm hk)))
  · have hleave := State.toQueue_of_mayLeave ⟨hmarks, hagreed, hawait, hasks⟩ true s.me.pc false false
    obtain ⟨mon, cyc, hq⟩ := s.thread_queued_same s.cur true s.me.pc false false
    have hout : ((s.queued s.cur true s.me.pc false false).thread s.cur).inSlot = false := by rw [hq]; rfl
    refine ⟨_, exec_of_gone (u := (s.queued s.cur true s.me.pc false false).modThread s.cur (fun x =>
      { x with wait := some .anch, counted := true, since := some (s.now s.me.core), waitAddr := BitVec.ofNat 64 s.me.core, iw := s.iword }))
      (exec_anch g s) hr ?_, ?_⟩
    · simp only [hanc, hp, Nat.not_lt.2 hslot, Bool.false_eq_true, if_false, hleave, hout]
    · rw [State.thread_modThread_same, hq]
      exact ⟨rfl, rfl, rfl, hanc⟩
  · exact completes_nothing (exec_anchR g s) hr (if_pos (by simp [hanc])) rfl
  · have hmine : s.minesMx = false := by
      rw [State.minesMx]
      cases ho : s.myMx.owner with
      | none => rfl
      | some o => exact hown o ho
    have h := execAnchR_releases hr hanc hst hlane (by rw [hmine, Bool.false_and])
    rwa [hmine] at h
  · obtain ⟨o, ho, howns⟩ := hown
    have hmine : s.minesMx = true := by rw [State.minesMx, ho]; exact howns
    have h := execAnchR_releases hr hanc hst hlane (by rw [hbusy, Bool.and_false])
    rwa [hmine] at h

end Sys2Proof.Machine
end

section
/-! Arrival of images, the barrel, wakes, WAITLIM and thermal control (R82, R83, R140, R142 to R149, R255, R256, R343): what each event
leaves (O46). -/

namespace Sys2Proof.Machine

/-! ### Slots and the run queue (R140, R145) -/

/-- R140: a context enters a slot, where it loads for four cycles. -/
theorem State.enterSlot_spec {s : State} {tid : Nat} (h : (s.thread tid).wait ≠ some .anch) (core slot : Nat) :
    (s.enterSlot tid core slot).thread tid = { s.thread tid with place := .slot core slot, cycAt := s.now core } ∧
      (∀ k, k ≠ tid → (s.enterSlot tid core slot).thread k = s.thread k) ∧
      (slot, s.now core + 4) ∈ ((s.enterSlot tid core slot).core core).loading ∧
      (s.enterSlot tid core slot).mem = s.mem ∧ (s.enterSlot tid core slot).msgs = s.msgs := by
  refine ⟨?_, fun k hk => ?_, ?_, rfl, rfl⟩
  · rw [State.enterSlot, State.modCore_thread, State.thread_modThread_same, if_neg h]
  · rw [State.enterSlot, State.modCore_thread, State.thread_modThread_ne _ _ (Ne.symm hk)]
  · rw [State.enterSlot, State.core_modCore_same]
    exact List.mem_cons_self

theorem Thread.place_of_inSlot {t : Thread} (h : t.inSlot = true) : t.place = .slot t.core t.slot := by
  unfold Thread.inSlot at h
  unfold Thread.core Thread.slot
  split at h
  · next hp => rw [hp]
  · exact absurd h (by simp)

theorem State.msgs_dropMsg (s : State) (id : Nat) : KMap.find (s.dropMsg id).msgs id = none := by
  simp [State.dropMsg, KMap.find_erase]

/-- R145: the roaming context of an image arrives in the free slot of its core for which no entry waits. -/
theorem State.arrive_slot {s : State} {cl core k tid : Nat} (hfree : s.freeSlot core false = some k) (hbest : s.bestEntry core k = none) :
    s.arrive tid cl (some core) false = some (s.bumpFree.enterSlot tid core k) := by
  simp [State.arrive, hfree, hbest, Nat.mod_one]

/-! ### The barrel (R142) -/

theorem afterPtr_single (ptr : Nat) {slot : Nat} (h : slot < 8) : afterPtr ptr [slot] = some slot := by
  have hall : ∀ r < 8, ∀ n < 8, ((List.range 8).map (fun i => (r + 1 + i) % 8)).find? [n].contains = some n := by decide
  have hmod : (List.range 8).map (fun i => (ptr + 1 + i) % 8) = (List.range 8).map (fun i => (ptr % 8 + 1 + i) % 8) :=
    List.map_congr_left fun i _ => by omega
  rw [afterPtr, hmod]
  exact hall _ (Nat.mod_lt _ (by decide)) _ h

/-- R142: the only ready slot of a core is the one that its barrel chooses. -/
theorem Core.choose_single (c : Core) {slot : Nat} (h : slot < 8) (p : BitVec 2) :
    ∃ b, c.choose [(slot, p.toNat)] = some (slot, b) := by
  have hclass : (List.range 4).find? (fun k => decide (p.toNat = k)) = some p.toNat := by
    have hall : ∀ n < 4, (List.range 4).find? (fun k => decide (n = k)) = some n := by decide
    exact hall _ p.isLt
  by_cases hw : 64 ≤ c.wctrOf slot
  · exact ⟨true, by simp [Core.choose, hw, afterPtr_single _ h]⟩
  · exact ⟨false, by simp [Core.choose, hw, hclass, afterPtr_single _ h]⟩

theorem Core.chosen_selAt (c : Core) (ready : List (Nat × Nat)) (pick : Option (Nat × Bool)) (now : Nat) :
    (c.chosen ready pick now).selAt = some now := by
  unfold Core.chosen
  split <;> rfl

/-! ### Thermal control (R147, R149) -/

/-- A fold of core updates leaves what no core's record holds. -/
theorem State.foldl_modCore_kept {g : State → Nat → State} (s : State) (l : List Nat) (hg : ∀ s k, ∃ f, g s k = s.modCore k f) :
    (l.foldl g s).dies = s.dies ∧ (l.foldl g s).mem = s.mem ∧ (l.foldl g s).threads = s.threads := by
  induction l generalizing s with
  | nil => exact ⟨rfl, rfl, rfl⟩
  | cons k l ih =>
    obtain ⟨f, hf⟩ := hg s k
    have h := ih (g s k)
    rw [hf] at h
    rw [List.foldl_cons, hf]
    exact h

/-- A fold that changes entries one by one, and none with the property `p`, keeps an entry that has it. -/
theorem getD_foldl_keep {α : Type} (l : List Nat) (g : KMap α → Nat → KMap α) (p : α → Bool) (d : α) (r : Nat)
    (hne : ∀ m k, k ≠ r → KMap.getD (g m k) r d = KMap.getD m r d) (hkeep : ∀ m, p (KMap.getD m r d) = true → g m r = m) (m : KMap α)
    (h : p (KMap.getD m r d) = true) : KMap.getD (l.foldl g m) r d = KMap.getD m r d := by
  induction l generalizing m with
  | nil => rfl
  | cons k l ih =>
    have hk : KMap.getD (g m k) r d = KMap.getD m r d := by
      by_cases hkr : k = r
      · rw [hkr, hkeep m h]
      · exact hne m k hkr
    rw [List.foldl_cons, ih _ (by rw [hk]; exact h), hk]

/-! ### The events -/

/-- R82, R145: what becomes of an image at its destination. -/
theorem imageArrival_spec (s : State) (msg tid : Nat) (m : Msg) (any : Bool) (ha : s.arrived msg = some m) (hb : m.body = .image tid any none) :
    (s.isLive (clusterOf m.ldest) m.domid m.cin = false → (s.thread tid).members = [] → tid < 2 ^ 40 →
      ∃ t, exec (.imageArrival msg) s = .next t ∧ KMap.find t.msgs msg = none ∧ KMap.find t.threads tid = none ∧ t.mem = s.mem) ∧
    (s.isLive (clusterOf m.ldest) m.domid m.cin = true → (s.thread tid).tag ≠ m.tag → (s.thread tid).members = [] → tid < 2 ^ 40 →
      ∃ t, exec (.imageArrival msg) s = .next t ∧ KMap.find t.msgs msg = none ∧ KMap.find t.threads tid = none ∧ t.mem = s.mem ∧
        ((s.cluster (clusterOf m.ldest)).orphan ≠ BitVec.allOnes 32 →
          (t.cluster (clusterOf m.ldest)).orphan = (s.cluster (clusterOf m.ldest)).orphan + 1)) ∧
    (∀ k, s.isLive (clusterOf m.ldest) m.domid m.cin = true → (s.thread tid).domid = m.domid → (s.thread tid).cin = m.cin →
      (s.thread tid).tag = m.tag → any = false → s.freeSlot m.ldest false = some k →
      s.bestEntry m.ldest k = none → (s.thread tid).wait ≠ some .anch →
      ∃ t, exec (.imageArrival msg) s = .next t ∧ KMap.find t.msgs msg = none ∧
        t.thread tid = { s.thread tid with place := .slot m.ldest k, cycAt := s.now m.ldest } ∧
        (∀ j, j ≠ tid → t.thread j = s.thread j) ∧ t.mem = s.mem ∧ (k, s.now m.ldest + 4) ∈ (t.core m.ldest).loading) := by
  have hmsg := s.msgs_dropMsg msg
  refine ⟨fun hlive hm ht => ?_, fun hlive htag hm ht => ?_, fun k hlive hd hc htag hany hfree hbest hw => ?_⟩
  · obtain ⟨hgone, -, hmem, hmsgs, -⟩ := State.endThread_of_no_members (s := s.dropMsg msg) hm ht true
    refine ⟨(s.dropMsg msg).endThread tid true, congrArg Host.Outcome.next ?_, by rw [hmsgs]; exact hmsg, hgone, hmem⟩
    simp [State.land, ha, hb, hlive]
  · obtain ⟨hgone, -, hmem, hmsgs, horphan⟩ := State.endThread_of_no_members (s := s.dropMsg msg) hm ht true
    refine ⟨((s.dropMsg msg).endThread tid true).orphaned (clusterOf m.ldest), congrArg Host.Outcome.next ?_, ?_, hgone, hmem, fun hne => ?_⟩
    · simp [State.land, ha, hb, hlive, htag]
    · rw [State.orphaned, State.modCluster_msgs, hmsgs]; exact hmsg
    · rw [State.orphaned, State.cluster_modCluster_same, horphan]
      exact if_neg hne
  · have harr : (s.dropMsg msg).arrive tid (clusterOf m.ldest) (some m.ldest) false =
        some ((s.dropMsg msg).bumpFree.enterSlot tid m.ldest k) := State.arrive_slot hfree hbest
    obtain ⟨hme, hothers, hload, hmem, hmsgs⟩ := State.enterSlot_spec (s := (s.dropMsg msg).bumpFree) hw m.ldest k
    refine ⟨(s.dropMsg msg).bumpFree.enterSlot tid m.ldest k, congrArg Host.Outcome.next ?_, by rw [hmsgs]; exact hmsg, hme, hothers, hmem, hload⟩
    simp [State.land, ha, hb, hlive, hd, hc, htag, hany, harr]

/-- R83: a thread whose resting state is read back from its trap frame. -/
def State.reloaded (s : State) (a : Nat) (t : Thread) : Thread :=
  { t with
    tcause := s.peekW a, taddr := s.peekW (a + 8), tpc := s.peekW (a + 16), cyc := s.peekW (a + 24)
    retired := s.peekW (a + 32), inh := bit (s.peekW (a + 40)) 0, resting := false }

theorem State.paired_reloaded (s : State) (tid a : Nat) (f : Thread → Thread) (t : Thread) :
    (s.modThread tid f).paired (s.reloaded a t) = s.paired t := by
  have hcore : (s.reloaded a t).core = t.core := by simp only [Thread.core, State.reloaded]
  have hslot : (s.reloaded a t).slot = t.slot := by simp only [Thread.slot, State.reloaded]
  have hin : (s.reloaded a t).inSlot = t.inSlot := by simp only [Thread.inSlot, State.reloaded]
  rw [State.paired, State.paired, hcore, hslot, hin, State.modThread_core]

theorem execRestingStateReload_eq (s : State) (tid : Nat) : execRestingStateReload tid s = .next (
    if (s.thread tid).inSlot && (s.thread tid).resting then
      (if (s.thread tid).wait = some .anch then
        (s.modThread tid (s.reloaded ((s.thread tid).tframe.toNat + 256))).retire tid ((s.thread tid).pc + 8)
      else s.modThread tid (s.reloaded ((s.thread tid).tframe.toNat + 256))).agreeStart tid
    else s) := rfl

/-- R83: the resting state of a thread that is no paired slot's, and does not wait to be anchored, is read back. -/
theorem restingStateReload_spec (s : State) (tid : Nat) (hin : (s.thread tid).inSlot = true) (hrest : (s.thread tid).resting = true)
    (hw : (s.thread tid).wait ≠ some .anch) (hp : s.paired (s.thread tid) = false) :
    let a := (s.thread tid).tframe.toNat + 256
    ∃ t, exec (.restingStateReload tid) s = .next t ∧
      t.thread tid = { s.thread tid with
        tcause := s.peekW a, taddr := s.peekW (a + 8), tpc := s.peekW (a + 16), cyc := s.peekW (a + 24)
        retired := s.peekW (a + 32), inh := bit (s.peekW (a + 40)) 0, resting := false } ∧
      (∀ k, k ≠ tid → t.thread k = s.thread k) ∧ t.mem = s.mem := by
  rw [show exec (.restingStateReload tid) s = execRestingStateReload tid s from rfl, execRestingStateReload_eq, if_pos (by simp [hin, hrest]),
    if_neg hw, State.agreeStart, if_neg (by rw [State.thread_modThread_same, State.paired_reloaded, hp]; simp)]
  refine ⟨_, rfl, ?_, fun k hk => s.thread_modThread_ne _ (Ne.symm hk), rfl⟩
  rw [State.thread_modThread_same, State.reloaded]

/-- R140: a placed context that rests has loaded. -/
theorem slotLoadDone_resting {s : State} {tid p : Nat} (hin : (s.thread tid).inSlot = true)
    (hload : ((s.thread tid).slot, p) ∈ (s.core (s.thread tid).core).loading) (hp : p ≤ s.now (s.thread tid).core)
    (hrest : (s.thread tid).resting = true) :
    exec (.slotLoadDone tid) s = .next (s.modCore (s.thread tid).core (fun c =>
      { c with loading := c.loading.filter (fun p => decide (p.1 ≠ (s.thread tid).slot)) })) := by
  have hany : (s.core (s.thread tid).core).loading.any (fun q => decide (q.1 = (s.thread tid).slot ∧ q.2 ≤ s.now (s.thread tid).core)) = true :=
    List.any_eq_true.2 ⟨_, hload, by simpa using hp⟩
  rw [show exec (.slotLoadDone tid) s = execSlotLoadDone tid s from rfl, execSlotLoadDone]
  simp only [hin, hany, hrest, Bool.and_self, if_true]

/-- R142: the barrel of a core with one ready slot chooses it. -/
theorem barrelSelect_single {s : State} {core slot tid : Nat} (hissue : s.issue = none) (hcore : s.corePresent core = true)
    (hmay : s.maySelect core = true) (hready : s.readySlots core = [(slot, (s.thread tid).prio.toNat)])
    (hslot : s.readySlot core slot = some tid) (h8 : slot < 8) :
    ∃ t, exec (.barrelSelect core) s = .next t ∧ t.issue = some tid ∧ (t.core core).selAt = some (s.selectCycle core) ∧
      t.threads = s.threads ∧ t.mem = s.mem := by
  obtain ⟨b, hpick⟩ := (s.core core).choose_single h8 (s.thread tid).prio
  refine ⟨s.select core, ?_, ?_, ?_, rfl, rfl⟩
  · rw [show exec (.barrelSelect core) s = execBarrelSelect core s from rfl, execBarrelSelect, if_neg (by simp [hissue, hcore, hmay])]
  · simp only [State.select, hready, hpick, Option.bind_some, hslot]
  · refine (congrArg Core.selAt (s.core_modCore_same core (fun c => c.chosen (s.readySlots core) ((s.core core).choose (s.readySlots core))
      (s.selectCycle core)))).trans ?_
    exact Core.chosen_selAt _ _ _ _

/-! ### Wakes and WAITLIM (R255, R256, R343) -/

/-- R256: the codes of a wake that the device takes. -/
theorem wakeCode_of {w1 : Word} (h : w1 = 0 ∨ w1 = 0x05 ∨ w1 = 0x06 ∨ w1 = 0x1B) : (w1 >>> 8 != 0 || !wakeCode (w1.setWidth 8)) = false := by
  rcases h with rfl | rfl | rfl | rfl <;> decide

/-- R256: a wake for a thread reaches the one that waits under its names. -/
theorem wake_thread {s : State} {w0 w1 : Word} (h : w1 = 0 ∨ w1 = 0x05 ∨ w1 = 0x06 ∨ w1 = 0x1B) (h3 : w0.extractLsb' 0 2 ≠ 3) {tid : Nat}
    (hpage : s.pageWaiter (clusterOf (w0.extractLsb' 2 18).toNat) (w0.extractLsb' 52 12) (w0.extractLsb' 36 16) (w0.extractLsb' 20 16) =
      some tid) : exec (.wake w0 w1) s = .next (s.wakeThread tid (w1.setWidth 8)) := by
  rw [show exec (.wake w0 w1) s = execWake w0 w1 s from rfl, execWake]
  simp only [wakeCode_of h, Bool.false_eq_true, if_false, beq_iff_eq, h3, hpage]

/-- R256: a wake for which no thread waits, nor a launch unit, is dropped and counted. -/
theorem wake_orphaned {s : State} {w0 w1 : Word} (h : w1 = 0 ∨ w1 = 0x05 ∨ w1 = 0x06 ∨ w1 = 0x1B) (h3 : w0.extractLsb' 0 2 ≠ 3)
    (hpage : s.pageWaiter (clusterOf (w0.extractLsb' 2 18).toNat) (w0.extractLsb' 52 12) (w0.extractLsb' 36 16) (w0.extractLsb' 20 16) = none)
    (hl : s.launchWaits (w0.extractLsb' 2 18).toNat (w0.extractLsb' 52 12) (w0.extractLsb' 36 16) = false) :
    exec (.wake w0 w1) s = .next (s.orphaned (clusterOf (w0.extractLsb' 2 18).toNat)) := by
  rw [show exec (.wake w0 w1) s = execWake w0 w1 s from rfl, execWake]
  simp only [wakeCode_of h, Bool.false_eq_true, if_false, beq_iff_eq, h3, hpage, hl]

/-- R256: a wake with access 3 is one for a unit of a core. -/
theorem wake_unit {s : State} {w0 w1 : Word} (h : w1 = 0 ∨ w1 = 0x05 ∨ w1 = 0x06 ∨ w1 = 0x1B) (h3 : w0.extractLsb' 0 2 = 3) :
    exec (.wake w0 w1) s = .next (s.wakeUnit (w0.extractLsb' 2 18).toNat (w0.extractLsb' 20 16).toNat (w0.extractLsb' 52 12)
      (w0.extractLsb' 36 16) (w1.setWidth 8)) := by
  rw [show exec (.wake w0 w1) s = execWake w0 w1 s from rfl, execWake]
  simp only [wakeCode_of h, Bool.false_eq_true, if_false, h3, beq_self_eq_true, if_true]

/-- R256: a parked thread that a wake reaches joins its cluster's run queue. -/
theorem State.wakeThread_parked {s : State} {tid cl : Nat} (hp : (s.thread tid).place = .parked cl) (code : BitVec 8) :
    ((s.wakeThread tid code).thread tid).place = .runq cl none false ∧ ((s.wakeThread tid code).thread tid).wait = none ∧
      ((s.wakeThread tid code).thread tid).wakeCause = code ∧ (∀ k, k ≠ tid → (s.wakeThread tid code).thread k = s.thread k) ∧
      (s.wakeThread tid code).mem = s.mem := by
  unfold State.wakeThread
  rw [hp]
  dsimp only
  rw [State.bumpId_thread, State.thread_modThread_same, State.thread_modThread_same]
  refine ⟨rfl, rfl, rfl, fun k hk => ?_, rfl⟩
  rw [State.bumpId_thread, State.thread_modThread_ne _ _ (Ne.symm hk), State.thread_modThread_ne _ _ (Ne.symm hk)]

theorem State.wakeThread_inSlot {s : State} {tid : Nat} (h : (s.thread tid).inSlot = true) (code : BitVec 8) :
    s.wakeThread tid code = s.setThread tid { s.thread tid with wait := none, since := none, wakeCause := code } := by
  unfold State.wakeThread
  rw [Thread.place_of_inSlot h]
  rfl

/-- R343: the wait of a thread in a slot that is answered by nobody. -/
theorem waitlimExpiry_eq {s : State} {tid : Nat} (hpend : (s.thread tid).pend = none) (hin : (s.thread tid).inSlot = true) :
    exec (.waitlimExpiry tid) s = .next (if s.waitExpired (s.thread tid) then
      s.takeTrap tid 0x09 (s.thread tid).waitAddr (s.thread tid).pc (s.thread tid).iw else s) := by
  rw [show exec (.waitlimExpiry tid) s = execWaitlimExpiry tid s from rfl, execWaitlimExpiry]
  simp only [hpend, Thread.place_of_inSlot hin, State.waitlim]
  cases s.waitExpired (s.thread tid) <;> simp

theorem State.nowOf_of_inSlot {s : State} {t : Thread} (h : t.inSlot = true) : s.nowOf t = s.now t.core := by
  unfold State.nowOf
  rw [Thread.place_of_inSlot h]

theorem State.waitExpired_eq {s : State} {t : Thread} {w : Why} {c : Nat} (hw : t.wait = some w) (hc : t.counted = true) (hlim : t.wlim ≠ 0)
    (hsince : t.since = some c) (hin : t.inSlot = true) (hstall : s.behindStall t = false) :
    s.waitExpired t = decide (t.wlim.toNat < s.now t.core - c) := by
  have hlim' : decide (t.wlim ≠ 0) = true := decide_eq_true hlim
  simp only [State.waitExpired, hw, hc, hlim', hsince, hstall, State.nowOf_of_inSlot hin, Option.isSome_some, Bool.not_false, Bool.true_and]

/-! ### Thermal control -/

/-- R147: rewriting the ranking table changes that table entry by entry, but for pinned ones, and the records of cores. -/
theorem State.rankRewrite_eq (s : State) (die : Nat) (temps : List Nat) : ∃ put : KMap Word → Nat → KMap Word,
    (∀ m k r, k ≠ r → KMap.getD (put m k) r 0 = KMap.getD m r 0) ∧ (∀ m r, bit (KMap.getD m r 0) 17 = true → put m r = m) ∧
      (s.rankRewrite die temps).dies =
        (s.modDie die (fun d => { d with rank := (List.range 36).foldl put d.rank, ranked := s.timeNs })).dies ∧
      (s.rankRewrite die temps).mem = s.mem ∧ (s.rankRewrite die temps).threads = s.threads := by
  unfold State.rankRewrite
  refine ⟨_, fun m k r hk => ?_, fun m r hm => ?_, (State.foldl_modCore_kept _ _ fun s k => ⟨_, rfl⟩).1,
    (State.foldl_modCore_kept _ _ fun s k => ⟨_, rfl⟩).2⟩
  · split
    · split
      · rfl
      · exact KMap.getD_set_ne _ _ _ hk
    · rfl
  · split
    · exact if_pos hm
    · rfl

/-- R147: what rewriting the ranking table leaves; a pinned entry stays. -/
theorem State.rankRewrite_spec (s : State) (die : Nat) (temps : List Nat) :
    ((s.rankRewrite die temps).die die).ranked = s.timeNs ∧ (s.rankRewrite die temps).mem = s.mem ∧
      (s.rankRewrite die temps).threads = s.threads ∧
      ∀ r, bit (KMap.getD (s.die die).rank r 0) 17 = true → KMap.getD ((s.rankRewrite die temps).die die).rank r 0 = KMap.getD (s.die die).rank r 0 := by
  obtain ⟨put, hne, hkeep, hdies, hmem, hthreads⟩ := s.rankRewrite_eq die temps
  have hdie : (s.rankRewrite die temps).die die =
      { s.die die with rank := (List.range 36).foldl put (s.die die).rank, ranked := s.timeNs } := by
    rw [State.die, hdies]
    exact s.die_modDie_same die _
  rw [hdie]
  exact ⟨rfl, hmem, hthreads, fun r hr => getD_foldl_keep _ put (fun w => bit w 17) 0 r (fun m k hk => hne m k r hk) (fun m hm => hkeep m r hm) _ hr⟩

end Sys2Proof.Machine

namespace Sys2Proof.Machine

/-- Settles O46: an image, a filled slot, a wake and a displacement each come to one of the operations above on a slot or a run queue;
the ranking table is rewritten entry by entry. -/
theorem arrivalIssueWakeAndThermalEvents : Obligations.ArrivalIssueWakeAndThermalEvents := by
  unfold Obligations.ArrivalIssueWakeAndThermalEvents
  refine ⟨⟨imageArrival_spec, restingStateReload_spec, fun s tid p hin hload hp hrest => ?_, fun s core slot tid x hbest hfree hw => ?_,
    fun s core slot tid hissue hcore hmay hready hslot h8 => barrelSelect_single hissue hcore hmay hready hslot h8⟩,
    fun s w0 w1 h => ⟨fun tid h3 hpage => ⟨fun cl hp => ?_, fun hin => ?_⟩, fun h3 hpage hl => ?_, fun h3 hno => ?_,
      fun u hu h3 htag hin h0 => ?_⟩,
    fun s tid c w hw hc hlim hsince hpend hin hstall => ⟨fun hlt => ?_, fun hle => ?_⟩, fun s die temps hd hdue => ?_,
    fun s core k hp hcore hhot hat hmark hstopping hstopped hk => ?_, fun s core k c r hcool hdis hdue => ?_,
    fun s tid hin hanc hmark hready hcool hmarks hagreed hawait hasks => ?_⟩
  · refine ⟨_, slotLoadDone_resting hin hload hp hrest, fun q hq => ?_, rfl, rfl⟩
    rw [State.core_modCore_same] at hq
    simp at hq
  · obtain ⟨hme, hothers, hload, hmem, -⟩ := State.enterSlot_spec hw core slot
    refine ⟨s.enterSlot tid core slot, ?_, hme, hothers, hload, hmem⟩
    rw [show exec (.slotFill core slot) s = execSlotFill core slot s from rfl, execSlotFill]
    simp only [hbest, hfree, if_true]
  · exact ⟨_, wake_thread h h3 hpage, State.wakeThread_parked hp _⟩
  · rw [wake_thread h h3 hpage, State.wakeThread_inSlot hin]
  · exact wake_orphaned h h3 hpage hl
  · rw [wake_unit h h3, State.wakeUnit, if_pos (by simpa using hno)]
  · rw [wake_unit h h3, State.wakeUnit, htag, hin, h0]
    simp [hu]
  · rw [waitlimExpiry_eq hpend hin, State.waitExpired_eq hw hc hlim hsince hin hstall, if_pos (by simpa using hlt)]
  · rw [waitlimExpiry_eq hpend hin, State.waitExpired_eq hw hc hlim hsince hin hstall, if_neg (by simpa using hle)]
  · obtain ⟨hranked, hmem, hthreads, hpin⟩ := s.rankRewrite_spec die temps
    refine ⟨s.rankRewrite die temps, ?_, hranked, hmem, hthreads, fun r _ hr => hpin r hr⟩
    rw [show exec (.thermalRankRewrite die temps) s = execThermalRankRewrite die temps s from rfl, execThermalRankRewrite,
      if_pos (by simp [hd, hdue])]
  · have hrun : exec (.slotDisable core) s = .next (if (s.occupant core k).isNone then
        s.modCore core (fun c => { c with disabled := k :: c.disabled, hotAt := some s.timeNs })
        else s.modCore core (fun c => { c with marked := some k, hotAt := some s.timeNs })) := by
      rw [show exec (.slotDisable core) s = execSlotDisable core s from rfl, execSlotDisable]
      simp [hp, hcore, Nat.not_le.2 hhot, hat, hmark, hstopping, hstopped, hk]
    by_cases ho : s.occupant core k = none
    · rw [hrun, if_pos (by simp [ho])]
      refine ⟨_, rfl, rfl, rfl, ?_⟩
      rw [State.core_modCore_same]
      exact ⟨rfl, fun _ => rfl, fun h => absurd ho h⟩
    · rw [hrun, if_neg (by simpa using ho)]
      refine ⟨_, rfl, rfl, rfl, ?_⟩
      rw [State.core_modCore_same]
      exact ⟨rfl, fun h => absurd h ho, fun _ => ⟨rfl, rfl⟩⟩
  · rw [show exec (.slotReenable core) s = execSlotReenable core s from rfl, execSlotReenable]
    simp only [hcool, hdis, hdue, if_true]
  · have hplace := Thread.place_of_inSlot hin
    have hleave := State.toQueue_of_mayLeave ⟨hmarks, hagreed, hawait, hasks⟩ false (s.thread tid).pc false true
    obtain ⟨mon, cyc, hq⟩ := s.thread_queued_same tid false (s.thread tid).pc false true
    refine ⟨s.queued tid false (s.thread tid).pc false true, ?_, ?_, ?_, ?_, ?_, ?_⟩
    · rw [show exec (.thermalDisplacement tid) s = execThermalDisplacement tid s from rfl, execThermalDisplacement]
      have hsome := Option.isNone_eq_false_iff.2 hready
      simp only [hin, hanc, hmark, hsome, hcool, hleave]
      rfl
    · rw [hq]; rfl
    · rw [hq]; rfl
    · rw [hq]; rfl
    · rw [hq]; rfl
    · rw [State.core_queued hplace]
      simp [Core.freeSlot, hmark]

end Sys2Proof.Machine
end

section
/-! The end of a copy command (R268, R269, R289): what its status, its signal and the test of the next command's clause leave. -/

namespace Sys2Proof.Machine

/-! ### Queues -/

theorem State.queue_modQueue_same (s : State) (core q : Nat) (f : CopyQueue → CopyQueue) :
    (s.modQueue core q f).queue core q = f (s.queue core q) := by
  rw [State.queue, State.modQueue, State.core_modCore_same, Core.queue, KMap.getD_set_same]
  rfl

theorem State.queue_modCmd_same {s : State} {core q : Nat} {c : CopyCmd} {r : List CopyCmd} (h : (s.queue core q).cmds = c :: r)
    (f : CopyCmd → CopyCmd) : (s.modCmd core q f).queue core q = { s.queue core q with cmds := f c :: r } := by
  rw [State.modCmd, State.queue_modQueue_same, CopyQueue.modHead, h]

theorem State.cmds_modCmd_same {s : State} {core q : Nat} {c : CopyCmd} {r : List CopyCmd} (h : (s.queue core q).cmds = c :: r)
    (f : CopyCmd → CopyCmd) : ((s.modCmd core q f).queue core q).cmds = f c :: r := by
  rw [State.queue_modCmd_same h]

theorem State.modCore_modCore (s : State) (k : Nat) (f h : Core → Core) : (s.modCore k f).modCore k h = s.modCore k (fun c => h (f c)) := by
  rw [State.modCore, State.core_modCore_same]
  simp only [State.modCore, State.setCore, KMap.set_set]

theorem State.modQueue_modQueue (s : State) (core q : Nat) (f h : CopyQueue → CopyQueue) :
    (s.modQueue core q f).modQueue core q h = s.modQueue core q (fun x => h (f x)) := by
  rw [State.modQueue, State.modQueue, State.modCore_modCore]
  refine congrArg (s.modCore core) (funext fun c => ?_)
  simp only [Core.queue, KMap.getD_set_same, KMap.set_set]

theorem State.modQueue_congr {s : State} {core q : Nat} {f h : CopyQueue → CopyQueue} (e : f (s.queue core q) = h (s.queue core q)) :
    s.modQueue core q f = s.modQueue core q h := by
  rw [State.modQueue, State.modQueue, State.modCore, State.modCore]
  refine congrArg (s.setCore core) ?_
  rw [show (s.core core).queue q = s.queue core q from rfl, e]

/-- Changes of the head command that come to the same leave the same. -/
theorem State.modCmd_congr {s : State} {core q : Nat} {c : CopyCmd} {r : List CopyCmd} (hq : (s.queue core q).cmds = c :: r)
    {f h : CopyCmd → CopyCmd} (e : f c = h c) : s.modCmd core q f = s.modCmd core q h := by
  refine State.modQueue_congr ?_
  simp only [CopyQueue.modHead, hq, e]

theorem State.modCmd_modCmd (s : State) (core q : Nat) (f h : CopyCmd → CopyCmd) :
    (s.modCmd core q f).modCmd core q h = s.modCmd core q (fun c => h (f c)) := by
  rw [State.modCmd, State.modCmd, State.modQueue_modQueue]
  refine State.modQueue_congr ?_
  unfold CopyQueue.modHead
  cases (s.queue core q).cmds <;> rfl

/-! ### Maps whose keys stay -/

theorem KMap.find_map_key {α : Type} (m : KMap α) (f : Nat × α → Nat × α) (hf : ∀ p, (f p).1 = p.1) (k : Nat) :
    KMap.find (m.map f) k = (KMap.find m k).map (fun a => (f (k, a)).2) := by
  induction m with
  | nil => rfl
  | cons p r ih =>
    obtain ⟨i, b⟩ := p
    have hi : f (i, b) = (i, (f (i, b)).2) := Prod.ext (hf _) rfl
    rw [List.map_cons, hi]
    by_cases h : i = k
    · subst h; simp [KMap.find]
    · simp [KMap.find, h, ih]

theorem KMap.getD_map_key {α β : Type} (m : KMap α) (f : Nat × α → Nat × α) (hf : ∀ p, (f p).1 = p.1) (k : Nat) (d : α) (g : α → β)
    (hg : ∀ a, g (f (k, a)).2 = g a) : g (KMap.getD (m.map f) k d) = g (KMap.getD m k d) := by
  rw [KMap.getD, KMap.find_map_key m f hf, KMap.getD]
  cases KMap.find m k with
  | none => rfl
  | some a => exact hg a

/-! ### What a signal leaves -/

/-- A queue but for which of its commands' clauses have been met. -/
def CopyQueue.unmet (x : CopyQueue) : CopyQueue := { x with cmds := x.cmds.map (fun c => { c with met := false }) }

/-- What the end of a command leaves: memory, the scarab's items, and threads outside `W` but for how long they have waited and for
a clause that has been met; a semaphore has no new waiters. -/
structure State.Calm (W : Nat → Prop) (s t : State) : Prop where
  cur : t.cur = s.cur
  mem : t.mem = s.mem
  threads : ∀ k, ¬ W k → { t.thread k with wait := (s.thread k).wait, since := (s.thread k).since } = s.thread k
  items : ∀ k, (t.core k).item = (s.core k).item
  waiters : ∀ cl n, ∀ w ∈ (t.sema cl n).waiters, w ∈ (s.sema cl n).waiters

/-- The same of what changes no queue but for clauses that have been met. -/
structure State.Signalled (W : Nat → Prop) (s t : State) : Prop extends s.Calm W t where
  queues : ∀ k q, (t.queue k q).unmet = (s.queue k q).unmet

theorem State.Calm.refl (W : Nat → Prop) (s : State) : s.Calm W s := ⟨rfl, rfl, fun _ _ => rfl, fun _ => rfl, fun _ _ _ h => h⟩

theorem State.Calm.trans {W : Nat → Prop} {s t u : State} (h : s.Calm W t) (k : t.Calm W u) : s.Calm W u where
  cur := k.cur.trans h.cur
  mem := k.mem.trans h.mem
  threads j hj := by
    have e := h.threads j hj
    rwa [← k.threads j hj] at e
  items j := (k.items j).trans (h.items j)
  waiters cl n w hw := h.waiters cl n w (k.waiters cl n w hw)

theorem State.Calm.mono {W V : Nat → Prop} {s t : State} (h : s.Calm W t) (hv : ∀ k, W k → V k) : s.Calm V t :=
  ⟨h.cur, h.mem, fun k hk => h.threads k (mt (hv k) hk), h.items, h.waiters⟩

theorem State.Signalled.refl (W : Nat → Prop) (s : State) : s.Signalled W s := ⟨.refl W s, fun _ _ => rfl⟩

theorem State.Signalled.trans {W : Nat → Prop} {s t u : State} (h : s.Signalled W t) (k : t.Signalled W u) : s.Signalled W u :=
  ⟨h.toCalm.trans k.toCalm, fun j q => (k.queues j q).trans (h.queues j q)⟩

theorem State.Signalled.mono {W V : Nat → Prop} {s t : State} (h : s.Signalled W t) (hv : ∀ k, W k → V k) : s.Signalled V t :=
  ⟨h.toCalm.mono hv, h.queues⟩

theorem State.signalled_modThread (s : State) (tid : Nat) (f : Thread → Thread) : s.Signalled (· = tid) (s.modThread tid f) where
  cur := rfl
  mem := rfl
  threads k hk := by rw [State.thread_modThread_ne _ _ (Ne.symm hk)]
  items _ := rfl
  waiters _ _ _ h := h
  queues _ _ := rfl

theorem State.Kin.signalled {s t : State} {tid : Nat} (h : s.Kin t tid) : s.Signalled (· = tid) t where
  cur := (congrArg State.cur h.other : _)
  mem := (congrArg State.mem h.other : _)
  threads k hk := by rw [h.threads k hk]
  items k := (congrArg Core.item (h.cores k) : _)
  waiters cl n w hw := by
    have e : t.clusters = s.clusters := (congrArg State.clusters h.other : _)
    rwa [State.sema, State.cluster, e] at hw
  queues k q := congrArg CopyQueue.unmet ((congrArg (fun c => Core.queue c q) (h.cores k) : _))

/-- A change of a cluster's record that keeps its semaphores. -/
theorem State.signalled_modCluster (W : Nat → Prop) (s : State) (cl : Nat) (f : Cluster → Cluster) (hf : ∀ c, (f c).sems = c.sems) :
    s.Signalled W (s.modCluster cl f) where
  cur := rfl
  mem := rfl
  threads _ _ := rfl
  items _ := rfl
  waiters j n w hw := by
    by_cases hj : cl = j
    · subst hj
      rwa [State.sema, State.cluster_modCluster_same, hf] at hw
    · rwa [State.sema, State.cluster_modCluster_ne _ _ hj] at hw
  queues _ _ := rfl

/-- A change of a core's record that keeps its item and its queues. -/
theorem State.signalled_modCore (W : Nat → Prop) (s : State) (core : Nat) (f : Core → Core)
    (hf : ∀ c, (f c).item = c.item ∧ (f c).queues = c.queues) : s.Signalled W (s.modCore core f) := by
  have hcore : ∀ k, ((s.modCore core f).core k).item = (s.core k).item ∧ ((s.modCore core f).core k).queues = (s.core k).queues := by
    intro k
    by_cases hk : core = k
    · subst hk
      rw [State.core_modCore_same]
      exact hf _
    · rw [State.core_modCore_ne _ _ hk]
      exact ⟨rfl, rfl⟩
  refine ⟨⟨rfl, rfl, fun _ _ => rfl, fun k => (hcore k).1, fun _ _ _ h => h⟩, fun k q => ?_⟩
  rw [State.queue, Core.queue, (hcore k).2]
  rfl

theorem State.signalled_nextId (W : Nat → Prop) (s : State) (n : Nat) : s.Signalled W { s with nextId := n } :=
  ⟨⟨rfl, rfl, fun _ _ => rfl, fun _ => rfl, fun _ _ _ h => h⟩, fun _ _ => rfl⟩

theorem State.signalled_dropCand (W : Nat → Prop) (s : State) (cl la : Nat) : s.Signalled W (s.dropCand cl la) := by
  unfold State.dropCand
  refine .trans ?_ (State.signalled_nextId W _ _)
  exact s.signalled_modCluster W cl _ fun _ => rfl

theorem State.signalled_acquire (W : Nat → Prop) (s : State) (core : Nat) (sc : Word) : s.Signalled W (s.acquire core sc) := by
  unfold State.acquire
  refine .trans ?_ (State.signalled_nextId W _ _)
  refine .trans ?_ (State.signalled_modCore W _ core _ fun _ => ⟨rfl, rfl⟩)
  exact s.signalled_modCluster W _ _ fun _ => rfl

theorem State.signalled_write (s : State) (tid : Nat) (r : Reg) (x : Word) : s.Signalled (· = tid) (s.write tid r x) := by
  cases r with
  | g n | m n =>
    exact ((s.signalled_modThread tid _).trans (State.kin_logWrite _ tid _ _).signalled).trans (State.kin_feed _ tid _ _).signalled
  | pw => exact s.signalled_modThread tid (fun t => t.put .pw x)
  | z | ip | v _ | sm _ => exact .refl _ s

/-- The completion of a waiting instruction by its answer (R438) concerns only its thread. -/
theorem State.signalled_complete (s : State) (tid : Nat) (p : Pend) (v : Word) : s.Signalled (· = tid) (s.complete tid p v) := by
  have hseen (u : State) (cl : Nat) : u.Signalled (· = tid) (match p.line with | some la => u.dropCand cl la | none => u) := by
    cases p.line
    · exact .refl _ u
    · exact u.signalled_dropCand _ _ _
  have hacq (u : State) (k : Nat) : u.Signalled (· = tid) (match p.acquire with | some sc => u.acquire k sc | none => u) := by
    cases p.acquire
    · exact .refl _ u
    · exact u.signalled_acquire _ _ _
  unfold State.complete
  dsimp only
  split
  · exact s.signalled_modThread tid _
  · split
    · exact (hseen s _).trans (State.signalled_modThread _ tid _)
    · refine .trans ?_ (State.kin_agreeAfter _ tid true).signalled
      refine .trans ?_ (State.signalled_modThread _ tid _)
      refine .trans (.trans (.trans (s.signalled_modThread tid (fun t => t.takeAll p.takes)) ?_) (hacq _ _)) (hseen _ _)
      split
      · exact State.signalled_write _ tid _ _
      · exact State.signalled_modThread _ tid _
      · exact State.signalled_modThread _ tid _
      all_goals exact .refl _ _

end Sys2Proof.Machine
end

section
/-! Signals of copy commands (R21, R268, R356). -/

namespace Sys2Proof.Machine

/-- A semaphore's record set, with no new waiters. -/
theorem State.signalled_setSema (W : Nat → Prop) (s : State) (cl n : Nat) (x : Sema) (hx : ∀ w ∈ x.waiters, w ∈ (s.sema cl n).waiters) :
    s.Signalled W (s.setSema cl n x) where
  cur := rfl
  mem := rfl
  threads _ _ := rfl
  items _ := rfl
  waiters j m w hw := by
    by_cases hj : cl = j
    · subst hj
      rw [State.sema, State.setSema, State.cluster_modCluster_same] at hw
      by_cases hm : n = m
      · subst hm
        rw [KMap.getD_set_same] at hw
        exact hx w hw
      · rwa [KMap.getD_set_ne _ _ _ hm] at hw
    · rwa [State.sema, State.setSema, State.cluster_modCluster_ne _ _ hj] at hw
  queues _ _ := rfl

theorem State.sema_setSema_same (s : State) (cl n : Nat) (x : Sema) : (s.setSema cl n x).sema cl n = x := by
  rw [State.sema, State.setSema, State.cluster_modCluster_same, KMap.getD_set_same]

/-- A thread with another wait. -/
def Thread.waited (w : Option Why) (since : Option Nat) (t : Thread) : Thread := { t with wait := w, since := since }

theorem Thread.waited_self (t : Thread) : t.waited t.wait t.since = t := rfl

/-- R356: the clauses of a semaphore are tested at each change of its count. -/
theorem State.signalled_testClauses (W : Nat → Prop) (s : State) (cl n count : Nat) : s.Signalled W (s.testClauses cl n count) where
  cur := rfl
  mem := rfl
  threads k _ := by
    rw [← (s.thread k).waited_self]
    unfold State.testClauses
    refine KMap.getD_map_key s.threads _ ?_ k _ (Thread.waited (s.thread k).wait (s.thread k).since) ?_
    · intro p
      dsimp only
      repeat' split
      all_goals rfl
    · intro a
      dsimp only
      repeat' split
      all_goals rfl
  items k := by
    unfold State.testClauses
    refine KMap.getD_map_key s.cores _ (fun p => ?_) k _ Core.item fun a => ?_
    · split <;> rfl
    · dsimp only
      split <;> rfl
  waiters _ _ _ h := h
  queues k q := by
    unfold State.testClauses
    refine KMap.getD_map_key s.cores _ (fun p => ?_) k _ (fun c : Core => (c.queue q).unmet) fun a => ?_
    · split <;> rfl
    · dsimp only
      split
      · rfl
      · refine KMap.getD_map_key a.queues _ ?_ q _ CopyQueue.unmet ?_
        · exact fun p => rfl
        · intro x
          obtain ⟨cmds, _, _, _, _, _, _, _, _, _, _, _⟩ := x
          cases cmds with
          | nil => rfl
          | cons c r => simp only [CopyQueue.unmet, List.map_cons, apply_ite (fun c : CopyCmd => { c with met := false }), ite_self]

/-- R356: the waiters of a semaphore are served; threads that do not wait for it are as they were. -/
theorem State.signalled_serveSema (s : State) (cl n fuel : Nat) :
    s.Signalled (fun k => ∃ v, (k, v) ∈ (s.sema cl n).waiters) (s.serveSema cl n fuel) := by
  induction fuel generalizing s with
  | zero => exact .refl _ s
  | succ fuel ih =>
    unfold State.serveSema
    dsimp only
    split
    · exact .refl _ s
    · next tid v r hw =>
      have hmem : ∀ w ∈ r, w ∈ (s.sema cl n).waiters := fun w hr => hw ▸ List.mem_cons_of_mem _ hr
      have hsub {u : State} (hu : s.Signalled (fun k => ∃ v, (k, v) ∈ (s.sema cl n).waiters) u) :
          s.Signalled (fun k => ∃ v, (k, v) ∈ (s.sema cl n).waiters) (u.serveSema cl n fuel) :=
        hu.trans ((ih u).mono fun k ⟨v, hv⟩ => ⟨v, hu.waiters cl n _ hv⟩)
      split
      · split
        · exact hsub (s.signalled_setSema _ cl n _ hmem)
        · have hset := (s.signalled_setSema (fun k => ∃ v, (k, v) ∈ (s.sema cl n).waiters) cl n
            { s.sema cl n with count := (s.sema cl n).count - BitVec.ofNat 16 v, waiters := r } hmem).trans
            (State.signalled_testClauses _ _ cl n ((s.sema cl n).count.toNat - v))
          refine hsub ?_
          split
          · refine hset.trans ((State.signalled_complete _ tid _ 0).mono ?_)
            rintro k rfl
            exact ⟨v, hw ▸ List.mem_cons_self⟩
          · exact hset
      · exact .refl _ s

/-- R356: a change of a semaphore's count. -/
theorem State.signalled_semaChange (s : State) (cl n : Nat) (count : BitVec 16) (ovf : Bool) :
    s.Signalled (fun k => ∃ v, (k, v) ∈ (s.sema cl n).waiters) (s.semaChange cl n count ovf) := by
  have hset := (s.signalled_setSema (fun k => ∃ v, (k, v) ∈ (s.sema cl n).waiters) cl n
    { s.sema cl n with count := count, ovf := ovf } fun w hw => hw).trans (State.signalled_testClauses _ _ cl n count.toNat)
  exact hset.trans ((State.signalled_serveSema _ cl n _).mono fun k ⟨v, hv⟩ => ⟨v, hset.waiters cl n _ hv⟩)

/-- The threads that the signal of a command at a cluster may serve. -/
def State.signalServes (s : State) (cl : Nat) (c : Clauses) (k : Nat) : Prop := c.si ≠ 0 ∧ ∃ v, (k, v) ∈ (s.sema cl c.ss.toNat).waiters

/-- R21: the signal clause of a completed command. -/
theorem State.signalled_signal (s : State) (cl : Nat) (c : Clauses) : s.Signalled (s.signalServes cl c) (s.signal cl c) := by
  unfold State.signal
  split
  · exact .refl _ s
  · next h => exact (s.signalled_semaChange cl c.ss.toNat _ _).mono fun k hk => ⟨h, hk⟩

theorem State.signalled_gangs (W : Nat → Prop) (s : State) (l : List Gang) : s.Signalled W { s with gangs := l } :=
  ⟨⟨rfl, rfl, fun _ _ => rfl, fun _ => rfl, fun _ _ _ h => h⟩, fun _ _ => rfl⟩

/-- R426: the signal of a command of a context that a gang switch has saved goes to what it has saved. -/
theorem State.signalled_copySignal (s : State) (core : Nat) (c : CopyCmd) :
    s.Signalled (s.signalServes (clusterOf core) c.clauses) (s.copySignal core c) := by
  unfold State.copySignal
  dsimp only
  split
  · exact s.signalled_signal _ _
  · split
    · exact .refl _ s
    · exact s.signalled_gangs _ _

/-! ### The end of the head command -/

theorem CopyQueue.unmet_modHead (x : CopyQueue) : (x.modHead fun c => { c with met := true }).unmet = x.unmet := by
  obtain ⟨cmds, _, _, _, _, _, _, _, _, _, _, _⟩ := x
  cases cmds <;> rfl

/-- A change of a queue of a core. -/
theorem State.calm_modQueue (W : Nat → Prop) (s : State) (core q : Nat) (f : CopyQueue → CopyQueue) : s.Calm W (s.modQueue core q f) where
  cur := rfl
  mem := rfl
  threads _ _ := rfl
  items k := by
    rw [State.modQueue]
    by_cases hk : core = k
    · subst hk; rw [State.core_modCore_same]
    · rw [State.core_modCore_ne _ _ hk]
  waiters _ _ _ h := h

/-- R268: the wait clause of a command is tested when it reaches the head of its queue. -/
theorem State.headTest_spec (W : Nat → Prop) (s : State) (core q : Nat) :
    s.Calm W (s.headTest core q) ∧ ((s.headTest core q).queue core q).unmet = (s.queue core q).unmet := by
  unfold State.headTest
  split
  · split
    · refine ⟨s.calm_modQueue W core q _, ?_⟩
      rw [State.modCmd, State.queue_modQueue_same, CopyQueue.unmet_modHead]
    · exact ⟨.refl W s, rfl⟩
  · exact ⟨.refl W s, rfl⟩

/-- R280: the stall of a queue's head ends. -/
theorem State.unstall_spec (W : Nat → Prop) (s : State) (core q : Nat) :
    s.Calm W (s.unstall core q) ∧ (s.unstall core q).queue core q = { s.queue core q with stall := none } := by
  unfold State.unstall
  dsimp only
  split
  · next h =>
    refine ⟨.refl W s, ?_⟩
    have hn : (s.queue core q).stall = none := by simpa using h
    rw [← hn]
  · refine ⟨⟨rfl, rfl, fun k _ => ?_, (s.calm_modQueue W core q (fun x => { x with stall := none })).items, fun _ _ _ h => h⟩,
      s.queue_modQueue_same core q (fun x => { x with stall := none })⟩
    rw [← (s.thread k).waited_self]
    refine KMap.getD_map_key s.threads _ ?_ k _ (Thread.waited (s.thread k).wait (s.thread k).since) ?_
    · intro p
      split <;> rfl
    · intro a
      dsimp only
      split <;> rfl

/-- A queue whose head command `c`, with `r` behind it, has left it with a code (R269). -/
def CopyQueue.popped (x : CopyQueue) (c : CopyCmd) (r : List CopyCmd) (code : BitVec 8) : CopyQueue :=
  { x with
    cmds := r, told := [], code := code, nx := c.fl.nx, uf := c.fl.uf, of := c.fl.ofl, nv := c.fl.nv, clmp := c.fl.clmp
    bytes := (c.bits + 7) / 8, stall := none }

/-- R268, R269: the head command leaves its queue. -/
theorem State.copyDone_spec {s : State} {core q : Nat} {c : CopyCmd} {r : List CopyCmd} (h : (s.queue core q).cmds = c :: r)
    (code : BitVec 8) :
    s.Calm (s.signalServes (clusterOf core) c.clauses) (s.copyDone core q code) ∧
      ((s.copyDone core q code).queue core q).unmet = ((s.queue core q).popped c r code).unmet := by
  obtain ⟨hstall, hqueue⟩ := s.unstall_spec (s.signalServes (clusterOf core) c.clauses) core q
  unfold State.copyDone
  rw [h]
  dsimp only
  have hpop := (s.unstall core q).calm_modQueue (s.signalServes (clusterOf core) c.clauses) core q (fun x => { x with
      cmds := r, told := [], code := code, nx := c.fl.nx, uf := c.fl.uf, of := c.fl.ofl, nv := c.fl.nv, clmp := c.fl.clmp
      bytes := (c.bits + 7) / 8 })
  have hcalm := hstall.trans hpop
  have hsig := ((s.unstall core q).modQueue core q (fun x => { x with
      cmds := r, told := [], code := code, nx := c.fl.nx, uf := c.fl.uf, of := c.fl.ofl, nv := c.fl.nv, clmp := c.fl.clmp
      bytes := (c.bits + 7) / 8 })).signalled_copySignal core c
  obtain ⟨hhead, hhq⟩ := State.headTest_spec (s.signalServes (clusterOf core) c.clauses) (((s.unstall core q).modQueue core q (fun x => { x with
      cmds := r, told := [], code := code, nx := c.fl.nx, uf := c.fl.uf, of := c.fl.ofl, nv := c.fl.nv, clmp := c.fl.clmp
      bytes := (c.bits + 7) / 8 })).copySignal core c) core q
  refine ⟨(hcalm.trans (hsig.toCalm.mono ?_)).trans hhead, ?_⟩
  · rintro k ⟨hsi, v, hv⟩
    exact ⟨hsi, v, hcalm.waiters _ _ _ hv⟩
  · rw [hhq, hsig.queues, State.queue_modQueue_same, hqueue]
    rfl

/-! ### The cancellation of a queue -/

/-- R289: every command of a queue completes CANCELLED; a thread that waits for none of their signals is as it was. -/
theorem State.cancelAll_spec {s : State} {core q n : Nat} (hn : (s.queue core q).cmds.length = n) (W : Nat → Prop)
    (hW : ∀ c ∈ (s.queue core q).cmds, ∀ k, s.signalServes (clusterOf core) c.clauses k → W k) :
    s.Calm W (s.cancelAll core q n) ∧ ((s.cancelAll core q n).queue core q).cmds = [] ∧
      (n ≠ 0 → ((s.cancelAll core q n).queue core q).code = 0x21) := by
  induction n generalizing s with
  | zero => exact ⟨.refl W s, List.eq_nil_of_length_eq_zero hn, fun h => absurd rfl h⟩
  | succ n ih =>
    obtain ⟨c, r, hq⟩ := List.exists_cons_of_length_eq_add_one hn
    obtain ⟨hcalm, hqueue⟩ := State.copyDone_spec hq 0x21
    have hcmds : ((s.copyDone core q 0x21).queue core q).cmds.map (fun c => { c with met := false }) =
        r.map (fun c => { c with met := false }) := congrArg CopyQueue.cmds hqueue
    have hlen : ((s.copyDone core q 0x21).queue core q).cmds.length = n := by
      have h := congrArg List.length hcmds
      rw [hq] at hn
      simpa using h.trans (by simpa using hn)
    have hcalmW := hcalm.mono (hW c (hq ▸ List.mem_cons_self))
    have hW' : ∀ d ∈ ((s.copyDone core q 0x21).queue core q).cmds, ∀ k,
        (s.copyDone core q 0x21).signalServes (clusterOf core) d.clauses k → W k := by
      rintro d hd k ⟨hsi, v, hv⟩
      have hd' : { d with met := false } ∈ r.map (fun c : CopyCmd => { c with met := false }) := by
        rw [← hcmds]
        exact List.mem_map_of_mem hd
      obtain ⟨e, he, hed⟩ := List.mem_map.1 hd'
      have hcl : e.clauses = d.clauses := (congrArg CopyCmd.clauses hed : _)
      exact hW e (hq ▸ List.mem_cons_of_mem _ he) k (hcl ▸ ⟨hsi, v, hcalmW.waiters _ _ _ hv⟩)
    obtain ⟨hrest, hnil, hcode⟩ := ih hlen hW'
    refine ⟨hcalmW.trans hrest, hnil, fun _ => ?_⟩
    by_cases h0 : n = 0
    · subst h0
      exact (congrArg CopyQueue.code hqueue : _)
    · exact hcode h0

end Sys2Proof.Machine
end

section
/-! CPY, CPYX, STOR, CPQ, CPCAN and SCOUT (R73 to R76, R267 to R272, R282, R283, R286, R289): what each instruction leaves (O32). -/

namespace Sys2Proof.Machine

theorem exec_cpy (g : Guard) (q : BitVec 3) (dec : Bool) (cd : CodecSel) (a b : Src) (cl : Clauses) (s : State) :
    exec (.cpy g q dec cd a b cl) s = execCpy g q dec cd a b cl s := rfl
theorem exec_cpyx (g : Guard) (a b : Src) (cl : Clauses) (s : State) : exec (.cpyx g a b cl) s = execCpyx g a b cl s := rfl
theorem exec_stor (g : Guard) (wr : Bool) (q : BitVec 3) (a b : Src) (cl : Clauses) (s : State) :
    exec (.stor g wr q a b cl) s = execStor g wr q a b cl s := rfl
theorem exec_cpq (g : Guard) (d : Reg) (q : BitVec 4) (s : State) : exec (.cpq g d q) s = execCpq g d q s := rfl
theorem exec_cpcan (g : Guard) (d : Reg) (q : BitVec 4) (s : State) : exec (.cpcan g d q) s = execCpcan g d q s := rfl
theorem exec_scout (g : Guard) (a : Src) (q : BitVec 3) (s : State) : exec (.scout g a q) s = execScout g a q s := rfl

/-! ### Acceptance (R267, R268) -/

/-- The command that an instruction of a thread makes, but for whether its clause is met. -/
def CopyCmd.IsOf (c : CopyCmd) (t : Thread) (cur : Nat) (op : CopyOp) (cl : Clauses) : Prop :=
  c.op = op ∧ c.clauses = cl ∧ c.domid = t.domid ∧ c.cin = t.cin ∧ c.tag = t.tag ∧ c.sup = t.sup ∧ c.tid = cur ∧ c.started = false ∧
    c.finished = none ∧ c.moved = 0 ∧ c.bits = 0

/-- A test of the head's clause changes no queue but for that. -/
theorem State.headTest_eq (s : State) (core q : Nat) :
    s.headTest core q = s ∨ s.headTest core q = s.modCmd core q (fun c => { c with met := true }) := by
  unfold State.headTest
  split
  · split
    · exact .inr rfl
    · exact .inl rfl
  · exact .inl rfl

/-- R268: an accepted command stands last in its queue. -/
theorem State.accept_spec (s : State) (t : Thread) (q : Nat) (op : CopyOp) (cl : Clauses) :
    (s.accept t q op cl).cur = s.cur ∧ (s.accept t q op cl).me = s.me ∧ (s.accept t q op cl).mem = s.mem ∧
      ∃ c, ((s.accept t q op cl).queue t.core q).cmds = (s.queue t.core q).cmds ++ [c] ∧ c.IsOf t s.cur op cl := by
  unfold State.accept
  dsimp only
  generalize hc : ({ op := op, clauses := cl, domid := t.domid, cin := t.cin, tag := t.tag, sup := t.sup, tid := s.cur, launch := t.launch
                     met := false, started := false, finished := none, moved := 0, pos := 0, bits := 0, fl := {}, out := [], stop := 0 } :
    CopyCmd) = c
  have his : c.IsOf t s.cur op cl := by
    subst hc
    exact ⟨rfl, rfl, rfl, rfl, rfl, rfl, rfl, rfl, rfl, rfl, rfl⟩
  have happ : ((s.modQueue t.core q (fun x => { x with cmds := x.cmds ++ [c] })).queue t.core q).cmds = (s.queue t.core q).cmds ++ [c] := by
    rw [State.queue_modQueue_same]
  split
  · next hempty =>
    rcases State.headTest_eq (s.modQueue t.core q (fun x => { x with cmds := x.cmds ++ [c] })) t.core q with h | h
    · rw [h]
      exact ⟨rfl, rfl, rfl, c, happ, his⟩
    · rw [h]
      rw [List.isEmpty_iff.1 hempty] at happ ⊢
      refine ⟨rfl, rfl, rfl, { c with met := true }, ?_, his⟩
      rw [State.cmds_modCmd_same happ]
      rfl
  · exact ⟨rfl, rfl, rfl, c, happ, his⟩

theorem State.After.queue {s t : State} {o : Out} (h : s.After t o) (core q : Nat) : t.queue core q = s.queue core q :=
  (congrArg (fun c => Core.queue c q) (h.cores core) : _)

theorem State.After.item {s t : State} {o : Out} (h : s.After t o) (core : Nat) : (t.core core).item = (s.core core).item :=
  (congrArg Core.item (h.cores core) : _)

theorem State.Cached.queue {s u : State} (h : s.Cached u) (core q : Nat) : u.queue core q = s.queue core q :=
  (congrArg (fun c => Core.queue c q) (h.cores core) : _)

theorem State.Cached.mem {s u : State} (h : s.Cached u) : u.mem = s.mem := (congrArg State.mem h.other : _)

/-- A copy instruction whose command is accepted. -/
theorem accepts_of {i : Instr} {s s1 : State} {g : Guard} {srcs : List Src} {f : State → Thread → Res} {q : Nat} {op : CopyOp} {cl : Clauses}
    (he : exec i s = run s g (cpyNeed srcs [] false) f) (hr : s.runs g (cpyNeed srcs [] false) = true) (hc : s.Cached s1)
    (hf : f s s.me = .ok (s1.accept s.me q op cl)) : Accepts i s s1 srcs q op cl := by
  obtain ⟨hcur, hme⟩ := hc.cur_me
  obtain ⟨hacur, hame, hamem, c, hcmds, his⟩ := s1.accept_spec s.me q op cl
  obtain ⟨t, ht, hafter⟩ := completes_as he hr hf (hacur.trans hcur)
  refine ⟨t, c, ht, ?_, ?_, ?_⟩
  · exact hafter.goes hacur hame (fun a => by rw [State.byte, hamem, State.byte]) (by rw [hme])
  · rw [hafter.queue, hcmds, hc.queue]
  · rw [← hcur]; exact his

/-- R75, R267, R283: what a copy instruction comes to once its operands are aligned. -/
theorem copyIssues_of {i : Instr} {s : State} {g : Guard} {srcs : List Src} {f : State → Thread → Res} {q : Nat} {op0 : CopyOp} {cl : Clauses}
    {acb : Word} (he : exec i s = run s g (cpyNeed srcs [] false) f) (hr : s.runs g (cpyNeed srcs [] false) = true)
    (hf : f s s.me = s.copyIssue s.me q cl acb op0) : CopyIssues i s srcs q cl acb op0 := by
  refine ⟨fun hfull => exec_of_wait he hr (hf.trans (if_pos hfull)), fun hroom hgated hstored s1 hc => ?_⟩
  have hstores (r : Res) : s.me.afterStores r = r := by simp [Thread.afterStores, hgated, hstored]
  have hissue := hf.trans ((if_neg (Nat.not_le.2 hroom)).trans (hstores _))
  refine ⟨fun op hop hna => ?_, fun a b n x hop => ⟨fun hfit => ?_, fun hbig => ?_⟩, fun va hop => ?_⟩
  · refine accepts_of he hr hc (hissue.trans ?_)
    rw [hop]
    cases op with
    | arena a b n x => exact absurd rfl (hna a b n x)
    | plain | enc | dec | stor | refused | unread | unreadStor => rfl
  · refine accepts_of he hr hc (hissue.trans ?_)
    rw [hop]
    exact if_neg (Nat.not_lt.2 hfit)
  · refine traps_of he hr (hissue.trans ?_)
    rw [hop]
    exact if_pos hbig
  · refine accepts_of he hr hc (hissue.trans ?_)
    rw [hop]

/-! ### Registers after a written one -/

/-- An instruction that leaves `u` and then writes `x` to a scalar register completes as `u`. -/
theorem completes_write_as {i : Instr} {s u : State} {g : Guard} {n : Need} {f : State → Thread → Res} {d : Reg} {x : Word}
    (he : exec i s = run s g n f) (hr : s.runs g n = true) (hf : f s s.me = .ok (u.write s.cur d x)) (hc : u.cur = s.cur)
    (hd : Reg.scalarDest d = true) (hn : d ∈ n.dests ++ n.fills) :
    CompletesAs i s u { Out.none u with reg := d, val := x, takes := takesOf n.srcs (n.dests ++ n.fills), pc := s.me.pc + 8 } := by
  have hw : u.Wrote (u.write s.cur d x) { Out.none u with reg := d, val := x } := hc ▸ (State.Wrote.refl u).write rfl d hd x
  have ha := hw.retire (takesOf n.srcs (n.dests ++ n.fills)) n.outside (s.me.pc + 8) 0 false (notMem_takesOf (.inl hn)) (by simp [Reg.tagged])
  rw [hc] at ha
  exact ⟨_, by rw [he, run_eq f hr, hf]; rfl, ha⟩

theorem Thread.After.reg_written {a b : Thread} {o : Out} (h : Thread.After a b o) (hd : o.reg.isG = true) : b.reg o.reg = o.val := by
  obtain ⟨n, hn⟩ : ∃ n, o.reg = .g n := by cases hr : o.reg <;> simp_all [Reg.isG]
  have hg := h.g n n.isLt
  rw [if_pos hn] at hg
  rw [hn]
  exact hg

theorem Thread.After.reg_other {a b : Thread} {o : Out} (h : Thread.After a b o) (hd : o.reg.isG = true ∨ o.reg = .z) (hpw : o.pw = a.pw)
    {r : Reg} (hr : r ≠ .ip) (hne : r ≠ o.reg) : b.reg r = a.reg r := by
  rcases hd with hd | hd
  · obtain ⟨k, hk⟩ : ∃ n, o.reg = .g n := by cases hr : o.reg <;> simp_all [Reg.isG]
    rw [hk] at hne
    cases r with
    | g n =>
      have hg := h.g n n.isLt
      rw [hk, if_neg (fun e => hne e.symm)] at hg
      exact hg
    | m n => have hm := h.m n n.isLt; rw [hk, if_neg (by simp)] at hm; simp [Thread.reg, hm]
    | pw => have hp := h.pw; rw [hk, if_neg (by simp), hpw] at hp; simp [Thread.reg, hp]
    | ip => exact absurd rfl hr
    | z | v | sm => rfl
  · exact h.reg_of_unwritten hd hpw hr

end Sys2Proof.Machine
end

section
/-! The scout, and the events of a copy queue (R74, R268, R269, R272, R273, R279, R286 to R288, R292, R470), with O32. -/

namespace Sys2Proof.Machine

/-! ### The scout (R279) -/

/-- What the scout leaves: threads, memory and every queue but for the pages that it has reported. -/
structure State.Scouted (s t : State) : Prop where
  cur : t.cur = s.cur
  threads : t.threads = s.threads
  mem : t.mem = s.mem
  queues : ∀ k q, { t.queue k q with told := (s.queue k q).told } = s.queue k q

theorem State.Scouted.refl (s : State) : s.Scouted s := ⟨rfl, rfl, rfl, fun _ _ => rfl⟩

theorem State.Scouted.trans {s t u : State} (h : s.Scouted t) (k : t.Scouted u) : s.Scouted u where
  cur := k.cur.trans h.cur
  threads := k.threads.trans h.threads
  mem := k.mem.trans h.mem
  queues j q := by
    have e := h.queues j q
    rwa [← k.queues j q] at e

theorem State.queue_modQueue_ne (s : State) {core q k j : Nat} (f : CopyQueue → CopyQueue) (h : core ≠ k ∨ q ≠ j) :
    (s.modQueue core q f).queue k j = s.queue k j := by
  rw [State.modQueue]
  by_cases hk : core = k
  · subst hk
    rw [State.queue, State.core_modCore_same, Core.queue, KMap.getD_set_ne _ _ _ (h.resolve_left fun e => e rfl)]
    rfl
  · rw [State.queue, State.core_modCore_ne _ _ hk]
    rfl

theorem State.scouted_modQueue (s : State) (core q : Nat) (l : List Nat → List Nat) :
    s.Scouted (s.modQueue core q (fun x => { x with told := l x.told })) := by
  refine ⟨rfl, rfl, rfl, fun k j => ?_⟩
  by_cases h : core = k ∧ q = j
  · obtain ⟨rfl, rfl⟩ := h
    rw [State.queue_modQueue_same]
  · rw [State.queue_modQueue_ne _ _ (not_and_or.1 h)]

/-- R256: a unit's fault message changes only the record of its die. -/
theorem State.scouted_stallMsg (s : State) (core unit : Nat) (c : Ctx) (va : Word) : s.Scouted (s.stallMsg core unit c va) := by
  unfold State.stallMsg State.svcOnce
  split
  · exact .refl s
  · exact ⟨rfl, rfl, rfl, fun _ _ => rfl⟩

theorem State.Scouted.foldl {α : Type} {f : State → α → State} (hf : ∀ (u : State) (a : α), u.Scouted (f u a)) (l : List α) (s : State) :
    s.Scouted (l.foldl f s) := by
  induction l generalizing s with
  | nil => exact .refl s
  | cons a l ih => exact (hf s a).trans (ih _)

theorem State.scouted_scoutPages (s : State) (core q us ud : Nat) (at_ : Option Word) : s.Scouted (s.scoutPages core q us ud at_) := by
  unfold State.scoutPages
  split
  · exact .refl s
  · refine State.Scouted.foldl (fun u p => ?_) _ s
    split
    · exact .refl u
    · split
      · exact (u.scouted_stallMsg core q _ _).trans (State.scouted_modQueue _ core q (fun l => l ++ [p]))
      · exact .refl u

theorem State.scouted_scoutHead (s : State) (core q : Nat) (at_ : Option Word) : s.Scouted (s.scoutHead core q at_) := by
  unfold State.scoutHead
  split
  · exact .refl s
  · split
    · exact s.scouted_scoutPages core q _ _ at_
    · exact s.scouted_scoutPages core q _ _ at_
    · exact s.scouted_scoutPages core q _ _ at_

/-! ### CPQ, CPCAN and SCOUT (R289) -/

/-- R269: QSTS. -/
theorem CopyQueue.qsts_eq (x : CopyQueue) : x.qsts = BitVec.ofNat 64
    (2 ^ 56 * x.code.toNat + (if x.nx then 2 ^ 55 else 0) + (if x.uf then 2 ^ 54 else 0) + (if x.of then 2 ^ 53 else 0) +
      (if x.nv then 2 ^ 52 else 0) + (if x.clmp then 2 ^ 51 else 0) + (if x.stall.isSome then 2 ^ 50 else 0) +
      2 ^ 46 * x.cmds.length + (if x.cmds = [] then x.bytes else ((x.cmds.map (·.bits)).headD 0) / 8) % 2 ^ 46) := by
  unfold CopyQueue.qsts
  cases x.cmds <;> rfl

theorem Core.queue_killItem (c : Core) (q j : Nat) : (c.killItem q).queue j = c.queue j := rfl

theorem Thread.reg_waited (t : Thread) (w : Option Why) (since : Option Nat) (r : Reg) : (t.waited w since).reg r = t.reg r := by
  cases r <;> rfl

theorem Thread.retired_waited (t : Thread) (w : Option Why) (since : Option Nat) : (t.waited w since).retired = t.retired := rfl

/-- R289: the state in which every command of a queue has completed CANCELLED, with the scarab's item dead. -/
def State.emptied (s : State) (core q : Nat) : State :=
  (s.modCore core (fun c => c.killItem q)).cancelAll core q (s.queue core q).cmds.length

theorem State.emptied_spec {s : State} {core q tid : Nat}
    (hfree : ∀ c ∈ (s.queue core q).cmds, c.clauses.si ≠ 0 → ∀ w ∈ (s.sema (clusterOf core) c.clauses.ss.toNat).waiters, w.1 ≠ tid) :
    (s.emptied core q).cur = s.cur ∧ (s.emptied core q).mem = s.mem ∧
      ((s.emptied core q).thread tid).waited (s.thread tid).wait (s.thread tid).since = s.thread tid ∧
      ((s.emptied core q).queue core q).cmds = [] ∧ ((s.queue core q).cmds ≠ [] → ((s.emptied core q).queue core q).code = 0x21) ∧
      ((s.emptied core q).core core).item = ((s.core core).killItem q).item := by
  have hqueue : (s.modCore core (fun c => c.killItem q)).queue core q = s.queue core q := by
    rw [State.queue, State.core_modCore_same, Core.queue_killItem, State.queue]
  obtain ⟨hcalm, hnil, hcode⟩ := State.cancelAll_spec (congrArg (fun x => (CopyQueue.cmds x).length) hqueue) (· ≠ tid) (by
    rw [hqueue]
    rintro c hc k ⟨hsi, v, hv⟩
    exact hfree c hc hsi _ hv)
  refine ⟨hcalm.cur, hcalm.mem, ?_, hnil, fun hne => hcode (by simpa using hne), ?_⟩
  · exact hcalm.threads tid (fun h => h rfl)
  · rw [State.emptied, hcalm.items, State.core_modCore_same]

/-- R289: CPCAN. -/
theorem cpcan_completes {s : State} {g : Guard} {d : Reg} {q : BitVec 4} (hr : s.runs g { ext := .cpy, dests := [d], outside := true } = true)
    (hd : gz d = true) (hcur : (s.emptied s.me.core q.toNat).cur = s.cur) :
    CompletesAs (.cpcan g d q) s (s.emptied s.me.core q.toNat) { Out.none (s.emptied s.me.core q.toNat) with
      reg := d, val := BitVec.ofNat 64 (s.queue s.me.core q.toNat).cmds.length, takes := [], pc := s.me.pc + 8 } :=
  completes_write_as (exec_cpcan g d q s) hr rfl hcur (gz_scalarDest hd) (by simp [cpyNeed])

/-- R289: what CPCAN leaves. -/
theorem cpcan_spec {s : State} {g : Guard} {d : Reg} {q : BitVec 4} (hr : s.runs g { ext := .cpy, dests := [d], outside := true } = true)
    (hwf : (Instr.cpcan g d q).wf = true)
    (hfree : ∀ c ∈ (s.queue s.me.core q.toNat).cmds, c.clauses.si ≠ 0 →
      ∀ w ∈ (s.sema s.me.cluster c.clauses.ss.toNat).waiters, w.1 ≠ s.cur) :
    ∃ t, exec (.cpcan g d q) s = .next t ∧ (t.thread s.cur).pc = s.me.pc + 8 ∧ (t.thread s.cur).retired = s.me.retired + 1 ∧
      (d ≠ .z → (t.thread s.cur).reg d = BitVec.ofNat 64 (s.queue s.me.core q.toNat).cmds.length) ∧
      (∀ r, r ≠ d → r ≠ .ip → (t.thread s.cur).reg r = s.me.reg r) ∧ (t.queue s.me.core q.toNat).cmds = [] ∧
      ((s.queue s.me.core q.toNat).cmds ≠ [] → (t.queue s.me.core q.toNat).code = 0x21) ∧
      (∀ i, (s.core s.me.core).item = some i → i.queue = q.toNat → (t.core s.me.core).item = some { i with dead := true }) ∧
      ∀ a, t.byte a = s.byte a := by
  have hgz : gz d = true := by simp [Instr.wf, Instr.operandsOk] at hwf; exact hwf.1.1
  have hdest := isG_or_z_of_gz hgz
  obtain ⟨hcur, hmem, hthread, hnil, hcode, hitem⟩ := State.emptied_spec hfree
  obtain ⟨t, ht, hafter⟩ := cpcan_completes hr hgz hcur
  generalize s.emptied s.me.core q.toNat = u at hcur hmem hthread hnil hcode hitem hafter
  have hme : u.me.waited s.me.wait s.me.since = s.me := by
    have hu : u.me = u.thread s.cur := by rw [State.me, hcur]
    rw [hu]
    exact hthread
  have hreg (r : Reg) : u.me.reg r = s.me.reg r := by rw [← u.me.reg_waited s.me.wait s.me.since, hme]
  have hretired : u.me.retired = s.me.retired := by rw [← u.me.retired_waited s.me.wait s.me.since, hme]
  have hth := hafter.me
  rw [hcur] at hth
  refine ⟨t, ht, hth.pc, hth.retired.trans (by rw [hretired]), fun hd => hth.reg_written (hdest.resolve_right hd),
    fun r hrd hip => (hth.reg_other hdest rfl hip hrd).trans (hreg r), ?_, fun hne => ?_, fun i hi hiq => ?_, fun a => ?_⟩
  · rw [hafter.queue, hnil]
  · rw [hafter.queue, hcode hne]
  · rw [hafter.item, hitem, Core.killItem, hi]
    simp [hiq]
  · rw [hafter.bytes, State.byte, hmem, State.byte]

/-- R289: SCOUT. -/
theorem scout_spec {s : State} {g : Guard} {a : Src} {q : BitVec 3} (hr : s.runs g { ext := .cpy, srcs := [a], outside := true } = true)
    (hv : (s.me.reg a.reg).toNat ≤ 255) :
    ∃ t u, exec (.scout g a q) s = .next t ∧ s.Goes t [a] ∧ t.queue s.me.core q.toNat = u ∧ u.scout = (s.me.reg a.reg).toNat ∧
      ((s.queue s.me.core q.toNat).stall = none → u = { s.queue s.me.core q.toNat with scout := (s.me.reg a.reg).toNat }) := by
  let s1 := s.modQueue s.me.core q.toNat (fun x => { x with scout := (s.me.reg a.reg).toNat })
  let u := if (s.queue s.me.core q.toNat).stall.isSome then s1.scoutHead s.me.core q.toNat (s.queue s.me.core q.toNat).stall else s1
  have hq1 : s1.queue s.me.core q.toNat = { s.queue s.me.core q.toNat with scout := (s.me.reg a.reg).toNat } := s.queue_modQueue_same _ _ _
  have hscouted : s1.Scouted u := by
    unfold u
    split
    · exact s1.scouted_scoutHead _ _ _
    · exact .refl s1
  obtain ⟨hcur, hthreads, hmem, hqueues⟩ := hscouted
  have hme : u.me = s.me := by
    rw [State.me, State.thread, hcur, hthreads]
    rfl
  obtain ⟨t, ht, hafter⟩ := completes_as (u := u) (exec_scout g a q s) hr (if_neg (Nat.not_lt.2 hv)) hcur
  refine ⟨t, _, ht, hafter.goes hcur hme (fun x => by rw [State.byte, hmem]; rfl) rfl, hafter.queue _ _, ?_, fun hn => ?_⟩
  · have e := congrArg CopyQueue.scout (hqueues s.me.core q.toNat)
    rw [hq1] at e
    exact e
  · have hu : u = s1 := if_neg (by simp [hn])
    rw [hu, hq1]

end Sys2Proof.Machine
end

section
/-! The events of a copy queue (R74, R268, R269, R272, R273, R282 to R284, R286 to R288, R470), with O32. -/

namespace Sys2Proof.Machine

/-- R268: the head command may be worked on. -/
theorem State.head_of {s : State} {core q : Nat} {c : CopyCmd} {r : List CopyCmd} (hq : (s.queue core q).cmds = c :: r) (hm : c.met = true)
    (hs : (s.queue core q).stall = none) (hf : c.finished = none) : (s.queue core q).head = some c := by
  simp [CopyQueue.head, hq, hm, hs, hf]

/-- R74: where an element of a tensor of two dimensions stands. -/
theorem Tensor.at_two {x : Tensor} {n m : Nat} {p q : Int} (hext : x.ext = [n, m]) (hstride : x.stride = [p, q]) (k : Nat) :
    x.at k = (((8 * x.base + x.boff : Nat) : Int) + ((k % n : Nat) : Int) * p + ((k / n % m : Nat) : Int) * q).toNat := by
  simp [Tensor.at, hext, hstride, indices, add_assoc]

/-! ### The movement of one element (R273) -/

theorem State.readPiece_cached {s s1 : State} {c : Ctx} {va n : Nat} {b : Bool} {v : Nat} (h : s.readPiece c va n b = .ok s1 v) :
    s.Cached s1 := by
  have hres := s.resolve_cached c (BitVec.ofNat 64 va) .load b
  unfold State.readPiece at h
  dsimp only at h
  split at h
  · cases h
  · cases h
  · next u pa leaf he =>
    rw [he] at hres
    split at h
    · cases h
    · split at h
      · cases h
      · cases h
        exact hres

/-- What holds of the state of every successful step of a fold holds of its result. -/
theorem Got.foldl_keeps {α β : Type} (P : State → Prop) {f : Got α → β → Got α}
    (hf : ∀ g p, (∀ u x, g = .ok u x → P u) → ∀ u x, f g p = .ok u x → P u) (l : List β) (g : Got α) (hg : ∀ u x, g = .ok u x → P u) :
    ∀ u x, l.foldl f g = .ok u x → P u := by
  induction l generalizing g with
  | nil => exact hg
  | cons p l ih => exact ih _ (hf g p hg)

/-- What a range read leaves of the copy queues: they are as they were. -/
theorem State.readRange_queue {s s1 : State} {c : Ctx} {va n : Nat} {b : Bool} {v : Nat} (h : s.readRange c va n b = .ok s1 v) (core q : Nat) :
    s1.queue core q = s.queue core q := by
  refine Got.foldl_keeps (fun u => u.queue core q = s.queue core q) (fun g p hg u x e => ?_) _ _ (fun u x e => by cases e; rfl) _ _ h
  split at e
  · next s2 v2 =>
    split at e
    · next s3 x3 hp =>
      cases e
      exact ((State.readPiece_cached hp).queue core q).trans (hg _ _ rfl)
    · cases e
    · cases e
  · exact hg _ _ e

theorem State.getElem_queue {s s1 : State} {c : Ctx} {x : Tensor} {k v : Nat} (h : s.getElem c x k = .ok s1 v) (core q : Nat) :
    s1.queue core q = s.queue core q := by
  unfold State.getElem State.readBits at h
  split at h
  · next s2 v2 hr =>
    cases h
    exact State.readRange_queue hr core q
  · next hr => exact State.readRange_queue h core q

/-- Bits that lie in one 64-bit word are written in one piece. -/
theorem putsOf_word {at_ n : Nat} (v : Nat) (hn : 0 < n) (hw : at_ % 64 + n ≤ 64) : putsOf at_ n v = [⟨at_, n, v % 2 ^ n, true⟩] := by
  have hp : pieces (at_ / 8) ((at_ % 8 + n + 7) / 8) = [(at_ / 8, (at_ % 8 + n + 7) / 8)] := by
    unfold pieces
    have h1 : (at_ / 8 % 512 + (at_ % 8 + n + 7) / 8 + 511) / 512 = 1 := by omega
    have hlo : Nat.max (at_ / 8) (at_ / 8 / 512 * 512) = at_ / 8 := Nat.max_eq_left (by omega)
    have hhi : Nat.min (at_ / 8 + (at_ % 8 + n + 7) / 8) ((at_ / 8 / 512 + 1) * 512) = at_ / 8 + (at_ % 8 + n + 7) / 8 :=
      Nat.min_eq_left (by omega)
    rw [if_neg (by omega), h1]
    simp [hlo, hhi]
  unfold putsOf
  rw [if_neg (by omega), hp]
  have hlo : Nat.max at_ (8 * (at_ / 8)) = at_ := Nat.max_eq_left (by omega)
  have hhi : Nat.min (at_ + n) (8 * (at_ / 8 + (at_ % 8 + n + 7) / 8)) = at_ + n := Nat.min_eq_left (by omega)
  simp [hlo, hhi]

end Sys2Proof.Machine
end

section
/-! The head command's movement and O32. -/

namespace Sys2Proof.Machine

/-! ### The head command starts (R268, R272) -/

theorem exec_cpyCommandStart (s : State) (core q : Nat) : exec (.cpyCommandStart core q) s = .next (s.copyStart core q) := rfl

/-- Writes of no bits leave the head command with none to write. -/
theorem State.copyPuts_nil (s : State) (core q : Nat) :
    s.copyPuts core q [] = (s.modCmd core q (fun c => { c with puts := [] }), .done) := rfl

/-- R273: one write of the head command that succeeds, on a queue that is no cross-core channel. -/
theorem State.copyPuts_single {s s2 : State} {core q : Nat} {c : CopyCmd} {r : List CopyCmd} {p : Put} (hq : (s.queue core q).cmds = c :: r)
    (h8 : q < 8) (hw : s.writeBits (c.ctx core) p.at_ p.n p.v true = .ok s2 ()) :
    s.copyPuts core q [p] = ((s2.modCmd core q (fun c => { c with bits := c.bits + (if p.counts then p.n else 0) })).modCmd core q
      (fun c => { c with puts := [] }), .done) := by
  have hout : s.switchedOut core q c p = false := by
    have h : decide (q = 8) = false := decide_eq_false (by omega)
    simp [State.switchedOut, h]
  rw [State.copyPuts, hq]
  simp only [hout, hw, Bool.false_eq_true, if_false, State.copyPuts_nil]

/-- R273: a copy of one element moves it and ends. -/
theorem copyMove_single {s s1 s2 : State} {core q v : Nat} {c : CopyCmd} {r : List CopyCmd} {dst src : Tensor}
    (hq : (s.queue core q).cmds = c :: r) (hop : c.op = .plain dst src) (hcount : dst.count = 1) (hmoved : c.moved = 0) (hputs : c.puts = [])
    (hidle : s.modCmd core q (fun c => { c with puts := [] }) = s) (h8 : q < 8) (hn : 0 < dst.width) (hw : dst.at 0 % 64 + dst.width ≤ 64) (hget : s.getElem (c.ctx core) src 0 = .ok s1 v)
    (hwrite : (s1.modCmd core q (fun c => { c with moved := 1, puts := [⟨dst.at 0, dst.width, v % 2 ^ dst.width, true⟩] })).writeBits
      (c.ctx core) (dst.at 0) dst.width (v % 2 ^ dst.width) true = .ok s2 ()) :
    s.copyMove core q 3 = ((s2.modCmd core q (fun c => { c with bits := c.bits + dst.width })).modCmd core q
      (fun c => { c with puts := [] })).copyEnd core q 0 := by
  have hq1 : (s1.queue core q).cmds = c :: r := by rw [State.getElem_queue hget, hq]
  have hput : dst.put 0 v = [⟨dst.at 0, dst.width, v % 2 ^ dst.width, true⟩] := putsOf_word v hn hw
  have hmove : s1.modCmd core q (fun x => { x with moved := x.moved + 1, pos := c.pos, puts := dst.put 0 v, fl := x.fl.or {} }) =
      s1.modCmd core q (fun c => { c with moved := 1, puts := [⟨dst.at 0, dst.width, v % 2 ^ dst.width, true⟩] }) := by
    refine State.modCmd_congr hq1 ?_
    have hfl : c.fl.or {} = c.fl := by simp [Fl.or]
    rw [hput, hmoved, hfl]
  have hunit : s.copyUnit (c.ctx core) c.op c.moved c.pos = .ok s1 ⟨c.pos, {}, dst.put 0 v⟩ := by
    rw [hop, hmoved, State.copyUnit, hget]
    rfl
  have hq3 := State.cmds_modCmd_same hq1 (fun c => { c with moved := 1, puts := [⟨dst.at 0, dst.width, v % 2 ^ dst.width, true⟩] })
  have hputs3 := State.copyPuts_single (p := ⟨dst.at 0, dst.width, v % 2 ^ dst.width, true⟩) hq3 h8 hwrite
  have hunits : c.op.units = 1 := by rw [hop]; exact hcount
  rw [State.copyMove, hq]
  simp only [hputs, State.copyPuts_nil, hidle, hunits, hmoved, if_neg (Nat.not_succ_le_zero 0)]
  rw [hmoved] at hunit
  simp only [hunit]
  rw [hmove, State.copyMove, hq3]
  simp only [hputs3, hunits, Nat.le_refl, if_true]

/-- R273, R268: CPY_COMMAND_START of a copy of one element that lies in one word. -/
theorem copyStart_single {s s1 s2 : State} {core q v : Nat} {c : CopyCmd} {r : List CopyCmd} {dst src : Tensor}
    (hq : (s.queue core q).cmds = c :: r) (hhead : (s.queue core q).head = some c) (hop : c.op = .plain dst src) (hcount : dst.count = 1)
    (hmoved : c.moved = 0) (hputs : c.puts = []) (h8 : q < 8) (hn : 0 < dst.width) (hw : dst.at 0 % 64 + dst.width ≤ 64)
    (hget : (s.modCmd core q (fun c => { c with started := true })).getElem (c.ctx core) src 0 = .ok s1 v)
    (hwrite : (s1.modCmd core q (fun c => { c with moved := 1, puts := [⟨dst.at 0, dst.width, v % 2 ^ dst.width, true⟩] })).writeBits
      (c.ctx core) (dst.at 0) dst.width (v % 2 ^ dst.width) true = .ok s2 ())
    (hkeep : s2.queue core q = (s1.modCmd core q
      (fun c => { c with moved := 1, puts := [⟨dst.at 0, dst.width, v % 2 ^ dst.width, true⟩] })).queue core q) :
    (s.copyStart core q).mem = s2.mem ∧ ((s.copyStart core q).queue core q).cmds.map (fun x => (x.finished, x.moved, x.bits)) =
      (some 0, 1, c.bits + dst.width) :: r.map (fun x => (x.finished, x.moved, x.bits)) := by
  have hq0 := State.cmds_modCmd_same hq (fun c => { c with started := true })
  have hidle : (s.modCmd core q (fun c => { c with started := true })).modCmd core q (fun c => { c with puts := [] }) =
      s.modCmd core q (fun c => { c with started := true }) := by
    rw [State.modCmd_modCmd]
    exact State.modCmd_congr hq (by rw [hputs])
  have hmove := copyMove_single hq0 hop hcount hmoved hputs hidle h8 hn hw hget hwrite
  have hstart : s.copyStart core q = (s.modCmd core q (fun c => { c with started := true })).copyMove core q 3 := by
    have hunits : c.op.units = 1 := by rw [hop]; exact hcount
    rw [State.copyStart, hhead]
    simp only [hop, CopyOp.isCust, Bool.false_eq_true, if_false]
    rw [← hop, hunits, hmoved]
  have hq1 := State.cmds_modCmd_same ((State.getElem_queue hget core q) ▸ hq0)
    (fun c => { c with moved := 1, puts := [⟨dst.at 0, dst.width, v % 2 ^ dst.width, true⟩] })
  rw [hstart, hmove]
  refine ⟨rfl, ?_⟩
  rw [State.copyEnd, State.cmds_modCmd_same (State.cmds_modCmd_same (State.cmds_modCmd_same (hkeep ▸ hq1) _) _)]
  rfl

/-! ### Storage (R287, R288, R470) -/

theorem exec_storageBlockCheck (s : State) (core q : Nat) : exec (.storageBlockCheck core q) s = execStorageBlockCheck core q s := rfl
theorem exec_storageBlockComplete (s : State) (core q block : Nat) :
    exec (.storageBlockComplete core q block) s = execStorageBlockComplete core q block s := rfl

theorem State.pkg_modPkg_same (s : State) (k : Nat) (f : Package → Package) : (s.modPkg k f).pkg k = f (s.pkg k) :=
  KMap.getD_set_same _ _ _ _

theorem CopyCmd.storEnd_out (c : CopyCmd) (count : Nat) : (c.storEnd count).out = c.out ∧ (c.storEnd count).bits = c.bits := by
  unfold CopyCmd.storEnd
  split <;> exact ⟨rfl, rfl⟩

/-- R288: a block that its capability allows is issued. -/
theorem storageBlockCheck_allowed {s : State} {core q : Nat} {c : CopyCmd} {r : List CopyCmd} {wr : Bool} {target first count mem entry : Nat}
    {e : Extent} (hq : (s.queue core q).cmds = c :: r) (hhead : (s.queue core q).head = some c)
    (hop : c.op = .stor wr target first count mem entry) (hstart : c.started = true) (hstop : c.stop = 0) (hmoved : c.moved < count)
    (he : KMap.find (s.pkg (pkgOf core)).extents entry = some e)
    (hallow : e.allows c.domid target (first + c.moved) wr (s.timeAt (dieOf core)).toNat = true)
    (htarget : KMap.find (s.pkg (pkgOf core)).targets target ≠ none) :
    ∃ t, exec (.storageBlockCheck core q) s = .next t ∧
      (t.queue core q).cmds = { c with out := c.out ++ [c.moved], moved := c.moved + 1 } :: r ∧ t.mem = s.mem := by
  have hscout := (s.modCmd core q (fun c => { c with out := c.out ++ [c.moved], moved := c.moved + 1 })).scouted_scoutHead core q none
  refine ⟨_, ?_, ?_, hscout.mem⟩
  · rw [exec_storageBlockCheck, execStorageBlockCheck, hhead]
    simp only [hop, he, hallow, hstart, hstop, Nat.not_le.2 hmoved]
    simp [htarget]
  · have hcmds : ((s.modCmd core q (fun c => { c with out := c.out ++ [c.moved], moved := c.moved + 1 })).scoutHead core q none |>.queue core q).cmds
        = ((s.modCmd core q (fun c => { c with out := c.out ++ [c.moved], moved := c.moved + 1 })).queue core q).cmds :=
      (congrArg CopyQueue.cmds (hscout.queues core q) : _)
    rw [hcmds, State.cmds_modCmd_same hq]

/-- R288: a block without a capability entry ends the command with EXTENT. -/
theorem storageBlockCheck_refused {s : State} {core q : Nat} {c : CopyCmd} {r : List CopyCmd} {wr : Bool} {target first count mem entry : Nat}
    (hq : (s.queue core q).cmds = c :: r) (hhead : (s.queue core q).head = some c)
    (hop : c.op = .stor wr target first count mem entry) (hstart : c.started = true) (hstop : c.stop = 0) (hmoved : c.moved < count)
    (he : KMap.find (s.pkg (pkgOf core)).extents entry = none) (hout : c.out = []) :
    ∃ t, exec (.storageBlockCheck core q) s = .next t ∧
      (t.queue core q).cmds = { c with stop := 0x14, finished := some 0x14 } :: r ∧ t.mem = s.mem := by
  refine ⟨s.modCmd core q (fun c => { c with stop := 0x14 }.storEnd count), ?_, ?_, rfl⟩
  · rw [exec_storageBlockCheck, execStorageBlockCheck, hhead]
    simp only [hop, he, hstart, hstop, Nat.not_le.2 hmoved]
    simp
  · rw [State.cmds_modCmd_same hq]
    simp [CopyCmd.storEnd, hout]

/-- R470: a block written to storage. -/
theorem storageBlockComplete_write {s s1 : State} {core q block v : Nat} {c : CopyCmd} {r : List CopyCmd} {target first count mem entry : Nat}
    (hq : (s.queue core q).cmds = c :: r) (hhead : (s.queue core q).head = some c)
    (hop : c.op = .stor true target first count mem entry) (hblock : block ∈ c.out) (hputs : c.puts = [])
    (hread : s.readRange (c.ctx core) (mem + 4096 * block) 4096 true = .ok s1 v) (hc : s.Cached s1) (hv : v ≠ 0) :
    ∃ t, exec (.storageBlockComplete core q block) s = .next t ∧ t.mem = s.mem ∧
      KMap.find (t.pkg (pkgOf core)).storage (KMap.getD (s.pkg (pkgOf core)).targets target 0 * 2 ^ 64 + (first + block)) = some v ∧
      (t.queue core q).cmds.map (fun x => (x.out, x.bits)) = (c.out.erase block, c.bits + 32768) :: r.map (fun x => (x.out, x.bits)) := by
  let dev := KMap.getD (s.pkg (pkgOf core)).targets target 0
  let s2 := s1.storageWrite (pkgOf core) dev (first + block) v
  have hq2 : (s2.queue core q).cmds = c :: r := (congrArg CopyQueue.cmds (hc.queue core q)).trans hq
  refine ⟨(s2.modCmd core q (fun c => { c with bits := c.bits + 32768 })).modCmd core q (fun c =>
    { c with out := c.out.erase block, stop := if c.stop = 0 then 0 else c.stop }.storEnd count), ?_, hc.mem, ?_, ?_⟩
  · rw [exec_storageBlockComplete, execStorageBlockComplete, hhead]
    simp only [hop, hputs, State.storageRead, if_true, hread]
    simp [hblock, s2, dev]
  · have hpkg : ((s2.modCmd core q (fun c => { c with bits := c.bits + 32768 })).modCmd core q (fun c =>
        { c with out := c.out.erase block, stop := if c.stop = 0 then 0 else c.stop }.storEnd count)).pkg (pkgOf core) = s2.pkg (pkgOf core) := rfl
    rw [hpkg]
    simp only [s2, State.storageWrite, State.pkg_modPkg_same, if_neg hv, KMap.find_set, storageKey, dev, if_true]
  · rw [State.cmds_modCmd_same (State.cmds_modCmd_same hq2 _)]
    simp [CopyCmd.storEnd_out]

/-- R470: a block read from storage. -/
theorem storageBlockComplete_read {s s1 : State} {core q block : Nat} {c : CopyCmd} {target first count mem entry : Nat}
    (hhead : (s.queue core q).head = some c) (hop : c.op = .stor false target first count mem entry) (hblock : block ∈ c.out) (hputs : c.puts = [])
    (hwrite : (s.modCmd core q (fun c => { c with part := block })).copyPuts core q (bytesOf (mem + 4096 * block) 4096
      (KMap.getD (s.pkg (pkgOf core)).storage (KMap.getD (s.pkg (pkgOf core)).targets target 0 * 2 ^ 64 + (first + block)) 0)) = (s1, .done)) :
    ∃ t, exec (.storageBlockComplete core q block) s = .next t ∧ t.mem = s1.mem := by
  refine ⟨s1.modCmd core q (fun c => { c with out := c.out.erase block, stop := if c.stop = 0 then 0 else c.stop }.storEnd count), ?_, rfl⟩
  rw [exec_storageBlockComplete, execStorageBlockComplete, hhead]
  simp only [hop, hputs, State.storageRead, Bool.false_eq_true, if_false, storageKey, hwrite]
  simp [hblock]

/-! ### Work items and arenas (R272, R282 to R284, R294) -/

/-- R272: a command of kind CUST joins the work queue, where the package has one. -/
theorem custItemEnqueue_eq {s : State} {core q : Nat} {c : CopyCmd} (hhead : (s.queue core q).head = some c) (hcust : c.op.isCust = true)
    (hstart : c.started = false) : exec (.custItemEnqueue core q) s = .next (if (s.pkg (pkgOf core)).variant = 2 then s.copyEnd core q 0x02
      else (s.modCmd core q (fun c => { c with started := true })).modCore core (fun k => { k with work := k.work ++ [q] })) := by
  rw [show exec (.custItemEnqueue core q) s = execCustItemEnqueue core q s from rfl, execCustItemEnqueue, hhead]
  simp only [hcust, hstart, Bool.not_true, Bool.or_self, Bool.false_eq_true, if_false, decide_eq_true_eq]

/-- R284: a message whose source has been read takes its turn at the arena's home. -/
theorem arenaPlacement_turn {s s1 s2 : State} {core q acb base size body pa : Nat} {c : CopyCmd} {x : Tensor} {leaf : Option Word}
    (hhead : (s.queue core q).head = some c) (hop : c.op = .arena acb base size x) (hstart : c.started = true) (hputs : c.puts = [])
    (hticket : c.ticket = none) (hread : s.imageBits (c.ctx core) x 0 (8 * x.imageBytes) = .ok s1 body)
    (hres : s1.resolve (c.ctx core) (BitVec.ofNat 64 acb) .store true = (s2, .at pa leaf)) :
    let s3 := (s2.modCmd core q (fun c => { c with ticket := some (pa, s2.nextId) })).bumpId
    (s3.arenaTurn pa s2.nextId none = false → exec (.arenaPlacement core q) s = .next s3) ∧
    (s3.arenaTurn pa s2.nextId none = true →
      (∀ s4 code, s3.placeRecord (c.ctx core) acb base size 1 ((x.imageBytes + 7) / 8) body = .ok s4 (.error code) →
        exec (.arenaPlacement core q) s = .next (s4.copyEnd core q code)) ∧
      (∀ s4 s5 l, s3.placeRecord (c.ctx core) acb base size 1 ((x.imageBytes + 7) / 8) body = .ok s4 (.ok l) →
        s4.copyPuts core q l = (s5, .done) → exec (.arenaPlacement core q) s = .next (s5.copyEnd core q 0))) := by
  intro s3
  have hrun : exec (.arenaPlacement core q) s = execArenaPlacement core q s := rfl
  refine ⟨fun hturn => ?_, fun hturn => ⟨fun s4 code hplace => ?_, fun s4 s5 l hplace hwrite => ?_⟩⟩ <;>
    rw [hrun, execArenaPlacement, hhead] <;>
    simp only [hop, hstart, hputs, hticket, hread, hres, Option.getD_none, Option.isSome_none, List.isEmpty_nil, Bool.not_true,
      Bool.false_eq_true, if_false]
  · rw [if_pos (by simp only [s3] at hturn; simp [hturn])]
  · rw [if_neg (by simp only [s3] at hturn; simp [hturn])]
    simp only [s3] at hplace
    simp only [hplace]
  · rw [if_neg (by simp only [s3] at hturn; simp [hturn])]
    simp only [s3] at hplace
    simp only [hplace, hwrite]

/-- R268, R269: the head command that has ended leaves its queue. -/
theorem cpyCommandComplete_spec {s : State} {core q : Nat} {c : CopyCmd} {r : List CopyCmd} {code : BitVec 8} (hq : (s.queue core q).cmds = c :: r)
    (hf : c.finished = some code) :
    ∃ t, exec (.cpyCommandComplete core q) s = .next t ∧ t.mem = s.mem ∧ (t.queue core q).cmds.length = r.length ∧
      (t.queue core q).code = code ∧ (t.queue core q).nx = c.fl.nx ∧ (t.queue core q).uf = c.fl.uf ∧ (t.queue core q).of = c.fl.ofl ∧
      (t.queue core q).nv = c.fl.nv ∧ (t.queue core q).bytes = (c.bits + 7) / 8 ∧ (t.queue core q).stall = none := by
  obtain ⟨hcalm, hqueue⟩ := State.copyDone_spec hq code
  refine ⟨s.copyDone core q code, ?_, hcalm.mem, ?_, (congrArg CopyQueue.code hqueue : _), (congrArg CopyQueue.nx hqueue : _),
    (congrArg CopyQueue.uf hqueue : _), (congrArg CopyQueue.of hqueue : _), (congrArg CopyQueue.nv hqueue : _),
    (congrArg CopyQueue.bytes hqueue : _), (congrArg CopyQueue.stall hqueue : _)⟩
  · rw [show exec (.cpyCommandComplete core q) s = execCpyCommandComplete core q s from rfl, execCpyCommandComplete, hq]
    simp only [hf]
  · simpa [CopyQueue.unmet, CopyQueue.popped] using congrArg (fun x => x.cmds.length) hqueue

end Sys2Proof.Machine

namespace Sys2Proof.Machine

/-- Settles O32: an accepted command stands last in its queue; a signal leaves memory, queues and other threads; and the head command's
events are read off their definitions. -/
theorem copyPort : Obligations.CopyPort := by
  unfold Obligations.CopyPort
  refine ⟨⟨fun s g q dec cd a b cl hr => ⟨fun hp => ?_, fun hp hrr => ?_, fun hp hrr => ?_⟩,
    fun s g wr q a b cl hr => ⟨fun hp => ?_, fun hp he => ?_, fun hp he => ?_⟩,
    fun s g d q hr => ⟨fun hwf => ?_, fun hwf hfree => cpcan_spec hr hwf hfree⟩,
    fun s g a q hr => ⟨fun hv => ?_, fun hv => ?_, fun hv hn => ?_⟩⟩,
    fun x n m p q k hext hstride => Tensor.at_two hext hstride k, fun s core q c r hq hm hs hfin => ?_,
    fun s core q c r code hq hf => cpyCommandComplete_spec hq hf⟩
  · have halign := bne_iff_ne.2 (mt (extractLsb'_low_eq_zero (s.me.reg a.reg) 7).1 hp)
    exact ⟨traps_of (exec_cpy g q dec cd a b cl s) hr (if_pos halign), traps_of (exec_cpyx g a b cl s) hr (if_pos halign)⟩
  · have hp' := (extractLsb'_low_eq_zero (s.me.reg a.reg) 7).2 hp
    have halign := bne_iff_ne.2 (mt (extractLsb'_low_eq_zero (s.me.reg b.reg) 7).1 hrr)
    exact ⟨traps_of (exec_cpy g q dec cd a b cl s) hr ((if_neg (by simp [hp'])).trans (if_pos halign)),
      traps_of (exec_cpyx g a b cl s) hr ((if_neg (by simp [hp'])).trans (if_pos halign))⟩
  · have hp' := (extractLsb'_low_eq_zero (s.me.reg a.reg) 7).2 hp
    have hr' := (extractLsb'_low_eq_zero (s.me.reg b.reg) 7).2 hrr
    exact ⟨copyIssues_of (exec_cpy g q dec cd a b cl s) hr ((if_neg (by simp [hp'])).trans (if_neg (by simp [hr']))),
      copyIssues_of (exec_cpyx g a b cl s) hr ((if_neg (by simp [hp'])).trans (if_neg (by simp [hr'])))⟩
  · exact traps_of (exec_stor g wr q a b cl s) hr (if_pos (bne_iff_ne.2 (mt (extractLsb'_low_eq_zero (s.me.reg a.reg) 5).1 hp)))
  · have hp' := (extractLsb'_low_eq_zero (s.me.reg a.reg) 5).2 hp
    exact traps_of (exec_stor g wr q a b cl s) hr ((if_neg (by simp [hp'])).trans (if_pos he))
  · have hp' := (extractLsb'_low_eq_zero (s.me.reg a.reg) 5).2 hp
    exact copyIssues_of (exec_stor g wr q a b cl s) hr ((if_neg (by simp [hp'])).trans (if_neg (Nat.not_lt.2 he)))
  · have hgz : gz d = true := by simp [Instr.wf, Instr.operandsOk] at hwf; exact hwf.1.1
    have h := completes_ok (exec_cpq g d q s) hr rfl ((State.Wrote.refl s).write rfl d (gz_scalarDest hgz) _) (.inl (by simp [cpyNeed])) (.inr rfl)
    rw [CopyQueue.qsts_eq] at h
    exact h
  · exact traps_of (exec_scout g a q s) hr (if_pos hv)
  · obtain ⟨t, u, ht, hgoes, hqueue, hscout, -⟩ := scout_spec hr hv
    exact ⟨t, ht, hgoes, by rw [hqueue, hscout]⟩
  · obtain ⟨t, u, ht, hgoes, hqueue, -, hplain⟩ := scout_spec hr hv
    exact ⟨t, ht, hgoes, by rw [hqueue, hplain hn]⟩
  have hhead := State.head_of hq hm hs hfin
  refine ⟨fun e hop => ?_, fun dst src s1 s2 v hop hcount hmoved hputs h8 hn hw hget hwrite hkeep => ?_, fun a b n x hop => ?_,
    fun hcust hstart => ⟨fun hv => ?_, fun hv => ?_⟩,
    fun acb base size x s1 s2 body pa leaf hop hstart hputs hticket hread hres => arenaPlacement_turn hhead hop hstart hputs hticket hread hres,
    fun wr target first count mem entry hop hstart hstop hmoved => ⟨fun e he hdom htarget hlo hhi hright htime hfound => ?_, fun he hout => ?_⟩,
    fun target first count mem entry block v s1 hop hblock hputs hread hc hv => storageBlockComplete_write hq hhead hop hblock hputs hread hc hv,
    fun target first count mem entry block s1 hop hblock hputs hwrite => storageBlockComplete_read hhead hop hblock hputs hwrite⟩
  · refine ⟨s.copyEnd core q e, ?_, State.cmds_modCmd_same hq _, rfl⟩
    rw [exec_cpyCommandStart, State.copyStart, hhead]
    simp only [hop]
  · exact ⟨_, exec_cpyCommandStart s core q, copyStart_single hq hhead hop hcount hmoved hputs h8 hn hw hget hwrite hkeep⟩
  · refine ⟨s.modCmd core q (fun c => { c with started := true }), ?_, State.cmds_modCmd_same hq _, rfl⟩
    rw [exec_cpyCommandStart, State.copyStart, hhead]
    simp only [hop]
  · refine ⟨_, (custItemEnqueue_eq hhead hcust hstart).trans (congrArg _ (if_neg hv)), ?_, ?_, rfl⟩
    · rw [State.core_modCore_same, State.modCmd, State.modQueue, State.core_modCore_same]
    · rw [State.queue, State.core_modCore_same]
      exact State.cmds_modCmd_same hq _
  · exact ⟨_, (custItemEnqueue_eq hhead hcust hstart).trans (congrArg _ (if_pos hv)), State.cmds_modCmd_same hq _, rfl⟩
  · refine storageBlockCheck_allowed hq hhead hop hstart hstop hmoved he ?_ hfound
    simp [Extent.allows, hdom, htarget, hlo, hhi, hright, htime]
  · exact storageBlockCheck_refused hq hhead hop hstart hstop hmoved he hout

end Sys2Proof.Machine
end

section
/-! What the start of a thread, the completion of a waiting instruction and the signal of a semaphore leave of a state (R110, R145,
R326, R356, R438): threads, cores and clusters change, the rest stays. -/

namespace Sys2Proof.Machine

/-- The state `t` is `s` but for threads, cores, clusters, the free counter and the fresh numbers, of which none is used again. -/
structure State.Local (s t : State) : Prop where
  nextId : s.nextId ≤ t.nextId
  other : { t with threads := s.threads, cores := s.cores, clusters := s.clusters, free := s.free, nextId := s.nextId } = s

namespace State.Local

theorem refl (s : State) : s.Local s := ⟨Nat.le_refl _, rfl⟩

theorem trans {s t u : State} (h : s.Local t) (k : t.Local u) : s.Local u where
  nextId := h.nextId.trans k.nextId
  other := by
    have e := h.other
    rwa [← k.other] at e

theorem foldl {α : Type} {f : State → α → State} (hf : ∀ (u : State) (a : α), u.Local (f u a)) (l : List α) (s : State) :
    s.Local (l.foldl f s) := by
  induction l generalizing s with
  | nil => exact .refl s
  | cons a l ih => exact (hf s a).trans (ih _)

section
variable {s t : State} (h : s.Local t)
include h
theorem cur : t.cur = s.cur := (congrArg State.cur h.other : _)
theorem mem : t.mem = s.mem := (congrArg State.mem h.other : _)
theorem msgs : t.msgs = s.msgs := (congrArg State.msgs h.other : _)
theorem launches : t.launches = s.launches := (congrArg State.launches h.other : _)
theorem packages : t.packages = s.packages := (congrArg State.packages h.other : _)
theorem shadows : t.shadows = s.shadows := (congrArg State.shadows h.other : _)
end

end State.Local

theorem State.Kin.local {s t : State} {tid : Nat} (h : s.Kin t tid) : s.Local t where
  nextId := by
    have e := congrArg State.nextId h.other
    exact e.ge
  other := congrArg (fun x : State => { x with clusters := s.clusters, free := s.free, nextId := s.nextId }) h.other

theorem State.local_modThread (s : State) (tid : Nat) (f : Thread → Thread) : s.Local (s.modThread tid f) := ⟨Nat.le_refl _, rfl⟩
theorem State.local_setThread (s : State) (tid : Nat) (t : Thread) : s.Local (s.setThread tid t) := ⟨Nat.le_refl _, rfl⟩
theorem State.local_modCore (s : State) (k : Nat) (f : Core → Core) : s.Local (s.modCore k f) := ⟨Nat.le_refl _, rfl⟩
theorem State.local_modCluster (s : State) (k : Nat) (f : Cluster → Cluster) : s.Local (s.modCluster k f) := ⟨Nat.le_refl _, rfl⟩
theorem State.local_orphaned (s : State) (cl : Nat) : s.Local (s.orphaned cl) := s.local_modCluster cl _
theorem State.local_bumpId (s : State) : s.Local s.bumpId := ⟨Nat.le_succ _, rfl⟩
theorem State.local_bumpFree (s : State) : s.Local s.bumpFree := ⟨Nat.le_refl _, rfl⟩
theorem State.local_dropCand (s : State) (cl la : Nat) : s.Local (s.dropCand cl la) := ⟨Nat.le_succ _, rfl⟩
theorem State.local_acquire (s : State) (core : Nat) (sc : Word) : s.Local (s.acquire core sc) := ⟨Nat.le_succ _, rfl⟩
theorem State.local_equip (s : State) (tid cl : Nat) : s.Local (s.equip tid cl) := ⟨Nat.le_refl _, rfl⟩
theorem State.local_enterSlot (s : State) (tid core slot : Nat) : s.Local (s.enterSlot tid core slot) := ⟨Nat.le_refl _, rfl⟩

/-- R144, R145: the arrival of a context at a cluster. -/
theorem State.local_arrive {s t : State} {tid cl : Nat} {target : Option Nat} {anchored : Bool} (h : s.arrive tid cl target anchored = some t) :
    s.Local t := by
  unfold State.arrive at h
  dsimp only at h
  split at h
  · unfold State.joinQueue at h
    split at h
    · cases h
    · cases h
      exact (s.local_modThread tid _).trans (State.local_bumpId _)
  · cases h
    exact s.local_bumpFree.trans (State.local_enterSlot _ _ _ _)

theorem State.local_write (s : State) (tid : Nat) (r : Reg) (x : Word) : s.Local (s.write tid r x) := by
  cases r with
  | g n | m n =>
    exact ((s.local_modThread tid _).trans (State.kin_logWrite _ tid _ _).local).trans (State.kin_feed _ tid _ _).local
  | pw => exact s.local_modThread tid (fun t => t.put .pw x)
  | z | ip | v _ | sm _ => exact .refl s

/-- R134, R438: the completion of a waiting instruction by its answer. -/
theorem State.local_complete (s : State) (tid : Nat) (p : Pend) (v : Word) : s.Local (s.complete tid p v) := by
  have hseen (u : State) (cl : Nat) : u.Local (match p.line with | some la => u.dropCand cl la | none => u) := by
    cases p.line
    · exact .refl u
    · exact u.local_dropCand _ _
  have hacq (u : State) (k : Nat) : u.Local (match p.acquire with | some sc => u.acquire k sc | none => u) := by
    cases p.acquire
    · exact .refl u
    · exact u.local_acquire _ _
  unfold State.complete
  dsimp only
  split
  · exact s.local_modThread tid _
  · split
    · exact (hseen s _).trans (State.local_modThread _ tid _)
    · refine .trans (.trans ?_ (State.local_modThread _ tid _)) (State.kin_agreeAfter _ tid true).local
      refine .trans (.trans (.trans (s.local_modThread tid (fun t => t.takeAll p.takes)) ?_) (hacq _ _)) (hseen _ _)
      split
      · exact State.local_write _ tid _ _
      · exact State.local_modThread _ tid _
      · exact State.local_modThread _ tid _
      all_goals exact .refl _

end Sys2Proof.Machine
end

section
/-! Launch records and queues (R96, R97, R102, R106, R109, R110, R356): what the building, the start and the end of a launch leave of
its record, and of the queues of packages. -/

namespace Sys2Proof.Machine

/-! ### Launch records -/

/-- A launch but for whether its wait clause has been met (R102). -/
def Launch.unmet (x : Launch) : Launch := { x with met := false }

/-- The record of a launch, but for whether its clause has been met. -/
def State.launchUnmet (s : State) (id : Nat) : Option Launch := (s.launch id).map Launch.unmet

theorem State.launch_of_launchUnmet {s : State} {id : Nat} {x : Launch} (h : s.launchUnmet id = some x.unmet) :
    ∃ y, s.launch id = some y ∧ y.unmet = x.unmet := Option.map_eq_some_iff.1 h

theorem State.launchUnmet_of_launch {s : State} {id : Nat} {x : Launch} (h : s.launch id = some x) : s.launchUnmet id = some x.unmet := by
  rw [State.launchUnmet, h]
  rfl

theorem State.launchUnmet_congr {s t : State} (h : t.launches = s.launches) (id : Nat) : t.launchUnmet id = s.launchUnmet id := by
  rw [State.launchUnmet, State.launch, h]
  rfl

theorem State.launch_modLaunch_same {s : State} {id : Nat} {x : Launch} (h : s.launch id = some x) (f : Launch → Launch) :
    (s.modLaunch id f).launch id = some (f x) := by
  unfold State.launch at h ⊢
  simp only [State.modLaunch, h, KMap.find_set, if_true]

/-- A change of a launch's record changes only that. -/
theorem State.modLaunch_eq (s : State) (id : Nat) (f : Launch → Launch) : ∃ ls, s.modLaunch id f = { s with launches := ls } := by
  unfold State.modLaunch
  split
  · exact ⟨_, rfl⟩
  · exact ⟨s.launches, rfl⟩

theorem State.launchUnmet_modLaunch (s : State) (id : Nat) {f : Launch → Launch} (hf : ∀ x, (f x).unmet = x.unmet) (k : Nat) :
    (s.modLaunch id f).launchUnmet k = s.launchUnmet k := by
  unfold State.launchUnmet State.launch State.modLaunch
  split
  · next x hx =>
    rw [KMap.find_set]
    split
    · next h => subst h; rw [hx, Option.map_some, Option.map_some, hf]
    · rfl
  · rfl

/-- R356: the test of a head's clause changes only whether it is met. -/
theorem State.testHead_eq (s : State) (pkg q : Nat) : ∃ ls, s.testHead pkg q = { s with launches := ls } := by
  unfold State.testHead
  split
  · exact s.modLaunch_eq _ _
  · exact ⟨s.launches, rfl⟩

theorem State.launchUnmet_testHead (s : State) (pkg q id : Nat) : (s.testHead pkg q).launchUnmet id = s.launchUnmet id := by
  unfold State.testHead
  split
  · refine s.launchUnmet_modLaunch _ (fun x => ?_) id
    split <;> rfl
  · rfl

/-! ### Queues -/

theorem State.lqueue_congr {s t : State} (h : t.packages = s.packages) (pkg q : Nat) : t.lqueue pkg q = s.lqueue pkg q := by
  unfold State.lqueue State.pkg
  rw [h]

theorem State.lqueue_testHead (s : State) (pkg q p k : Nat) : (s.testHead pkg q).lqueue p k = s.lqueue p k := by
  obtain ⟨ls, h⟩ := s.testHead_eq pkg q
  rw [h]
  rfl

theorem State.pkg_testHead (s : State) (pkg q p : Nat) : (s.testHead pkg q).pkg p = s.pkg p := by
  obtain ⟨ls, h⟩ := s.testHead_eq pkg q
  rw [h]
  rfl

theorem State.packages_modLaunch (s : State) (id : Nat) (f : Launch → Launch) : (s.modLaunch id f).packages = s.packages := by
  unfold State.modLaunch
  split <;> rfl

theorem State.mem_modLaunch (s : State) (id : Nat) (f : Launch → Launch) : (s.modLaunch id f).mem = s.mem := by
  unfold State.modLaunch
  split <;> rfl

theorem State.lqueue_modLaunch (s : State) (id : Nat) (f : Launch → Launch) (p k : Nat) : (s.modLaunch id f).lqueue p k = s.lqueue p k := by
  obtain ⟨ls, h⟩ := s.modLaunch_eq id f
  rw [h]
  rfl

theorem State.pkg_modLaunch (s : State) (id : Nat) (f : Launch → Launch) (p : Nat) : (s.modLaunch id f).pkg p = s.pkg p := by
  obtain ⟨ls, h⟩ := s.modLaunch_eq id f
  rw [h]
  rfl

theorem State.lqueue_modLQueue_same (s : State) (pkg q : Nat) (f : LQueue → LQueue) : (s.modLQueue pkg q f).lqueue pkg q = f (s.lqueue pkg q) := by
  rw [State.lqueue, State.modLQueue, State.pkg_modPkg_same, KMap.getD_set_same]
  rfl

theorem State.lqueue_modLQueue (s : State) (pkg q : Nat) (f : LQueue → LQueue) (p k : Nat) :
    (s.modLQueue pkg q f).lqueue p k = if pkg = p ∧ q = k then f (s.lqueue p k) else s.lqueue p k := by
  by_cases hp : pkg = p
  · subst hp
    by_cases hk : q = k
    · subst hk
      rw [if_pos ⟨rfl, rfl⟩, State.lqueue_modLQueue_same]
    · rw [if_neg (fun h => hk h.2), State.lqueue, State.modLQueue, State.pkg_modPkg_same, KMap.getD_set_ne _ _ _ hk]
      rfl
  · rw [if_neg (fun h => hp h.1), State.lqueue, State.modLQueue, State.modPkg, State.pkg_setPkg_ne _ _ hp]
    rfl

/-- The round-robin pointers of a package stay with its queues' changes. -/
theorem State.rr_modLQueue (s : State) (pkg q : Nat) (f : LQueue → LQueue) : ((s.modLQueue pkg q f).pkg pkg).rr = (s.pkg pkg).rr := by
  rw [State.modLQueue, State.pkg_modPkg_same]

theorem State.launchUnmet_unqueue (s : State) (id pkg q k : Nat) : (s.unqueue id pkg q).launchUnmet k = s.launchUnmet k :=
  (State.launchUnmet_testHead _ pkg q k).trans (State.launchUnmet_congr rfl k)

theorem State.lqueue_unqueue (s : State) (id pkg q p k : Nat) : (s.unqueue id pkg q).lqueue p k =
    if pkg = p ∧ q = k then { s.lqueue p k with
      ready := (s.lqueue p k).ready.filter (fun i => decide (i ≠ id)), held := (s.lqueue p k).held.filter (fun i => decide (i ≠ id)) }
    else s.lqueue p k := by
  rw [State.unqueue, State.lqueue_testHead, State.lqueue_modLQueue]

theorem State.rr_unqueue (s : State) (id pkg q : Nat) : ((s.unqueue id pkg q).pkg pkg).rr = (s.pkg pkg).rr := by
  rw [State.unqueue, State.pkg_testHead, State.rr_modLQueue]

/-- Every queue's QCFG is as it was. -/
def State.QcfgKept (s t : State) : Prop := ∀ p k, (t.lqueue p k).qcfg = (s.lqueue p k).qcfg

theorem State.QcfgKept.foldl {α : Type} {f : State → α → State} (hf : ∀ (u : State) (a : α), u.QcfgKept (f u a)) (l : List α) (s : State) :
    s.QcfgKept (l.foldl f s) := by
  induction l generalizing s with
  | nil => exact fun _ _ => rfl
  | cons a l ih => exact fun p k => (ih (f s a) p k).trans (hf s a p k)

theorem State.qcfgKept_modLaunch (s : State) (id : Nat) (f : Launch → Launch) : s.QcfgKept (s.modLaunch id f) :=
  fun p k => congrArg LQueue.qcfg (s.lqueue_modLaunch id f p k)

theorem State.qcfgKept_queueStat (s : State) (pkg q : Nat) (dom : BitVec 12) (code : BitVec 8) (addr : Word) :
    s.QcfgKept (s.queueStat pkg q dom code addr) := by
  intro p k
  unfold State.queueStat
  split
  · rw [State.lqueue_modLQueue]
    split <;> rfl
  · rfl

theorem State.qcfgKept_unqueue (s : State) (id pkg q : Nat) : s.QcfgKept (s.unqueue id pkg q) := by
  intro p k
  rw [State.lqueue_unqueue]
  split <;> rfl

/-- R160: the flush of a packet leaves every QCFG. -/
theorem State.qcfgKept_flushPacket (s : State) (pkg q code id : Nat) : s.QcfgKept (s.flushPacket pkg q code id) := by
  unfold State.flushPacket
  split
  · exact fun _ _ => rfl
  · next x hx =>
    have hstat := s.qcfgKept_queueStat pkg q x.domid (BitVec.ofNat 8 code) x.addr
    split
    · exact fun _ _ => rfl
    · dsimp only
      split
      · exact fun p k => (State.qcfgKept_modLaunch _ _ _ p k).trans (hstat p k)
      · exact fun p k => ((State.qcfgKept_modLaunch _ _ _ p k).trans (State.qcfgKept_unqueue _ _ _ _ p k)).trans (hstat p k)

theorem State.qcfgKept_flushQueue (s : State) (pkg q : Nat) : s.QcfgKept (s.flushQueue pkg q) :=
  .foldl (fun u id => u.qcfgKept_flushPacket pkg q 2 id) _ s

/-! ### Building and releasing threads (R109, R110) -/

/-- R110: the release of a package's built threads leaves launches and queues. -/
theorem State.local_releaseOn (s : State) (id pkg : Nat) : s.Local (s.releaseOn id pkg) := by
  refine .foldl (fun u tid => ?_) _ s
  split
  · next c a _ =>
    cases harr : (u.acquire c sysScope).arrive tid (clusterOf c) (some c) a with
    | none => exact .refl u
    | some t => exact (u.local_acquire c sysScope).trans (State.local_arrive harr)
  · exact .refl u

/-- A thread of a launch that has been built and has its tag and frame, before the launch counts it (R109). -/
def State.placeBuilt (s : State) (id : Nat) (x : Launch) (q : LQueue) (n : Nat) (e : Nat × Nat × Nat) : State :=
  (s.bumpId.setThread s.nextId (launched s id x q e.1 n e.2.1 e.2.2)).equip s.nextId (clusterOf e.2.2)

theorem State.local_placeBuilt (s : State) (id : Nat) (x : Launch) (q : LQueue) (n : Nat) (e : Nat × Nat × Nat) :
    s.Local (s.placeBuilt id x q n e) :=
  (s.local_bumpId.trans (State.local_setThread _ _ _)).trans (State.local_equip _ _ _)

theorem State.buildThread_eq (s : State) (id : Nat) (x : Launch) (q : LQueue) (n : Nat) (e : Nat × Nat × Nat) :
    s.buildThread id x q n e = (s.placeBuilt id x q n e).modLaunch id (fun x =>
      { x with alive := x.alive + 1, threads := x.threads + 1, members := x.members ++ [s.nextId] }) := rfl

/-- R109: what the building of one thread leaves of its launch, and of queues. -/
theorem State.buildThread_spec {s : State} {id : Nat} {z : Launch} (h : s.launch id = some z) (x : Launch) (q : LQueue) (n : Nat) (e : Nat × Nat × Nat) :
    (s.buildThread id x q n e).launch id =
      some { z with alive := z.alive + 1, threads := z.threads + 1, members := z.members ++ [s.nextId] } ∧
      (s.buildThread id x q n e).packages = s.packages := by
  have hl := s.local_placeBuilt id x q n e
  have hz : (s.placeBuilt id x q n e).launch id = some z := (congrArg (KMap.find · id) hl.launches).trans h
  rw [State.buildThread_eq]
  exact ⟨State.launch_modLaunch_same hz _, (State.packages_modLaunch _ _ _).trans hl.packages⟩

theorem State.foldl_buildThread_spec {s : State} {id : Nat} {z : Launch} (h : s.launch id = some z) (x : Launch) (q : State → LQueue) (n : Nat)
    (l : List (Nat × Nat × Nat)) :
    (∃ a ms, (l.foldl (fun s e => s.buildThread id x (q s) n e) s).launch id =
      some { z with alive := a, threads := z.threads + l.length, members := ms }) ∧
      (l.foldl (fun s e => s.buildThread id x (q s) n e) s).packages = s.packages := by
  induction l generalizing s z with
  | nil => exact ⟨⟨z.alive, z.members, h⟩, rfl⟩
  | cons e l ih =>
    obtain ⟨hone, hpkgs⟩ := State.buildThread_spec h x (q s) n e
    obtain ⟨⟨a, ms, hrest⟩, hpkgs'⟩ := ih hone
    refine ⟨⟨a, ms, ?_⟩, hpkgs'.trans hpkgs⟩
    have hlen : z.threads + 1 + l.length = z.threads + (e :: l).length := by rw [List.length_cons]; omega
    rw [List.foldl_cons, hrest, ← hlen]

/-- R109, R110: what a package that builds its threads of a launch leaves of the launch, and of queues. -/
theorem State.buildOn_spec {s : State} {id : Nat} {x : Launch} (h : s.launch id = some x) (pkg : Nat) :
    (∃ a ms, (s.buildOn id pkg).launch id = some { x with
      alive := a, threads := x.threads + (planFor (s.threadPlan x) pkg).length, members := ms, builtOn := x.builtOn ++ [pkg] }) ∧
      (s.buildOn id pkg).packages = s.packages := by
  obtain ⟨⟨a, ms, hfold⟩, hpkgs⟩ := State.foldl_buildThread_spec h x (fun s => s.lqueue pkg (pkQueue x.words)) (s.threadPlan x).length
    (planFor (s.threadPlan x) pkg)
  unfold State.buildOn
  rw [h]
  exact ⟨⟨a, ms, State.launch_modLaunch_same hfold _⟩, (State.packages_modLaunch _ _ _).trans hpkgs⟩

/-- R107 step 5: a package that starts its threads. -/
theorem State.startOn_spec {s : State} {id : Nat} {z : Launch} (h : s.launch id = some z) (pkg : Nat) (x : Launch) (ts : Nat) :
    (∃ y, (s.startOn id pkg x ts).launch id = some y ∧ y.unmet = { z with
      state := .running, start := if z.start = 0 then ts else z.start, released := z.released ++ [pkg] }.unmet) ∧
      (x.replays = 0 → ((s.startOn id pkg x ts).lqueue pkg (pkQueue x.words)).qcfg =
        ((s.lqueue pkg (pkQueue x.words)).qcfg &&& ~~~0xFFFFFFFF#64) ||| ((s.lqueue pkg (pkQueue x.words)).gen + 1).setWidth 64) := by
  unfold State.startOn
  dsimp only
  refine ⟨State.launch_of_launchUnmet ?_, fun h0 => ?_⟩
  · rw [State.launchUnmet_congr (State.local_releaseOn _ id pkg).launches, State.launchUnmet_unqueue]
    have hrec := State.launchUnmet_of_launch (State.launch_modLaunch_same h (fun y => { y with
      state := .running, start := if y.start = 0 then ts else y.start, released := y.released ++ [pkg] }))
    split
    · exact (State.launchUnmet_congr rfl id).trans hrec
    · exact hrec
  · rw [if_pos h0, State.lqueue_congr (State.local_releaseOn _ id pkg).packages, State.lqueue_unqueue, if_pos ⟨rfl, rfl⟩,
      State.lqueue_modLQueue_same, State.lqueue_modLaunch]

end Sys2Proof.Machine
end

section
/-! The life of a launch from its arrivals to its start and cancellation (R104, R107, R108), one lemma per event. -/

namespace Sys2Proof.Machine

/-- R107 steps 2 and 3: the last arrival sets the start time. -/
theorem exec_launchArrival {s : State} {id pkg : Nat} {x : Launch} (hx : s.launch id = some x) (hstate : x.state = .built)
    (hcancel : x.cancelled = false) (hts : x.ts = none) (hbuilt : pkg ∈ x.builtOn) (harr : pkg ∉ x.arrived)
    (hall : ∀ p ∈ x.placed, p = pkg ∨ p ∈ x.arrived) :
    ∃ t y, exec (.launchArrival id pkg) s = .next t ∧ t.launch id = some y ∧ y.arrived = x.arrived ++ [pkg] ∧
      y.ts = some ((s.timeAt (die0 x.pkg)).toNat + 1000) ∧ t.mem = s.mem ∧ t.threads = s.threads := by
  have hlast : x.placed.all (fun p => decide (p = pkg) || x.arrived.contains p) = true := by simpa using hall
  have hgo : ¬(x.state ≠ .built ∨ x.cancelled ∨ x.ts.isSome ∨ !x.builtOn.contains pkg ∨ x.arrived.contains pkg) := by
    simp [hstate, hcancel, hts, hbuilt, harr]
  have hexec : exec (.launchArrival id pkg) s = .next (s.modLaunch id (fun y => { y with
      arrived := y.arrived ++ [pkg], lastArrival := (s.unitTime x.pkg).toNat, ts := some ((s.unitTime x.pkg).toNat + 1000) })) := by
    show execLaunchArrival id pkg s = _
    unfold execLaunchArrival
    rw [hx]
    dsimp only
    rw [if_neg hgo, if_pos hlast]
  obtain ⟨ls, hmod⟩ := s.modLaunch_eq id (fun y => { y with
      arrived := y.arrived ++ [pkg], lastArrival := (s.unitTime x.pkg).toNat, ts := some ((s.unitTime x.pkg).toNat + 1000) })
  refine ⟨_, _, hexec, State.launch_modLaunch_same hx _, rfl, rfl, ?_, ?_⟩
  · rw [hmod]
  · rw [hmod]

/-- R107 steps 4 and 6: START reaches a package late. -/
theorem exec_launchStartMessage_late {s : State} {id pkg ts : Nat} {x : Launch} (hx : s.launch id = some x) (hts : x.ts = some ts)
    (htold : pkg ∉ x.told) (hplaced : pkg ∈ x.placed) (hlate : ts < (s.timeAt (die0 pkg)).toNat) :
    ∃ t y, exec (.launchStartMessage id pkg) s = .next t ∧ t.launch id = some y ∧
      y.late = x.late + 1 ∧ y.told = x.told ++ [pkg] ∧ y.state = .running ∧ y.released = x.released ++ [pkg] := by
  have hgo : ¬(x.told.contains pkg || !x.placed.contains pkg) = true := by simp [htold, hplaced]
  have hexec : exec (.launchStartMessage id pkg) s = .next ((s.modLaunch id (fun x => { x with
      told := x.told ++ [pkg], late := x.late + 1 })).startOn id pkg x ts) := by
    show execLaunchStartMessage id pkg s = _
    unfold execLaunchStartMessage
    rw [hx]
    dsimp only
    rw [hts]
    dsimp only
    rw [if_neg hgo]
    exact congrArg _ (if_pos hlate)
  obtain ⟨⟨y, hy, hun⟩, -⟩ := State.startOn_spec (State.launch_modLaunch_same hx (fun x => { x with
      told := x.told ++ [pkg], late := x.late + 1 })) pkg x ts
  exact ⟨_, y, hexec, hy, (congrArg Launch.late hun : _), (congrArg Launch.told hun : _), (congrArg Launch.state hun : _),
    (congrArg Launch.released hun : _)⟩

/-- R107 step 4: START reaches a package in time. -/
theorem exec_launchStartMessage_inTime {s : State} {id pkg ts : Nat} {x : Launch} (hx : s.launch id = some x) (hts : x.ts = some ts)
    (htold : pkg ∉ x.told) (hplaced : pkg ∈ x.placed) (htime : (s.timeAt (die0 pkg)).toNat ≤ ts) :
    exec (.launchStartMessage id pkg) s = .next (s.modLaunch id (fun x => { x with told := x.told ++ [pkg] })) := by
  have hgo : ¬(x.told.contains pkg || !x.placed.contains pkg) = true := by simp [htold, hplaced]
  show execLaunchStartMessage id pkg s = _
  unfold execLaunchStartMessage
  rw [hx]
  dsimp only
  rw [hts]
  dsimp only
  rw [if_neg hgo]
  exact congrArg _ (if_neg (Nat.not_lt.2 htime))

/-- R106: QGEN after it has advanced. -/
theorem qgen_advanced (v : Word) (g : BitVec 32) : ((v &&& ~~~0xFFFFFFFF#64) ||| g.setWidth 64).extractLsb' 0 32 = g := by
  have hlow : ∀ i < 32, (~~~0xFFFFFFFF#64).getLsbD i = false := by decide
  refine BitVec.eq_of_getLsbD_eq fun i hi => ?_
  rw [BitVec.getLsbD_extractLsb', Nat.zero_add, BitVec.getLsbD_or, BitVec.getLsbD_and, hlow i hi, BitVec.getLsbD_setWidth]
  simp [hi, show i < 64 by omega]

/-- R107 step 5: at the start time a package releases its threads. -/
theorem exec_startTimeRelease {s : State} {id pkg ts : Nat} {x : Launch} (hx : s.launch id = some x) (hts : x.ts = some ts)
    (hrel : pkg ∉ x.released) (htold : pkg ∈ x.told) (htime : ts ≤ (s.timeAt (die0 pkg)).toNat) :
    ∃ t y, exec (.startTimeRelease id pkg) s = .next t ∧ t.launch id = some y ∧ y.state = .running ∧
      y.released = x.released ++ [pkg] ∧ y.start = (if x.start = 0 then ts else x.start) ∧
      (x.replays = 0 → (t.lqueue pkg (pkQueue x.words)).qcfg.extractLsb' 0 32 =
        (s.lqueue pkg (pkQueue x.words)).qcfg.extractLsb' 0 32 + 1) := by
  have hgo : (x.told.contains pkg && decide (ts ≤ (s.unitTime pkg).toNat)) = true :=
    Bool.and_eq_true_iff.2 ⟨by simpa using htold, decide_eq_true htime⟩
  have hexec : exec (.startTimeRelease id pkg) s = .next (s.startOn id pkg x ts) := by
    show execStartTimeRelease id pkg s = _
    unfold execStartTimeRelease
    rw [hx]
    dsimp only
    rw [if_neg (by simpa using hrel), hts]
    exact congrArg _ (if_pos hgo)
  obtain ⟨⟨y, hy, hun⟩, hq⟩ := State.startOn_spec hx pkg x ts
  refine ⟨_, y, hexec, hy, (congrArg Launch.state hun : _), (congrArg Launch.released hun : _), (congrArg Launch.start hun : _), fun h0 => ?_⟩
  rw [hq h0, qgen_advanced]
  rfl

/-! ### Cancellation (R108) -/

/-- A change of state that leaves the launches' records, but for whether their clauses are met. -/
def State.RecordsKept (s t : State) : Prop := ∀ id, t.launchUnmet id = s.launchUnmet id

theorem State.RecordsKept.foldl {α : Type} {f : State → α → State} (hf : ∀ (u : State) (a : α), u.RecordsKept (f u a)) (l : List α) (s : State) :
    s.RecordsKept (l.foldl f s) := by
  induction l generalizing s with
  | nil => exact fun _ => rfl
  | cons a l ih => exact fun id => (ih (f s a) id).trans (hf s a id)

theorem exec_startBarrierCancel {s : State} {id : Nat} {x : Launch} (hx : s.launch id = some x) (hcancel : x.cancelled = true)
    (hts : x.ts = none) (hstate : x.state ≠ .committing) :
    ∃ t y, exec (.startBarrierCancel id) s = .next t ∧ t.launch id = some y ∧ y.state = .committing ∧ y.status = 4 ∧ y.alive = 0 := by
  have hgo : ¬(!x.cancelled || x.ts.isSome || decide (x.state = .committing)) = true := by simp [hcancel, hts, hstate]
  have hdrop := State.RecordsKept.foldl (f := State.dropThread) (fun _ _ => State.launchUnmet_congr rfl)
    (x.placed.flatMap (fun p => s.builtIn id p)) s
  have hunq := State.RecordsKept.foldl (f := fun s p => s.unqueue id p (pkQueue x.words)) (fun u p => u.launchUnmet_unqueue id p _)
    x.placed ((x.placed.flatMap (fun p => s.builtIn id p)).foldl State.dropThread s)
  obtain ⟨y, hy, hun⟩ := State.launch_of_launchUnmet (((hunq id).trans (hdrop id)).trans (State.launchUnmet_of_launch hx))
  have hexec : exec (.startBarrierCancel id) s = .next ((x.placed.foldl (fun s p => s.unqueue id p (pkQueue x.words))
      ((x.placed.flatMap (fun p => s.builtIn id p)).foldl State.dropThread s)).modLaunch id (fun x =>
        { x with state := .committing, alive := 0, status := 4 })) := by
    show execStartBarrierCancel id s = _
    unfold execStartBarrierCancel
    rw [hx]
    exact congrArg _ (if_neg hgo)
  exact ⟨_, _, hexec, State.launch_modLaunch_same hy _, rfl, rfl, rfl⟩

end Sys2Proof.Machine
end

section
/-! The end of a launch: its retirement (R103, R451), its strike (R447) and its replay (R449). -/

namespace Sys2Proof.Machine

/-! ### Retirement -/

/-- A launch is over: it has no record, and nothing is written in its shadow. -/
def State.Retired (s : State) (id : Nat) : Prop := s.launch id = none ∧ ∀ g ∈ s.shadows, g.launch ≠ id

theorem State.Local.retired {s t : State} (h : s.Local t) {id : Nat} (k : s.Retired id) : t.Retired id := by
  unfold State.Retired State.launch
  rw [h.launches, h.shadows]
  exact k

theorem State.retired_testClauses {s : State} {id : Nat} (k : s.Retired id) (cl n count : Nat) : (s.testClauses cl n count).Retired id := by
  refine ⟨?_, k.2⟩
  unfold State.launch State.testClauses
  refine (KMap.find_map_key s.launches _ (fun p => ?_) id).trans ?_
  · split <;> rfl
  · rw [show KMap.find s.launches id = none from k.1]
    rfl

theorem State.retired_serveSema {s : State} {id : Nat} (k : s.Retired id) (cl n fuel : Nat) : (s.serveSema cl n fuel).Retired id := by
  induction fuel generalizing s with
  | zero => exact k
  | succ fuel ih =>
    unfold State.serveSema
    dsimp only
    split
    · exact k
    · split
      · split
        · exact ih k
        · refine ih ?_
          split
          · exact (State.local_complete _ _ _ _).retired (State.retired_testClauses k cl n _)
          · exact State.retired_testClauses k cl n _
      · exact k

/-- R21: the signal of its semaphore by a launch that is over. -/
theorem State.retired_signal {s : State} {id : Nat} (k : s.Retired id) (cl : Nat) (c : Clauses) : (s.signal cl c).Retired id := by
  unfold State.signal
  split
  · exact k
  · unfold State.semaAdd State.semaChange
    exact State.retired_serveSema (State.retired_testClauses (s := s.setSema cl c.ss.toNat _) k cl _ _) cl _ _

theorem State.shadows_discardShadows (s : State) (id : Nat) : ∀ g ∈ (s.discardShadows id).shadows, g.launch ≠ id := by
  intro g hg
  simpa using (List.mem_filter.1 hg).2

theorem State.shadows_commitShadows (s : State) (id : Nat) : ∀ g ∈ (s.commitShadows id).shadows, g.launch ≠ id := by
  intro g hg
  simpa using (List.mem_filter.1 hg).2

theorem exec_launchRetire {s : State} {id : Nat} {x : Launch} (hx : s.launch id = some x)
    (hover : x.state = .committing ∨ (x.state = .running ∧ x.alive = 0 ∧ x.struck = false ∧ ∀ p ∈ x.placed, p ∈ x.released))
    (hbusy : s.launchBusy id x = false) (hcomplete : pkComplete x.words = false) :
    ∃ t, exec (.launchRetire id) s = .next t ∧ t.Retired id := by
  have hended : (decide (x.state = .committing) ||
      (decide (x.state = .running) && decide (x.alive = 0) && !x.struck && x.placed.all (fun p => x.released.contains p))) = true := by
    rcases hover with h | ⟨hrun, halive, hstruck, hall⟩
    · simp [h]
    · simpa [hrun, halive, hstruck] using hall
  have hexec : exec (.launchRetire id) s = .next (s.retireLaunch id x) := by
    show execLaunchRetire id s = _
    unfold execLaunchRetire
    rw [hx]
    dsimp only
    rw [hended, hbusy]
    rfl
  refine ⟨_, hexec, ?_⟩
  unfold State.retireLaunch
  dsimp only
  rw [hcomplete, Bool.false_and, if_neg Bool.false_ne_true]
  refine State.retired_signal ⟨?_, ?_⟩ _ _
  · exact (KMap.find_erase _ id id).trans (if_pos rfl)
  · show ∀ g ∈ (if x.finalStatus = 0 then s.commitShadows id else s.discardShadows id).shadows, g.launch ≠ id
    split
    · exact s.shadows_commitShadows id
    · exact s.shadows_discardShadows id

/-! ### Strikes -/

/-- A queue of a package is torn down for a launch, and its packets that have not started are flushed. -/
def State.tearOne (x : Launch) (s : State) (p : Nat) : State :=
  (s.modLQueue p (pkQueue x.words) (fun y =>
    { y with qcfg := y.qcfg ||| 0x4000000000000000, qstat := 3#8 ++ x.addr.extractLsb' 0 56 })).flushQueue p (pkQueue x.words)

theorem State.tearDown_eq (s : State) (x : Launch) : s.tearDown x = (packagesOf x.pmask).foldl (State.tearOne x) s := rfl

/-- The queue of a launch is torn down in a package. -/
def State.Torn (s : State) (x : Launch) (p : Nat) : Prop := bit (s.lqueue p (pkQueue x.words)).qcfg 62 = true

theorem State.torn_tearOne {s : State} {x : Launch} {p k : Nat} (h : k = p ∨ s.Torn x p) : (s.tearOne x k).Torn x p := by
  unfold State.Torn State.tearOne
  rw [State.qcfgKept_flushQueue, State.lqueue_modLQueue]
  split
  · show ((s.lqueue p (pkQueue x.words)).qcfg ||| 0x4000000000000000#64).getLsbD 62 = true
    rw [BitVec.getLsbD_or, show (0x4000000000000000#64).getLsbD 62 = true by decide, Bool.or_true]
  · next hk => exact h.resolve_left fun e => hk ⟨e, rfl⟩

theorem State.torn_foldl_tearOne {x : Launch} {p : Nat} (l : List Nat) (s : State) (h : p ∈ l ∨ s.Torn x p) :
    (l.foldl (State.tearOne x) s).Torn x p := by
  induction l generalizing s with
  | nil => exact h.resolve_left List.not_mem_nil
  | cons k l ih =>
    refine ih _ ?_
    rcases h with h | h
    · rcases List.mem_cons.1 h with h | h
      · exact .inr (State.torn_tearOne (.inl h.symm))
      · exact .inl h
    · exact .inr (State.torn_tearOne (.inr h))

/-- R447: a struck launch that is not replayable has its queues torn down. -/
theorem exec_launchStrike_tear {s : State} {id : Nat} {x : Launch} (hx : s.launch id = some x) (hstruck : x.struck = true)
    (hreplay : pkReplay x.words = false) :
    ∃ t, exec (.launchStrike id) s = .next t ∧ ∀ p, p < 64 → bit x.pmask p = true → t.Torn x p := by
  have hexec : exec (.launchStrike id) s = .next (((s.modLaunch id (fun x => { x with struck := false })).modLaunch id
      (fun x => { x with status := 3 })).tearDown x) := by
    show execLaunchStrike id s = _
    unfold execLaunchStrike
    rw [hx]
    dsimp only
    rw [hstruck, hreplay]
    rfl
  refine ⟨_, hexec, fun p hp hmask => ?_⟩
  rw [State.tearDown_eq]
  exact State.torn_foldl_tearOne _ _ (.inl (List.mem_filter.2 ⟨List.mem_range.2 hp, hmask⟩))

/-- R449: a struck launch that is replayable begins a replay, up to eight times. -/
theorem exec_launchStrike_replay {s : State} {id : Nat} {x : Launch} (hx : s.launch id = some x) (hstruck : x.struck = true)
    (hreplay : pkReplay x.words = true) (hless : x.replays < 8) :
    exec (.launchStrike id) s = .next ((s.modLaunch id (fun x => { x with struck := false })).modLaunch id
      (fun x => { x with state := .replaying })) := by
  show execLaunchStrike id s = _
  unfold execLaunchStrike
  rw [hx]
  dsimp only
  rw [hstruck, hreplay, if_pos hless]
  rfl

/-! ### Replays -/

theorem State.discardShadows_nil {s : State} (h : s.shadows = []) (id : Nat) : s.discardShadows id = s := by
  unfold State.discardShadows
  rw [h]
  show { s with shadows := [] } = s
  rw [← h]

/-- The packages of a launch build their threads: what stays of its record. -/
theorem State.foldl_buildOn_spec {s : State} {id : Nat} {z : Launch} (h : s.launch id = some z) (l : List Nat) :
    ∃ y, (l.foldl (fun s p => s.buildOn id p) s).launch id = some y ∧ y.state = z.state ∧ y.replays = z.replays ∧
      y.killed = z.killed ∧ y.ts = z.ts := by
  induction l generalizing s z with
  | nil => exact ⟨z, h, rfl, rfl, rfl, rfl⟩
  | cons p l ih =>
    obtain ⟨⟨a, ms, hone⟩, -⟩ := State.buildOn_spec h p
    have hrest := ih hone
    exact hrest

/-- R449 step 5: the words of a launch that is built again, from what its save area holds. -/
def Launch.savedWords (x : Launch) (v : Nat) : List Word :=
  (List.range 16).map (fun i => if 9 ≤ i ∧ i ≤ 13 then x.words.getD i 0 else ((List.range 16).map (wordAt v)).getD i 0)

/-- R449: the record of a launch that is about to be built again. -/
def Launch.rebuilt (x : Launch) (ws : List Word) : Launch := { x with
  words := ws, state := .built, alive := 0, threads := 0, killed := 0, members := [], replays := Nat.min (x.replays + 1) 255, builtOn := []
  arrived := [], ts := none, told := [], released := [] }

/-- R449: a replay whose threads and writes are gone builds the launch again. -/
theorem exec_launchReplay {s s1 : State} {id v : Nat} {x : Launch} (hx : s.launch id = some x) (hstate : x.state = .replaying)
    (hthreads : ∀ p ∈ s.threads, p.2.launch ≠ some id ∨ p.2.place = .ended) (hbusy : s.launchBusy id x = false) (hshadows : s.shadows = [])
    (hargs : x.words.getD 3 0 = 0) (hread : s.readRange x.ctx (x.words.getD 13 0).toNat 4225 = .ok s1 v) (hx1 : s1.launch id = some x) :
    ∃ t y, exec (.launchReplay id) s = .next t ∧ t.launch id = some y ∧ y.state = .built ∧ y.replays = min (x.replays + 1) 255 ∧
      y.killed = 0 ∧ y.ts = none := by
  have hended : s.threads.any (fun p => decide (p.2.launch = some id) && decide (p.2.place ≠ .ended)) = false := by
    rw [List.any_eq_false]
    intro p hp
    rcases hthreads p hp with h | h <;> simp [h]
  have hargs' : (x.words.getD 3 0).toNat = 0 := by rw [hargs]; rfl
  have hexec : exec (.launchReplay id) s = .next (s.replayBuild id x) := by
    show execLaunchReplay id s = _
    unfold execLaunchReplay
    rw [hx]
    dsimp only
    rw [if_neg (not_not.2 hstate), hended, hbusy]
    rfl
  obtain ⟨y, hy, hst, hrep, hkill, hts⟩ := State.foldl_buildOn_spec (State.launch_modLaunch_same hx1 (Launch.rebuilt · (x.savedWords v))) x.placed
  refine ⟨_, y, hexec, ?_, hst, hrep, hkill, hts⟩
  rw [← hy]
  unfold State.replayBuild
  dsimp only
  rw [State.discardShadows_nil hshadows, hread]
  dsimp only
  rw [if_pos hargs']
  rfl

end Sys2Proof.Machine
end

section
/-! Starts and held packets (R97, R106, R107, R109). -/

namespace Sys2Proof.Machine

theorem State.launch_of_eligible {s : State} {pkg q id : Nat} {x : Launch} (h : s.eligible pkg q = some (id, x)) : s.launch id = some x := by
  unfold State.eligible at h
  split at h
  · cases h
  · split at h
    · cases h
    · next k _ _ y hy =>
      split at h
      · cases h
        exact hy
      · cases h

/-- A launch's threads are built at a package, and the queue is the last that it has served (R97). -/
def State.buildHead (s : State) (pkg q id : Nat) : State :=
  (s.buildOn id pkg).modPkg pkg (fun p => { p with rr := p.rr.set (s.lqueue pkg q).qpri q })

/-- R97: what the unit does with the head packet whose turn it is. -/
theorem exec_launchStart {s : State} {pkg q id : Nat} {x : Launch} (hq : s.nextQueue pkg = some q) (hel : s.eligible pkg q = some (id, x)) :
    exec (.launchStart pkg q) s = .next (
      if x.multi && (s.threadPlan x).isEmpty then (s.buildHead pkg q id).startOn id pkg x (s.unitTime pkg).toNat
      else if x.multi then (s.buildHead pkg q id).modLaunch id (fun x => { x with state := .built })
      else (((s.buildHead pkg q id).modLaunch id (fun x =>
        { x with state := .running, start := (s.unitTime pkg).toNat, released := [pkg] })).unqueue id pkg q).releaseOn id pkg) := by
  show execLaunchStart pkg q s = _
  unfold execLaunchStart
  rw [if_neg (not_not.2 hq), hel]
  rfl

/-- The record of a launch after a package has built its threads. -/
theorem State.buildHead_spec {s : State} {id : Nat} {x : Launch} (hx : s.launch id = some x) (pkg q : Nat) :
    (∃ a ms, (s.buildHead pkg q id).launch id = some { x with
      alive := a, threads := x.threads + (planFor (s.threadPlan x) pkg).length, members := ms, builtOn := x.builtOn ++ [pkg] }) ∧
      ((s.buildHead pkg q id).pkg pkg).rr = (s.pkg pkg).rr.set (s.lqueue pkg q).qpri q := by
  obtain ⟨hrec, hpkgs⟩ := State.buildOn_spec hx pkg
  refine ⟨hrec, ?_⟩
  rw [State.buildHead, State.pkg_modPkg_same]
  show ((s.buildOn id pkg).pkg pkg).rr.set _ _ = _
  rw [State.pkg, hpkgs]
  rfl

/-- R107 step 1: a package of a multi-package launch builds its threads and waits for START. -/
theorem exec_launchStart_multi {s : State} {pkg q id : Nat} {x : Launch} (hq : s.nextQueue pkg = some q)
    (hel : s.eligible pkg q = some (id, x)) (hmulti : x.multi = true) (hplan : s.threadPlan x ≠ []) :
    ∃ t y, exec (.launchStart pkg q) s = .next t ∧ t.launch id = some y ∧ y.state = .built ∧ y.builtOn = x.builtOn ++ [pkg] ∧
      y.threads = x.threads + (planFor (s.threadPlan x) pkg).length ∧ (t.pkg pkg).rr = (s.pkg pkg).rr.set (s.lqueue pkg q).qpri q := by
  obtain ⟨⟨a, ms, hrec⟩, hrr⟩ := State.buildHead_spec (State.launch_of_eligible hel) pkg q
  have hexec := exec_launchStart hq hel
  rw [if_neg (by simp [hplan]), if_pos hmulti] at hexec
  exact ⟨_, _, hexec, State.launch_modLaunch_same hrec _, rfl, rfl, rfl, (congrArg Package.rr (State.pkg_modLaunch _ _ _ _)).trans hrr⟩

/-- R109: a package of a multi-package launch for which no core qualifies starts at once. -/
theorem exec_launchStart_none {s : State} {pkg q id : Nat} {x : Launch} (hq : s.nextQueue pkg = some q)
    (hel : s.eligible pkg q = some (id, x)) (hmulti : x.multi = true) (hplan : s.threadPlan x = []) :
    ∃ t y, exec (.launchStart pkg q) s = .next t ∧ t.launch id = some y ∧ y.state = .running ∧
      y.released = x.released ++ [pkg] ∧ y.threads = x.threads := by
  obtain ⟨⟨a, ms, hrec⟩, -⟩ := State.buildHead_spec (State.launch_of_eligible hel) pkg q
  have hexec := exec_launchStart hq hel
  rw [if_pos (by simp [hmulti, hplan])] at hexec
  obtain ⟨⟨y, hy, hun⟩, -⟩ := State.startOn_spec hrec pkg x (s.unitTime pkg).toNat
  have hthreads : y.threads = x.threads + (planFor (s.threadPlan x) pkg).length := congrArg Launch.threads hun
  rw [hplan] at hthreads
  exact ⟨_, y, hexec, hy, (congrArg Launch.state hun : _), (congrArg Launch.released hun : _), hthreads⟩

/-- R97, R109, R110: a single-package launch runs at once. -/
theorem exec_launchStart_single {s : State} {pkg q id : Nat} {x : Launch} (hq : s.nextQueue pkg = some q)
    (hel : s.eligible pkg q = some (id, x)) (hmulti : x.multi = false) :
    ∃ t y, exec (.launchStart pkg q) s = .next t ∧ t.launch id = some y ∧ y.state = .running ∧ y.released = [pkg] ∧
      y.threads = x.threads + (planFor (s.threadPlan x) pkg).length ∧ id ∉ (t.lqueue pkg q).ready ∧
      (t.pkg pkg).rr = (s.pkg pkg).rr.set (s.lqueue pkg q).qpri q := by
  obtain ⟨⟨a, ms, hrec⟩, hrr⟩ := State.buildHead_spec (State.launch_of_eligible hel) pkg q
  have hexec := exec_launchStart hq hel
  rw [if_neg (by simp [hmulti]), if_neg (by simp [hmulti])] at hexec
  have hrun := State.launchUnmet_of_launch (State.launch_modLaunch_same hrec (fun x =>
    { x with state := .running, start := (s.unitTime pkg).toNat, released := [pkg] }))
  have hlocal := State.local_releaseOn (((s.buildHead pkg q id).modLaunch id (fun x =>
    { x with state := .running, start := (s.unitTime pkg).toNat, released := [pkg] })).unqueue id pkg q) id pkg
  obtain ⟨y, hy, hun⟩ := State.launch_of_launchUnmet
    (((State.launchUnmet_congr hlocal.launches id).trans (State.launchUnmet_unqueue _ id pkg q id)).trans hrun)
  refine ⟨_, y, hexec, hy, (congrArg Launch.state hun : _), (congrArg Launch.released hun : _), (congrArg Launch.threads hun : _), ?_, ?_⟩
  · rw [State.lqueue_congr hlocal.packages, State.lqueue_unqueue, if_pos ⟨rfl, rfl⟩]
    simp
  · rw [State.pkg, hlocal.packages]
    exact (State.rr_unqueue _ id pkg q).trans ((congrArg Package.rr (State.pkg_modLaunch _ _ _ _)).trans hrr)

/-! ### Packets that are held aside (R106) -/

theorem backOff_pos (n : Nat) : 0 < backOff n := Nat.lt_min.2 ⟨by decide, by positivity⟩

/-- A copy that a package's queue does not refuse. -/
theorem State.placeCopy_accepted {s : State} {id p : Nat} {x : Launch} (hx : s.launch id = some x)
    (haccept : s.queueRefuses p x.words x.domid true (x.host && decide (p = x.pkg)) = none) :
    ∃ k, s.placeCopy id p =
      let s1 := s.modLaunch id (fun x => { x with resend := x.resend.filter (fun r => decide (r.1 ≠ p)) })
      if 8 ≤ (s.lqueue p (pkQueue x.words)).held.length then
        s1.modLaunch id (fun x => { x with resend := x.resend ++ [(p, k, s.cycle + backOff k)] })
      else s1.modLQueue p (pkQueue x.words) (fun y => { y with held := y.held ++ [id] }) := by
  unfold State.placeCopy
  rw [hx]
  dsimp only
  rw [haccept]
  exact ⟨_, rfl⟩

/-- R106: a copy that its queue does not refuse is held aside while the list has room, and comes again later when it has none. -/
theorem exec_multiPackageHoldRelease_due {s : State} {pkg q id : Nat} {x : Launch} (hdue : s.copyDue pkg q = some id)
    (hx : s.launch id = some x) (hqueue : pkQueue x.words = q)
    (haccept : s.queueRefuses pkg x.words x.domid true (x.host && decide (pkg = x.pkg)) = none) :
    ∃ t y, exec (.multiPackageHoldRelease pkg q) s = .next t ∧ t.launch id = some y ∧ t.mem = s.mem ∧
      ((s.lqueue pkg q).held.length < 8 → (t.lqueue pkg q).held = (s.lqueue pkg q).held ++ [id] ∧ ∀ r ∈ y.resend, r.1 ≠ pkg) ∧
      (8 ≤ (s.lqueue pkg q).held.length → (t.lqueue pkg q).held = (s.lqueue pkg q).held ∧ ∃ r ∈ y.resend, r.1 = pkg ∧ s.cycle < r.2.2) := by
  subst hqueue
  obtain ⟨k, hplace⟩ := State.placeCopy_accepted hx haccept
  have hexec : exec (.multiPackageHoldRelease pkg (pkQueue x.words)) s = .next (s.placeCopy id pkg) := by
    show execMultiPackageHoldRelease pkg (pkQueue x.words) s = _
    unfold execMultiPackageHoldRelease
    rw [hdue]
  rw [hplace] at hexec
  dsimp only at hexec
  have hfirst := State.launch_modLaunch_same hx (fun x => { x with resend := x.resend.filter (fun r => decide (r.1 ≠ pkg)) })
  by_cases hfull : 8 ≤ (s.lqueue pkg (pkQueue x.words)).held.length
  · rw [if_pos hfull] at hexec
    refine ⟨_, _, hexec, State.launch_modLaunch_same hfirst _, ?_, fun h => absurd h (Nat.not_lt.2 hfull), fun _ => ⟨?_, ?_⟩⟩
    · rw [State.mem_modLaunch, State.mem_modLaunch]
    · rw [State.lqueue_modLaunch, State.lqueue_modLaunch]
    · exact ⟨(pkg, k, s.cycle + backOff k), List.mem_append_right _ List.mem_cons_self, rfl, Nat.lt_add_of_pos_right (backOff_pos k)⟩
  · rw [if_neg hfull] at hexec
    refine ⟨_, _, hexec, hfirst, State.mem_modLaunch _ _ _, fun _ => ⟨?_, fun r hr => ?_⟩, fun h => absurd h hfull⟩
    · rw [State.lqueue_modLQueue_same, State.lqueue_modLaunch]
    · simpa using (List.mem_filter.1 hr).2

/-- R106: a packet held aside whose GEN equals QGEN moves to the head of its queue. -/
theorem exec_multiPackageHoldRelease_held {s : State} {pkg q id : Nat} {x : Launch} (hdue : s.copyDue pkg q = none)
    (hheld : (s.lqueue pkg q).held = [id]) (hx : s.launch id = some x) (hgen : pkGen x.words = (s.lqueue pkg q).qcfg.extractLsb' 0 32)
    (hcancel : x.cancelled = false) :
    ∃ t, exec (.multiPackageHoldRelease pkg q) s = .next t ∧ (t.lqueue pkg q).ready = id :: (s.lqueue pkg q).ready ∧
      (t.lqueue pkg q).held = [] ∧ t.mem = s.mem := by
  have hexec : exec (.multiPackageHoldRelease pkg q) s = .next ((s.modLQueue pkg q (fun x =>
      { x with held := x.held.filter (fun i => decide (i ≠ id)), ready := id :: x.ready })).testHead pkg q) := by
    show execMultiPackageHoldRelease pkg q s = _
    unfold execMultiPackageHoldRelease
    dsimp only
    rw [hdue, hheld]
    dsimp only
    rw [List.find?_cons, hx]
    dsimp only
    rw [hcancel, hgen]
    rw [show ((s.lqueue pkg q).qcfg.extractLsb' 0 32 == (s.lqueue pkg q).gen && !false) = true by
      simp [LQueue.gen]]
  refine ⟨_, hexec, ?_, ?_, ?_⟩
  · rw [State.lqueue_testHead, State.lqueue_modLQueue_same]
  · rw [State.lqueue_testHead, State.lqueue_modLQueue_same]
    show (s.lqueue pkg q).held.filter _ = []
    rw [hheld]
    simp
  · obtain ⟨ls, h⟩ := (s.modLQueue pkg q (fun x =>
      { x with held := x.held.filter (fun i => decide (i ≠ id)), ready := id :: x.ready })).testHead_eq pkg q
    rw [h]
    rfl

end Sys2Proof.Machine
end

section
/-! Requests to the launch unit (R98, R100, R101, R156, R157, R159, R160). -/

namespace Sys2Proof.Machine

theorem State.modPkg_congr {s : State} {k : Nat} {f g : Package → Package} (h : f (s.pkg k) = g (s.pkg k)) : s.modPkg k f = s.modPkg k g :=
  congrArg (s.setPkg k) h

/-! ### Requests for launches -/

section
variable {s : State} {pkg : Nat} {r : LaunchReq} {who : Asker}

/-- A package's only request is taken off its list. -/
theorem State.modPkg_reqs_filter (h : (s.pkg pkg).reqs = [r]) :
    s.modPkg pkg (fun p => { p with reqs := p.reqs.filter (fun x => decide (x.id ≠ r.id)) }) = s.modPkg pkg (fun p => { p with reqs := [] }) := by
  refine State.modPkg_congr ?_
  rw [h]
  simp

/-- R436: a stale request is dropped. -/
theorem exec_launchPacketAccept_stale (hreqs : (s.pkg pkg).reqs = [r]) (hwho : r.who = some who)
    (hstale : s.isLive (clusterOf (unitPos pkg)) who.domid who.cin = false) :
    exec (.launchPacketAccept pkg r.id) s = .next (s.modPkg pkg (fun p => { p with reqs := [] })) := by
  rw [← State.modPkg_reqs_filter hreqs]
  show execLaunchPacketAccept pkg r.id s = _
  unfold execLaunchPacketAccept
  dsimp only
  rw [hreqs, List.find?_cons_of_pos (by simp)]
  dsimp only
  rw [hwho]
  dsimp only
  exact congrArg _ (if_pos (by rw [hstale]; rfl))

/-- R100, R157: what becomes of a request that the launch unit has taken up. -/
def State.tookUp (s : State) (pkg : Nat) (r : LaunchReq) : Accepted → State
  | .over s1 q code =>
    (s1.modPkg pkg (fun p => { p with reqs := p.reqs.filter (fun x => decide (x.id ≠ r.id)) })).launchAnswer pkg r q code
  | .full goal =>
    if (s.pkg pkg).resv.length < 64 then
      (s.modPkg pkg (fun p => { p with reqs := p.reqs.filter (fun x => decide (x.id ≠ r.id)) })).modPkg pkg
        (fun p => { p with resv := p.resv ++ [{ r with till := none, goal := some goal }] })
    else s.bounceRequest pkg r
  | .stall s1 => s1

/-- R100: a package's only request is taken up when it is neither stale nor fenced nor parked. -/
theorem exec_launchPacketAccept_live (hreqs : (s.pkg pkg).reqs = [r]) (hwho : r.who = some who)
    (hlive : s.isLive (clusterOf (unitPos pkg)) who.domid who.cin = true)
    (hfen : (s.cluster (clusterOf (unitPos pkg))).fen = false) (htill : ∀ c, r.till = some c → c ≤ s.cycle) :
    exec (.launchPacketAccept pkg r.id) s = .next (s.tookUp pkg r (s.takeRequest pkg r)) := by
  have hwait : (r.till.any (fun c => decide (s.cycle < c)) || ([r].takeWhile (fun x => decide (x.id ≠ r.id))).any (fun x => x.same r)) = false := by
    cases h : r.till with
    | none => simp
    | some c => simpa using htill c h
  show execLaunchPacketAccept pkg r.id s = _
  unfold execLaunchPacketAccept
  dsimp only
  rw [hreqs, List.find?_cons_of_pos (by simp)]
  dsimp only
  rw [hwho]
  dsimp only
  refine congrArg _ ((if_neg (by rw [hlive]; decide)).trans ((if_neg (by rw [hfen]; decide)).trans ((if_neg (by rw [hwait]; decide)).trans ?_)))
  rw [← hwho]
  cases s.takeRequest pkg r <;> rfl

theorem State.launchAnswer_thread (u : State) (hwho : r.who = some who) (q code : Nat) :
    u.launchAnswer pkg r q code = u.answer who (.value (BitVec.ofNat 64 (256 * q + code))) := by
  unfold State.launchAnswer
  rw [hwho]

/-- R157, R365: the only request, bounced. -/
theorem State.bounceRequest_thread (hreqs : (s.pkg pkg).reqs = [r]) (hwho : r.who = some who)
    (hroom : r.till ≠ none ∨ s.parkFull (clusterOf who.core) = false) :
    s.bounceRequest pkg r = s.modPkg pkg (fun p =>
      { p with reqs := [{ r with bounces := r.bounces + 1, till := some (s.cycle + backOff (r.bounces + 1)) }] }) := by
  have hgo : ¬(r.till.isNone && s.parkFull (clusterOf who.core)) = true := by
    rcases hroom with h | h
    · simp [Option.isNone_iff_eq_none, h]
    · simp [h]
  unfold State.bounceRequest
  rw [hwho]
  dsimp only
  rw [if_neg hgo]
  refine State.modPkg_congr ?_
  rw [hreqs]
  simp [hwho]

/-- R157: the only reserved request is placed or refused. -/
theorem exec_launchReservationPlace_over {s1 : State} {q code : Nat} (hresv : (s.pkg pkg).resv = [r]) (hwho : r.who = some who)
    (htake : s.takeRequest pkg r = .over s1 q code) (hresv1 : (s1.pkg pkg).resv = [r]) :
    exec (.launchReservationPlace pkg) s =
      .next ((s1.modPkg pkg (fun p => { p with resv := [] })).answer who (.value (BitVec.ofNat 64 (256 * q + code)))) := by
  have hempty : s1.modPkg pkg (fun p => { p with resv := p.resv.filter (fun x => decide (x.id ≠ r.id)) }) =
      s1.modPkg pkg (fun p => { p with resv := [] }) := by
    refine State.modPkg_congr ?_
    rw [hresv1]
    simp
  show execLaunchReservationPlace pkg s = _
  unfold execLaunchReservationPlace
  rw [hresv]
  unfold State.placeReserved
  rw [htake]
  dsimp only
  rw [State.launchAnswer_thread _ hwho, hempty]

/-! ### The checks of a packet (R98) -/

theorem getD_words (v : Nat) {i : Nat} (hi : i < 16) : ((List.range 16).map (wordAt v)).getD i 0 = wordAt v i := by
  rw [List.getD_eq_getElem?_getD, List.getElem?_map, List.getElem?_range hi]
  rfl

/-- A field of a packet that R98 does not allow. -/
def badPacket (v : Nat) : Prop :=
  (wordAt v 0).toNat % 8 ≠ 0 ∨ (wordAt v 2).toNat % 128 ≠ 0 ∨ (wordAt v 8).extractLsb' 53 11 ≠ 0 ∨ wordAt v 9 = 0 ∨
    (wordAt v 10).extractLsb' 38 26 ≠ 0 ∨ (wordAt v 11).extractLsb' 26 38 ≠ 0 ∨ (wordAt v 14).extractLsb' 3 61 ≠ 0 ∨
    (wordAt v 14).extractLsb' 0 3 = 0 ∨ wordAt v 15 ≠ 0

theorem State.packetOk_of_badPacket (s : State) {v : Nat} (h : badPacket v) : s.packetOk ((List.range 16).map (wordAt v)) = false := by
  rw [Bool.eq_false_iff]
  intro hok
  unfold State.packetOk pkTpc at hok
  simp only [getD_words v (show 0 < 16 by decide), getD_words v (show 2 < 16 by decide), getD_words v (show 8 < 16 by decide),
    getD_words v (show 9 < 16 by decide), getD_words v (show 10 < 16 by decide), getD_words v (show 11 < 16 by decide),
    getD_words v (show 14 < 16 by decide), getD_words v (show 15 < 16 by decide), Bool.and_eq_true, beq_iff_eq, bne_iff_ne, decide_eq_true_eq] at hok
  obtain ⟨⟨⟨⟨⟨⟨⟨⟨⟨⟨⟨⟨⟨h0, -⟩, h2⟩, h8⟩, h9⟩, -⟩, h10⟩, h11⟩, -⟩, -⟩, h14⟩, htpc⟩, -⟩, h15⟩ := hok
  have hmod0 : (wordAt v 0).toNat % 8 = 0 := by
    have h := congrArg BitVec.toNat h0
    rwa [BitVec.extractLsb'_toNat, Nat.shiftRight_zero] at h
  have hmod2 : (wordAt v 2).toNat % 128 = 0 := by
    have h := congrArg BitVec.toNat h2
    rwa [BitVec.extractLsb'_toNat, Nat.shiftRight_zero] at h
  have htpc0 : (wordAt v 14).extractLsb' 0 3 ≠ 0 := fun h => htpc (congrArg BitVec.toNat h)
  rcases h with h | h | h | h | h | h | h | h | h
  · exact h hmod0
  · exact h hmod2
  · exact h h8
  · exact h9 h
  · exact h h10
  · exact h h11
  · exact h h14
  · exact htpc0 h
  · exact h h15

/-- R98, R101: a packet that fails a check is refused with code 1. -/
theorem State.takeRequest_bad {s1 : State} {v : Nat} (hwho : r.who = some who)
    (hread : s.readRange (unitCtx (unitPos pkg) who.domid who.cin who.tag who.sup) r.packet.toNat 128 = .ok s1 v)
    (hcomplete : bit (wordAt v 8) 52 = false) (hbad : badPacket v) : ∃ s2 q, s.takeRequest pkg r = .over s2 q 1 := by
  have hcomplete' : pkComplete ((List.range 16).map (wordAt v)) = false := by
    rw [pkComplete, getD_words v (by decide), hcomplete]
  unfold State.takeRequest State.requestCtx
  rw [hwho]
  dsimp only
  rw [hread]
  dsimp only
  rw [s1.packetOk_of_badPacket hbad]
  unfold State.refusePacket
  rw [hcomplete']
  exact ⟨_, _, rfl⟩

end

/-! ### Queue registers (R96, R159, R160) -/

theorem LQueue.reg_eq (x : LQueue) (k : Nat) :
    x.reg k = if k = 0 then x.qcfg else if k = 1 then x.qtvec else if k = 2 then x.qwlim else x.qstat := by
  match k with
  | 0 | 1 | 2 => rfl
  | k + 3 => rw [if_neg (by omega), if_neg (by omega), if_neg (by omega)]; rfl

/-- R96, R159: the bits of QCFG after a write. -/
theorem bit_qcfgWritten (old v : Word) (m : Nat) :
    bit (qcfgWritten old v) m = if m = 62 then bit old 62 else if 44 ≤ m ∧ m ≤ 58 then false else bit v m := by
  have hmask : ∀ m < 64, (~~~0x47FFF00000000000#64).getLsbD m = decide (¬(m = 62 ∨ 44 ≤ m ∧ m ≤ 58)) := by decide
  have htorn : ∀ m < 64, (0x4000000000000000#64).getLsbD m = decide (m = 62) := by decide
  unfold bit qcfgWritten
  rw [BitVec.getLsbD_or, BitVec.getLsbD_and, BitVec.getLsbD_and]
  by_cases hm : m < 64
  · rw [hmask m hm, htorn m hm]
    by_cases h62 : m = 62
    · simp [h62]
    · by_cases hres : 44 ≤ m ∧ m ≤ 58 <;> simp [h62, hres]
  · rw [BitVec.getLsbD_of_ge v m (by omega), BitVec.getLsbD_of_ge old m (by omega), if_neg (by omega), if_neg (by omega)]
    rfl

/-- R160: the write of QCFG gives it its new value, and its side effects leave that. -/
theorem State.qcfg_writeQcfg (s : State) (pkg q : Nat) (v : Word) :
    ((s.writeQcfg pkg q v).lqueue pkg q).qcfg = qcfgWritten (s.lqueue pkg q).qcfg v := by
  have hset (u : State) : ((u.modLQueue pkg q (fun x => { x with qcfg := qcfgWritten (s.lqueue pkg q).qcfg v })).lqueue pkg q).qcfg =
      qcfgWritten (s.lqueue pkg q).qcfg v := by rw [State.lqueue_modLQueue_same]
  unfold State.writeQcfg
  dsimp only
  split
  · exact hset _
  · exact (State.QcfgKept.foldl (fun u id => u.qcfgKept_flushPacket pkg q 1 id) _ _ pkg q).trans (hset _)

/-- R159: what a package does with a request to one of its queues. -/
def State.qctlServed (s : State) (pkg : Nat) (r : QctlReq) (q : Nat) (k : Nat) (x : LQueue) : Nat → State
  | 0 => s.answer r.who (.value <| if decide (x.dom = r.who.domid) || r.who.sup then x.reg k else 0)
  | 1 => (if k = 0 then s.writeQcfg pkg q r.val
      else if k = 1 then s.modLQueue pkg q (fun x => { x with qtvec := r.val })
      else if k = 2 then s.modLQueue pkg q (fun x => { x with qwlim := r.val }) else s).answer r.who (.value (x.reg k))
  | _ => (s.modLQueue pkg q (fun x => { x with qcfg := x.qcfg &&& ~~~0x4000000000000000#64, qstat := 0 })).answer r.who (.value x.qcfg)

/-- R159: a live, unfenced request to the queue registers. -/
theorem exec_qctlWriteApply {s : State} {pkg : Nat} {r : QctlReq} {l : List QctlReq} (hreqs : (s.pkg pkg).qctl = r :: l)
    (hlive : s.isLive (clusterOf (unitPos pkg)) r.who.domid r.who.cin = true)
    (hfen : (s.cluster (clusterOf (unitPos pkg))).fen = false) :
    exec (.qctlWriteApply pkg) s = .next ((s.modPkg pkg (fun p => { p with qctl := l })).qctlServed pkg r (r.sel.extractLsb' 0 6).toNat
      (r.sel.extractLsb' 6 2).toNat (s.lqueue pkg (r.sel.extractLsb' 0 6).toNat) r.form) := by
  show execQctlWriteApply pkg s = _
  unfold execQctlWriteApply
  rw [hreqs]
  dsimp only
  rw [hlive, hfen]
  generalize r.form = form
  generalize (r.sel.extractLsb' 6 2).toNat = k
  match form, k with
  | 0, _ | 1, 0 | 1, 1 | 1, 2 | 1, k + 3 | f + 2, _ => rfl

end Sys2Proof.Machine
end

section
/-! The launch unit and the life of a launch (R97 to R108, R156 to R160, R447, R449): the obligation. -/

namespace Sys2Proof.Machine

/-- Settles O44: each event of a launch is read off the equation of its step, and the building, the start and the end of a launch
leave of its record and of the queues what their lemmas say. -/
theorem launchUnitAndLaunchLife : Obligations.LaunchUnitAndLaunchLife := by
  unfold Obligations.LaunchUnitAndLaunchLife
  refine ⟨⟨fun s s1 pkg r who hreqs hwho => ⟨fun hstale => exec_launchPacketAccept_stale hreqs hwho hstale,
      fun hlive hfen htill => ⟨fun q code htake hreqs1 => ?_, fun goal hfull => ⟨fun hroom => ?_, fun hlong hpark => ?_⟩⟩,
      fun v hread hcomplete hbad => State.takeRequest_bad hwho hread hcomplete hbad⟩,
    fun s s1 pkg q code r who hresv hwho htake hresv1 => exec_launchReservationPlace_over hresv hwho htake hresv1,
    fun s pkg r l hreqs hlive hfen => ?_,
    fun s pkg q id x hq hel => ⟨exec_launchStart_multi hq hel, exec_launchStart_none hq hel, exec_launchStart_single hq hel⟩,
    fun s pkg q id x hdue hx hqueue haccept => exec_multiPackageHoldRelease_due hdue hx hqueue haccept,
    fun s pkg q id x hdue hheld hx hgen hcancel => exec_multiPackageHoldRelease_held hdue hheld hx hgen hcancel⟩,
    fun s id pkg x hx => ⟨exec_launchArrival hx,
      fun ts hts htold hplaced => ⟨exec_launchStartMessage_late hx hts htold hplaced, exec_launchStartMessage_inTime hx hts htold hplaced⟩,
      fun ts hts hrel htold htime => exec_startTimeRelease hx hts hrel htold htime,
      exec_startBarrierCancel hx,
      exec_launchRetire hx,
      exec_launchStrike_replay hx,
      exec_launchStrike_tear hx,
      fun s1 v hstate hthreads hbusy hshadows hargs hread hx1 => exec_launchReplay hx hstate hthreads hbusy hshadows hargs hread hx1⟩⟩
  · rw [exec_launchPacketAccept_live hreqs hwho hlive hfen htill, htake, State.tookUp, State.modPkg_reqs_filter hreqs1,
      State.launchAnswer_thread _ hwho]
  · rw [exec_launchPacketAccept_live hreqs hwho hlive hfen htill, hfull, State.tookUp, if_pos hroom, State.modPkg_reqs_filter hreqs]
  · rw [exec_launchPacketAccept_live hreqs hwho hlive hfen htill, hfull, State.tookUp, if_neg (Nat.not_lt.2 hlong),
      State.bounceRequest_thread hreqs hwho hpark]
  · have hexec := exec_qctlWriteApply hreqs hlive hfen
    dsimp only
    refine ⟨fun hf => ?_, fun hf hk => ?_, fun hf hk => ?_, fun hf hk => ?_, fun hf => ?_⟩ <;> rw [hf] at hexec
    · rw [hexec, State.qctlServed, LQueue.reg_eq]
      exact congrArg (fun v => Host.Outcome.next (State.answer _ _ (.value v)))
        (if_congr (Bool.or_eq_true_iff.trans (or_congr_left decide_eq_true_iff)) rfl rfl)
    · rw [hexec, State.qctlServed, LQueue.reg_eq, if_neg (by rw [hk]; decide), if_pos hk]
    · rw [hexec, State.qctlServed, LQueue.reg_eq, if_neg (by rw [hk]; decide), if_neg (by rw [hk]; decide), if_pos hk]
    · rw [State.qctlServed, LQueue.reg_eq, if_pos hk, if_pos hk] at hexec
      refine ⟨_, fun m => ?_, hexec⟩
      rw [State.qcfg_writeQcfg, bit_qcfgWritten, State.lqueue, State.pkg_modPkg_same]
      rfl
    · exact hexec

end Sys2Proof.Machine
end

section
/-! Requests of channel instructions (R70, R358 to R360, R366, R367): the flit that a thread sends, and what it waits for or goes
on with. -/

namespace Sys2Proof.Machine

/-! ### Flits -/

/-- R378: a flit that is handed to a router. -/
theorem State.sends_sendFlit {s u : State} (h : s.nextId ≤ u.nextId) (from_ dest : Nat) (kind : BitVec 6) (dom : BitVec 12)
    (cin tag : BitVec 16) (pri : BitVec 2) (b : Body) : s.Sends (u.sendFlit from_ dest kind dom cin tag pri b) kind dest b :=
  ⟨u.nextId, _, h, KMap.mem_set_self _ _ _, rfl, rfl, rfl⟩

theorem State.Sends.of_msgs {s t u : State} {kind : BitVec 6} {dest : Nat} {b : Body} (h : s.Sends t kind dest b) (e : u.msgs = t.msgs) :
    s.Sends u kind dest b := by
  obtain ⟨id, f, hid, hmem, hf⟩ := h
  exact ⟨id, f, hid, e.symm ▸ hmem, hf⟩

theorem State.After.msgs {s t : State} {o : Out} (h : s.After t o) : t.msgs = s.msgs := (congrArg State.msgs h.other : _)
theorem State.Cached.msgs {s t : State} (h : s.Cached t) : t.msgs = s.msgs := (congrArg State.msgs h.other : _)

/-! ### The checks of an access use no fresh number -/

theorem State.nextId_paged (s : State) (c : Ctx) (va : Nat) (k : Acc) (allowC : Bool) : (s.paged c va k allowC).1.nextId = s.nextId := by
  unfold State.paged
  dsimp only
  repeat' split
  all_goals rfl

theorem State.nextId_resolve (s : State) (c : Ctx) (va : Word) (k : Acc) (allowC : Bool) : (s.resolve c va k allowC).1.nextId = s.nextId := by
  unfold State.resolve
  repeat' split
  · rfl
  · rfl
  · exact s.nextId_paged c _ k allowC

theorem State.nextId_readPiece {s s1 : State} {c : Ctx} {va n : Nat} {b : Bool} {v : Nat} (h : s.readPiece c va n b = .ok s1 v) :
    s1.nextId = s.nextId := by
  have hres := s.nextId_resolve c (BitVec.ofNat 64 va) .load b
  unfold State.readPiece at h
  dsimp only at h
  split at h
  · cases h
  · cases h
  · next u pa leaf he =>
    rw [he] at hres
    split at h
    · cases h
    · split at h
      · cases h
      · cases h
        exact hres

theorem State.nextId_readRange {s s1 : State} {c : Ctx} {va n : Nat} {b : Bool} {v : Nat} (h : s.readRange c va n b = .ok s1 v) :
    s1.nextId = s.nextId := by
  refine Got.foldl_keeps (fun u => u.nextId = s.nextId) (fun g p hg u x e => ?_) _ _ (fun u x e => by cases e; rfl) _ _ h
  split at e
  · next s2 v2 =>
    split at e
    · next s3 x3 hp =>
      cases e
      exact (State.nextId_readPiece hp).trans (hg _ _ rfl)
    · cases e
    · cases e
  · exact hg _ _ e

/-! ### Requests that are waited for -/

/-- The request of an instruction that waits for its answer from the home of a line. -/
def State.asking (u : State) (t : Thread) (tid : Nat) (counted : Bool) (fin : Fin) (a : Word) (pa pos : Nat) (kind : BitVec 6) (b : Body) : State :=
  ((u.pendOn tid .answer counted fin none a).pendLine tid pa).request t pos kind b

theorem State.thread_asking (u : State) (t : Thread) (tid : Nat) (counted : Bool) (fin : Fin) (a : Word) (pa pos : Nat) (kind : BitVec 6)
    (b : Body) : (u.asking t tid counted fin a pa pos kind b).thread tid = { u.thread tid with
      wait := some .answer, counted := counted, waitAddr := a, iw := u.iword
      since := if (u.thread tid).since.isSome then (u.thread tid).since else some (u.nowOf (u.thread tid))
      pend := some ⟨u.nextId, fin, none, a, [], 0, false, some (lineOf pa)⟩ } := by
  have hblock := u.thread_modThread_same tid (fun t => { t with
    wait := some .answer, counted := counted, waitAddr := a, iw := u.iword, since := if t.since.isSome then t.since else some (u.nowOf t) })
  show ((u.pendOn tid .answer counted fin none a).pendLine tid pa).thread tid = _
  rw [State.pendLine, State.thread_modThread_same, State.pendOn, State.bumpId_thread, State.thread_modThread_same]
  rw [State.block, hblock]
  rfl

theorem State.mem_asking (u : State) (t : Thread) (tid : Nat) (counted : Bool) (fin : Fin) (a : Word) (pa pos : Nat) (kind : BitVec 6)
    (b : Body) : (u.asking t tid counted fin a pa pos kind b).mem = u.mem := rfl

theorem State.mem_finish_pend (s u : State) (takes : List Reg) (outside : Bool) : (s.finish takes outside (.pend u)).mem = u.mem := rfl

/-- A thread that waits for the answer to such a request. -/
def Thread.waiting (t : Thread) (iw : Word) (counted : Bool) (now tok : Nat) (fin : Fin) (a : Word) (pa : Nat) (takes : List Reg) : Thread := { t with
  wait := some .answer, counted := counted, waitAddr := a, iw := iw
  since := if t.since.isSome then t.since else some now
  pend := some ⟨tok, fin, none, a, takes, 0, false, some (lineOf pa)⟩ }

theorem State.waits_asking {s u : State} (hc : s.Cached u) (counted : Bool) (fin : Fin) (a : Word) (pa pos : Nat) (kind : BitVec 6) (b : Body)
    (takes : List Reg) (outside : Bool) :
    s.Waits (s.finish takes outside (.pend (u.asking s.me s.cur counted fin a pa pos kind b))) .answer fin := by
  obtain ⟨hcur, hme⟩ := hc.cur_me
  have hth : (s.finish takes outside (.pend (u.asking s.me s.cur counted fin a pa pos kind b))).thread s.cur =
      s.me.waiting s.iword counted (u.nowOf s.me) u.nextId fin a pa takes := by
    refine (State.thread_modThread_same _ _ _).trans ?_
    rw [State.thread_asking, show u.thread s.cur = s.me from (congrArg u.thread hcur.symm).trans hme]
    rfl
  refine ⟨?_, ?_, ?_, ⟨⟨u.nextId, fin, none, a, takes, 0, false, some (lineOf pa)⟩, ?_, rfl⟩, fun r => ?_, fun x => ?_⟩
  · rw [hth]; rfl
  · rw [hth]; rfl
  · rw [hth]; rfl
  · rw [hth]; rfl
  · rw [hth]
    refine ⟨?_, ?_, ?_⟩ <;> cases r <;> rfl
  · rw [State.byte, State.mem_finish_pend, State.mem_asking, hc.mem, State.byte]

section
variable {i : Instr} {s : State} {g : Guard} {n : Need} {a : Word} {op : ChanOp} {pr counted : Bool} {fin : Fin} {kind : BitVec 6}
  {f : State → Thread → Res} (he : exec i s = run s g n f) (hr : s.runs g n = true) (hf : f s s.me = s.chanIssue s.me a op pr fin counted kind)
include he hr hf

/-- R358: an object that does not lie at a multiple of 8 with its header in one line. -/
theorem chanIssue_misplaced (h : a.toNat % 8 ≠ 0 ∨ 104 < a.toNat % 128) : Traps i s 0x04 a :=
  traps_of he hr (hf.trans (if_pos h))

section
variable {s1 : State} {pa : Nat} {leaf : Option Word} (halign : a.toNat % 8 = 0) (hline : a.toNat % 128 ≤ 104)
  (hreach : s.reach a 8 .store = some (s1, pa, leaf))
include halign hline hreach

omit he hr in
/-- R358: an object that the checks of its address let through. -/
theorem chanIssue_reached : s.Cached s1 ∧ s1.nextId = s.nextId ∧ f s s.me =
    if homeOf pa = .host then .trap cProt a
    else if op.badControl then .trap cDescbad op.control
    else s1.requestOr s.me (homePos (pkgOf s.me.core) (homeOf pa)) <| .pend (s1.asking s.me s.cur counted fin a pa
      (homePos (pkgOf s.me.core) (homeOf pa)) kind (.chan (s.me.asker s.cur s1.nextId (leafShadow leaf)) op pa pr)) := by
  have hres : s.resolve s.me.ctx a .store = (s1, .at pa leaf) := by
    unfold State.reach at hreach
    rw [if_neg (not_not.2 halign)] at hreach
    split at hreach
    · next h => cases hreach; exact h
    all_goals cases hreach
  have hnext := s.nextId_resolve s.me.ctx a .store false
  rw [hres] at hnext
  refine ⟨(State.access_of_reach hreach).2, hnext, hf.trans ?_⟩
  unfold State.chanIssue
  rw [if_neg (by omega), hres]
  rfl

theorem chanIssue_host (h : homeOf pa = .host) : Traps i s 0x05 a := by
  obtain ⟨-, -, hreq⟩ := chanIssue_reached hf halign hline hreach
  exact traps_of he hr (hreq.trans (if_pos h))

theorem chanIssue_badControl (h : homeOf pa ≠ .host) (hbad : op.badControl = true) : Traps i s 0x1A op.control := by
  obtain ⟨-, -, hreq⟩ := chanIssue_reached hf halign hline hreach
  exact traps_of he hr (hreq.trans ((if_neg h).trans (if_pos hbad)))

/-- R366: the request could not be parked if it were refused. -/
theorem chanIssue_overflow (h : homeOf pa ≠ .host) (hgood : op.badControl = false)
    (hlack : clusterOf (homePos (pkgOf s.me.core) (homeOf pa)) ≠ s.me.cluster ∧ s1.sendOverflow s.me.core = true) :
    Traps i s 0x0F (BitVec.ofNat 64 (homePos (pkgOf s.me.core) (homeOf pa))) := by
  obtain ⟨-, -, hreq⟩ := chanIssue_reached hf halign hline hreach
  refine traps_of he hr (hreq.trans ((if_neg h).trans ((if_neg (by simp [hgood])).trans ?_)))
  exact if_pos (by simp [hlack.1, hlack.2])

/-- R358: the operation is sent to the home of its object, and the instruction waits for the answer. -/
theorem chanIssue_sends (h : homeOf pa ≠ .host) (hgood : op.badControl = false)
    (hroomy : clusterOf (homePos (pkgOf s.me.core) (homeOf pa)) = s.me.cluster ∨ s1.sendOverflow s.me.core = false) :
    ∃ t, exec i s = .next t ∧ s.Waits t .answer fin ∧ s.Sends t kind (homePos (pkgOf s.me.core) (homeOf pa))
      (.chan (s.me.asker s.cur s1.nextId (leafShadow leaf)) op pa pr) := by
  obtain ⟨hc, hnext, hreq⟩ := chanIssue_reached hf halign hline hreach
  rw [if_neg h, if_neg (by simp [hgood]), State.requestOr, if_neg (by rcases hroomy with h | h <;> simp [h])] at hreq
  refine ⟨_, by rw [he, run_eq f hr, hreq], State.waits_asking hc counted fin a pa _ kind _ _ _, ?_⟩
  exact (State.sends_sendFlit (u := (s1.pendOn s.cur .answer counted fin none a).pendLine s.cur pa)
    (Nat.le_succ_of_le hnext.ge) _ _ _ _ _ _ _ _).of_msgs rfl

end

end

theorem exec_push (g : Guard) (pr : Bool) (d : Reg) (m : MemOp) (s : State) : exec (.push g pr d m) s =
    run s g { ext := .base, srcs := [m.base, m.index], reads := [d], outside := true } fun s t =>
      s.chanIssue t (MemOp.ea t m) (.push (t.reg d)) pr .nothing true kPush := rfl

theorem exec_pop (g : Guard) (pr : Bool) (d : Reg) (m : MemOp) (s : State) : exec (.pop g pr d m) s =
    run s g { ext := .base, srcs := [m.base, m.index], dests := [d], outside := true } fun s t =>
      s.chanIssue t (MemOp.ea t m) .pop pr (.reg d 8 false) true kPop := rfl

theorem exec_chinit (g : Guard) (d : Reg) (m : MemOp) (s : State) : exec (.chinit g d m) s =
    run s g { ext := .base, srcs := [m.base, m.index], reads := [d], outside := true } fun s t =>
      s.chanIssue t (MemOp.ea t m) (.init (t.reg d)) false .nothing false kWrite := by
  show execChinit g d m s = _
  unfold execChinit memNeed MemOp.srcs
  rfl

end Sys2Proof.Machine
end

section
/-! SEND, SENDM and RECV (R366 to R370). -/

namespace Sys2Proof.Machine

/-! ### Channel addresses -/

theorem State.chanAddr_none {s : State} {w : Word} (h : w.extractLsb' 24 40 ≠ 0 ∨ s.corePresent (w.extractLsb' 0 18).toNat = false) :
    s.chanAddr w = none := by
  unfold State.chanAddr
  dsimp only
  rw [if_neg]
  rintro ⟨h0, hp⟩
  rcases h with h | h
  · exact h h0
  · rw [h] at hp; cases hp

theorem State.chanAddr_some {s : State} {w : Word} (h0 : w.extractLsb' 24 40 = 0) (hp : s.corePresent (w.extractLsb' 0 18).toNat = true) :
    s.chanAddr w = some ((w.extractLsb' 0 18).toNat, (w.extractLsb' 18 6).toNat) := by
  unfold State.chanAddr
  dsimp only
  rw [if_pos ⟨h0, hp⟩]

/-! ### Messages that are sent -/

theorem Thread.afterStores_done {t : Thread} (hgated : t.gated = []) (hstored : t.stored = true) (f : Res) : t.afterStores f = f := by
  simp [Thread.afterStores, hgated, hstored]

theorem State.me_awaitReg (u : State) (d : Reg) : (u.awaitReg u.cur d 8 false false 0 0).me =
    { u.me.empty d with await := u.me.await ++ [⟨u.nextId, destOf d 8 false, false, 0, 0⟩] } :=
  u.me_modThread (fun t => { t.empty d with await := t.await ++ [⟨u.nextId, destOf d 8 false, false, 0, 0⟩] })

/-- R121, R366: an instruction that sends a flit whose answer its g register awaits goes on. -/
theorem asks_of_sendFlit {i : Instr} {s u : State} {g : Guard} {n : Need} {f : State → Thread → Res} {d : Reg} {dest : Nat}
    {kind : BitVec 6} {pri : BitVec 2} {b : Body} (he : exec i s = run s g n f) (hr : s.runs g n = true)
    (hf : f s s.me = .ok ((u.awaitReg s.cur d 8 false false 0 0).sendFlit s.me.core dest kind s.me.domid s.me.cin s.me.tag pri b))
    (hc : s.Cached u) (hd : n.dests ++ n.fills = [d]) :
    ∃ t, exec i s = .next t ∧ u.Asks t n.srcs d ∧ u.Sends t kind dest b := by
  obtain ⟨hcur, hme⟩ := hc.cur_me
  obtain ⟨t, ht, hafter⟩ := completes_as he hr hf hcur
  refine ⟨t, ht, ?_, (State.sends_sendFlit (u := u.awaitReg s.cur d 8 false false 0 0) (Nat.le_succ _) _ _ _ _ _ _ _ _).of_msgs hafter.msgs⟩
  rw [hd, ← hme] at hafter
  refine hafter.asks (x := u.me.await ++ [⟨u.nextId, destOf d 8 false, false, 0, 0⟩]) rfl ?_ (fun _ => rfl) fun hg => ?_
  · rw [← hcur]
    exact u.me_awaitReg d
  · obtain ⟨k, rfl⟩ : ∃ k, d = .g k := by cases d <;> simp_all [Reg.isG]
    simp [Thread.awaited, destOf]

/-- R366, R367: the effect of SEND. -/
def State.sendAct (d : Reg) (a b : Src) (n : BitVec 3) (s : State) (t : Thread) : Res :=
  match s.chanAddr (t.reg a.reg) with
  | none => .trap cDescbad (t.reg a.reg)
  | some (core, ch) =>
    if !t.domReleased then .wait .domain false 0
    else if s.sendOverflow t.core then .trap 0x0F (t.reg a.reg)
    else .ok ((s.awaitReg s.cur d 8 false false 0 0).request t core kMsg
      (.msg (some (t.asker s.cur s.nextId false)) ⟨ch, (payloadRegs b n).map t.reg, t.core, t.domid, t.cin⟩))

theorem exec_send (g : Guard) (d : Reg) (a b : Src) (n : BitVec 3) (s : State) : exec (.send g d a b n) s =
    run s g { ext := .base, srcs := if n = 0 then [a] else [a, b], reads := payloadRegs b n, dests := [d], outside := true }
      (State.sendAct d a b n) := rfl
theorem exec_sendm (g : Guard) (d : Reg) (a b c : Src) (s : State) : exec (.sendm g d a b c) s = execSendm g d a b c s := rfl
theorem exec_recv (g : Guard) (a : Src) (ch : BitVec 6) (s : State) : exec (.recv g a ch) s = execRecv g a ch s := rfl
theorem exec_chbind (g : Guard) (a b : Src) (ch : BitVec 6) (s : State) : exec (.chbind g a b ch) s = execChbind g a b ch s := rfl
theorem exec_trdy (g : Guard) (r h : Ksc) (d : Reg) (a : Src) (s : State) : exec (.trdy g r h d a) s = execTrdy g r h d a s := rfl

section
variable {s : State} {g : Guard} {d : Reg} {a b : Src} {n : BitVec 3}
  (hr : s.runs g { ext := .base, srcs := if n = 0 then [a] else [a, b], reads := payloadRegs b n, dests := [d], outside := true } = true)
include hr

theorem send_badAddress (h : (s.me.reg a.reg).extractLsb' 24 40 ≠ 0 ∨ s.corePresent ((s.me.reg a.reg).extractLsb' 0 18).toNat = false) :
    Traps (.send g d a b n) s 0x1A (s.me.reg a.reg) := by
  refine traps_of (exec_send g d a b n s) hr ?_
  unfold State.sendAct
  rw [State.chanAddr_none h]

section
variable (h0 : (s.me.reg a.reg).extractLsb' 24 40 = 0) (hp : s.corePresent ((s.me.reg a.reg).extractLsb' 0 18).toNat = true)
  (hrel : s.me.domReleased = true)
include h0 hp hrel

theorem send_overflow (hover : s.sendOverflow s.me.core = true) : Traps (.send g d a b n) s 0x0F (s.me.reg a.reg) := by
  refine traps_of (exec_send g d a b n s) hr ?_
  unfold State.sendAct
  rw [State.chanAddr_some h0 hp]
  dsimp only
  rw [hrel, hover]
  rfl

/-- R366, R367: the message leaves for its channel, and gd awaits the answer. -/
theorem send_sends (hroom : s.sendOverflow s.me.core = false) :
    ∃ t, exec (.send g d a b n) s = .next t ∧ s.Asks t (if n = 0 then [a] else [a, b]) d ∧
      s.Sends t 0x0C ((s.me.reg a.reg).extractLsb' 0 18).toNat (.msg (some (s.me.asker s.cur s.nextId false))
        ⟨((s.me.reg a.reg).extractLsb' 18 6).toNat, (payloadRegs b n).map s.me.reg, s.me.core, s.me.domid, s.me.cin⟩) := by
  refine asks_of_sendFlit (pri := s.me.prio) (exec_send g d a b n s) hr ?_ (.refl s) rfl
  unfold State.sendAct
  rw [State.chanAddr_some h0 hp]
  dsimp only
  rw [hrel, hroom]
  rfl

end

end

section
variable {s : State} {g : Guard} {d : Reg} {a b c : Src}
  (hr : s.runs g { ext := .base, srcs := [a, b, c], dests := [d], outside := true } = true)
include hr

theorem sendm_badAddress (h : (s.me.reg a.reg).extractLsb' 24 40 ≠ 0 ∨ s.corePresent ((s.me.reg a.reg).extractLsb' 0 18).toNat = false) :
    Traps (.sendm g d a b c) s 0x1A (s.me.reg a.reg) := by
  refine traps_of (exec_sendm g d a b c s) hr ?_
  dsimp only
  rw [State.chanAddr_none h]

section
variable (h0 : (s.me.reg a.reg).extractLsb' 24 40 = 0) (hp : s.corePresent ((s.me.reg a.reg).extractLsb' 0 18).toNat = true)
include h0 hp

theorem sendm_tooLong (hlong : 65536 < (s.me.reg c.reg).toNat) : Traps (.sendm g d a b c) s 0x1A (s.me.reg c.reg) := by
  refine traps_of (exec_sendm g d a b c s) hr ?_
  dsimp only
  rw [State.chanAddr_some h0 hp]
  exact if_pos hlong

variable {s1 : State} {data : List Byte} {bad : Bool} (hlen : (s.me.reg c.reg).toNat ≤ 65536) (hgated : s.me.gated = []) (hstored : s.me.stored = true)
  (hread : s.readSource s.me.ctx (s.me.reg b.reg).toNat (s.me.reg c.reg).toNat = .ok s1 (data, bad)) (hc : s.Cached s1)
include hlen hgated hstored hread

theorem sendm_overflow (hover : s1.sendOverflow s.me.core = true) : Traps (.sendm g d a b c) s 0x0F (s.me.reg a.reg) := by
  refine traps_of (exec_sendm g d a b c s) hr ?_
  dsimp only
  rw [State.chanAddr_some h0 hp]
  refine (if_neg (Nat.not_lt.2 hlen)).trans ?_
  rw [Thread.afterStores_done hgated hstored, hread]
  exact if_pos hover

include hc
/-- R370: the bytes of the source leave for the channel, and gd awaits the answer. -/
theorem sendm_sends (hroom : s1.sendOverflow s.me.core = false) :
    ∃ t, exec (.sendm g d a b c) s = .next t ∧ s1.Asks t [a, b, c] d ∧
      s1.Sends t 0x0D ((s.me.reg a.reg).extractLsb' 0 18).toNat
        (.bulk (s.me.asker s.cur s1.nextId false) ((s.me.reg a.reg).extractLsb' 18 6).toNat data (s.me.reg c.reg).toNat) := by
  refine asks_of_sendFlit (pri := 3) (exec_sendm g d a b c s) hr ?_ hc rfl
  dsimp only
  rw [State.chanAddr_some h0 hp]
  refine (if_neg (Nat.not_lt.2 hlen)).trans ?_
  rw [Thread.afterStores_done hgated hstored, hread]
  exact if_neg (by simp [hroom])

end

end

/-! ### RECV (R369) -/

theorem mem_insertN (l : List Nat) (a : Nat) : a ∈ insertN l a := by
  induction l with
  | nil => exact List.mem_cons_self
  | cons b l ih =>
    unfold insertN
    split
    · exact List.mem_cons_self
    · split
      · next h => exact h ▸ List.mem_cons_self
      · exact List.mem_cons_of_mem _ ih

/-- R330: the tag of a word, set to empty, below host memory. -/
theorem State.tagFull_setTag_false (s : State) {a : Nat} (h : a < hostBase) : (s.setTag a false).tagFull a = false := by
  unfold State.setTag State.tagFull
  rw [if_neg (by decide), if_neg (Nat.not_le.2 h)]
  simp [mem_insertN]

theorem State.tagChanged_nil {s : State} {cl : Nat} (h : (s.cluster cl).tagWait = []) (word pos : Nat) : s.tagChanged cl word pos = s := by
  unfold State.tagChanged
  rw [h]
  rfl

/-- R333: tags on which nobody waits change without more. -/
theorem State.tagsChanged_nil {s : State} {core pa : Nat} (h : (s.cluster (clusterOf (homePos (pkgOf core) (homeOf pa)))).tagWait = [])
    (q n : Nat) : s.tagsChanged core pa q n = s := by
  unfold State.tagsChanged
  dsimp only
  generalize ((List.range ((q % 8 + n + 7) / 8)).map (fun i => wordOf q + 8 * i)) = l
  induction l with
  | nil => rfl
  | cons w l ih => rw [List.foldl_cons, State.tagChanged_nil h, ih]

theorem State.setTag_fields (s : State) (a : Nat) (b : Bool) : ∃ l, s.setTag a b = { s with empties := l } := by
  unfold State.setTag
  split
  · exact ⟨_, rfl⟩
  · split
    · exact ⟨s.empties, rfl⟩
    · exact ⟨_, rfl⟩

theorem State.shadowFor_false (s : State) (dom : BitVec 12) (pa : Nat) : s.shadowFor dom false pa = some s := rfl
theorem State.viewOf_false (s : State) (dom : BitVec 12) (pa : Nat) : s.viewOf dom false pa = pa := rfl

theorem State.After.empties {s t : State} {o : Out} (h : s.After t o) : t.empties = s.empties := (congrArg State.empties h.other : _)
theorem State.After.posted {s t : State} {o : Out} (h : s.After t o) (k : Nat) : (t.core k).posted = (s.core k).posted :=
  (congrArg Core.posted (h.cores k) : _)
theorem State.After.chans {s t : State} {o : Out} (h : s.After t o) (k : Nat) : (t.core k).chans = (s.core k).chans :=
  (congrArg Core.chans (h.cores k) : _)

section
variable {s : State} {g : Guard} {a : Src} {ch : BitVec 6} (hr : s.runs g { ext := .base, srcs := [a], outside := true } = true)
include hr

theorem recv_misaligned (h : (s.me.reg a.reg).toNat % 32 ≠ 0) : Traps (.recv g a ch) s 0x04 (s.me.reg a.reg) :=
  traps_of (exec_recv g a ch s) hr (if_pos (bne_iff_ne.2 (mt (extractLsb'_low_eq_zero _ 5).1 h)))

variable {s1 : State} {v : Nat} (halign : (s.me.reg a.reg).toNat % 32 = 0) (hgated : s.me.gated = []) (hstored : s.me.stored = true)
  (hread : s.readRange s.me.engine (s.me.reg a.reg).toNat 32 true = .ok s1 v) (hc : s.Cached s1)
include halign hgated hstored hread hc

/-- R369: a block that is not one, or a channel whose block is posted already. -/
theorem recv_bad (h : wordAt v 0 ≠ 0x9000000000000000 ∨ 65536 < (wordAt v 2).toNat ∨ KMap.find (s.core s.me.core).posted ch.toNat ≠ none) :
    Traps (.recv g a ch) s 0x1A (s.me.reg a.reg) := by
  have hposted : (s1.core s.me.core).posted = (s.core s.me.core).posted := (congrArg Core.posted (hc.cores s.me.core) : _)
  refine traps_of (exec_recv g a ch s) hr ?_
  dsimp only
  rw [if_neg (by simp [(extractLsb'_low_eq_zero (s.me.reg a.reg) 5).2 halign]), Thread.afterStores_done hgated hstored, State.readBlock, hread]
  dsimp only
  rw [hposted]
  refine if_pos ?_
  simp only [Bool.or_eq_true, bne_iff_ne, decide_eq_true_eq, Option.isSome_iff_ne_none, or_assoc]
  exact h

/-- R369: the block is posted, with the tag of its STATUS empty. -/
theorem recv_posts {s2 : State} {pa : Nat} {leaf : Option Word} (hword : wordAt v 0 = 0x9000000000000000) (hlen : (wordAt v 2).toNat ≤ 65536)
    (hfree : KMap.find (s.core s.me.core).posted ch.toNat = none)
    (hres : s1.resolve s.me.engine (s.me.reg a.reg + 24) .load true = (s2, .at pa leaf)) (hshadow : leafShadow leaf = false)
    (hc2 : s.Cached s2) (hpa : pa < 2 ^ 60) (hwait : (s.cluster (clusterOf (homePos (pkgOf s.me.core) (homeOf pa)))).tagWait = []) :
    ∃ t, exec (.recv g a ch) s = .next t ∧ s2.Goes t [a] ∧ t.tagFull pa = false ∧
      KMap.find (t.core s.me.core).posted ch.toNat =
        some ⟨s.me.reg a.reg, wordAt v 1, (wordAt v 2).toNat, s.me.domid, s.me.cin, s.me.sup⟩ := by
  have hposted : (s1.core s.me.core).posted = (s.core s.me.core).posted := (congrArg Core.posted (hc.cores s.me.core) : _)
  have hwait2 : (s2.cluster (clusterOf (homePos (pkgOf s.me.core) (homeOf pa)))).tagWait = [] :=
    (congrArg Cluster.tagWait (hc2.clusters _) : _).trans hwait
  obtain ⟨hcur, hme⟩ := hc2.cur_me
  obtain ⟨l, htag⟩ := s2.setTag_fields pa false
  have hwait3 : ((s2.setTag pa false).cluster (clusterOf (homePos (pkgOf s.me.core) (homeOf pa)))).tagWait = [] := by
    rw [htag]
    exact hwait2
  obtain ⟨t, ht, hafter⟩ := completes_as (exec_recv g a ch s) hr
    (u := (s2.setTag pa false).modCore s.me.core (fun c => { c with
      posted := KMap.set c.posted ch.toNat ⟨s.me.reg a.reg, wordAt v 1, (wordAt v 2).toNat, s.me.domid, s.me.cin, s.me.sup⟩ })) (by
      dsimp only
      rw [if_neg (by simp [(extractLsb'_low_eq_zero (s.me.reg a.reg) 5).2 halign]), Thread.afterStores_done hgated hstored, State.readBlock, hread]
      dsimp only
      rw [if_neg (by simp [hword, hlen, hposted, hfree]), hres]
      dsimp only
      rw [hshadow, State.shadowFor_false, Option.getD_some, State.viewOf_false, State.tagsChanged_nil hwait3]) (by rw [htag]; exact hcur)
  refine ⟨t, ht, hafter.goes (by rw [htag]; rfl) (by rw [htag]; rfl) (s2.setTag_byte pa false) (by rw [hme]), ?_, ?_⟩
  · rw [State.tagFull, hafter.empties]
    exact s2.tagFull_setTag_false hpa
  · rw [hafter.posted, State.core_modCore_same, KMap.find_set, if_pos rfl]

end

end Sys2Proof.Machine
end

section
/-! What the start of tasks leaves (R114, R115), with CHBIND and TRDY (R371, R372). -/

namespace Sys2Proof.Machine

/-! ### The start of tasks -/

/-- Besides new threads, and what `State.Local` leaves open, nothing is changed but what cores hold apart from their channels. -/
structure State.Started (s t : State) : Prop extends s.Local t where
  threads : ∀ k, k < s.nextId → t.thread k = s.thread k
  chans : ∀ k, (t.core k).chans = (s.core k).chans

theorem State.Started.refl (s : State) : s.Started s := ⟨.refl s, fun _ _ => rfl, fun _ => rfl⟩

theorem State.Started.trans {s t u : State} (h : s.Started t) (k : t.Started u) : s.Started u :=
  ⟨h.toLocal.trans k.toLocal, fun j hj => (k.threads j (Nat.lt_of_lt_of_le hj h.nextId)).trans (h.threads j hj),
    fun j => (k.chans j).trans (h.chans j)⟩

theorem State.chans_modCore (s : State) (core : Nat) {f : Core → Core} (hf : ∀ c, (f c).chans = c.chans) (k : Nat) :
    ((s.modCore core f).core k).chans = (s.core k).chans := by
  by_cases hk : core = k
  · subst hk
    rw [State.core_modCore_same, hf]
  · rw [State.core_modCore_ne _ _ hk]

theorem State.started_modCore (s : State) (core : Nat) {f : Core → Core} (hf : ∀ c, (f c).chans = c.chans) : s.Started (s.modCore core f) :=
  ⟨s.local_modCore core f, fun _ _ => rfl, s.chans_modCore core hf⟩

theorem State.thread_enterSlot_ne (s : State) {tid k : Nat} (core slot : Nat) (h : tid ≠ k) :
    (s.enterSlot tid core slot).thread k = s.thread k := by
  rw [State.enterSlot, State.modCore_thread, State.thread_modThread_ne _ _ h]

theorem State.chans_enterSlot (s : State) (tid core slot k : Nat) : ((s.enterSlot tid core slot).core k).chans = (s.core k).chans := by
  refine (State.chans_modCore _ core ?_ k).trans rfl
  exact fun _ => rfl

theorem State.thread_equip_ne (s : State) {tid k : Nat} (cl : Nat) (h : tid ≠ k) : (s.equip tid cl).thread k = s.thread k := by
  unfold State.equip State.thread
  exact KMap.getD_set_ne s.threads _ _ h

theorem State.thread_acquire (s : State) (core : Nat) (sc : Word) (k : Nat) : (s.acquire core sc).thread k = s.thread k := rfl

theorem State.chans_acquire (s : State) (core : Nat) (sc : Word) (k : Nat) : ((s.acquire core sc).core k).chans = (s.core k).chans := by
  rw [State.acquire, State.bumpId_core]
  refine (State.chans_modCore _ core ?_ k).trans (congrArg Core.chans (State.modCluster_core s _ _ k))
  exact fun _ => rfl

theorem State.chans_arrive {s t : State} {tid cl : Nat} {target : Option Nat} {anchored : Bool} (h : s.arrive tid cl target anchored = some t) :
    (∀ k, k ≠ tid → t.thread k = s.thread k) ∧ ∀ k, (t.core k).chans = (s.core k).chans := by
  unfold State.arrive at h
  dsimp only at h
  split at h
  · unfold State.joinQueue at h
    split at h
    · cases h
    · cases h
      exact ⟨fun k hk => (State.bumpId_thread _ _).trans (State.thread_modThread_ne _ _ (Ne.symm hk)), fun _ => rfl⟩
  · cases h
    exact ⟨fun k hk => State.thread_enterSlot_ne _ _ _ (Ne.symm hk), State.chans_enterSlot _ _ _ _⟩

/-- A task's thread with its tag and frame, before it arrives (R115). -/
def State.newTask (s : State) (core : Nat) (e : ChanEntry) (m : ChanMsg) : State :=
  (((s.bumpId.setThread s.nextId (taskThread e m (s.liveCin (clusterOf core) e.dom))).equip s.nextId (clusterOf core)).acquire core sysScope)

theorem State.startTask_eq (s : State) (core : Nat) (e : ChanEntry) (m : ChanMsg) : s.startTask core e m =
    if !s.frameFree (clusterOf core) then none
    else (s.newTask core e m).arrive s.nextId (clusterOf core) (some core) false := rfl

theorem State.local_newTask (s : State) (core : Nat) (e : ChanEntry) (m : ChanMsg) : s.Local (s.newTask core e m) :=
  ((s.local_bumpId.trans (State.local_setThread _ _ _)).trans (State.local_equip _ _ _)).trans (State.local_acquire _ _ _)

/-- R115: a task that starts. -/
theorem State.started_startTask {s t : State} {core : Nat} {e : ChanEntry} {m : ChanMsg} (h : s.startTask core e m = some t) : s.Started t := by
  rw [State.startTask_eq] at h
  split at h
  · cases h
  · obtain ⟨hthreads, hchans⟩ := State.chans_arrive h
    refine ⟨(s.local_newTask core e m).trans (State.local_arrive h), fun k hk => (hthreads k (Nat.ne_of_lt hk)).trans ?_,
      fun k => (hchans k).trans ?_⟩
    · rw [State.newTask, State.thread_acquire, State.thread_equip_ne _ _ (Nat.ne_of_gt hk), State.thread_setThread_ne _ _ (Nat.ne_of_gt hk),
        State.bumpId_thread]
    · exact State.chans_acquire _ _ _ k

/-- R114: parked messages that start their tasks. -/
theorem State.started_startParked (s : State) (core n fuel : Nat) : s.Started (s.startParked core n fuel) := by
  induction fuel generalizing s with
  | zero => exact .refl s
  | succ fuel ih =>
    unfold State.startParked
    dsimp only
    split
    · exact .refl s
    · next m _ =>
      have hparked := s.started_modCore core (f := fun c => { c with parkedMsgs := c.parkedMsgs.erase m }) fun _ => rfl
      split
      · exact .refl s
      · split
        · exact hparked.trans (ih _)
        · split
          · next t ht => exact (hparked.trans (State.started_startTask ht)).trans (ih t)
          · exact .refl s

theorem State.started_orphaned (s : State) (cl : Nat) : s.Started (s.orphaned cl) := ⟨s.local_orphaned cl, fun _ _ => rfl, fun _ => rfl⟩

theorem State.Started.foldl {α : Type} {f : State → α → State} (hf : ∀ (u : State) (a : α), u.Started (f u a)) (l : List α) (s : State) :
    s.Started (l.foldl f s) := by
  induction l generalizing s with
  | nil => exact .refl s
  | cons a l ih => exact (hf s a).trans (ih _)

/-- R114: a channel on which no message is parked starts none. -/
theorem State.startParked_none {s : State} {core n : Nat} (h : ∀ m ∈ (s.core core).parkedMsgs, m.chan ≠ n) (fuel : Nat) :
    s.startParked core n fuel = s := by
  cases fuel with
  | zero => rfl
  | succ fuel =>
    have hnone : (s.core core).parkedMsgs.find? (fun m => decide (m.chan = n)) = none := by
      rw [List.find?_eq_none]
      simpa using h
    unfold State.startParked
    dsimp only
    rw [hnone]

/-! ### CHBIND -/

theorem State.chan_congr {s t : State} {core : Nat} (h : (t.core core).chans = (s.core core).chans) (n : Nat) : t.chan core n = s.chan core n := by
  rw [State.chan, h, State.chan]

/-- A channel's entry is set. -/
def State.setChan (s : State) (core n : Nat) (e : ChanEntry) : State := s.modCore core (fun c => { c with chans := KMap.set c.chans n e })

theorem State.chan_setChan_same (s : State) (core n : Nat) (e : ChanEntry) : (s.setChan core n e).chan core n = e := by
  rw [State.chan, State.setChan, State.core_modCore_same]
  exact KMap.getD_set_same _ _ _ _

theorem State.chan_setChan_ne (s : State) (core : Nat) {n k : Nat} (e : ChanEntry) (h : n ≠ k) : (s.setChan core n e).chan core k = s.chan core k := by
  rw [State.chan, State.setChan, State.core_modCore_same]
  exact KMap.getD_set_ne _ _ _ h

/-- R371: an entry that is replaced. -/
theorem State.started_bindChan (s : State) (core n : Nat) (e : ChanEntry) : (s.setChan core n e).Started (s.bindChan core n e) := by
  unfold State.bindChan
  dsimp only
  split
  · exact State.started_startParked _ _ _ _
  · exact ((s.setChan core n e).started_modCore core (f := fun c => { c with parkedMsgs := c.parkedMsgs.filter (fun m => decide (m.chan ≠ n)) })
      fun _ => rfl).trans (.foldl (f := fun s _ => s.orphaned (clusterOf core)) (fun u _ => u.started_orphaned _) _ _)

/-- R371: the entry of a channel on which no message is parked. -/
theorem State.bindChan_none {s : State} {core n : Nat} (h : ∀ m ∈ (s.core core).parkedMsgs, m.chan ≠ n) (e : ChanEntry) :
    ∃ cs, s.bindChan core n e = { s with cores := cs } := by
  have hnil : (s.core core).parkedMsgs.filter (fun m => decide (m.chan = n)) = [] := by
    rw [List.filter_eq_nil_iff]
    simpa using h
  unfold State.bindChan
  dsimp only
  rw [hnil]
  split
  · exact ⟨_, rfl⟩
  · exact ⟨_, rfl⟩

section
variable {s : State} {g : Guard} {a b : Src} {ch : BitVec 6} {pos : Word}
  (hr : s.runs g { ext := .base, srcs := [a, b], outside := true } = true)
  (hpos : (if b.reg = .z then BitVec.ofNat 64 s.me.core else s.me.reg b.reg) = pos)
include hr

theorem chbind_misaligned (h : (s.me.reg a.reg).toNat % 8 ≠ 0) : Traps (.chbind g a b ch) s 0x04 (s.me.reg a.reg) :=
  traps_of (exec_chbind g a b ch s) hr (if_pos (bne_iff_ne.2 (mt (extractLsb'_low_eq_zero _ 3).1 h)))

include hpos
variable (halign : (s.me.reg a.reg).toNat % 8 = 0)
include halign

theorem chbind_badCore (h : s.coreOperand pos = false) : Traps (.chbind g a b ch) s 0x1A pos := by
  subst hpos
  refine traps_of (exec_chbind g a b ch s) hr ?_
  simp [(extractLsb'_low_eq_zero (s.me.reg a.reg) 3).2 halign, Reg.isZ_eq, h]

/-- The entry that CHBIND reads (R371). -/
def chanEntryOf (v : Nat) : ChanEntry := ⟨wordAt v 0, wordAt v 1, wordAt v 2 &&& 0x3FFF⟩

/-- CHBIND once it has read the entry. -/
def State.bindAct (s1 : State) (t : Thread) (pos : Word) (ch : BitVec 6) (e : ChanEntry) : Res :=
  if (s1.cluster (clusterOf pos.toNat)).fen && decide (clusterOf pos.toNat ≠ t.cluster) then .trap 0x0E pos
  else if !t.sup && (e.dom != t.domid || ((s1.chan pos.toNat ch.toNat).bound && (s1.chan pos.toNat ch.toNat).dom != t.domid)) then .trap cProt pos
  else .ok (s1.bindChan pos.toNat ch.toNat e)

variable {s1 : State} {v : Nat} (hcore : s.coreOperand pos = true) (hgated : s.me.gated = []) (hstored : s.me.stored = true)
  (hread : s.readRange s.me.ctx (s.me.reg a.reg).toNat 24 = .ok s1 v)
include hcore hgated hstored hread

omit hr in
theorem chbind_reads : ∃ f, exec (.chbind g a b ch) s = run s g { ext := .base, srcs := [a, b], outside := true } f ∧
    f s s.me = s1.bindAct s.me pos ch (chanEntryOf v) := by
  subst hpos
  refine ⟨_, exec_chbind g a b ch s, ?_⟩
  dsimp only
  simp only [Reg.isZ_eq, decide_eq_true_eq]
  rw [if_neg (by simp [(extractLsb'_low_eq_zero (s.me.reg a.reg) 3).2 halign]), if_neg (by simp [hcore]), Thread.afterStores_done hgated hstored,
    State.readBlock, hread]
  rfl

variable (hc : s.Cached s1)
include hc

theorem chbind_fenced (hfen : (s.cluster (clusterOf pos.toNat)).fen = true) (hfar : clusterOf pos.toNat ≠ s.me.cluster) :
    Traps (.chbind g a b ch) s 0x0E pos := by
  obtain ⟨f, he, hf⟩ := chbind_reads (ch := ch) hpos halign hcore hgated hstored hread
  have hfen1 : (s1.cluster (clusterOf pos.toNat)).fen = true := (congrArg Cluster.fen (hc.clusters _) : _).trans hfen
  exact traps_of he hr (hf.trans (if_pos (by simp [hfen1, hfar])))

variable (hfen : (s.cluster (clusterOf pos.toNat)).fen = false)
include hfen

theorem chbind_foreign (hsup : s.me.sup = false)
    (h : (chanEntryOf v).dom ≠ s.me.domid ∨ ((s.chan pos.toNat ch.toNat).bound = true ∧ (s.chan pos.toNat ch.toNat).dom ≠ s.me.domid)) :
    Traps (.chbind g a b ch) s 0x05 pos := by
  obtain ⟨f, he, hf⟩ := chbind_reads (ch := ch) hpos halign hcore hgated hstored hread
  have hfen1 : (s1.cluster (clusterOf pos.toNat)).fen = false := (congrArg Cluster.fen (hc.clusters _) : _).trans hfen
  have hchan : s1.chan pos.toNat ch.toNat = s.chan pos.toNat ch.toNat := State.chan_congr (congrArg Core.chans (hc.cores _) : _) _
  refine traps_of he hr (hf.trans ((if_neg (by simp [hfen1])).trans (if_pos ?_)))
  simpa [hsup, hchan] using h

/-- R371: CHBIND by a thread that may change the entry. -/
theorem chbind_binds (hown : s.me.sup = true ∨ ((chanEntryOf v).dom = s.me.domid ∧
      ((s.chan pos.toNat ch.toNat).bound = true → (s.chan pos.toNat ch.toNat).dom = s.me.domid))) :
    CompletesAs (.chbind g a b ch) s (s1.bindChan pos.toNat ch.toNat (chanEntryOf v))
      { Out.none (s1.bindChan pos.toNat ch.toNat (chanEntryOf v)) with takes := takesOf [a, b] [], pc := s.me.pc + 8 } := by
  obtain ⟨f, he, hf⟩ := chbind_reads (ch := ch) hpos halign hcore hgated hstored hread
  have hfen1 : (s1.cluster (clusterOf pos.toNat)).fen = false := (congrArg Cluster.fen (hc.clusters _) : _).trans hfen
  have hchan : s1.chan pos.toNat ch.toNat = s.chan pos.toNat ch.toNat := State.chan_congr (congrArg Core.chans (hc.cores _) : _) _
  refine completes_as he hr (hf.trans ((if_neg (by simp [hfen1])).trans (if_neg ?_))) ((State.started_bindChan _ _ _ _).cur.trans hc.cur_me.1)
  rcases hown with h | ⟨h, hold⟩
  · simp [h]
  · simpa [hchan, h] using fun _ => hold

theorem chbind_tasks (hown : s.me.sup = true ∨ ((chanEntryOf v).dom = s.me.domid ∧
      ((s.chan pos.toNat ch.toNat).bound = true → (s.chan pos.toNat ch.toNat).dom = s.me.domid))) (hcur : s.cur < s.nextId) :
    ∃ t, exec (.chbind g a b ch) s = .next t ∧ (t.thread s.cur).pc = s.me.pc + 8 ∧ (t.thread s.cur).retired = s.me.retired + 1 ∧
      t.chan pos.toNat ch.toNat = chanEntryOf v := by
  obtain ⟨t, ht, hafter⟩ := chbind_binds hr hpos halign hcore hgated hstored hread hc hfen hown
  have hstarted := State.started_bindChan s1 pos.toNat ch.toNat (chanEntryOf v)
  have hucur : (s1.bindChan pos.toNat ch.toNat (chanEntryOf v)).cur = s.cur := hstarted.cur.trans hc.cur_me.1
  have hume : (s1.bindChan pos.toNat ch.toNat (chanEntryOf v)).me = s.me := by
    rw [State.me, hucur, hstarted.threads _ (by rw [State.setChan, State.modCore_nextId, State.nextId_readRange hread]; exact hcur), ← hc.cur_me.2,
      State.me, hc.cur_me.1]
    rfl
  have hme := hafter.me
  rw [hucur, hume] at hme
  refine ⟨t, ht, hme.pc, hme.retired, ?_⟩
  rw [State.chan_congr (hafter.chans _), State.chan_congr (hstarted.chans _), State.chan_setChan_same]

/-- R371: CHBIND of a channel on which no message is parked. -/
theorem chbind_quiet (hown : s.me.sup = true ∨ ((chanEntryOf v).dom = s.me.domid ∧
      ((s.chan pos.toNat ch.toNat).bound = true → (s.chan pos.toNat ch.toNat).dom = s.me.domid)))
    (hquiet : ∀ m ∈ (s.core pos.toNat).parkedMsgs, m.chan ≠ ch.toNat) :
    ∃ t, exec (.chbind g a b ch) s = .next t ∧ s1.Goes t [a, b] ∧ t.chan pos.toNat ch.toNat = chanEntryOf v ∧
      ∀ n, n ≠ ch.toNat → t.chan pos.toNat n = s.chan pos.toNat n := by
  obtain ⟨t, ht, hafter⟩ := chbind_binds hr hpos halign hcore hgated hstored hread hc hfen hown
  have hstarted := State.started_bindChan s1 pos.toNat ch.toNat (chanEntryOf v)
  have hparked : (s1.core pos.toNat).parkedMsgs = (s.core pos.toNat).parkedMsgs := (congrArg Core.parkedMsgs (hc.cores _) : _)
  obtain ⟨cs, hbind⟩ := State.bindChan_none (s := s1) (n := ch.toNat) (by rw [hparked]; exact hquiet) (chanEntryOf v)
  refine ⟨t, ht, hafter.goes (by rw [hbind]) (by rw [hbind]; rfl) (fun _ => by rw [hbind]; rfl) (by rw [hc.cur_me.2]), ?_, fun n hn => ?_⟩
  · rw [State.chan_congr (hafter.chans _), State.chan_congr (hstarted.chans _), State.chan_setChan_same]
  · rw [State.chan_congr (hafter.chans _), State.chan_congr (hstarted.chans _), State.chan_setChan_ne _ _ _ (Ne.symm hn)]
    exact State.chan_congr (congrArg Core.chans (hc.cores _) : _) _

end

/-! ### TRDY -/

/-- R372: the entry that TRDY leaves. -/
def readied (r h : Ksc) (e : ChanEntry) : ChanEntry := { e with
  w0 := (e.w0 &&& ~~~3) ||| ((if Ksc.app r (bit e.w0 1) then 2 else 0) + (if Ksc.app h (bit e.w0 0) then 1 else 0)) }

theorem bit_readied (r h : Ksc) (e : ChanEntry) (i : Nat) : bit (readied r h e).w0 i =
    if i = 1 then Ksc.app r (bit e.w0 1) else if i = 0 then Ksc.app h (bit e.w0 0) else bit e.w0 i := by
  unfold bit readied
  dsimp only
  have hlow : ∀ (x y : Bool), ∀ i < 64, ((if x then 2 else 0 : Word) + (if y then 1 else 0)).getLsbD i =
      (decide (i = 1) && x || decide (i = 0) && y) := by decide
  have hmask : ∀ i < 64, (~~~(3 : Word)).getLsbD i = !(decide (i = 1) || decide (i = 0)) := by decide
  rw [BitVec.getLsbD_or, BitVec.getLsbD_and]
  by_cases hi : i < 64
  · rw [hlow _ _ i hi, hmask i hi]
    by_cases h1 : i = 1
    · simp [h1]
    · by_cases h0 : i = 0 <;> simp [h1, h0]
  · have h1 : i ≠ 1 := by omega
    have h0 : i ≠ 0 := by omega
    have hge : 64 ≤ i := by omega
    rw [if_neg h1, if_neg h0, BitVec.getLsbD_of_ge e.w0 i hge]
    exact BitVec.getLsbD_of_ge _ i hge

section
variable {s : State} {g : Guard} {r h : Ksc} {d : Reg} {a : Src}
  (hr : s.runs g { ext := .base, srcs := [a], dests := [d], outside := true } = true)
include hr

theorem trdy_badAddress (hbad : (s.me.reg a.reg).extractLsb' 24 40 ≠ 0 ∨ s.corePresent ((s.me.reg a.reg).extractLsb' 0 18).toNat = false) :
    Traps (.trdy g r h d a) s 0x1A (s.me.reg a.reg) := by
  refine traps_of (exec_trdy g r h d a s) hr ?_
  dsimp only
  rw [State.chanAddr_none hbad]

section
variable {core n : Nat} (haddr : s.chanAddr (s.me.reg a.reg) = some (core, n)) (hfen : (s.cluster (clusterOf core)).fen = false)
include haddr hfen

theorem trdy_foreign (hsup : s.me.sup = false) (hdom : (s.chan core n).dom ≠ s.me.domid) : Traps (.trdy g r h d a) s 0x05 (s.me.reg a.reg) := by
  refine traps_of (exec_trdy g r h d a s) hr ?_
  dsimp only
  rw [haddr]
  exact (if_neg (by simp [hfen])).trans (if_pos (by simp [hsup, hdom]))

/-- R372: TRDY by a thread that may change the entry. -/
theorem trdy_readies (hwf : (Instr.trdy g r h d a).wf = true) (hown : s.me.sup = true ∨ (s.chan core n).dom = s.me.domid) (hcur : s.cur < s.nextId) :
    ∃ t, exec (.trdy g r h d a) s = .next t ∧ (t.thread s.cur).pc = s.me.pc + 8 ∧ (t.thread s.cur).retired = s.me.retired + 1 ∧
      (d ≠ .z → (t.thread s.cur).reg d = (s.chan core n).w0 &&& 7) ∧ (∀ q, q ≠ d → q ≠ .ip → (t.thread s.cur).reg q = s.me.reg q) ∧
      t.chan core n = readied r h (s.chan core n) ∧ ∀ x, t.byte x = s.byte x := by
  have hg : d.isG = true := by
    simp only [Instr.wf, Instr.operandsOk, Bool.and_eq_true] at hwf
    obtain ⟨⟨hg, -⟩, -⟩ := hwf
    exact hg
  have hstarted := State.started_startParked (s.setChan core n (readied r h (s.chan core n))) core n
    ((s.setChan core n (readied r h (s.chan core n))).core core).parkedMsgs.length
  obtain ⟨t, ht, hafter⟩ := completes_write_as (d := d) (x := (s.chan core n).w0 &&& 7) (exec_trdy g r h d a s) hr (by
    dsimp only
    rw [haddr]
    exact (if_neg (by simp [hfen])).trans (if_neg (by rcases hown with h | h <;> simp [h]))) hstarted.cur (gz_scalarDest (by simp [gz, hg]))
    List.mem_cons_self
  have hume : (State.startParked (s.setChan core n (readied r h (s.chan core n))) core n
      ((s.setChan core n (readied r h (s.chan core n))).core core).parkedMsgs.length).me = s.me :=
    (congrArg (State.thread _) hstarted.cur).trans (hstarted.threads s.cur hcur)
  have hme := hafter.me
  rw [hume, show (State.startParked (s.setChan core n (readied r h (s.chan core n))) core n _).cur = s.cur from hstarted.cur] at hme
  refine ⟨t, ht, hme.pc, hme.retired, fun _ => hme.reg_written hg, fun q hq hip => hme.reg_other (.inl hg) ?_ hip hq, ?_, fun x => ?_⟩
  · exact congrArg Thread.pw hume
  · rw [State.chan_congr (hafter.chans _), State.chan_congr (hstarted.chans _), State.chan_setChan_same]
  · exact (hafter.bytes x).trans (congrArg (fun m => KMap.getD m x 0) hstarted.mem)

end

end

end Sys2Proof.Machine
end

section
/-! Channel objects at their home (R70 to R72, R358 to R360, R454). -/

namespace Sys2Proof.Machine

/-! ### Flits taken and answers sent -/

theorem State.reply_far {s : State} {who : Asker} {pos : Nat} (h : clusterOf who.core ≠ clusterOf pos) (kind : BitVec 6) (a : Ans) :
    s.reply who pos kind a = s.sendFlit pos who.core kind who.domid who.cin who.tag (replyPri kind who) (.resp who a) := if_neg h

/-- A flit that is not the newest stays as it is when another is sent. -/
theorem State.find_sendFlit {u : State} {id : Nat} (h : id < u.nextId) (from_ dest : Nat) (kind : BitVec 6) (dom : BitVec 12)
    (cin tag : BitVec 16) (pri : BitVec 2) (b : Body) : KMap.find (u.sendFlit from_ dest kind dom cin tag pri b).msgs id = KMap.find u.msgs id :=
  (KMap.find_set _ _ _ _).trans (if_neg (Nat.ne_of_gt h))

/-- The state `u` is `s` after the flit `msg` has been taken, as far as flits and fresh numbers go. -/
structure State.Taken (s u : State) (msg : Nat) : Prop where
  gone : KMap.find u.msgs msg = none
  nextId : s.nextId ≤ u.nextId

theorem State.taken_dropMsg (s : State) (msg : Nat) : s.Taken (s.dropMsg msg) msg := ⟨s.msgs_dropMsg msg, Nat.le_refl _⟩

/-- An answer to an asker of another cluster, for a flit that has been taken. -/
theorem State.Taken.reply {s u : State} {msg pos : Nat} (h : s.Taken u msg) (hmsg : msg < s.nextId) {who : Asker}
    (hfar : clusterOf who.core ≠ clusterOf pos) (kind : BitVec 6) (a : Ans) :
    KMap.find (u.reply who pos kind a).msgs msg = none ∧ (∀ x, (u.reply who pos kind a).byte x = u.byte x) ∧
      s.Sends (u.reply who pos kind a) kind who.core (.resp who a) := by
  rw [State.reply_far hfar]
  exact ⟨(State.find_sendFlit (Nat.lt_of_lt_of_le hmsg h.nextId) _ _ _ _ _ _ _ _).trans h.gone, fun _ => rfl,
    State.sends_sendFlit h.nextId _ _ _ _ _ _ _ _⟩

/-! ### Objects -/

theorem State.byte_perform (s : State) (pa n v : Nat) (full : Bool) (a : Nat) : (s.perform pa n v full).byte a = (s.poke pa n v).byte a :=
  ((s.perform_spec pa n v full).1 a).trans (s.byte_poke pa n v a).symm

theorem State.byte_poke_congr {s t : State} (h : ∀ a, s.byte a = t.byte a) (pa n v a : Nat) : (s.poke pa n v).byte a = (t.poke pa n v).byte a := by
  rw [State.byte_poke, State.byte_poke, h]

/-- What a write performed at its home keeps. -/
structure State.Written (s t : State) : Prop where
  msgs : t.msgs = s.msgs
  nextId : t.nextId = s.nextId
  waits : ∀ c, (t.cluster c).tagWait = (s.cluster c).tagWait

theorem State.written_perform (s : State) (pa n v : Nat) (full : Bool) : s.Written (s.perform pa n v full) := by
  obtain ⟨-, -, -, hwaits, hother⟩ := s.perform_spec pa n v full
  exact ⟨(congrArg State.msgs hother : _), (congrArg State.nextId hother : _), fun c => (hwaits c).1⟩

theorem State.Written.trans {s t u : State} (h : s.Written t) (k : t.Written u) : s.Written u :=
  ⟨k.msgs.trans h.msgs, k.nextId.trans h.nextId, fun c => (k.waits c).trans (h.waits c)⟩

theorem State.performFor_false (s : State) (dom : BitVec 12) (pa n v : Nat) (full : Bool) :
    s.performFor dom false pa n v full = s.perform pa n v full := if_pos rfl

section
variable {who : Asker} (hshadow : who.shadow = false)
include hshadow

theorem State.objSet_eq (s : State) (pa x : Nat) : s.objSet who pa x = s.perform pa 8 x false := by
  unfold State.objSet
  rw [hshadow, State.performFor_false]

theorem State.objWord_eq (s : State) (pa : Nat) : s.objWord who pa = s.peekW pa := by
  unfold State.objWord
  rw [hshadow, State.viewOf_false]

omit hshadow in
theorem State.objBad_eq {s : State} (h : s.poison = []) (who : Asker) (pa : Nat) : s.objBad who pa = false := by
  unfold State.objBad State.poisoned
  rw [h]
  rfl

end

/-- R70: the header of an object of a kind and capacity. -/
theorem chanOf_header (k : ChanKind) {cap : Nat} (h1 : 1 ≤ cap) (h2 : cap ≤ 16777213) :
    chanOf (BitVec.ofNat 64 (k.typ * 2 ^ 44 + (cap + 2) * 2 ^ 20)) = some (k, cap) := by
  have hk : k.typ < 2 ^ 20 := by cases k <;> decide
  have hn : k.typ * 2 ^ 44 + (cap + 2) * 2 ^ 20 < 2 ^ 64 := by omega
  have hty : ((BitVec.ofNat 64 (k.typ * 2 ^ 44 + (cap + 2) * 2 ^ 20)).extractLsb' 44 20).toNat = k.typ := by
    rw [BitVec.extractLsb'_toNat, BitVec.toNat_ofNat, Nat.mod_eq_of_lt hn, Nat.shiftRight_eq_div_pow]
    omega
  have hsize : ((BitVec.ofNat 64 (k.typ * 2 ^ 44 + (cap + 2) * 2 ^ 20)).extractLsb' 20 24).toNat = cap + 2 := by
    rw [BitVec.extractLsb'_toNat, BitVec.toNat_ofNat, Nat.mod_eq_of_lt hn, Nat.shiftRight_eq_div_pow]
    omega
  have hfind : ([ChanKind.stack, .bag, .queue].find? (fun j => decide (j.typ = k.typ))) = some k := by cases k <;> decide
  unfold chanOf
  dsimp only
  rw [hty, hsize, hfind, Option.bind_some, if_pos (by omega)]
  rfl

/-- R359: the control word of a CHINIT. -/
theorem chinitOf_control (k : ChanKind) {cap c : Nat} (h1 : 1 ≤ cap) (h2 : cap ≤ 16777213)
    (hc : c = match k with | .stack => 0 | .bag => 1 | .queue => 2) : chinitOf (BitVec.ofNat 64 (cap + 2 ^ 24 * c)) = some (k, cap) := by
  have hlt : c < 3 := by cases k <;> subst hc <;> decide
  have hn : cap + 2 ^ 24 * c < 2 ^ 64 := by omega
  have hcap : ((BitVec.ofNat 64 (cap + 2 ^ 24 * c)).extractLsb' 0 24).toNat = cap := by
    rw [BitVec.extractLsb'_toNat, BitVec.toNat_ofNat, Nat.mod_eq_of_lt hn, Nat.shiftRight_eq_div_pow]
    omega
  have hkind : ((BitVec.ofNat 64 (cap + 2 ^ 24 * c)).extractLsb' 24 2).toNat = c := by
    rw [BitVec.extractLsb'_toNat, BitVec.toNat_ofNat, Nat.mod_eq_of_lt hn, Nat.shiftRight_eq_div_pow]
    omega
  have hzero : (BitVec.ofNat 64 (cap + 2 ^ 24 * c)).extractLsb' 26 38 = 0 := by
    apply BitVec.eq_of_toNat_eq
    rw [BitVec.extractLsb'_toNat, BitVec.toNat_ofNat, Nat.mod_eq_of_lt hn, Nat.shiftRight_eq_div_pow]
    show _ = 0
    omega
  unfold chinitOf
  dsimp only
  rw [hcap, hkind, hzero, if_neg (by simp; omega)]
  cases k <;> subst hc <;> rfl

/-! ### Operations at the home -/

theorem exec_channelOpAtHome {s : State} {msg pa : Nat} {m : Msg} {who : Asker} {op : ChanOp} {pr : Bool} (htakes : s.takes msg m who)
    (hbody : m.body = .chan who op pa pr) : exec (.channelOpAtHome msg) s =
      .next (((s.dropMsg msg).chanRequest (clusterOf m.ldest) m.ldest ⟨who, op, pa, pr⟩).getD s) := by
  obtain ⟨-, harr, hlive, -, -⟩ := htakes
  show execChannelOpAtHome msg s = _
  unfold execChannelOpAtHome State.atHome
  rw [harr]
  dsimp only
  rw [hlive, hbody]
  rfl

section
variable {s : State} {msg pa : Nat} {m : Msg} {who : Asker} {op : ChanOp} {pr : Bool} (htakes : s.takes msg m who)
  (hbody : m.body = .chan who op pa pr) (hwait : (s.cluster (clusterOf m.ldest)).chanWait = [])
include htakes hbody

/-- R360: an operation that fails is answered with the cause. -/
theorem answers_of_fail {c : BitVec 8} (hdo : (s.dropMsg msg).chanDo ⟨who, op, pa, pr⟩ = .fail c) :
    AnswersAtHome (.channelOpAtHome msg) s msg who op.ackKind (.fail c) s.byte := by
  refine ⟨_, exec_channelOpAtHome htakes hbody, ?_⟩
  obtain ⟨hmsg, -, -, -, hfar⟩ := htakes
  unfold State.chanRequest
  rw [hdo]
  exact (s.taken_dropMsg msg).reply hmsg hfar _ _

include hwait

/-- R360: an operation that executes is answered, where no request waits for the object. -/
theorem answers_of_done {u : State} {a : Ans} (hop : ∀ ctl, op = .init ctl → (s.cluster (clusterOf m.ldest)).tagWait = [])
    (hdo : (s.dropMsg msg).chanDo ⟨who, op, pa, pr⟩ = .done u a) (hu : (s.dropMsg msg).Written u) :
    AnswersAtHome (.channelOpAtHome msg) s msg who op.ackKind a u.byte := by
  have hserve : ((s.dropMsg msg).chanRequest (clusterOf m.ldest) m.ldest ⟨who, op, pa, pr⟩) = some (u.reply who m.ldest op.ackKind a) := by
    unfold State.chanRequest
    rw [hdo, show ((s.dropMsg msg).cluster (clusterOf m.ldest)).chanWait = [] from hwait]
    cases op with
    | push x => rfl
    | pop => rfl
    | init ctl =>
      have hnil (word : Nat) : u.tagChanged (clusterOf m.ldest) word m.ldest = u :=
        State.tagChanged_nil ((hu.waits _).trans (hop ctl rfl)) word m.ldest
      simp only [List.foldl_cons, List.foldl_nil, hnil]
      rfl
  refine ⟨u.reply who m.ldest op.ackKind a, ?_, ?_⟩
  · rw [exec_channelOpAtHome htakes hbody, hserve]
    rfl
  · obtain ⟨hmsg, -, -, -, hfar⟩ := htakes
    exact State.Taken.reply ⟨hu.msgs ▸ s.msgs_dropMsg msg, hu.nextId.ge⟩ hmsg hfar _ _

/-- R360: an operation that cannot execute joins the waiters. -/
theorem joins_of_blocked (hop : ∀ ctl, op ≠ .init ctl) (hpend : ∀ p, (s.thread who.tid).pend = some p → p.cancelled = false)
    (hdo : (s.dropMsg msg).chanDo ⟨who, op, pa, pr⟩ = .blocked) :
    ∃ t, exec (.channelOpAtHome msg) s = .next t ∧ (t.cluster (clusterOf m.ldest)).chanWait = [⟨who, op, pa, pr⟩] ∧
      KMap.find t.msgs msg = none ∧ t.mem = s.mem := by
  have hlive : (s.dropMsg msg).cancelled who = false := by
    unfold State.cancelled
    rw [show (s.dropMsg msg).thread who.tid = s.thread who.tid from rfl]
    cases hp : (s.thread who.tid).pend with
    | none => exact Bool.and_false _
    | some p => simp [hpend p hp]
  have hjoin : (s.dropMsg msg).chanRequest (clusterOf m.ldest) m.ldest ⟨who, op, pa, pr⟩ =
      some ((s.dropMsg msg).modCluster (clusterOf m.ldest) (fun c => { c with chanWait := c.chanWait ++ [⟨who, op, pa, pr⟩] })) := by
    unfold State.chanRequest State.orWait
    dsimp only
    rw [hdo, hlive, show ((s.dropMsg msg).cluster (clusterOf m.ldest)).chanWait = [] from hwait]
    cases op with
    | push x => rfl
    | pop => rfl
    | init ctl => exact absurd rfl (hop ctl)
  have hexec := exec_channelOpAtHome htakes hbody
  rw [hjoin, Option.getD_some] at hexec
  refine ⟨_, hexec, ?_, s.msgs_dropMsg msg, rfl⟩
  rw [State.cluster_modCluster_same, show ((s.dropMsg msg).cluster (clusterOf m.ldest)).chanWait = [] from hwait]
  rfl

end

/-! ### What an operation on an object comes to (R454) -/

/-- R454: a PUSH or POP by kind of operation. -/
def State.objDo (s : State) (w : ChanWaiter) (k : ChanKind) (cap count head : Nat) : ChanOp → ChanRes
  | .push x => s.pushObj w k cap count head x
  | .pop | .init _ => s.popObj w k cap count head

section
variable {s : State} {cl pa cap count head : Nat} {k : ChanKind} (hobj : s.object cl pa k cap count head) {who : Asker}
  (hshadow : who.shadow = false) {pr : Bool}
include hobj hshadow

/-- A PUSH or POP on an object: its capacity, COUNT and HEAD. -/
theorem chanDo_object (hpr : pr = true → k ≠ .queue) {op : ChanOp} (hop : ∀ ctl, op ≠ .init ctl) :
    s.chanDo ⟨who, op, pa, pr⟩ = s.objDo ⟨who, op, pa, pr⟩ k cap count head op := by
  obtain ⟨hhdr, hcap1, hcap2, hcount, hle, hhead, hlt, hpoison, -⟩ := hobj
  have hcountw : (s.objWord who (pa + 8)).toNat.min cap = count := by
    rw [State.objWord_eq hshadow, hcount, BitVec.toNat_ofNat, Nat.mod_eq_of_lt (by omega)]
    exact Nat.min_eq_left hle
  have hheadw : (s.objWord who (pa + 16)).toNat = head := by
    rw [State.objWord_eq hshadow, hhead, BitVec.toNat_ofNat, Nat.mod_eq_of_lt (by omega)]
  have hkind : (pr && decide (k = .queue)) = false := by
    cases pr with
    | false => rfl
    | true => simpa using hpr rfl
  have hroom : (s.shadowFor who.domid who.shadow pa).isNone = false := by rw [hshadow]; rfl
  have hchan : chanOf (s.objWord who pa) = some (k, cap) := by rw [State.objWord_eq hshadow, hhdr, chanOf_header k hcap1 hcap2]
  unfold State.chanDo
  dsimp only
  rw [hroom]
  cases op with
  | init ctl => exact absurd rfl (hop ctl)
  | push x | pop =>
    dsimp only
    rw [State.objBad_eq hpoison, State.objBad_eq hpoison, State.objBad_eq hpoison, hchan]
    dsimp only
    rw [hkind, hcountw, hheadw]
    simp [State.objDo]

/-- R454: a PUSH onto an object with room. -/
theorem objDo_push {x : Word} (hroom : count < cap) : s.objDo ⟨who, .push x, pa, pr⟩ k cap count head (.push x) =
    .done ((s.perform (pa + 24 + 8 * (if k = .queue then (head + count) % cap else count)) 8 x.toNat false).perform (pa + 8) 8 (count + 1) false)
      .ok := by
  obtain ⟨-, -, -, -, -, -, hlt, hpoison, -⟩ := hobj
  unfold State.objDo State.pushObj
  dsimp only
  rw [if_neg (Nat.not_le.2 hroom), State.objBad_eq hpoison, if_neg Bool.false_ne_true, State.objSet_eq hshadow, State.objSet_eq hshadow,
    Nat.mod_eq_of_lt hlt]
  cases k <;> rfl

/-- R454: a POP of a stack that holds a value. -/
theorem objDo_pop_stack (hsome : 0 < count) (hk : k = .stack) : s.objDo ⟨who, .pop, pa, pr⟩ k cap count head .pop =
    .done (s.perform (pa + 8) 8 (count - 1) false) (.popr (s.peekW (pa + 24 + 8 * (count - 1))) pa) := by
  subst hk
  obtain ⟨-, -, -, -, -, -, -, hpoison, -⟩ := hobj
  unfold State.objDo State.popObj
  dsimp only
  rw [if_neg (Nat.ne_of_gt hsome), State.objBad_eq hpoison, State.objSet_eq hshadow, State.objWord_eq hshadow]
  rfl

/-- R454: a POP of a queue that holds a value. -/
theorem objDo_pop_queue (hsome : 0 < count) (hk : k = .queue) : s.objDo ⟨who, .pop, pa, pr⟩ k cap count head .pop =
    .done ((s.perform (pa + 8) 8 (count - 1) false).perform (pa + 16) 8 ((head + 1) % cap) false) (.popr (s.peekW (pa + 24 + 8 * head)) pa) := by
  subst hk
  obtain ⟨-, -, -, -, -, -, hlt, hpoison, -⟩ := hobj
  unfold State.objDo State.popObj
  dsimp only
  rw [if_neg (Nat.ne_of_gt hsome), State.objBad_eq hpoison, State.objSet_eq hshadow, State.objSet_eq hshadow, State.objWord_eq hshadow,
    Nat.mod_eq_of_lt hlt]
  rfl

end

/-- R358: an operation on a word that is not the header of a channel object. -/
theorem chanDo_noObject {s : State} {pa : Nat} {who : Asker} {op : ChanOp} (hshadow : who.shadow = false) (hpoison : s.poison = [])
    (hnone : chanOf (s.peekW pa) = none) (hop : ∀ ctl, op ≠ .init ctl) : s.chanDo ⟨who, op, pa, false⟩ = .fail 0x1A := by
  have hroom : (s.shadowFor who.domid who.shadow pa).isNone = false := by rw [hshadow]; rfl
  unfold State.chanDo
  dsimp only
  rw [hroom]
  cases op with
  | init ctl => exact absurd rfl (hop ctl)
  | push x | pop =>
    dsimp only
    rw [State.objBad_eq hpoison, State.objWord_eq hshadow, hnone]
    rfl

/-- R359: CHINIT at the home. -/
theorem chanDo_init {s : State} {pa cap : Nat} {k : ChanKind} {who : Asker} {ctl : Word} (hshadow : who.shadow = false)
    (hctl : chinitOf ctl = some (k, cap)) : s.chanDo ⟨who, .init ctl, pa, false⟩ =
      .done (s.perform pa 24 (k.typ * 2 ^ 44 + (cap + 2) * 2 ^ 20) true) .ok := by
  have hroom : (s.shadowFor who.domid who.shadow pa).isNone = false := by rw [hshadow]; rfl
  unfold State.chanDo
  dsimp only
  rw [hroom, hctl]
  dsimp only
  rw [hshadow, State.performFor_false]
  rfl

/-! ### The events -/

theorem State.takes.shadow {s : State} {msg : Nat} {m : Msg} {who : Asker} (h : s.takes msg m who) : who.shadow = false := by
  obtain ⟨-, -, -, hshadow, -⟩ := h
  exact hshadow

theorem State.object.quiet {s : State} {cl pa cap count head : Nat} {k : ChanKind} (h : s.object cl pa k cap count head) :
    (s.cluster cl).chanWait = [] := by
  obtain ⟨-, -, -, -, -, -, -, -, hquiet⟩ := h
  exact hquiet

theorem AnswersAtHome.congr {i : Instr} {s : State} {msg : Nat} {who : Asker} {kind : BitVec 6} {a : Ans} {f g : Nat → Byte}
    (h : AnswersAtHome i s msg who kind a f) (e : ∀ x, f x = g x) : AnswersAtHome i s msg who kind a g := (funext e : f = g) ▸ h

/-- Two writes to an object read as the bytes that they put. -/
theorem State.byte_perform_twice (s : State) (a n v b k w : Nat) (x : Nat) :
    ((s.perform a n v false).perform b k w false).byte x = ((s.poke a n v).poke b k w).byte x :=
  (State.byte_perform _ _ _ _ _ x).trans (State.byte_poke_congr (State.byte_perform _ _ _ _ _) _ _ _ x)

section
variable {s : State} {msg pa : Nat} {m : Msg} {who : Asker} {pr : Bool} (htakes : s.takes msg m who)
include htakes

section
variable {cap count head : Nat} {k : ChanKind} (hobj : s.object (clusterOf m.ldest) pa k cap count head) (hpr : pr = true → k ≠ .queue)
include hobj hpr

theorem channelOpAtHome_push {x : Word} (hbody : m.body = .chan who (.push x) pa pr) (hroom : count < cap) :
    AnswersAtHome (.channelOpAtHome msg) s msg who 0x0B .ok
      ((s.poke (pa + 24 + 8 * (if k = .queue then (head + count) % cap else count)) 8 x.toNat).poke (pa + 8) 8 (count + 1)).byte :=
  (answers_of_done htakes hbody hobj.quiet (fun _ h => by cases h)
    ((chanDo_object (s := s.dropMsg msg) hobj htakes.shadow hpr (by simp)).trans (objDo_push (s := s.dropMsg msg) hobj htakes.shadow hroom))
    ((State.written_perform _ _ _ _ _).trans (State.written_perform _ _ _ _ _))).congr (State.byte_perform_twice (s.dropMsg msg) _ _ _ _ _ _)

theorem channelOpAtHome_push_full {x : Word} (hbody : m.body = .chan who (.push x) pa pr) (hfull : count = cap)
    (hpend : ∀ p, (s.thread who.tid).pend = some p → p.cancelled = false) :
    ∃ t, exec (.channelOpAtHome msg) s = .next t ∧ (t.cluster (clusterOf m.ldest)).chanWait = [⟨who, .push x, pa, pr⟩] ∧
      KMap.find t.msgs msg = none ∧ t.mem = s.mem :=
  joins_of_blocked htakes hbody hobj.quiet (by simp) hpend
    ((chanDo_object (s := s.dropMsg msg) hobj htakes.shadow hpr (by simp)).trans (if_pos hfull.ge))

theorem channelOpAtHome_pop_stack (hbody : m.body = .chan who .pop pa pr) (hsome : 0 < count) (hk : k = .stack) :
    AnswersAtHome (.channelOpAtHome msg) s msg who 0x0A (.popr (s.peekW (pa + 24 + 8 * (count - 1))) pa)
      (s.poke (pa + 8) 8 (count - 1)).byte :=
  (answers_of_done htakes hbody hobj.quiet (fun _ h => by cases h)
    ((chanDo_object (s := s.dropMsg msg) hobj htakes.shadow hpr (by simp)).trans
      (objDo_pop_stack (s := s.dropMsg msg) hobj htakes.shadow hsome hk))
    (State.written_perform _ _ _ _ _)).congr (State.byte_perform (s.dropMsg msg) _ _ _ _)

theorem channelOpAtHome_pop_queue (hbody : m.body = .chan who .pop pa pr) (hsome : 0 < count) (hk : k = .queue) :
    AnswersAtHome (.channelOpAtHome msg) s msg who 0x0A (.popr (s.peekW (pa + 24 + 8 * head)) pa)
      ((s.poke (pa + 8) 8 (count - 1)).poke (pa + 16) 8 ((head + 1) % cap)).byte :=
  (answers_of_done htakes hbody hobj.quiet (fun _ h => by cases h)
    ((chanDo_object (s := s.dropMsg msg) hobj htakes.shadow hpr (by simp)).trans
      (objDo_pop_queue (s := s.dropMsg msg) hobj htakes.shadow hsome hk))
    ((State.written_perform _ _ _ _ _).trans (State.written_perform _ _ _ _ _))).congr (State.byte_perform_twice (s.dropMsg msg) _ _ _ _ _ _)

theorem channelOpAtHome_pop_empty (hbody : m.body = .chan who .pop pa pr) (hnone : count = 0)
    (hpend : ∀ p, (s.thread who.tid).pend = some p → p.cancelled = false) :
    ∃ t, exec (.channelOpAtHome msg) s = .next t ∧ (t.cluster (clusterOf m.ldest)).chanWait = [⟨who, .pop, pa, pr⟩] ∧
      KMap.find t.msgs msg = none ∧ t.mem = s.mem :=
  joins_of_blocked htakes hbody hobj.quiet (by simp) hpend
    ((chanDo_object (s := s.dropMsg msg) hobj htakes.shadow hpr (by simp)).trans (if_pos hnone))

end

theorem channelOpAtHome_noObject {op : ChanOp} (hbody : m.body = .chan who op pa false) (hpoison : s.poison = [])
    (hnone : chanOf (s.peekW pa) = none) (hop : ∀ ctl, op ≠ .init ctl) :
    AnswersAtHome (.channelOpAtHome msg) s msg who op.ackKind (.fail 0x1A) s.byte :=
  answers_of_fail htakes hbody (chanDo_noObject (s := s.dropMsg msg) htakes.shadow hpoison hnone hop)

theorem channelOpAtHome_init {k : ChanKind} {cap : Nat} {ctl : Word} (hbody : m.body = .chan who (.init ctl) pa false)
    (hwait : (s.cluster (clusterOf m.ldest)).chanWait = []) (htags : (s.cluster (clusterOf m.ldest)).tagWait = [])
    (hctl : chinitOf ctl = some (k, cap)) :
    AnswersAtHome (.channelOpAtHome msg) s msg who 0x05 .ok (s.poke pa 24 (k.typ * 2 ^ 44 + (cap + 2) * 2 ^ 20)).byte :=
  (answers_of_done htakes hbody hwait (fun _ _ => htags) (chanDo_init (s := s.dropMsg msg) htakes.shadow hctl)
    (State.written_perform _ _ _ _ _)).congr (State.byte_perform (s.dropMsg msg) _ _ _ _)

end

end Sys2Proof.Machine
end

section
/-! Messages at a core (R114, R115, R371). -/

namespace Sys2Proof.Machine

/-! ### A thread that has ended takes no slot, no entry and no room -/

theorem KMap.filter_set_absent {α : Type} {m : KMap α} {k : Nat} {a : α} {p : Nat × α → Bool} (h : KMap.find m k = none) (hp : p (k, a) = false) :
    (KMap.set m k a).filter p = m.filter p := by
  induction m with
  | nil => simp [KMap.set, hp]
  | cons e m ih =>
    obtain ⟨i, b⟩ := e
    have hne : i ≠ k := by
      rintro rfl
      simp [KMap.find] at h
    have hrest : KMap.find m k = none := by simpa [KMap.find, hne] using h
    unfold KMap.set
    split
    · exact List.filter_cons_of_neg (by simp [hp])
    · rw [List.filter_cons, List.filter_cons, ih hrest]

theorem KMap.find?_set_absent {α : Type} {m : KMap α} {k : Nat} {a : α} {p : Nat × α → Bool} (h : KMap.find m k = none) (hp : p (k, a) = false) :
    (KMap.set m k a).find? p = m.find? p := by
  rw [← List.head?_filter, KMap.filter_set_absent h hp, List.head?_filter]

/-- Less is parked when a flit is taken. -/
theorem State.parkFull_dropMsg {s : State} {cl : Nat} (h : s.parkFull cl = false) (msg : Nat) : (s.dropMsg msg).parkFull cl = false := by
  unfold State.parkFull at h ⊢
  rw [decide_eq_false_iff_not, Nat.not_le] at h ⊢
  refine Nat.lt_of_le_of_lt ?_ h
  unfold State.parkUsed
  have hmsgs := (List.filter_sublist (l := s.msgs) (p := fun p => decide (p.1 ≠ msg)))
  have hle := (hmsgs.filter (fun p => match p.2.loc with
    | .parked c _ | .fallen c | .stalled c _ => decide (c = cl)
    | _ => false)).length_le
  exact Nat.add_le_add_right (Nat.add_le_add_right (Nat.add_le_add_right (Nat.add_le_add_right (Nat.add_le_add_left hle _) _) _) _) _

/-! ### The slot of a task (R145) -/

/-- `t` is `s` with another thread that has ended, as far as the slots of a core go. -/
structure State.SameSlots (s t : State) (core : Nat) : Prop where
  core : { t.core core with icache := (s.core core).icache } = s.core core
  gangs : t.gangs = s.gangs
  clock : t.cycle = s.cycle ∧ t.pylon = s.pylon ∧ t.slow = s.slow
  threads : ∃ k x, t.threads = KMap.set s.threads k x ∧ KMap.find s.threads k = none ∧ x.place = .ended

section
variable {s t : State} {core : Nat} (h : s.SameSlots t core)
include h

theorem State.SameSlots.now : t.now core = s.now core := by
  have hbin : (t.core core).bin = (s.core core).bin := (congrArg Core.bin h.core : _)
  obtain ⟨hcycle, hpylon, hslow⟩ := h.clock
  unfold State.now
  rw [hbin, hcycle, hpylon, hslow]

theorem State.SameSlots.occupant {slot : Nat} (hslot : slot ≠ 7) : t.occupant core slot = s.occupant core slot := by
  obtain ⟨k, x, hset, hnone, hplace⟩ := h.threads
  have hfind : t.threads.find? (fun p => decide (p.2.place = .slot core slot)) = s.threads.find? (fun p => decide (p.2.place = .slot core slot)) := by
    rw [hset]
    exact KMap.find?_set_absent hnone (by simp [hplace])
  unfold State.occupant
  rw [hfind]
  simp [hslot]

theorem State.SameSlots.slotOpen {slot : Nat} (hslot : slot ≠ 7) : t.slotOpen core slot = s.slotOpen core slot := by
  have hdis : (t.core core).disabled = (s.core core).disabled := (congrArg Core.disabled h.core : _)
  have hmark : (t.core core).marked = (s.core core).marked := (congrArg Core.marked h.core : _)
  have hfreed : (t.core core).freed = (s.core core).freed := (congrArg Core.freed h.core : _)
  unfold State.slotOpen
  dsimp only
  rw [h.occupant hslot, hdis, hmark, hfreed, h.now]

/-- R91: a roaming thread takes none but the first seven slots. -/
theorem State.SameSlots.freeSlot : t.freeSlot core false = s.freeSlot core false := by
  have hmarg : (t.core core).marginal = (s.core core).marginal := (congrArg Core.marginal h.core : _)
  have hodd : (t.core core).oddOfPair = (s.core core).oddOfPair := (congrArg Core.oddOfPair h.core : _)
  have hstop : t.stopped (clusterOf core) = s.stopped (clusterOf core) := by rw [State.stopped, h.gangs, State.stopped]
  unfold State.freeSlot
  rw [hmarg, hodd, hstop]
  refine if_congr Iff.rfl rfl (List.find?_congr fun slot hmem => h.slotOpen ?_)
  rintro rfl
  simp [slotOrder, slotTakes] at hmem

theorem State.SameSlots.bestEntry (slot : Nat) : t.bestEntry core slot = s.bestEntry core slot := by
  obtain ⟨k, x, hset, hnone, hplace⟩ := h.threads
  unfold State.bestEntry
  rw [hset, KMap.filter_set_absent hnone]
  rw [hplace]

end

theorem State.core_acquire (s : State) (core : Nat) (sc : Word) (k : Nat) :
    { (s.acquire core sc).core k with icache := (s.core k).icache } = s.core k := by
  rw [State.acquire, State.bumpId_core]
  by_cases hk : core = k
  · subst hk
    rw [State.core_modCore_same]
    rfl
  · rw [State.core_modCore_ne _ _ hk]
    rfl

theorem State.threads_equip {u : State} {tid : Nat} {x : Thread} (h : u.thread tid = x) (cl : Nat) : ∃ tag frame,
    (u.equip tid cl).threads = KMap.set u.threads tid { x with tag := tag, tframe := frame } :=
  h ▸ ⟨u.freshTag (u.thread tid).domid (u.thread tid).cin, u.freshFrame cl, rfl⟩

/-- R115: a task's thread is there, and nothing that the choice of its slot depends on has changed. -/
theorem State.newTask_spec (s : State) (core : Nat) (e : ChanEntry) (m : ChanMsg) : ∃ tag frame,
    (s.newTask core e m).threads = KMap.set s.threads s.nextId
      { taskThread e m (s.liveCin (clusterOf core) e.dom) with tag := tag, tframe := frame } ∧
    (s.newTask core e m).thread s.nextId = { taskThread e m (s.liveCin (clusterOf core) e.dom) with tag := tag, tframe := frame } := by
  have hthreads : ∃ tag frame, (s.newTask core e m).threads = KMap.set s.threads s.nextId
      { taskThread e m (s.liveCin (clusterOf core) e.dom) with tag := tag, tframe := frame } := by
    have hset := State.thread_setThread_same s.bumpId s.nextId (taskThread e m (s.liveCin (clusterOf core) e.dom))
    obtain ⟨tag, frame, hequip⟩ := State.threads_equip hset (clusterOf core)
    exact ⟨tag, frame, hequip.trans (KMap.set_set s.threads s.nextId _ _)⟩
  obtain ⟨tag, frame, h⟩ := hthreads
  refine ⟨tag, frame, h, ?_⟩
  rw [State.thread, h, KMap.getD_set_same]

theorem State.sameSlots_newTask {s : State} (hnew : KMap.find s.threads s.nextId = none) (core : Nat) (e : ChanEntry) (m : ChanMsg) :
    s.SameSlots (s.newTask core e m) core := by
  obtain ⟨tag, frame, hthreads, -⟩ := s.newTask_spec core e m
  have hother := (s.local_newTask core e m).other
  exact ⟨State.core_acquire _ core _ core, (congrArg State.gangs hother : _), ⟨(congrArg State.cycle hother : _),
    (congrArg State.pylon hother : _), (congrArg State.slow hother : _)⟩, _, _, hthreads, hnew, rfl⟩

/-- R115, R145: a task that starts in a free slot for which no entry waits. -/
theorem State.startTask_slot {s : State} {core k : Nat} {e : ChanEntry} {m : ChanMsg} (hframe : s.frameFree (clusterOf core) = true)
    (hnew : KMap.find s.threads s.nextId = none) (hfree : s.freeSlot core false = some k) (hbest : s.bestEntry core k = none) :
    ∃ t, s.startTask core e m = some t ∧ s.Started t ∧ ∃ tag frame cyc,
      t.thread s.nextId = { taskThread e m (s.liveCin (clusterOf core) e.dom) with
        tag := tag, tframe := frame, place := .slot core k, cycAt := cyc } := by
  have hslots := State.sameSlots_newTask hnew core e m
  obtain ⟨tag, frame, -, hthread⟩ := s.newTask_spec core e m
  have hstart : s.startTask core e m = some ((s.newTask core e m).bumpFree.enterSlot s.nextId core k) := by
    rw [State.startTask_eq, if_neg (by simp [hframe]),
      State.arrive_slot (hslots.freeSlot.trans hfree) ((hslots.bestEntry k).trans hbest)]
  refine ⟨_, hstart, State.started_startTask hstart, tag, frame, (s.newTask core e m).bumpFree.now core, ?_⟩
  have hwait : ((s.newTask core e m).bumpFree.thread s.nextId).wait ≠ some .anch := by
    rw [show (s.newTask core e m).bumpFree.thread s.nextId = (s.newTask core e m).thread s.nextId from rfl, hthread]
    simp [taskThread, Thread.blank]
  obtain ⟨hrecord, -⟩ := State.enterSlot_spec hwait core k
  rw [hrecord, show (s.newTask core e m).bumpFree.thread s.nextId = (s.newTask core e m).thread s.nextId from rfl, hthread]

/-- R115: the registers of a task. -/
theorem taskThread_regs (e : ChanEntry) (m : ChanMsg) (cin : BitVec 16) : (∀ i, i < 4 → (taskThread e m cin).g[i]! = m.words.getD i 0) ∧
    (taskThread e m cin).g[4] = BitVec.ofNat 64 m.sender ∧ (taskThread e m cin).g[5] = BitVec.ofNat 64 (m.words.length * 256 + m.chan) := by
  refine ⟨fun i hi => ?_, rfl, rfl⟩
  have h : i = 0 ∨ i = 1 ∨ i = 2 ∨ i = 3 := by omega
  rcases h with rfl | rfl | rfl | rfl <;> rfl

end Sys2Proof.Machine
end

section
/-! The arrival of a message on a routing channel (R114, R115, R371). -/

namespace Sys2Proof.Machine

theorem exec_channelMessageArrival {s : State} {msg : Nat} {m : Msg} {who : Option Asker} {x : ChanMsg} (harr : s.arrived msg = some m)
    (hbody : m.body = .msg who x) :
    exec (.channelMessageArrival msg) s = .next (((s.dropMsg msg).chanMessage m.ldest who x).getD s) := by
  show execChannelMessageArrival msg s = _
  unfold execChannelMessageArrival
  rw [harr]
  dsimp only
  rw [hbody]

section
variable {who : Option Asker} {pos : Nat} (hfar : ∀ w, who = some w → clusterOf w.core ≠ clusterOf pos)
include hfar

/-- An answer to a sender of another cluster changes only flits. -/
theorem State.tell_far (u : State) (v : Word) : { u.tell who pos v with msgs := u.msgs, nextId := u.nextId, flows := u.flows } = u := by
  cases who with
  | none => rfl
  | some w =>
    have h : u.tell (some w) pos v = _ := State.reply_far (hfar w rfl) kStat (.value v)
    rw [h]
    rfl

/-- R371: the sender of a message that has been taken, where one waits, gets its answer. -/
theorem State.Taken.tell {s u : State} {msg : Nat} (h : s.Taken u msg) (hmsg : msg < s.nextId) (v : Word) :
    KMap.find (u.tell who pos v).msgs msg = none ∧ ∀ w, who = some w → s.Sends (u.tell who pos v) 0x0F w.core (.resp w (.value v)) := by
  cases who with
  | none => exact ⟨h.gone, fun w hw => by cases hw⟩
  | some w =>
    obtain ⟨hgone, -, hsends⟩ := h.reply hmsg (hfar w rfl) kStat (.value v)
    exact ⟨hgone, fun w' hw => by cases hw; exact hsends⟩

end

section
variable {s : State} {msg : Nat} {m : Msg} {who : Option Asker} {x : ChanMsg} (hmsg : msg < s.nextId) (harr : s.arrived msg = some m)
  (hbody : m.body = .msg who x) (hfar : ∀ w, who = some w → clusterOf w.core ≠ clusterOf m.ldest)
include hmsg harr hbody hfar

/-- R114, R371: a message on a channel that its context has not bound is dropped and counted. -/
theorem channelMessageArrival_unbound (h : (s.chan m.ldest x.chan).bound = false ∨ (s.chan m.ldest x.chan).dom ≠ x.domid) :
    ∃ t, exec (.channelMessageArrival msg) s = .next t ∧ KMap.find t.msgs msg = none ∧ t.threads = s.threads ∧ t.mem = s.mem ∧
      ((s.cluster (clusterOf m.ldest)).orphan ≠ BitVec.allOnes 32 →
        (t.cluster (clusterOf m.ldest)).orphan = (s.cluster (clusterOf m.ldest)).orphan + 1) ∧
      (∀ w, who = some w → s.Sends t 0x0F w.core (.resp w (.value 1))) := by
  have hact : (s.dropMsg msg).chanMessage m.ldest who x = some (((s.dropMsg msg).orphaned (clusterOf m.ldest)).tell who m.ldest 1) := by
    unfold State.chanMessage
    refine if_pos ?_
    show (!(s.chan m.ldest x.chan).bound || (s.chan m.ldest x.chan).dom != x.domid) = true
    rcases h with h | h <;> simp [h]
  have hexec := exec_channelMessageArrival harr hbody
  rw [hact, Option.getD_some] at hexec
  have hkeeps := State.tell_far hfar ((s.dropMsg msg).orphaned (clusterOf m.ldest)) 1
  obtain ⟨hgone, hsends⟩ := State.Taken.tell hfar (s := s) (u := (s.dropMsg msg).orphaned (clusterOf m.ldest)) ⟨s.msgs_dropMsg msg, Nat.le_refl _⟩ hmsg 1
  refine ⟨_, hexec, hgone, (congrArg State.threads hkeeps : _), (congrArg State.mem hkeeps : _), fun hroom => ?_, hsends⟩
  have hcluster : ((((s.dropMsg msg).orphaned (clusterOf m.ldest)).tell who m.ldest 1).cluster (clusterOf m.ldest)) =
      ((s.dropMsg msg).orphaned (clusterOf m.ldest)).cluster (clusterOf m.ldest) :=
    (congrArg (fun u : State => u.cluster (clusterOf m.ldest)) hkeeps : _)
  rw [hcluster, State.orphaned, State.cluster_modCluster_same]
  exact if_neg hroom

variable (hbound : (s.chan m.ldest x.chan).bound = true) (hdom : (s.chan m.ldest x.chan).dom = x.domid)
  (hlive : s.isLive (clusterOf m.ldest) x.domid x.cin = true)
include hbound hdom hlive

/-- R114: a message on a channel that is held is parked. -/
theorem channelMessageArrival_held (hclosed : (s.chan m.ldest x.chan).open = false) (hroom : s.parkFull (clusterOf m.ldest) = false) :
    ∃ t, exec (.channelMessageArrival msg) s = .next t ∧ KMap.find t.msgs msg = none ∧ t.threads = s.threads ∧ t.mem = s.mem ∧
      (t.core m.ldest).parkedMsgs = (s.core m.ldest).parkedMsgs ++ [x] ∧
      (∀ w, who = some w → s.Sends t 0x0F w.core (.resp w (.value 0))) := by
  have hact : (s.dropMsg msg).chanMessage m.ldest who x =
      some (((s.dropMsg msg).modCore m.ldest (fun c => { c with parkedMsgs := c.parkedMsgs ++ [x] })).tell who m.ldest 0) := by
    unfold State.chanMessage
    dsimp only
    rw [show (s.dropMsg msg).chan m.ldest x.chan = s.chan m.ldest x.chan from rfl,
      show (s.dropMsg msg).isLive (clusterOf m.ldest) x.domid x.cin = s.isLive (clusterOf m.ldest) x.domid x.cin from rfl,
      hbound, hdom, hlive, hclosed, State.parkFull_dropMsg hroom msg]
    simp
  have hexec := exec_channelMessageArrival harr hbody
  rw [hact, Option.getD_some] at hexec
  have hkeeps := State.tell_far hfar ((s.dropMsg msg).modCore m.ldest (fun c => { c with parkedMsgs := c.parkedMsgs ++ [x] })) 0
  obtain ⟨hgone, hsends⟩ := State.Taken.tell hfar (s := s) (u := (s.dropMsg msg).modCore m.ldest (fun c => { c with parkedMsgs := c.parkedMsgs ++ [x] }))
    ⟨s.msgs_dropMsg msg, Nat.le_refl _⟩ hmsg 0
  refine ⟨_, hexec, hgone, (congrArg State.threads hkeeps : _), (congrArg State.mem hkeeps : _), ?_, hsends⟩
  have hcore : ((((s.dropMsg msg).modCore m.ldest (fun c => { c with parkedMsgs := c.parkedMsgs ++ [x] })).tell who m.ldest 0).core m.ldest) =
      ((s.dropMsg msg).modCore m.ldest (fun c => { c with parkedMsgs := c.parkedMsgs ++ [x] })).core m.ldest :=
    (congrArg (fun u : State => u.core m.ldest) hkeeps : _)
  rw [hcore, State.core_modCore_same]
  rfl

/-- R114, R115: a message on a channel that is open starts a task. -/
theorem channelMessageArrival_open {k : Nat} (hopen : (s.chan m.ldest x.chan).open = true)
    (hquiet : ∀ y ∈ (s.core m.ldest).parkedMsgs, y.chan ≠ x.chan) (hframe : s.frameFree (clusterOf m.ldest) = true)
    (hnew : KMap.find s.threads s.nextId = none) (hfree : s.freeSlot m.ldest false = some k) (hbest : s.bestEntry m.ldest k = none) :
    ∃ t, exec (.channelMessageArrival msg) s = .next t ∧ KMap.find t.msgs msg = none ∧ t.mem = s.mem ∧
      (∀ w, who = some w → s.Sends t 0x0F w.core (.resp w (.value 0))) ∧ ∃ tag frame cyc cin,
        t.thread s.nextId = { taskThread (s.chan m.ldest x.chan) x cin with
          tag := tag, tframe := frame, place := .slot m.ldest k, cycAt := cyc } := by
  obtain ⟨u, hu, hstarted, tag, frame, cyc, hthread⟩ := State.startTask_slot (s := s.dropMsg msg) (e := s.chan m.ldest x.chan) (m := x)
    hframe hnew hfree hbest
  have hact : (s.dropMsg msg).chanMessage m.ldest who x = some (u.tell who m.ldest 0) := by
    unfold State.chanMessage
    dsimp only
    rw [show (s.dropMsg msg).chan m.ldest x.chan = s.chan m.ldest x.chan from rfl,
      show (s.dropMsg msg).isLive (clusterOf m.ldest) x.domid x.cin = s.isLive (clusterOf m.ldest) x.domid x.cin from rfl,
      show (s.dropMsg msg).core m.ldest = s.core m.ldest from rfl, hbound, hdom, hlive, hopen, hu]
    have hnone : (s.core m.ldest).parkedMsgs.any (fun y => decide (y.chan = x.chan)) = false := by
      rw [List.any_eq_false]
      simpa using hquiet
    rw [hnone]
    simp
  have hexec := exec_channelMessageArrival harr hbody
  rw [hact, Option.getD_some] at hexec
  have hkeeps := State.tell_far hfar u 0
  obtain ⟨hgone, hsends⟩ := State.Taken.tell hfar (s := s) (u := u) ⟨hstarted.msgs ▸ s.msgs_dropMsg msg, hstarted.nextId⟩ hmsg 0
  refine ⟨_, hexec, hgone, (congrArg State.mem hkeeps : _).trans hstarted.mem, hsends, tag, frame, cyc, _, Eq.trans ?_ hthread⟩
  exact (congrArg (fun v : State => v.thread s.nextId) hkeeps : _)

end

end Sys2Proof.Machine
end

section
/-! The placement of a bulk message (R285, R370). A flit that the answer of a step sends gets a number that no earlier flit has:
nothing that a write to a range does turns the fresh numbers back. -/

namespace Sys2Proof.Machine

/-! ### Fresh numbers -/

/-- The fresh numbers of `t` are not below those of `s`. -/
structure State.Later (s t : State) : Prop where
  nextId : s.nextId ≤ t.nextId

namespace State.Later

theorem refl (s : State) : s.Later s := ⟨Nat.le_refl _⟩
theorem of_eq {s t u : State} (h : s.Later t) (e : u.nextId = t.nextId) : s.Later u := ⟨e ▸ h.nextId⟩
theorem of_local {s t u : State} (h : s.Later t) (e : t.Local u) : s.Later u := ⟨h.nextId.trans e.nextId⟩

theorem ifElse {s t u : State} {c : Prop} [Decidable c] (h : s.Later t) (k : s.Later u) : s.Later (if c then t else u) := by
  split
  · exact h
  · exact k

variable {s t : State} (h : s.Later t)
include h

theorem foldl {α : Type} {f : State → α → State} (hf : ∀ u a, s.Later u → s.Later (f u a)) (l : List α) : s.Later (l.foldl f t) := by
  induction l generalizing t with
  | nil => exact h
  | cons a l ih => exact ih (hf t a h)

theorem modThread {tid : Nat} {f : Thread → Thread} : s.Later (t.modThread tid f) := h.of_eq rfl
theorem modCore {k : Nat} {f : Core → Core} : s.Later (t.modCore k f) := h.of_eq rfl
theorem modCluster {k : Nat} {f : Cluster → Cluster} : s.Later (t.modCluster k f) := h.of_eq rfl
theorem svc {die : Nat} {m : SvcMsg} : s.Later (t.svc die m) := h.of_eq rfl
theorem orphaned {cl : Nat} : s.Later (t.orphaned cl) := h.modCluster
theorem setTag {a : Nat} {full : Bool} : s.Later (t.setTag a full) := h.of_eq (State.setTag_nextId _ _ _)

/-! Memory -/

theorem noteWrite {pa n : Nat} : s.Later (t.noteWrite pa n) := h.of_eq (congrArg State.nextId (t.noteWrite_noted pa n).other : _)
theorem perform {pa n v : Nat} {full : Bool} : s.Later (t.perform pa n v full) := h.of_eq (t.written_perform pa n v full).nextId
theorem putWords {a : Nat} {l : List Word} : s.Later (t.putWords a l) := h.of_eq (congrArg State.nextId (t.recorded_putWords a l).other : _)

theorem shadowFor {u : State} {dom : BitVec 12} {shadow : Bool} {pa : Nat} (e : t.shadowFor dom shadow pa = some u) : s.Later u := by
  cases shadow with
  | false =>
    cases e
    exact h
  | true =>
    unfold State.shadowFor at e
    rw [if_pos rfl] at e
    cases hlaunch : t.replayable dom with
    | none =>
      rw [hlaunch] at e
      cases e
      exact h
    | some l =>
      rw [hlaunch] at e
      dsimp only at e
      split_ifs at e
      · cases e
        exact h
      · cases e
        exact ⟨Nat.le_succ_of_le h.nextId⟩

theorem performFor {dom : BitVec 12} {shadow : Bool} {pa n v : Nat} {full : Bool} : s.Later (t.performFor dom shadow pa n v full) := by
  unfold State.performFor
  split
  · next u hu => exact ifElse (h.shadowFor hu).perform (h.shadowFor hu).perform.noteWrite
  · exact h.perform

/-! Threads -/

theorem write {tid : Nat} {r : Reg} {x : Word} : s.Later (t.write tid r x) := h.of_local (State.local_write _ _ _ _)

theorem writeV {tid : Nat} {r : Reg} {x : BitVec 1024} : s.Later (t.writeV tid r x) := by
  unfold State.writeV
  split
  · exact h.of_local (((State.local_modThread _ _ _).trans (State.kin_logWrite _ tid _ _).local).trans (State.kin_feed _ tid _ _).local)
  · exact h

theorem freeUp {x : Thread} : s.Later (t.freeUp x) := by
  unfold State.freeUp
  split
  · exact h.modCore
  · exact h

theorem leave {tid : Nat} {p : Place} : s.Later (t.leave tid p) := h.freeUp.putWords.modThread
theorem freeze {tid : Nat} {ws : List Word} : s.Later (t.freeze tid ws) := h.leave.modThread.svc
theorem putRecord {tid a : Nat} {ws : List Word} : s.Later (t.putRecord tid a ws) := ifElse h.modThread h.putWords

theorem takeTrap {tid : Nat} {cause addr tpc iword : Word} : s.Later (t.takeTrap tid cause addr tpc iword) :=
  ifElse h.modThread (ifElse h.putWords.modThread.freeze (ifElse h.putWords.modThread.freeze h.putRecord.modThread.modThread))

/-! Answers -/

theorem sendFlit {from_ dest : Nat} {kind : BitVec 6} {dom : BitVec 12} {cin tag : BitVec 16} {pri : BitVec 2} {b : Body} :
    s.Later (t.sendFlit from_ dest kind dom cin tag pri b) := ⟨Nat.le_succ_of_le h.nextId⟩

theorem stray {who : Asker} {a : Ans} : s.Later (t.stray who a) := by
  unfold State.stray
  split
  · exact h.sendFlit
  · exact h.orphaned

theorem fill {tid : Nat} {a : Await} {v : Word} : s.Later (t.fill tid a v) := by
  unfold State.fill
  split
  · split
    · exact h.modThread.write
    · exact h.modThread
  · split
    · exact ifElse h.modThread.modThread h.modThread.writeV
    · exact h.modThread
  · exact h.modThread.of_local (State.local_dropCand _ _ _)
  · exact h.modThread

theorem keepInCkpt {tid tok : Nat} {f : Thread → Thread} : s.Later (t.keepInCkpt tid tok f) := ifElse h.modCore h
theorem markReg {tid : Nat} {a : Await} {cause : BitVec 8} : s.Later (t.markReg tid a cause) := h.modThread
theorem fillCand {cl va la stamp : Nat} {data : Nat} {keep : Bool} : s.Later (t.fillCand cl va la data stamp keep) := h.modCluster
theorem complete {tid : Nat} {p : Pend} {v : Word} : s.Later (t.complete tid p v) := h.of_local (State.local_complete _ _ _ _)

theorem answer {who : Asker} {a : Ans} : s.Later (t.answer who a) := by
  unfold State.answer
  grind [stray, fillCand, markReg, keepInCkpt, fill, takeTrap, complete, modThread]

theorem reply {who : Asker} {pos : Nat} {kind : BitVec 6} {a : Ans} : s.Later (t.reply who pos kind a) := ifElse h.answer h.sendFlit

/-! Tags -/

theorem ldfServe {w : TagWaiter} {empty : Bool} {pos : Nat} : s.Later (t.ldfServe w empty pos) := by
  have hshadow : s.Later ((t.shadowFor w.who.domid w.who.shadow w.pa).getD t) := by
    cases e : t.shadowFor w.who.domid w.who.shadow w.pa with
    | none => exact h
    | some u => exact h.shadowFor e
  exact ifElse h.reply (ifElse hshadow.setTag h).reply

theorem stfServe {w : TagWaiter} {d : Word} {pos : Nat} : s.Later (t.stfServe w d pos) := h.performFor.reply

theorem serveTags {cl word pos fuel : Nat} : s.Later (t.serveTags cl word pos fuel) := by
  induction fuel generalizing t with
  | zero => exact h
  | succ fuel ih =>
    have hdrop (w : TagWaiter) : s.Later (t.dropTagWaiter cl w) := h.modCluster
    unfold State.serveTags
    dsimp only
    split
    · exact h
    · next w _ =>
      refine ih (ifElse (hdrop w) ?_)
      split
      · exact (hdrop w).ldfServe
      · exact (hdrop w).stfServe
      · exact hdrop w

theorem tagsChanged {core pa q n : Nat} : s.Later (t.tagsChanged core pa q n) := h.foldl (fun _ _ k => k.serveTags) _

/-! Ranges -/

theorem writePiece {u : State} {c : Ctx} {va n v mask : Nat} {allowC : Bool} {x : Unit}
    (e : t.writePiece c va n v mask allowC = .ok u x) : s.Later u := by
  have hres := t.nextId_resolve c (BitVec.ofNat 64 va) .store allowC
  unfold State.writePiece at e
  dsimp only at e
  split at e
  · cases e
  · cases e
  · next u1 pa leaf he =>
    rw [he] at hres
    have hu1 : s.Later u1 := h.of_eq hres
    split at e
    · cases e
    · split at e
      · cases e
        exact hu1.perform.of_eq rfl
      · split at e
        · cases e
        · cases e
          exact hu1.performFor.tagsChanged

theorem writeRange {u : State} {c : Ctx} {va n v : Nat} {x : Unit} (e : t.writeRange c va n v = .ok u x) : s.Later u := by
  refine Got.foldl_keeps s.Later (fun g p hg u x e => ?_) _ _ (fun u x e => by cases e; exact h) _ _ e
  split at e
  · next u1 _ => exact (hg u1 _ rfl).writePiece e
  · exact hg _ _ e

end State.Later

/-! ### The placement -/

theorem exec_bulkMessagePlacement {s : State} {msg : Nat} {m : Msg} (harr : s.arrived msg = some m)
    (hlive : s.isLive (clusterOf m.ldest) m.domid m.cin = true) :
    exec (.bulkMessagePlacement msg) s = .next ((s.bulkAt msg m none false).getD s) := by
  have hfound := harr
  unfold State.arrived at hfound
  split at hfound
  · cases hfound
  · next m' hfind =>
    split at hfound
    · next port hloc =>
      split at hfound
      · cases hfound
      · cases hfound
        show execBulkMessagePlacement msg s = _
        unfold execBulkMessagePlacement
        rw [hfind]
        dsimp only
        rw [hloc, harr]
        exact congrArg _ (if_pos hlive)
    · cases hfound

/-- R378: a flit that was sent stays when an older one is taken. -/
theorem State.Sends.dropMsg {s t : State} {kind : BitVec 6} {dest : Nat} {body : Body} (h : s.Sends t kind dest body) {msg : Nat}
    (hmsg : msg < s.nextId) : s.Sends (t.dropMsg msg) kind dest body := by
  obtain ⟨id, f, hid, hmem, hf⟩ := h
  exact ⟨id, f, hid, List.mem_filter.2 ⟨hmem, decide_eq_true (by omega)⟩, hf⟩

/-- R370: the status of a bulk message at its sender. -/
def bulkAnswer (size room len : Nat) : Word := if size < len then 0x0A else if room < len then 0x10 else 0

section
variable {s s1 s2 : State} {msg : Nat} {m : Msg} {who : Asker} {ch len : Nat} {data : List Byte} {b : RecvBlock}

/-- R285, R370: a bulk message whose buffer and STATUS can be written. -/
theorem State.bulkAt_placed (hbody : m.body = .bulk who ch data len) (hposted : KMap.find (s.core m.ldest).posted ch = some b)
    (hbuf : s.writeRange (engineCtx m.ldest b.domid b.cin 0 b.sup) b.buf.toNat (Nat.min data.length b.len)
      (bytesNat (data.take (Nat.min data.length b.len))) = .ok s1 ())
    (hstatus : s1.writeRange (engineCtx m.ldest b.domid b.cin 0 b.sup) (b.addr.toNat + 24) 8
      (BitVec.ofNat 64 (m.src * 2 ^ 32 + (if b.len < len then 2 ^ 31 else 0) + Nat.min data.length b.len)).toNat = .ok s2 ()) :
    s.bulkAt msg m none false = some (((s2.modCore m.ldest (fun k => { k with posted := KMap.erase k.posted ch })).reply who m.ldest kStat
      (.value (bulkAnswer data.length b.len len))).dropMsg msg) := by
  have hend : s1.bulkEnd m who ch b data.length len (Nat.min data.length b.len) =
      .over ((s2.modCore m.ldest (fun k => { k with posted := KMap.erase k.posted ch })).reply who m.ldest kStat
        (.value (bulkAnswer data.length b.len len))) := by
    unfold State.bulkEnd
    dsimp only
    rw [show (2 : Nat) ^ 32 = 4294967296 from rfl, show (2 : Nat) ^ 31 = 2147483648 from rfl] at hstatus
    rw [hstatus]
    rfl
  unfold State.bulkAt
  rw [hbody]
  dsimp only
  rw [hposted]
  dsimp only
  unfold State.bulkPlace
  dsimp only
  rw [hbuf]
  dsimp only
  rw [hend]

/-- R285, R370: the buffer and STATUS are written, the block is posted no more, and the sender has its answer. -/
theorem bulkMessagePlacement_places (htakes : s.takes msg m who) (hbody : m.body = .bulk who ch data len)
    (hposted : KMap.find (s.core m.ldest).posted ch = some b)
    (hbuf : s.writeRange (engineCtx m.ldest b.domid b.cin 0 b.sup) b.buf.toNat (Nat.min data.length b.len)
      (bytesNat (data.take (Nat.min data.length b.len))) = .ok s1 ())
    (hstatus : s1.writeRange (engineCtx m.ldest b.domid b.cin 0 b.sup) (b.addr.toNat + 24) 8
      (BitVec.ofNat 64 (m.src * 2 ^ 32 + (if b.len < len then 2 ^ 31 else 0) + Nat.min data.length b.len)).toNat = .ok s2 ()) :
    ∃ t, exec (.bulkMessagePlacement msg) s = .next t ∧ KMap.find (t.core m.ldest).posted ch = none ∧ KMap.find t.msgs msg = none ∧
      (∀ x, t.byte x = s2.byte x) ∧ s.Sends t 0x0F who.core (.resp who (.value (bulkAnswer data.length b.len len))) := by
  obtain ⟨hmsg, harr, hlive, -, hfar⟩ := htakes
  have hlater : s.Later s2 := ((State.Later.refl s).writeRange hbuf).writeRange hstatus
  have hexec := exec_bulkMessagePlacement harr hlive
  rw [State.bulkAt_placed hbody hposted hbuf hstatus, Option.getD_some, State.reply_far hfar] at hexec
  refine ⟨_, hexec, ?_, State.msgs_dropMsg _ msg, fun _ => rfl,
    (State.sends_sendFlit (u := s2.modCore m.ldest (fun k => { k with posted := KMap.erase k.posted ch })) hlater.nextId _ _ _ _ _ _ _ _).dropMsg hmsg⟩
  show KMap.find ((s2.modCore m.ldest (fun k => { k with posted := KMap.erase k.posted ch })).core m.ldest).posted ch = none
  rw [State.core_modCore_same, KMap.find_erase, if_pos rfl]

end

end Sys2Proof.Machine
end

section
/-! Channels and their messages (R70 to R72, R113 to R116, R358 to R360, R366 to R372): the obligation. -/

namespace Sys2Proof.Machine

theorem badControl_init_none {ctl : Word} (h : chinitOf ctl = none) : (ChanOp.init ctl).badControl = true := by
  simpa [ChanOp.badControl, Option.isSome_iff_ne_none] using h

theorem badControl_init_some {ctl : Word} (h : chinitOf ctl ≠ none) : (ChanOp.init ctl).badControl = false := by
  simpa [ChanOp.badControl, Option.isSome_iff_ne_none] using h

/-- R372: bit 1 of the entry that TRDY leaves is READY, and bit 0 HOLD. -/
theorem bit_ready (r h : Ksc) (e : ChanEntry) :
    bit (readied r h e).w0 1 = (match r with | .keep => bit e.w0 1 | .set => true | .clear => false) := by
  rw [bit_readied, if_pos rfl]
  cases r <;> rfl

theorem bit_hold (r h : Ksc) (e : ChanEntry) :
    bit (readied r h e).w0 0 = (match h with | .keep => bit e.w0 0 | .set => true | .clear => false) := by
  rw [bit_readied, if_neg (by decide), if_pos rfl]
  cases h <;> rfl

theorem bit_readied_high (r h : Ksc) (e : ChanEntry) {i : Nat} (hi : 2 ≤ i) : bit (readied r h e).w0 i = bit e.w0 i := by
  rw [bit_readied, if_neg (by omega), if_neg (by omega)]

/-- Settles O30: the instructions are read off the equations of their effects, the operations at a home off what the operation
on the object comes to, and the start of a task off what the start leaves of the other threads and of the channels. -/
theorem channelsAndTheirMessages : Obligations.ChannelsAndTheirMessages := by
  unfold Obligations.ChannelsAndTheirMessages
  refine ⟨⟨fun s s1 g pr d m pa leaf => ⟨fun hbad => ⟨fun hpush => ⟨?_, ?_⟩, fun hpop => ?_⟩,
      fun halign hline hreach => ⟨fun hhost => ⟨fun hpush => ⟨?_, ?_⟩, fun hpop => ?_⟩, fun hhome hpush hctl => ?_,
        fun hhome hlack => ⟨fun hpush => ⟨?_, fun hctl => ?_⟩, fun hpop => ?_⟩,
        fun hhome hroomy hpush => ⟨?_, fun hctl => ?_⟩, fun hhome hroomy hpop => ?_⟩⟩,
    fun s g d a b n _ hr => ⟨send_badAddress hr, send_overflow hr, send_sends hr⟩,
    fun s s1 g d a b c data bad _ hr => ⟨sendm_badAddress hr, sendm_tooLong hr,
      fun h0 hp hlen hgated hstored hread hc => ⟨sendm_overflow hr h0 hp hlen hgated hstored hread,
        sendm_sends hr h0 hp hlen hgated hstored hread hc⟩⟩,
    fun s s1 s2 g a ch v pa leaf _ hr => ⟨recv_misaligned hr, fun halign hgated hstored hread hc =>
      ⟨recv_bad hr halign hgated hstored hread hc, recv_posts hr halign hgated hstored hread hc⟩⟩,
    fun s s1 g a b ch v _ hr => ⟨chbind_misaligned hr, chbind_badCore hr rfl, fun halign hcore hgated hstored hread hc =>
      ⟨chbind_fenced hr rfl halign hcore hgated hstored hread hc, chbind_foreign hr rfl halign hcore hgated hstored hread hc,
        fun hfen hown => ⟨chbind_tasks hr rfl halign hcore hgated hstored hread hc hfen hown,
          chbind_quiet hr rfl halign hcore hgated hstored hread hc hfen hown⟩⟩⟩,
    fun s g r h d a hwf hr => ⟨trdy_badAddress hr, fun h0 hp hfen => trdy_foreign hr (State.chanAddr_some h0 hp) hfen,
      fun h0 hp hfen hown hcur => ?_⟩⟩,
    ⟨fun s msg pa cap count head m who k x pr htakes hobj hpr =>
      ⟨fun hbody => ⟨channelOpAtHome_push htakes hobj hpr hbody, channelOpAtHome_push_full htakes hobj hpr hbody⟩,
        fun hbody => ⟨channelOpAtHome_pop_stack htakes hobj hpr hbody, channelOpAtHome_pop_queue htakes hobj hpr hbody,
          channelOpAtHome_pop_empty htakes hobj hpr hbody⟩⟩,
      fun s msg pa m who x ctl htakes hpoison hwait htags =>
        ⟨fun hbody hnone => channelOpAtHome_noObject htakes hbody hpoison hnone (by simp),
          fun hbody hnone => channelOpAtHome_noObject htakes hbody hpoison hnone (by simp),
          fun k cap hbody h1 h2 hctl => channelOpAtHome_init htakes hbody hwait htags (hctl ▸ chinitOf_control k h1 h2 rfl)⟩⟩,
    fun s msg m who x hmsg harr hbody hask => ?_, fun s s1 s2 msg m who ch len data b htakes hbody hposted =>
      bulkMessagePlacement_places htakes hbody hposted⟩
  · exact chanIssue_misplaced (exec_push g pr d m s) hpush rfl hbad
  · exact chanIssue_misplaced (exec_chinit g d m s) hpush rfl hbad
  · exact chanIssue_misplaced (exec_pop g pr d m s) hpop rfl hbad
  · exact chanIssue_host (exec_push g pr d m s) hpush rfl halign hline hreach hhost
  · exact chanIssue_host (exec_chinit g d m s) hpush rfl halign hline hreach hhost
  · exact chanIssue_host (exec_pop g pr d m s) hpop rfl halign hline hreach hhost
  · exact chanIssue_badControl (op := .init (s.me.reg d)) (exec_chinit g d m s) hpush rfl halign hline hreach hhome (badControl_init_none hctl)
  · exact chanIssue_overflow (exec_push g pr d m s) hpush rfl halign hline hreach hhome rfl hlack
  · exact chanIssue_overflow (exec_chinit g d m s) hpush rfl halign hline hreach hhome (badControl_init_some hctl) hlack
  · exact chanIssue_overflow (exec_pop g pr d m s) hpop rfl halign hline hreach hhome rfl hlack
  · exact chanIssue_sends (exec_push g pr d m s) hpush rfl halign hline hreach hhome rfl hroomy
  · exact chanIssue_sends (exec_chinit g d m s) hpush rfl halign hline hreach hhome (badControl_init_some hctl) hroomy
  · exact chanIssue_sends (exec_pop g pr d m s) hpop rfl halign hline hreach hhome rfl hroomy
  · obtain ⟨t, ht, hpc, hretired, hd, hq, hentry, hbyte⟩ := trdy_readies hr (State.chanAddr_some h0 hp) hfen hwf hown hcur
    refine ⟨t, ht, hpc, hretired, hd, hq, ?_⟩
    rw [hentry]
    exact ⟨rfl, rfl, fun i => bit_readied_high r h _, bit_ready r h _, bit_hold r h _, hbyte⟩
  · have hfar : ∀ w, who = some w → clusterOf w.core ≠ clusterOf m.ldest := fun w hw => (hask w hw).2
    refine ⟨channelMessageArrival_unbound hmsg harr hbody hfar, channelMessageArrival_held hmsg harr hbody hfar,
      fun k hbound hdom hlive hopen hquiet hframe hnew hfree hbest => ?_⟩
    obtain ⟨t, ht, hgone, hmem, hsends, tag, frame, cyc, cin, hthread⟩ :=
      channelMessageArrival_open hmsg harr hbody hfar hbound hdom hlive hopen hquiet hframe hnew hfree hbest
    obtain ⟨hwords, hsender, hcount⟩ := taskThread_regs (s.chan m.ldest x.chan) x cin
    refine ⟨t, ht, hgone, hmem, hsends, ?_⟩
    dsimp only
    rw [hthread]
    exact ⟨rfl, rfl, rfl, hdom, rfl, rfl, rfl, hwords, hsender, hcount⟩

end Sys2Proof.Machine
end

section
/-! The encoder and the decoder (R120 to R128): the fields of each format, the codes and operands that the decoder reads back from
them, and the round trip of every instruction (O59). -/

namespace Sys2Proof

/-! ### Fields of a word -/

/-- The bits of `w` from `p` upwards are `x`: every part of them, and every bit. -/
abbrev FieldAt {v m : Nat} (w : BitVec v) (p : Nat) (x : BitVec m) : Prop :=
  (∀ lo n, p ≤ lo → lo + n ≤ p + m → w.extractLsb' lo n = x.extractLsb' (lo - p) n) ∧
    ∀ k (_ : k < v), p ≤ k → k < p + m → w[k] = x.getLsbD (k - p)

namespace FieldAt

variable {v u m p : Nat} {w : BitVec v} {x : BitVec m}

theorem last (w : BitVec v) (x : BitVec m) : FieldAt (w ++ x) 0 x := by
  refine ⟨fun lo n _ h => BitVec.extractLsb'_append_eq_of_add_le (by omega), fun k _ _ h => ?_⟩
  rw [BitVec.getElem_append, dif_pos (by omega)]
  rfl

theorem first (w : BitVec v) (x : BitVec m) : FieldAt (w ++ x) m w := by
  refine ⟨fun lo n h _ => BitVec.extractLsb'_append_eq_of_le h, fun k _ h _ => ?_⟩
  rw [BitVec.getElem_append, dif_neg (by omega)]
  rfl

/-- A field stands higher by the width of what is appended below it. -/
theorem before (h : FieldAt w p x) (y : BitVec u) : FieldAt (w ++ y) (p + u) x := by
  refine ⟨fun lo n h1 h2 => ?_, fun k _ h1 h2 => ?_⟩
  · rw [BitVec.extractLsb'_append_eq_of_le (by omega), h.1 _ _ (by omega) (by omega), Nat.sub_sub, Nat.add_comm u p]
  · rw [BitVec.getElem_append, dif_neg (by omega), h.2 _ (by omega) (by omega) (by omega), Nat.sub_sub, Nat.add_comm u p]

end FieldAt

/-! ### The formats (R123) -/

section
variable (op : BitVec 8) (sub : BitVec 4) (g : Guard)

@[simp] theorem encA_fields (d : BitVec 6) (a b c : BitVec 7) (i : BitVec 21) :
    FieldAt (encA op sub g d a b c i) 56 op ∧ FieldAt (encA op sub g d a b c i) 52 sub ∧ FieldAt (encA op sub g d a b c i) 48 g ∧
      FieldAt (encA op sub g d a b c i) 42 d ∧ FieldAt (encA op sub g d a b c i) 35 a ∧ FieldAt (encA op sub g d a b c i) 28 b ∧
      FieldAt (encA op sub g d a b c i) 21 c ∧ FieldAt (encA op sub g d a b c i) 0 i :=
  ⟨.before (.before (.before (.before (.before (.before (.first _ _) _) _) _) _) _) _,
    .before (.before (.before (.before (.before (.before (.last _ _) _) _) _) _) _) _,
    .before (.before (.before (.before (.before (.last _ _) _) _) _) _) _,
    .before (.before (.before (.before (.last _ _) _) _) _) _, .before (.before (.before (.last _ _) _) _) _,
    .before (.before (.last _ _) _) _, .before (.last _ _) _, .last _ _⟩

@[simp] theorem encI_fields (d : BitVec 6) (a : BitVec 7) (i : BitVec 35) :
    FieldAt (encI op sub g d a i) 56 op ∧ FieldAt (encI op sub g d a i) 52 sub ∧ FieldAt (encI op sub g d a i) 48 g ∧
      FieldAt (encI op sub g d a i) 42 d ∧ FieldAt (encI op sub g d a i) 35 a ∧ FieldAt (encI op sub g d a i) 0 i :=
  ⟨.before (.before (.before (.before (.first _ _) _) _) _) _, .before (.before (.before (.before (.last _ _) _) _) _) _,
    .before (.before (.before (.last _ _) _) _) _, .before (.before (.last _ _) _) _, .before (.last _ _) _, .last _ _⟩

@[simp] theorem encW_fields (d : BitVec 6) (i : BitVec 42) :
    FieldAt (encW op sub g d i) 56 op ∧ FieldAt (encW op sub g d i) 52 sub ∧ FieldAt (encW op sub g d i) 48 g ∧
      FieldAt (encW op sub g d i) 42 d ∧ FieldAt (encW op sub g d i) 0 i :=
  ⟨.before (.before (.before (.first _ _) _) _) _, .before (.before (.before (.last _ _) _) _) _,
    .before (.before (.last _ _) _) _, .before (.last _ _) _, .last _ _⟩

@[simp] theorem encMf_fields (d : BitVec 6) (a b : BitVec 7) (sc sp : BitVec 2) (i : BitVec 24) :
    FieldAt (encMf op sub g d a b sc sp i) 56 op ∧ FieldAt (encMf op sub g d a b sc sp i) 52 sub ∧
      FieldAt (encMf op sub g d a b sc sp i) 48 g ∧ FieldAt (encMf op sub g d a b sc sp i) 42 d ∧
      FieldAt (encMf op sub g d a b sc sp i) 35 a ∧ FieldAt (encMf op sub g d a b sc sp i) 28 b ∧
      FieldAt (encMf op sub g d a b sc sp i) 26 sc ∧ FieldAt (encMf op sub g d a b sc sp i) 24 sp ∧
      FieldAt (encMf op sub g d a b sc sp i) 0 i :=
  ⟨.before (.before (.before (.before (.before (.before (.before (.first _ _) _) _) _) _) _) _) _,
    .before (.before (.before (.before (.before (.before (.before (.last _ _) _) _) _) _) _) _) _,
    .before (.before (.before (.before (.before (.before (.last _ _) _) _) _) _) _) _,
    .before (.before (.before (.before (.before (.last _ _) _) _) _) _) _,
    .before (.before (.before (.before (.last _ _) _) _) _) _, .before (.before (.before (.last _ _) _) _) _,
    .before (.before (.last _ _) _) _, .before (.last _ _) _, .last _ _⟩

@[simp] theorem encC_fields (a b : BitVec 7) (cl : Clauses) (ct : BitVec 8) :
    FieldAt (encC op sub g a b cl ct) 56 op ∧ FieldAt (encC op sub g a b cl ct) 52 sub ∧ FieldAt (encC op sub g a b cl ct) 48 g ∧
      FieldAt (encC op sub g a b cl ct) 41 a ∧ FieldAt (encC op sub g a b cl ct) 34 b ∧
      FieldAt (encC op sub g a b cl ct) 26 cl.ws ∧ FieldAt (encC op sub g a b cl ct) 20 cl.wt ∧
      FieldAt (encC op sub g a b cl ct) 12 cl.ss ∧ FieldAt (encC op sub g a b cl ct) 8 cl.si ∧
      FieldAt (encC op sub g a b cl ct) 0 ct :=
  ⟨.before (.before (.before (.before (.before (.before (.before (.before (.first _ _) _) _) _) _) _) _) _) _,
    .before (.before (.before (.before (.before (.before (.before (.before (.last _ _) _) _) _) _) _) _) _) _,
    .before (.before (.before (.before (.before (.before (.before (.last _ _) _) _) _) _) _) _) _,
    .before (.before (.before (.before (.before (.before (.last _ _) _) _) _) _) _) _,
    .before (.before (.before (.before (.before (.last _ _) _) _) _) _) _,
    .before (.before (.before (.before (.last _ _) _) _) _) _, .before (.before (.before (.last _ _) _) _) _,
    .before (.before (.last _ _) _) _, .before (.last _ _) _, .last _ _⟩

@[simp] theorem encV_fields (d : BitVec 6) (a b c : BitVec 7) (k : VMask) (t : ETyp) (rm : RM) (i : BitVec 10) :
    FieldAt (encV op sub g d a b c k t rm i) 56 op ∧ FieldAt (encV op sub g d a b c k t rm i) 52 sub ∧
      FieldAt (encV op sub g d a b c k t rm i) 48 g ∧ FieldAt (encV op sub g d a b c k t rm i) 42 d ∧
      FieldAt (encV op sub g d a b c k t rm i) 35 a ∧ FieldAt (encV op sub g d a b c k t rm i) 28 b ∧
      FieldAt (encV op sub g d a b c k t rm i) 21 c ∧ FieldAt (encV op sub g d a b c k t rm i) 18 k.m ∧
      FieldAt (encV op sub g d a b c k t rm i) 17 (BitVec.ofBool k.z) ∧ FieldAt (encV op sub g d a b c k t rm i) 13 t.code ∧
      FieldAt (encV op sub g d a b c k t rm i) 10 rm.code ∧ FieldAt (encV op sub g d a b c k t rm i) 0 i :=
  ⟨.before (.before (.before (.before (.before (.before (.before (.before (.before (.before (.first _ _) _) _) _) _) _) _) _) _) _) _,
    .before (.before (.before (.before (.before (.before (.before (.before (.before (.before (.last _ _) _) _) _) _) _) _) _) _) _) _,
    .before (.before (.before (.before (.before (.before (.before (.before (.before (.last _ _) _) _) _) _) _) _) _) _) _,
    .before (.before (.before (.before (.before (.before (.before (.before (.last _ _) _) _) _) _) _) _) _) _,
    .before (.before (.before (.before (.before (.before (.before (.last _ _) _) _) _) _) _) _) _,
    .before (.before (.before (.before (.before (.before (.last _ _) _) _) _) _) _) _,
    .before (.before (.before (.before (.before (.last _ _) _) _) _) _) _,
    .before (.before (.before (.before (.last _ _) _) _) _) _, .before (.before (.before (.last _ _) _) _) _,
    .before (.before (.last _ _) _) _, .before (.last _ _) _, .last _ _⟩

end

/-! ### Registers and sources -/

@[simp] theorem Reg.ofNat_code (r : Reg) : Reg.ofNat r.code.toNat = some r := by
  cases r with
  | g n => revert n; decide
  | v n => revert n; decide
  | m n => revert n; decide
  | sm n => revert n; decide
  | z | pw | ip => rfl

/-- The source of a field of seven bits (R121). -/
def Src.ofCode (x : BitVec 7) : Option Src := (Reg.ofNat (x.extractLsb' 0 6).toNat).map fun r => ⟨r, x.getLsbD 6⟩

theorem fSrc_eq (lo : Nat) (w : Word) : fSrc lo w = Src.ofCode (w.extractLsb' lo 7) := by
  have hreg : (w.extractLsb' lo 7).extractLsb' 0 6 = w.extractLsb' lo 6 := by
    ext k hk
    simp [Nat.lt_succ_of_lt hk]
  rw [fSrc, Src.ofCode, hreg]
  simp

@[simp] theorem Src.ofCode_code (s : Src) : Src.ofCode s.code = some s := by
  have hreg : s.code.extractLsb' 0 6 = s.reg.code := by
    rw [Src.code, (FieldAt.last _ s.reg.code).1 0 6 (by omega) (by omega), Nat.sub_self, BitVec.extractLsb'_eq_self]
  have htake : s.code[6] = s.take := by
    rw [Src.code, (FieldAt.first _ s.reg.code).2 6 (by omega) (by omega) (by omega)]
    simp
  rw [ofCode, hreg, Reg.ofNat_code, Option.map_some, BitVec.getLsbD_eq_getElem (by omega), htake]

@[simp] theorem extractLsb'_zero_setWidth {n m : Nat} (h : n ≤ m) (x : BitVec n) : (x.setWidth m).extractLsb' 0 n = x := by
  simp [BitVec.extractLsb'_setWidth_of_le, h]

@[simp] theorem Src.ofCode_reg (r : Reg) : Src.ofCode (r.code.setWidth 7) = some ⟨r, false⟩ := by
  have hreg : (r.code.setWidth 7).extractLsb' 0 6 = r.code := extractLsb'_zero_setWidth (by omega) _
  rw [ofCode, hreg, Reg.ofNat_code]
  simp

/-- R290: the number of a stream register is its code. -/
theorem smCode_eq (n : BitVec 2) : smCode n = (Reg.sm n.toFin).code := by revert n; decide

@[simp] theorem smOf_sm (n : BitVec 2) : smOf (.sm n.toFin) = some n := by simp [smOf]

/-! ### Codes (R36, R48, R126 and the entries) -/

@[simp] theorem RM.ofCode_code (r : RM) : RM.ofCode r.code = some r := by cases r <;> rfl
@[simp] theorem ETyp.ofCode_code (r : ETyp) : ETyp.ofCode r.code = some r := by cases r <;> rfl
@[simp] theorem Cond.ofCode_code (r : Cond) : Cond.ofCode r.code = some r := by cases r <;> rfl
@[simp] theorem ICond.ofCode_code (r : ICond) : ICond.ofCode r.code = some r := by cases r <;> rfl
@[simp] theorem FCond.ofCode_code (r : FCond) : FCond.ofCode r.code = some r := by cases r <;> rfl
@[simp] theorem FlopOp.ofCode_code (r : FlopOp) : FlopOp.ofCode r.code = some r := by cases r <;> rfl
@[simp] theorem PwField.ofCode_code (r : PwField) : PwField.ofCode r.code = some r := by cases r <;> rfl
@[simp] theorem SgnOp.ofCode_code (r : SgnOp) : SgnOp.ofCode r.code = some r := by cases r <;> rfl
@[simp] theorem FenceKind.ofCode_code (r : FenceKind) : FenceKind.ofCode r.code = some r := by cases r <;> rfl
@[simp] theorem LogOp.ofCode_code (r : LogOp) : LogOp.ofCode r.code = some r := by cases r <;> rfl
@[simp] theorem MnxOp.ofCode_code (r : MnxOp) : MnxOp.ofCode r.code = some r := by cases r <;> rfl
@[simp] theorem Ksc.ofCode_code (r : Ksc) : Ksc.ofCode r.code = some r := by cases r <;> rfl
@[simp] theorem VCodec.ofCode_code (r : VCodec) : VCodec.ofCode r.code = some r := by cases r <;> rfl
@[simp] theorem RedOp.ofCode_code (r : RedOp) : RedOp.ofCode r.code = some r := by cases r <;> rfl
@[simp] theorem CollOp.ofCode_code (r : CollOp) : CollOp.ofCode r.code = some r := by cases r <;> rfl
@[simp] theorem Spr.ofCode_code (r : Spr) : Spr.ofCode r.code = some r := by cases r <;> rfl
@[simp] theorem CodecSel.ofCode_code (r : CodecSel) : CodecSel.ofCode r.code = some r := by
  cases r with
  | fsh n => revert n; decide
  | none | zb | sb1 | bs4 | bsn | cust => rfl

/-! ### Parts of SUB -/

@[simp] theorem getElem_subH (h : Bool) : (subH h)[1] = h := by cases h <;> rfl
@[simp] theorem getElem_subF (s : Bool) : (subF s)[0] = s := by cases s <;> rfl
@[simp] theorem getElem_subAlu (h : Bool) (b : Opd) : (subAlu h b 0#4)[0] = b.isImm ∧ (subAlu h b 0#4)[1] = h := by
  unfold subAlu
  generalize b.isImm = x
  revert h x
  decide
@[simp] theorem getElem_subAlu_ext (h : Bool) (b : Opd) (s : Bool) :
    (subAlu h b (if s = true then 4#4 else 0#4))[0] = b.isImm ∧ (subAlu h b (if s = true then 4#4 else 0#4))[1] = h ∧
      (subAlu h b (if s = true then 4#4 else 0#4))[2] = s := by
  unfold subAlu
  generalize b.isImm = x
  revert h x s
  decide
@[simp] theorem size_subLd (z : Size) (x : Bool) : Size.ofCode ((subLd z x).extractLsb' 0 2) = z := by
  cases z <;> cases x <;> rfl
@[simp] theorem getElem_subLd (z : Size) (x : Bool) : (subLd z x)[2] = x := by cases z <;> cases x <;> rfl
@[simp] theorem Size.ofCode_code (z : Size) : Size.ofCode (z.code.extractLsb' 0 2) = z := by cases z <;> rfl
@[simp] theorem getElem_ite (c : Bool) : (if c = true then 7#4 else 3#4)[2] = c ∧ (if c = true then 1#4 else 0#4)[0] = c ∧
    (if c = true then 0#4 else 1#4)[0] = !c := by cases c <;> exact ⟨rfl, rfl, rfl⟩
@[simp] theorem getElem_subOpt (p : Option Src) : (subOpt p)[0] = p.isSome := by
  cases p <;> simp [subOpt]
@[simp] theorem getElem_subOptN (p : Option Src) : (subOptN p)[0] = p.isNone := by
  cases p <;> simp [subOptN]
@[simp] theorem getElem_subImm (n : Opd) : (subImm n)[0] = n.isImm := by
  unfold subImm
  exact (getElem_ite n.isImm).2.1

/-! ### Fields that are put together from parts -/

@[simp] theorem subSgn_fields (s : Bool) (o : SgnOp) :
    FieldAt (subSgn s o) 1 o.code ∧ FieldAt (subSgn s o) 0 (BitVec.ofBool s) :=
  ⟨.before (.last _ _) _, .last _ _⟩
@[simp] theorem subAtom_fields (x : Bool) (op : BitVec 2) :
    FieldAt (subAtom x op) 2 op ∧ FieldAt (subAtom x op) 0 (BitVec.ofBool x) :=
  ⟨.before (.first _ _) _, .last _ _⟩
@[simp] theorem subFence_fields (k : FenceKind) (sc : Scope) :
    FieldAt (subFence k sc) 2 (BitVec.ofBool sc.isSys) ∧ FieldAt (subFence k sc) 0 k.code :=
  ⟨.before (.last _ _) _, .last _ _⟩
@[simp] theorem selC_fields (neg : Bool) (fl : BitVec 3) :
    FieldAt (selC neg fl) 3 (BitVec.ofBool neg) ∧ FieldAt (selC neg fl) 0 fl :=
  ⟨.before (.last _ _) _, .last _ _⟩
@[simp] theorem cmpD_fields (fd : BitVec 3) (b : Opd) :
    FieldAt (cmpD fd b) 3 (BitVec.ofBool b.isImm) ∧ FieldAt (cmpD fd b) 0 fd :=
  ⟨.before (.last _ _) _, .last _ _⟩
@[simp] theorem fcmpD_fields (fd : BitVec 3) (s : Bool) :
    FieldAt (fcmpD fd s) 3 (BitVec.ofBool s) ∧ FieldAt (fcmpD fd s) 0 fd :=
  ⟨.before (.last _ _) _, .last _ _⟩
@[simp] theorem flopI_fields (nx : Bool) (fx : BitVec 3) (ny : Bool) (fy : BitVec 3) :
    FieldAt (flopI nx fx ny fy) 7 (BitVec.ofBool ny) ∧ FieldAt (flopI nx fx ny fy) 4 fy ∧
      FieldAt (flopI nx fx ny fy) 3 (BitVec.ofBool nx) ∧ FieldAt (flopI nx fx ny fy) 0 fx :=
  ⟨.before (.before (.before (.last _ _) _) _) _, .before (.before (.last _ _) _) _, .before (.last _ _) _, .last _ _⟩
@[simp] theorem cvtI_fields (dt ty : ETyp) (rm : RM) :
    FieldAt (cvtI dt ty rm) 7 dt.code ∧ FieldAt (cvtI dt ty rm) 3 ty.code ∧ FieldAt (cvtI dt ty rm) 0 rm.code :=
  ⟨.before (.before (.last _ _) _) _, .before (.last _ _) _, .last _ _⟩
@[simp] theorem semI_fields (v : BitVec 13) (n : BitVec 8) : FieldAt (v ++ n : BitVec 21) 8 v ∧ FieldAt (v ++ n : BitVec 21) 0 n :=
  ⟨.first _ _, .last _ _⟩
@[simp] theorem trdySub_fields (h r : Ksc) :
    FieldAt (h.code ++ r.code : BitVec 4) 2 h.code ∧ FieldAt (h.code ++ r.code : BitVec 4) 0 r.code :=
  ⟨.first _ _, .last _ _⟩
@[simp] theorem RowSel.i10_fields (r : RowSel) (tile : BitVec 2) :
    (r.i10 tile).extractLsb' 8 2 = tile ∧
      (if r.sub[0] = true then (Src.ofCode r.bcode).map .reg else some (.imm ((r.i10 tile).extractLsb' 0 6))) = some r := by
  cases r with
  | imm i =>
    have htile : FieldAt (tile ++ 0#2 ++ i : BitVec 10) 8 tile := .before (.first _ _) _
    have hrow : FieldAt (tile ++ 0#2 ++ i : BitVec 10) 0 i := .last _ _
    simp [i10, sub, htile.1, hrow.1]
  | reg s =>
    have htile : FieldAt (tile ++ 0#8 : BitVec 10) 8 tile := .first _ _
    simp [i10, sub, bcode, htile.1]
@[simp] theorem cpyCt_fields (q : BitVec 3) (dec : Bool) (cd : BitVec 4) :
    FieldAt (q ++ BitVec.ofBool dec ++ cd : BitVec 8) 5 q ∧ FieldAt (q ++ BitVec.ofBool dec ++ cd : BitVec 8) 4 (BitVec.ofBool dec) ∧
      FieldAt (q ++ BitVec.ofBool dec ++ cd : BitVec 8) 0 cd :=
  ⟨.before (.first _ _) _, .before (.last _ _) _, .last _ _⟩
@[simp] theorem storCt_field (q : BitVec 3) : FieldAt (q ++ 0#5 : BitVec 8) 5 q := .first _ _
@[simp] theorem taccI_field (tile : BitVec 2) : FieldAt (tile ++ 0#8 : BitVec 10) 8 tile := .first _ _

/-! ### Operands -/

@[simp] theorem Opd.of_fields (b : Opd) :
    (if b.isImm = true then some (.imm b.icode) else (Src.ofCode b.bcode).map .reg) = some b := by
  cases b <;> simp [isImm, icode, bcode]
@[simp] theorem VIdx.of_fields (b : VIdx) :
    (if b.isImm = true then some (.imm b.icode) else (Src.ofCode b.bcode).map .reg) = some b := by
  cases b <;> simp [isImm, icode, bcode]
@[simp] theorem VIdx.of_fields_not (b : VIdx) :
    (if b.isImm = false then (Src.ofCode b.bcode).map .reg else some (.imm b.icode)) = some b := by
  cases b <;> simp [isImm, icode, bcode]
@[simp] theorem Scope.of_fields (sc : Scope) :
    (if sc.isSys = true then some .sys else (Src.ofCode sc.code).map .reg) = some sc := by
  cases sc <;> simp [isSys, code]
@[simp] theorem optCode_of_fields (p : Option Src) :
    (if p.isSome = true then (Src.ofCode (optCode p)).map some else some none) = some p := by
  cases p <;> simp [optCode]
@[simp] theorem optCode_of_fields_none (p : Option Src) :
    (if p = none then some none else (Src.ofCode (optCode p)).map some) = some p := by
  cases p <;> simp [optCode]

/-! ### The instruction that a word holds -/

/-- The parts of the opcode table whose instructions the next lemmas decode: opcodes 0x00 to 0x3F, 0x40 to 0x6F, 0x70 to 0x9F,
0xA0 to 0xCF and 0xD0 to 0xEF. -/
inductive OpcodeBlock | scalar | memory | vector | engine | system | event
deriving DecidableEq

/-- The part of the opcode table that an instruction belongs to (R128). -/
def Instr.block : Instr → OpcodeBlock
  | .add .. | .sub .. | .mul .. | .mulh .. | .mulhn .. | .div .. | .divn .. | .rem .. | .remn .. | .and .. | .or .. | .xor ..
    | .andn .. | .shl .. | .shr .. | .sar .. | .rot .. | .min .. | .max .. | .minn .. | .maxn .. | .clz .. | .ctz .. | .popc ..
    | .brev .. | .bswp .. | .ext .. | .dep .. | .sel .. | .lea .. | .movw .. | .movh .. | .cmp .. | .flop .. | .pwrd ..
    | .pwwr .. | .br .. | .brl .. | .jmp .. | .jmpl .. | .loop .. | .nop .. | .fadd .. | .fsub .. | .fmul .. | .ffma ..
    | .fdiv .. | .fsqrt .. | .fmin .. | .fmax .. | .fcmp .. | .fcvt .. | .fsgn .. | .fcls .. => .scalar
  | .ld .. | .st .. | .ldf .. | .stf .. | .feset .. | .feqry .. | .lda .. | .stl .. | .fetch .. | .pref .. | .migr .. | .home ..
    | .cord .. | .spawn .. | .exit .. | .yield .. | .yieldRq .. | .anch .. | .anchR .. | .marm .. | .marmClr .. | .mwait ..
    | .binit .. | .barv .. | .barvQ .. | .barw .. | .barwA .. | .bdrop .. | .semi .. | .sema .. | .semr .. | .semw .. | .aadd ..
    | .alog .. | .amnx .. | .axch .. | .acas .. | .afadd .. | .fence .. | .push .. | .pop .. | .chinit .. | .send .. | .sendm ..
    | .recv .. | .chbind .. | .trdy .. => .memory
  | .vadd .. | .vsub .. | .vmul .. | .vfma .. | .vfms .. | .vfnma .. | .vmin .. | .vmax .. | .vabs .. | .vneg .. | .vdiv ..
    | .vsqrt .. | .vrcp .. | .vrsq .. | .vexp2 .. | .vlog2 .. | .vand .. | .vor .. | .vxor .. | .vshl .. | .vshr .. | .vcmp ..
    | .vsel .. | .vmov .. | .vbcst .. | .vgetl .. | .vputl .. | .vperm .. | .vrot .. | .vcvt .. | .vqnt .. | .vdqnt ..
    | .vred .. | .vscan .. | .vld .. | .vst .. | .vlds .. | .vsts .. | .vgth .. | .vsct .. | .mops .. | .vidx .. | .vdot .. => .vector
  | .mxset .. | .mxrun .. | .mxsend .. | .tard .. | .tawr .. | .taz .. | .taq .. | .fmtld .. | .mxcap .. | .tacc .. | .cpy ..
    | .cpyx .. | .strm .. | .strcGet .. | .strcPut .. | .strcEnd .. | .strcQ .. | .cpq .. | .cpcan .. | .scout .. | .stor ..
    | .gcopy .. | .gsend .. | .gcmp .. | .ghash .. | .gfree .. | .gtype .. | .gqry .. | .cjoin .. | .cjoinQ .. | .cjoinLv ..
    | .cred .. | .cmcst .. | .crcvMc .. | .crcvRed .. | .bsget .. | .bspeek .. | .bsput .. | .bsaln .. | .bsfls .. | .qwait ..
    | .qtake .. | .qdone .. => .engine
  | .sysc .. | .sysw .. | .trap .. | .rett .. | .sprd .. | .spwr .. | .spwrTypebase .. | .spwrXlbase .. | .spwrBnd .. | .time ..
    | .launch .. | .qctl .. | .qctlWr .. | .qctlRst .. | .kill .. | .killZ .. | .rclf .. | .gang .. | .plbinv .. | .xlinv ..
    | .pair .. | .pairOff .. | .fpck .. | .coff .. | .coffDef .. | .coffLift .. | .lsync .. | .wipe .. | .halt .. | .extl ..
    | .thrm .. | .thrmSet .. | .repl .. | .replQ .. => .system
  | _ => .event

theorem Instr.isEvent_eq_block (i : Instr) : i.isEvent = decide (i.block = .event) := by cases i <;> rfl

theorem rawDecode_encode_scalar (i : Instr) (h : i.block = .scalar) : rawDecode (encode i) = some i := by
  cases i with
  | add | sub | mul | mulh | mulhn | div | divn | rem | remn | and | or | xor | andn | shl | shr =>
    simp [encode, rawDecode, raw0, fSrc_eq, fD, fA, fB, fI21, fOpd]
  | sar | rot | min | max | minn | maxn | clz | ctz | popc | brev | bswp | ext | dep | sel | lea | movw =>
    simp [encode, rawDecode, raw1, fSrc_eq, fD, fA, fB, fC, fI21, fOpd, fMem, encM]
  | movh | cmp | flop | pwrd | pwwr | br | brl | jmp | jmpl | loop | nop =>
    simp [encode, rawDecode, raw2, fSrc_eq, fD, fA, fB, fI21, fSub, fOpdD]
  | fadd | fsub | fmul | ffma | fdiv | fsqrt | fmin | fmax | fcmp | fcvt | fsgn | fcls =>
    simp [encode, rawDecode, raw3, fSrc_eq, fD, fA, fB, fC, fSub, fRmI, rmI]
  | _ => cases h

theorem rawDecode_encode_memory (i : Instr) (h : i.block = .memory) : rawDecode (encode i) = some i := by
  cases i with
  | ld | st | ldf | stf | feset | feqry | lda | stl | fetch | pref =>
    simp [encode, rawDecode, raw4, fSrc_eq, fD, fA, fB, fMem, fSize, fScopeB, encM, encMr]
  | migr | home | spawn | exit | yield | yieldRq | anch | anchR | marm | marmClr | mwait | binit | barv | barvQ | barw | barwA
    | bdrop | semi | sema | semr | semw =>
    simp [encode, rawDecode, raw5, fSrc_eq, fD, fA, fB, fC, fSub, fMem, encM]
  | cord g d op => cases op <;> simp [encode, rawDecode, raw5, fSrc_eq, fD, fA, fSub, fCord, CordOp.sub, CordOp.acode]
  | aadd | alog | amnx | axch | acas | afadd | fence | push | pop | chinit | send | sendm | recv | chbind | trdy =>
    simp [encode, rawDecode, raw6, fSrc_eq, fD, fA, fB, fC, fMem, fScopeA, encM, encMr]
  | _ => cases h

theorem rawDecode_encode_vector (i : Instr) (h : i.block = .vector) : rawDecode (encode i) = some i := by
  cases i with
  | vadd | vsub | vmul | vfma | vfms | vfnma | vmin | vmax | vabs | vneg | vdiv | vsqrt | vrcp | vrsq | vexp2 | vlog2 =>
    simp [encode, rawDecode, raw7, fSrc_eq, fD, fA, fB, fC, fT, fRm, fMk]
  | vand | vor | vxor | vshl | vshr | vcmp | vsel | vmov | vbcst | vgetl | vputl | vperm | vrot | vcvt | vqnt | vdqnt =>
    simp [encode, rawDecode, raw8, fSrc_eq, fD, fA, fB, fC, fSub, fT, fRm, fMk, fVIdx, fVIdxI]
  | vred | vscan | vld | vst | vlds | vsts | vgth | vsct | vidx | vdot =>
    simp [encode, rawDecode, raw9, fSrc_eq, fD, fA, fB, fSub, fT, fRm, fMk, fMem, encM]
  | mops g op d a => cases op <;> simp [encode, rawDecode, raw9, fSrc_eq, fD, fA, fB, fSub, fMops, MopsOp.sub, MopsOp.bcode]
  | _ => cases h

theorem rawDecode_encode_engine (i : Instr) (h : i.block = .engine) : rawDecode (encode i) = some i := by
  cases i with
  | mxset | mxrun | mxsend | tard | tawr | taz | taq | mxcap | tacc =>
    simp [encode, rawDecode, rawA, fSrc_eq, fD, fA, fB, fCA, fCB, fT, fRm, fMk, fCl, fRow]
  | fmtld g op =>
    cases op <;> simp [encode, rawDecode, rawA, fSrc_eq, fA, fSub, fFmtld, FmtldOp.sub, FmtldOp.acode, FmtldOp.icode]
  | cpy | cpyx | strm | strcGet | strcPut | strcEnd | strcQ | cpq | cpcan | scout | stor | gcopy | gsend | gcmp | ghash | gfree
    | gtype | gqry =>
    simp [encode, rawDecode, rawB, fSrc_eq, fD, fA, fB, fCA, fCB, fSub, fCl, fOptB, smCode_eq]
  | cjoin | cjoinQ | cjoinLv | cred | cmcst | crcvMc | crcvRed | bsget | bspeek | bsput | bsaln | bsfls | qwait | qtake | qdone =>
    simp [encode, rawDecode, rawC, fSrc_eq, fD, fA, fB, fC, fI21, fSub, fOpd]
  | _ => cases h

theorem rawDecode_encode_system (i : Instr) (h : i.block = .system) (hw : i.operandsOk = true) :
    rawDecode (encode i) = some i := by
  cases i with
  | sysc | sysw | trap | rett | sprd | time | launch | qctl | qctlWr | qctlRst | kill | killZ | rclf | gang | plbinv | xlinv
    | pair | pairOff | fpck =>
    simp [encode, rawDecode, rawD, fSrc_eq, fD, fA, fB, fSub, fOptA]
  | spwr g r a =>
    obtain ⟨-, hr⟩ : (gzS a = true ∧ r.writable = true) ∧ r.isOwn = false := by simpa [Instr.operandsOk] using hw
    simp [encode, rawDecode, rawD, fSrc_eq, fA, hr]
  | spwrTypebase | spwrXlbase => simp [encode, rawDecode, rawD, fSrc_eq, fA, Spr.ofCode, Spr.isOwn]
  | spwrBnd g n a =>
    obtain ⟨-, hn⟩ : gzS a = true ∧ n ≠ 3 := by simpa [Instr.operandsOk] using hw
    obtain rfl | rfl | rfl : n = 0 ∨ n = 1 ∨ n = 2 := by clear h hw; revert n; decide
    all_goals simp [encode, rawDecode, rawD, fSrc_eq, fA, Spr.ofCode, Spr.isOwn, bndOf]
  | coff | coffDef | coffLift | lsync | wipe | halt | extl | thrm | thrmSet | repl | replQ =>
    simp [encode, rawDecode, rawE, fSrc_eq, fD, fA, fB, fSub]
  | _ => cases h

/-- The decoder reads from the word of an instruction the instruction, before its checks. -/
theorem rawDecode_encode {i : Instr} (hi : i.isEvent = false) (hw : i.operandsOk = true) : rawDecode (encode i) = some i := by
  rw [Instr.isEvent_eq_block] at hi
  cases h : i.block with
  | scalar => exact rawDecode_encode_scalar i h
  | memory => exact rawDecode_encode_memory i h
  | vector => exact rawDecode_encode_vector i h
  | engine => exact rawDecode_encode_engine i h
  | system => exact rawDecode_encode_system i h hw
  | event => simp [h] at hi

/-! ### The guard of a word -/

section
variable (op : BitVec 8) (sub : BitVec 4) (g : Guard)

theorem guard_encA (d : BitVec 6) (a b c : BitVec 7) (i : BitVec 21) :
    (encA op sub g d a b c i).extractLsb' 48 4 = g := by simp
theorem guard_encI (d : BitVec 6) (a : BitVec 7) (i : BitVec 35) : (encI op sub g d a i).extractLsb' 48 4 = g := by simp
theorem guard_encW (d : BitVec 6) (i : BitVec 42) : (encW op sub g d i).extractLsb' 48 4 = g := by simp
theorem guard_encMf (d : BitVec 6) (a b : BitVec 7) (sc sp : BitVec 2) (i : BitVec 24) :
    (encMf op sub g d a b sc sp i).extractLsb' 48 4 = g := by simp
theorem guard_encC (a b : BitVec 7) (cl : Clauses) (ct : BitVec 8) :
    (encC op sub g a b cl ct).extractLsb' 48 4 = g := by simp
theorem guard_encV (d : BitVec 6) (a b c : BitVec 7) (k : VMask) (t : ETyp) (rm : RM) (i : BitVec 10) :
    (encV op sub g d a b c k t rm i).extractLsb' 48 4 = g := by simp

end

/-- R120: the word of an instruction holds its guard. -/
theorem guard_encode {i : Instr} (hi : i.isEvent = false) : (encode i).extractLsb' 48 4 = i.guard := by
  cases i with
  | add | sub | mul | mulh | mulhn | div | divn | rem | remn | and | or | xor | andn | shl | shr | sar | rot | min | max | minn
    | maxn | clz | ctz | popc | brev | bswp | ext | dep | sel | cmp | flop | pwrd | pwwr | jmp | jmpl | nop | fadd | fsub | fmul
    | ffma | fdiv | fsqrt | fmin | fmax | fcmp | fcvt | fsgn | fcls | migr | home | cord | spawn | exit | yield | yieldRq | anch
    | anchR | marmClr | mwait | binit | barv | barvQ | barw | barwA | bdrop | semi | sema | semr | semw | fence | send | sendm
    | recv | chbind | trdy | taq | fmtld | mxcap | strm | strcGet | strcPut | strcEnd | strcQ | cpq | cpcan | scout | gcopy
    | gsend | gcmp | ghash | gfree | gtype | gqry | cjoin | cjoinQ | cjoinLv | bsget | bspeek | bsput | bsaln | bsfls | qwait
    | qtake | qdone | sysc | sysw | trap | rett | sprd | spwr | spwrTypebase | spwrXlbase | spwrBnd | time | launch | qctl
    | qctlWr | qctlRst | kill | killZ | rclf | gang | plbinv | xlinv | pair | pairOff | fpck | coff | coffDef | coffLift | lsync
    | wipe | halt | extl | thrm | thrmSet | repl | replQ => exact guard_encA ..
  | lea | ld | st | ldf | stf | feset | feqry | fetch | pref | marm | push | pop | chinit | vld | vst | vlds | vsts | lda | stl
    | aadd | alog | amnx | axch | acas | afadd => exact guard_encMf ..
  | movw | movh => exact guard_encW ..
  | br | brl | loop => exact guard_encI ..
  | vadd | vsub | vmul | vfma | vfms | vfnma | vmin | vmax | vabs | vneg | vdiv | vsqrt | vrcp | vrsq | vexp2 | vlog2 | vand
    | vor | vxor | vshl | vshr | vcmp | vsel | vmov | vbcst | vgetl | vputl | vperm | vrot | vcvt | vqnt | vdqnt | vred | vscan
    | vgth | vsct | mops | vidx | vdot | tard | tawr | tacc | cred | cmcst | crcvMc | crcvRed => exact guard_encV ..
  | mxset | mxrun | mxsend | taz | cpy | cpyx | stor => exact guard_encC ..
  | _ => cases hi

/-! ### The round trip -/

/-- A word from which an instruction is read lies below the extension range. -/
theorem not_extRange_of_rawDecode {w : Word} {i : Instr} (h : rawDecode w = some i) :
    ¬ (0xF0 ≤ (w.extractLsb' 56 8).toNat ∧ (w.extractLsb' 56 8).toNat ≤ 0xFE) := by
  rintro ⟨hop, -⟩
  have hhigh : (w.extractLsb' 60 4).toNat = 15 := by
    simp only [BitVec.extractLsb'_toNat, Nat.shiftRight_eq_div_pow] at hop ⊢
    omega
  simp [rawDecode, hhigh] at h

/-- A word that is the encoding of the well-formed instruction read from it decodes to that instruction. -/
theorem decode_of_rawDecode {w : Word} {i : Instr} (hr : rawDecode w = some i) (hg : w.extractLsb' 48 4 ≠ 8) (hw : i.wf = true)
    (he : encode i = w) : decode w = .instr i := by
  unfold decode
  dsimp only
  rw [if_neg hg, if_neg (not_extRange_of_rawDecode hr), hr]
  simp [hw, he]

/-- Settles O59: the fields of each format give back what the encoder has put there, and the checks of the decoder are those of a
well-formed instruction. -/
theorem decodeOfEncodeIsTheInstruction : Obligations.DecodeOfEncodeIsTheInstruction := by
  unfold Obligations.DecodeOfEncodeIsTheInstruction
  intro i hi hw
  obtain ⟨hoperands, hguard⟩ : i.operandsOk = true ∧ i.guard ≠ 8 := by simpa [Instr.wf] using hw
  exact decode_of_rawDecode (rawDecode_encode hi hoperands) (by rwa [guard_encode hi]) hw rfl

end Sys2Proof
end

section
/-! Totality of the model (R139): every instruction goes through `run`, every event answers a next state, and what the domain does
by itself stops only where every package is SCRAPPED (R474) (O55). -/

namespace Sys2Proof.Machine

/-! ### Instructions and events -/

/-- R139: every instruction and every event answers a next state. -/
theorem exec_answers (i : Instr) (s : State) : ∃ t, exec i s = .next t := by
  cases hi : i.isEvent with
  | false =>
    obtain ⟨n, f, hrun⟩ := RunsUnder.exec i s hi
    exact ⟨_, hrun⟩
  | true =>
    unfold exec
    cases i with
    | bndWriteApply | qctlWriteApply | barrelSelect | slotLoadDone | slotFill | imageArrival | restingStateReload
      | thermalRankRewrite | slotDisable | slotReenable | thermalDisplacement | waitlimExpiry | mwaitTimeout | monitorTrigger
      | watchRegistrationAck | responseArrival | storeAck | homeReadWrite | tagRequestAtHome | proxyContinuation
      | atomicReservationGrant | hostAtomic | agentTimeout | wake | xlinvUnitAck | launchPacketAccept | launchReservationPlace
      | launchStart | multiPackageHoldRelease | launchArrival | launchStartMessage | startTimeRelease | startBarrierCancel
      | launchRetire | launchStrike | launchReplay | channelMessageArrival | placementSwap | extensionDirectoryWrite
      | cpyCommandStart | cpyCommandComplete | custItemEnqueue | arenaPlacement | bulkMessagePlacement | storageBlockCheck
      | storageBlockComplete | mxCommandStart | mxCommandComplete | remoteCommandArrival | tazPerform | taccRow
      | graphWalkStart | graphLineRead | graphSweep | graphWalkComplete | channelOpAtHome | pairMatch | pairHoldExpiry
      | routerCycle | injectionStarvation | flitNack | parkedFlitResend | linkPacketReceive | linkReplayTimeout
      | linkNegativeAck | linkWidthChange | linkFail | mcastNode | mcastDelivery | setupArrival | contribArrival
      | trestleCombine | gangStop | gangFallOut | gangRestore | gangStart | fingerprintExchange | killMarkerPass | rclfWave
      | uncorrectableError | h2dDoorbell | mbLaunch | capload | capdrop | agentreg | agentrsp | lcreq | unknownEntry
      | hostApertureRead | hostApertureWrite | hostApertureAtomic | apertureReadTimeout | registerWrite | heartbeatSend
      | heartbeatTimeout | leaderAnnouncement | threadResumeMessage | syscallExecute | powerThrottle | thermalTrip
      | timeBaseCorrection | packageReset | functionLevelReset | coreMarginal | rebinning | spdmRequest | servicePairIntrWake
      | managementWrite | makeContextLive | dramDataError => exact ⟨_, rfl⟩
    | _ => cases hi

/-! ### The events that may be pending -/

/-- Every event of the list answers a next state. -/
def AllAnswer (l : List Event) : Prop := ∀ e ∈ l, ∀ t : State, ∃ u, e t = .next u

@[simp] theorem allAnswer_nil : AllAnswer [] := by simp [AllAnswer]
@[simp] theorem allAnswer_cons {e : Event} {l : List Event} :
    AllAnswer (e :: l) ↔ (∀ t : State, ∃ u, e t = .next u) ∧ AllAnswer l := by simp [AllAnswer]
@[simp] theorem allAnswer_append {l m : List Event} : AllAnswer (l ++ m) ↔ AllAnswer l ∧ AllAnswer m := by
  simp [AllAnswer, or_imp, forall_and]
@[simp] theorem allAnswer_map {α : Type} {f : α → Event} {l : List α} :
    AllAnswer (l.map f) ↔ ∀ a ∈ l, ∀ t : State, ∃ u, f a t = .next u := by simp [AllAnswer]
@[simp] theorem allAnswer_flatMap {α : Type} {f : α → List Event} {l : List α} :
    AllAnswer (l.flatMap f) ↔ ∀ a ∈ l, AllAnswer (f a) := by
  simp only [AllAnswer, List.mem_flatMap]
  exact ⟨fun h a ha e he => h e ⟨a, ha, he⟩, fun h e ⟨a, ha, he⟩ => h a ha e he⟩

theorem threadEvents_answer (tid : Nat) : AllAnswer (threadEvents tid) := by
  simp only [threadEvents, allAnswer_cons, allAnswer_nil, and_true]
  and_intros <;> intros <;> exact ⟨_, rfl⟩

theorem takeEvents_answer (id : Nat) (m : Msg) : AllAnswer (takeEvents id m) := by
  unfold takeEvents
  split <;> simp only [allAnswer_cons, allAnswer_nil, and_true] <;> and_intros <;> intros <;> exact ⟨_, rfl⟩

theorem msgEvents_answer (id : Nat) (m : Msg) : AllAnswer (msgEvents id m) := by
  unfold msgEvents
  split <;> simp only [allAnswer_append, takeEvents_answer, allAnswer_cons, allAnswer_nil, true_and, and_true] <;> and_intros <;> intros <;>
    exact ⟨_, rfl⟩

theorem coreEvents_answer (core : Nat) (c : Core) : AllAnswer (coreEvents core c) := by
  have hblocks (q : Nat × CopyQueue) : AllAnswer (match q.2.cmds with
      | x :: _ => x.out.map (execStorageBlockComplete core q.1)
      | [] => []) := by
    split
    · exact allAnswer_map.mpr fun _ _ _ => ⟨_, rfl⟩
    · exact allAnswer_nil
  simp only [coreEvents, allAnswer_append, allAnswer_map, allAnswer_flatMap, allAnswer_cons, allAnswer_nil, and_true]
  refine ⟨⟨⟨?_, ?_⟩, fun q _ => ⟨⟨?_, hblocks q⟩, ?_⟩⟩, ?_⟩ <;> and_intros <;> intros <;> exact ⟨_, rfl⟩

theorem clusterEvents_answer (cl : Nat) (c : Cluster) : AllAnswer (clusterEvents cl c) := by
  simp only [clusterEvents, allAnswer_append, allAnswer_map, allAnswer_cons, allAnswer_nil, and_true]
  and_intros <;> intros <;> exact ⟨_, rfl⟩

theorem packageEvents_answer (pkg : Nat) (p : Package) : AllAnswer (packageEvents pkg p) := by
  simp only [packageEvents, allAnswer_append, allAnswer_map, allAnswer_flatMap, allAnswer_cons, allAnswer_nil, and_true]
  and_intros <;> intros <;> and_intros <;> intros <;> exact ⟨_, rfl⟩

theorem launchEvents_answer (id : Nat) (x : Launch) : AllAnswer (launchEvents id x) := by
  simp only [launchEvents, allAnswer_append, allAnswer_flatMap, allAnswer_cons, allAnswer_nil, and_true]
  and_intros <;> intros <;> and_intros <;> intros <;> exact ⟨_, rfl⟩

theorem dieEvents_answer (die : Nat) (d : Die) : AllAnswer (dieEvents die d) := by
  refine allAnswer_append.mpr ⟨?_, ?_⟩
  · simp only [allAnswer_cons, allAnswer_nil, and_true]
    and_intros <;> intros <;> exact ⟨_, rfl⟩
  · intro e he
    obtain ⟨m, -, hm⟩ := List.mem_filterMap.mp he
    obtain ⟨-, he⟩ := Option.ite_none_right_eq_some.mp hm
    rw [← Option.some.inj he]
    exact fun t => ⟨_, rfl⟩

/-- Every event that may be pending answers a next state. -/
theorem events_answer (s : State) : AllAnswer s.events := by
  simp only [State.events, allAnswer_append, allAnswer_map, allAnswer_flatMap, msgEvents_answer, threadEvents_answer,
    coreEvents_answer, clusterEvents_answer, packageEvents_answer, launchEvents_answer, dieEvents_answer, allAnswer_cons, allAnswer_nil,
    implies_true, and_true]
  and_intros <;> intros <;> and_intros <;> intros <;> and_intros <;> intros <;> exact ⟨_, rfl⟩

/-! ### The step -/

theorem issueWord_answers (s : State) (w : Word) : ∃ t, issueWord s w = .next t := by
  unfold issueWord
  split
  · exact exec_answers _ s
  · exact ⟨_, rfl⟩
  · exact ⟨_, rfl⟩

/-- R474: a domain in which nothing is left to do is dead only where every package present is SCRAPPED. -/
theorem State.scrapped_of_dead {s : State} (h : s.dead = true) (p : Nat) (hp : s.pkgPresent p = true) : (s.pkg p).lcs = 5 := by
  have hlt : p < 64 := by
    simp only [State.pkgPresent, Bool.and_eq_true, decide_eq_true_eq] at hp
    exact hp.1.1
  have hall := List.all_eq_true.mp h p (List.mem_range.mpr hlt)
  simpa [hp] using hall

/-- What the domain does by itself answers a next state, unless every package is SCRAPPED. -/
theorem State.auto_answers (s : State) :
    (∃ t, s.auto = .next t) ∨ (s.auto = .fault .scrapped ∧ ∀ p, s.pkgPresent p = true → (s.pkg p).lcs = 5) := by
  unfold State.auto
  split
  · next e he => exact .inl (events_answer s e (List.mem_of_find?_eq_some he) s)
  · split
    · exact .inl (exec_answers (.barrelSelect _) s)
    · split
      · next hdead => exact .inr ⟨rfl, State.scrapped_of_dead hdead⟩
      · exact .inl ⟨_, rfl⟩

/-- Settles O55: instructions and events answer by `exec_answers`, and the rest of the step by the lemmas on what it calls. -/
theorem nothingIsRefused : Obligations.NothingIsRefused := by
  unfold Obligations.NothingIsRefused
  refine ⟨exec_answers, fun s => ?_⟩
  unfold step
  split
  · exact .inl (exec_answers _ _)
  · split
    · split
      · exact .inl (issueWord_answers _ _)
      · exact .inl ⟨_, rfl⟩
    · exact s.auto_answers

end Sys2Proof.Machine
end

section
/-! The extension and the privilege of every instruction (R128, R130, R132, R133): an instruction runs with a need of the extension
of its opcode, so that one whose slot does not list it searches for a core or traps UNIMPL (O52), and a privileged one traps PRIV in
user mode (O53). -/

namespace Sys2Proof.Machine

/-! ### What every instruction needs -/

section
variable (op : BitVec 8) (sub : BitVec 4) (g : Guard)

theorem opcode_encI (d : BitVec 6) (a : BitVec 7) (i : BitVec 35) : (encI op sub g d a i).extractLsb' 56 8 = op := by simp
theorem opcode_encW (d : BitVec 6) (i : BitVec 42) : (encW op sub g d i).extractLsb' 56 8 = op := by simp
theorem opcode_encMr (d : BitVec 6) (a b : BitVec 7) (i : BitVec 24) : (encMr op sub g d a b i).extractLsb' 56 8 = op := by
  simp [encMr]
theorem opcode_encC (a b : BitVec 7) (cl : Clauses) (ct : BitVec 8) : (encC op sub g a b cl ct).extractLsb' 56 8 = op := by simp

end

/-- The outcome is that of the steps of R134 for the instruction `i`: under its guard, with a need of the extension of its opcode, and
of privilege where it is privileged. -/
def RunsOwn (s : State) (i : Instr) (o : Host.Outcome State Fault Refusal) : Prop :=
  ∃ n f, o = run s i.guard n f ∧ n.ext = instrExt i ∧ (isPrivileged i = true → n.priv = true)

/-- The guard, the extension and the privilege of an instruction. -/
structure Owns (i : Instr) (g : Guard) (e : Ext) (priv : Bool) : Prop where
  guard : i.guard = g
  ext : e = instrExt i
  priv : isPrivileged i = true → priv = true

theorem Owns.of_opcode {i : Instr} {op : BitVec 8} {g : Guard} {e : Ext} {priv : Bool} (hop : (encode i).extractLsb' 56 8 = op)
    (hg : i.guard = g) (he : e = extensionOf op.toNat) (hpriv : isPrivileged i = true → priv = true) : Owns i g e priv :=
  ⟨hg, he.trans (instrExt_of_opcode hop).symm, hpriv⟩

theorem sprPriv_of_isPrivileged {g : Guard} {r : Spr} {a : Src} (h : isPrivileged (.spwr g r a) = true) : sprPriv r = true := by
  cases r with
  | tframe | pwin | fpint | xlbase | bnd0 | bnd1 | bnd2 => rfl
  | _ => cases h

namespace RunsOwn

variable {s : State} {i : Instr} {g : Guard}

theorem run {n f} (h : Owns i g n.ext n.priv) : RunsOwn s i (Machine.run s g n f) := ⟨n, f, h.guard ▸ rfl, h.ext, h.priv⟩
theorem runAlu {d a b f} (h : Owns i g .base false) : RunsOwn s i (Machine.runAlu s g d a b f) := run h
theorem runAlu1 {d a f} (h : Owns i g .base false) : RunsOwn s i (Machine.runAlu1 s g d a f) := run h
theorem runDiv {x d a b f} (h : Owns i g .base false) : RunsOwn s i (Machine.runDiv s g x d a b f) := run h
theorem runFp {x m d l f} (h : Owns i g .fps false) : RunsOwn s i (Machine.runFp s g x m d l f) := run h
theorem runAtomic {o w d base disp b l} (h : Owns i g .base false) : RunsOwn s i (s.runAtomic g o w d base disp b l) := run h
theorem runV {α : Type} {n ty m f} {put : State → α → State} (h : Owns i g n.ext n.priv) :
    RunsOwn s i (Machine.runV s g n ty m put f) := run h
theorem runElem {k t m d a b c f} (h : Owns i g .vec false) : RunsOwn s i (Machine.runElem s g k t m d a b c f) := runV h
theorem runFun {k t m d a f} (h : Owns i g .vec false) : RunsOwn s i (Machine.runFun s g k t m d a f) := runElem h
theorem runShift {right t k d a b} (h : Owns i g .vec false) : RunsOwn s i (Machine.runShift s g right t k d a b) := by
  unfold Machine.runShift
  cases b with
  | imm => exact runElem h
  | reg => exact runElem h
theorem runVmem {n t kind elems f} (h : Owns i g n.ext n.priv) : RunsOwn s i (Machine.runVmem s g n t kind elems f) := run h
theorem runMx {n f} (h : Owns i g n.ext n.priv) : RunsOwn s i (Machine.runMx s g n f) := run h
theorem walkIssue {o d a b} (h : Owns i g .graph false) : RunsOwn s i (Machine.walkIssue o g d a b s) := run h
theorem execSend {d a b n} (h : Owns i g .base false) : RunsOwn s i (Machine.execSend g d a b n s) := by
  unfold Machine.execSend
  exact run h

/-- R130, R133: an instruction runs with the needs of its opcode. -/
theorem exec (hi : i.isEvent = false) : RunsOwn s i (Machine.exec i s) := by
  unfold Machine.exec
  cases i with
  | add | sub | mul | mulh | mulhn | and | or | xor | andn | shl | shr | sar | rot | min | max | minn | maxn | ext =>
      exact runAlu (.of_opcode (opcode_encA ..) rfl rfl id)
  | div | divn | rem | remn => exact runDiv (.of_opcode (opcode_encA ..) rfl rfl id)
  | clz | ctz | popc | brev | bswp => exact runAlu1 (.of_opcode (opcode_encA ..) rfl rfl id)
  | fadd | fsub | fmul | ffma | fdiv | fsqrt | fmin | fmax => exact runFp (.of_opcode (opcode_encA ..) rfl rfl id)
  | taq | mxcap => exact runMx (.of_opcode (opcode_encA ..) rfl rfl id)
  | gcopy | gsend | gcmp | ghash | gfree => exact walkIssue (.of_opcode (opcode_encA ..) rfl rfl id)
  | send => exact execSend (.of_opcode (opcode_encA ..) rfl rfl id)
  | vld | vst | vlds | vsts => exact runVmem (.of_opcode (opcode_encM ..) rfl rfl id)
  | aadd | alog | amnx | axch | acas | afadd => exact runAtomic (.of_opcode (opcode_encMr ..) rfl rfl id)
  | vadd | vsub | vmul | vfma | vfms | vfnma | vmin | vmax | vabs | vneg | vdiv | vand | vor | vxor | vbcst =>
      exact runElem (.of_opcode (opcode_encV ..) rfl rfl id)
  | vsqrt | vrcp | vrsq | vexp2 | vlog2 => exact runFun (.of_opcode (opcode_encV ..) rfl rfl id)
  | vshl | vshr => exact runShift (.of_opcode (opcode_encV ..) rfl rfl id)
  | vcmp | vsel | vmov | vgetl | vputl | vperm | vrot | vcvt | vqnt | vdqnt | vred | vscan | mops | vidx | vdot =>
      exact runV (.of_opcode (opcode_encV ..) rfl rfl id)
  | vgth | vsct => exact runVmem (.of_opcode (opcode_encV ..) rfl rfl id)
  | tard | tawr | tacc => exact runMx (.of_opcode (opcode_encV ..) rfl rfl id)
  | mxset | mxrun | taz => exact runMx (.of_opcode (opcode_encC ..) rfl rfl id)
  | dep | sel | cmp | flop | pwrd | pwwr | jmp | jmpl | nop | fcmp | fcvt | fsgn | fcls | migr | home | cord | spawn | exit
    | yield | yieldRq | anch | anchR | marmClr | mwait | binit | barv | barvQ | barw | barwA | bdrop | semi | sema | semr | semw
    | fence | sendm | recv | chbind | trdy | fmtld | strm | strcGet | strcPut | strcEnd | strcQ | cpq | cpcan | scout | gtype
    | gqry | cjoin | cjoinQ | cjoinLv | bsget | bspeek | bsput | bsaln | bsfls | qwait | qtake | qdone | sysc | sysw | trap
    | rett | sprd | spwrTypebase | spwrXlbase | spwrBnd | time | launch | qctl | qctlWr | qctlRst | kill | killZ | rclf | gang
    | plbinv | xlinv | pair | pairOff | fpck | coff | coffDef | coffLift | lsync | wipe | halt | extl | thrm | thrmSet | repl
    | replQ => exact run (.of_opcode (opcode_encA ..) rfl rfl id)
  | lea | ld | st | ldf | stf | feset | feqry | fetch | pref | marm | push | pop | chinit =>
      exact run (.of_opcode (opcode_encM ..) rfl rfl id)
  | movw | movh => exact run (.of_opcode (opcode_encW ..) rfl rfl id)
  | br | brl | loop => exact run (.of_opcode (opcode_encI ..) rfl rfl id)
  | lda | stl => exact run (.of_opcode (opcode_encMr ..) rfl rfl id)
  | cred | cmcst | crcvMc | crcvRed => exact run (.of_opcode (opcode_encV ..) rfl rfl id)
  | mxsend | cpy | cpyx | stor => exact run (.of_opcode (opcode_encC ..) rfl rfl id)
  | spwr g r a => exact run (.of_opcode (opcode_encA ..) rfl rfl sprPriv_of_isPrivileged)
  | _ => cases hi

end RunsOwn

/-- R128: the privileged instructions and forms are of the extension SYS. -/
theorem instrExt_of_isPrivileged {i : Instr} (h : isPrivileged i = true) : instrExt i = .sys := by
  have hsys {op : BitVec 8} (hop : (encode i).extractLsb' 56 8 = op) (he : extensionOf op.toNat = .sys) : instrExt i = .sys :=
    (instrExt_of_opcode hop).trans he
  cases i with
  | spwr | spwrXlbase | spwrBnd | thrmSet | qctlWr | qctlRst | plbinv | xlinv | kill | killZ | rclf | coff | coffDef | coffLift
    | wipe | gang | pair | pairOff | fpck | halt | repl | replQ => exact hsys (opcode_encA ..) rfl
  | _ => cases h

/-- R130: every slot lists SYS. -/
theorem State.listed_sys (s : State) (t : Thread) : s.listed t .sys = true := by
  rw [State.listed, State.extList_eq]
  dsimp only
  split_ifs <;> decide

section
variable {s : State} {i : Instr} {n : Need} {f : State → Thread → Res}

/-- R133, R134 step 5: a privileged need traps PRIV in user mode. -/
theorem run_of_user (hi : s.reaches i) (hl : s.listed s.me n.ext = true) (hp : n.priv = true) (hs : s.me.sup = false) :
    run s i.guard n f = .next (s.trapHere 0x03 s.iword) := by
  obtain ⟨_, hx, hw, hg⟩ := hi
  have hflag : ¬ (s.thread s.cur).flag (i.guard.extractLsb' 0 3) = i.guard.getLsbD 3 := by simpa [Thread.guardOk] using hg
  simp only [run, hx, hw, hflag, hl, hp, hs, ne_eq, not_true_eq_false, Bool.not_true, Bool.not_false, Bool.and_true, Bool.false_eq_true,
    if_false, if_true]

/-- R132, R134 step 4: the search for an extension that the slot does not list. -/
theorem run_of_unlisted (hi : s.reaches i) (hl : s.listed s.me n.ext = false) :
    run s i.guard n f = .next (s.finish [] false (s.extSearch s.cur n.ext.id)) := by
  obtain ⟨_, hx, hw, hg⟩ := hi
  have hflag : ¬ (s.thread s.cur).flag (i.guard.extractLsb' 0 3) = i.guard.getLsbD 3 := by simpa [Thread.guardOk] using hg
  simp only [run, hx, hw, hflag, hl, ne_eq, not_true_eq_false, Bool.not_false, Bool.false_eq_true, if_false, if_true]

end

/-- Settles O53: a privileged instruction is of SYS, which every slot lists, so that step 5 of R134 decides. -/
theorem privilegedFormTrapsInUserMode : Obligations.PrivilegedFormTrapsInUserMode := by
  unfold Obligations.PrivilegedFormTrapsInUserMode
  intro i s hp
  have hl : s.listed s.me (instrExt i) = true := by rw [instrExt_of_isPrivileged hp]; exact s.listed_sys _
  refine ⟨hl, fun hi hs => ?_⟩
  obtain ⟨n, f, hrun, hext, hpriv⟩ := RunsOwn.exec (s := s) hi.1
  rw [Traps, hrun]
  exact run_of_user hi (hext ▸ hl) (hpriv hp) hs

/-! ### The search for an extension (R132) -/

/-- R83: a departure sends nothing. -/
theorem State.leave_nextId (s : State) (tid : Nat) (p : Place) : (s.leave tid p).nextId = s.nextId := by
  have hrest := congrArg State.nextId ((s.freeUp (s.thread tid)).recorded_rest tid).other
  obtain ⟨cs, hfree⟩ := s.freeUp_eq (s.thread tid)
  have hup : (s.freeUp (s.thread tid)).nextId = s.nextId := by rw [hfree]
  exact hrest.trans hup

/-- R378: the flit that is handed to a router. -/
theorem State.mem_sendFlit (u : State) (from_ dest : Nat) (kind : BitVec 6) (dom : BitVec 12) (cin tag : BitVec 16) (pri : BitVec 2)
    (b : Body) :
    ∃ f, (u.nextId, f) ∈ (u.sendFlit from_ dest kind dom cin tag pri b).msgs ∧ f.kind = kind ∧ f.ldest = dest ∧ f.body = b :=
  ⟨_, KMap.mem_set_self _ _ _, rfl, rfl, rfl⟩

theorem State.sendFlit_thread (u : State) (from_ dest : Nat) (kind : BitVec 6) (dom : BitVec 12) (cin tag : BitVec 16) (pri : BitVec 2)
    (b : Body) (k : Nat) : (u.sendFlit from_ dest kind dom cin tag pri b).thread k = u.thread k := rfl

/-- R80, R83: a thread whose image stands, at `pc`. -/
def Thread.imaged (why ext : Nat) (pc iw : Word) (t : Thread) : Thread :=
  { t.settle with pc := pc, whyCause := why, whyExt := ext, resting := true, iw := if why = 4 then 0 else iw }

/-- The thread has left its slot, and its image is to be sent. -/
def State.imaged (s : State) (tid why ext : Nat) (pc : Word) : State :=
  (s.leave tid (.flight s.nextId)).modThread tid (Thread.imaged why ext pc s.iword)

theorem State.thread_imaged (s : State) (tid why ext : Nat) (pc : Word) : ∃ mon cyc, (s.imaged tid why ext pc).thread tid =
    { (s.thread tid).imaged why ext pc s.iword with mon := mon, cyc := cyc, place := .flight s.nextId, seenFrom := s.nextId } := by
  obtain ⟨mon, cyc, hleave⟩ := s.thread_leave_same tid (.flight s.nextId)
  exact ⟨mon, cyc, (State.thread_modThread_same _ _ _).trans (congrArg (Thread.imaged why ext pc s.iword) hleave)⟩

/-- R80: the image of a thread at its own PC holds every register. -/
theorem Thread.imaged_reg (t : Thread) (why ext : Nat) (iw : Word) (mon : Monitor) (cyc : Word) (p : Place) (seen : Nat) (r : Reg) :
    let u : Thread := { t.imaged why ext t.pc iw with mon := mon, cyc := cyc, place := p, seenFrom := seen }
    u.reg r = t.reg r ∧ u.vreg r = t.vreg r ∧ u.full r = t.full r := by
  cases r <;> exact ⟨rfl, rfl, rfl⟩

/-- The thread has left its slot, its image in flight for the core `dest`. -/
def State.migrated (s : State) (tid dest : Nat) (any : Bool) (why ext : Nat) (pc : Word) : State :=
  (s.imaged tid why ext pc).sendFlit (s.thread tid).core dest 0x01 (s.thread tid).domid (s.thread tid).cin (s.thread tid).tag
    (s.thread tid).prio (.image tid any none)

/-- R81: a thread that nothing keeps leaves for the core. -/
theorem State.migrate_of_mayLeave {s : State} {tid : Nat} (h : s.MayLeave (s.thread tid)) (dest : Nat) (any : Bool) (why ext : Nat)
    (pc : Word) : s.migrate tid dest any why ext pc = .gone (s.migrated tid dest any why ext pc) := by
  obtain ⟨hmarks, hagreed, hawait, hasks⟩ := h
  simp only [State.migrate, hmarks, hagreed, Thread.drained, hawait, Thread.asked, hasks, List.isEmpty_nil, Bool.not_true,
    Bool.false_eq_true, if_false]
  rfl

theorem State.thread_migrated (s : State) (tid dest : Nat) (any : Bool) (why ext : Nat) (pc : Word) (k : Nat) :
    (s.migrated tid dest any why ext pc).thread k = (s.imaged tid why ext pc).thread k := State.sendFlit_thread ..

/-- R156: the flit of the image. -/
theorem State.image_mem_migrated (s : State) (tid dest : Nat) (any : Bool) (why ext : Nat) (pc : Word) :
    ∃ f, (s.nextId, f) ∈ (s.migrated tid dest any why ext pc).msgs ∧ f.kind = 0x01 ∧ f.ldest = dest ∧
      f.body = .image tid any none := by
  have hid : (s.imaged tid why ext pc).nextId = s.nextId := by
    rw [State.imaged, State.modThread_nextId, State.leave_nextId]
  rw [← hid]
  exact State.mem_sendFlit _ _ _ _ _ _ _ _ _

/-- R132: the search ends with a trap in an anchored thread, and in one that has come in search of the extension. -/
theorem State.extSearch_here {s : State} {e : Nat} (h : s.me.anc = true ∨ (s.me.whyCause = 3 ∧ s.me.whyExt = e)) :
    s.extSearch s.cur e = .trap 0x02 s.iword := if_pos (by simpa using h)

/-- R132: any other thread leaves for the core that the directory names. -/
theorem State.extSearch_some {s : State} {e p : Nat} (h : ¬ (s.me.anc = true ∨ (s.me.whyCause = 3 ∧ s.me.whyExt = e)))
    (hp : s.extEntry s.me.core e = some p) : s.extSearch s.cur e = s.migrate s.cur p false 3 e s.me.pc := by
  have hno : ¬ (s.me.anc || (decide (s.me.whyCause = 3) && decide (s.me.whyExt = e))) = true := by simpa using h
  rw [State.extSearch, if_neg hno, hp]

/-- Settles O52: step 4 of R134 searches for the extension of the instruction's own opcode. -/
theorem unlistedExtensionIsSearchedFor : Obligations.UnlistedExtensionIsSearchedFor := by
  unfold Obligations.UnlistedExtensionIsSearchedFor
  intro i s hi hl here
  obtain ⟨n, f, hrun, hext, -⟩ := RunsOwn.exec (s := s) hi.1
  have hsearch : exec i s = .next (s.finish [] false (s.extSearch s.cur (instrExt i).id)) := by
    rw [hrun, run_of_unlisted hi (hext ▸ hl), hext]
  refine ⟨fun h => ?_, fun p hno hp hmarks hagreed hawait hasks => ?_⟩
  · have htrap : s.extSearch s.cur (instrExt i).id = .trap 0x02 s.iword := h.elim State.extSearch_here State.extSearch_none
    rw [Traps, hsearch, htrap]
    rfl
  · have hgone := (State.extSearch_some hno hp).trans
      (State.migrate_of_mayLeave ⟨hmarks, hagreed, hawait, hasks⟩ p false 3 (instrExt i).id s.me.pc)
    obtain ⟨mon, cyc, hthread⟩ := s.thread_imaged s.cur 3 (instrExt i).id s.me.pc
    refine ⟨s.migrated s.cur p false 3 (instrExt i).id s.me.pc, by rw [hsearch, hgone]; rfl, ?_⟩
    rw [State.thread_migrated, hthread]
    exact ⟨rfl, rfl, rfl, rfl, rfl, s.me.imaged_reg _ _ _ _ _ _ _, s.image_mem_migrated _ _ _ _ _ _⟩

end Sys2Proof.Machine
end

section
/-! Accesses off their size (R119, R249, R331, R338): the check of the address comes before every other (O11). -/

namespace Sys2Proof.Machine

section
variable (g : Guard) (z : Size) (e x : Bool) (d : Reg) (m : MemOp) (base : Src) (disp : BitVec 24) (b : Src) (s : State)

theorem exec_ldf : exec (.ldf g z e d m) s = execLdf g z e d m s := rfl
theorem exec_stf : exec (.stf g z e d m) s = execStf g z e d m s := rfl
theorem exec_aadd : exec (.aadd g x d base disp b) s = s.runAtomic g .add x d base disp b [] := rfl
theorem exec_alog (op : LogOp) : exec (.alog g op x d base disp b) s = s.runAtomic g (.log op) x d base disp b [] := rfl
theorem exec_amnx (op : MnxOp) : exec (.amnx g op x d base disp b) s = s.runAtomic g (.mnx op) x d base disp b [] := rfl
theorem exec_axch : exec (.axch g x d base disp b) s = s.runAtomic g .xchg x d base disp b [] := rfl
theorem exec_acas : exec (.acas g x d base disp b) s = s.runAtomic g .cas x d base disp b [d] := rfl
theorem exec_afadd : exec (.afadd g x d base disp b) s = s.runAtomic g .fadd x d base disp b [] := rfl

end

/-- R249: the address is checked against the size before it is translated. -/
theorem State.access_misaligned {s : State} {a : Word} {n : Nat} (h : a.toNat % n ≠ 0) (tid : Nat) (kind : Acc)
    (k : State → Nat → Option Word → Res) : s.access tid a n kind k = .trap 0x04 a := if_pos h

section
variable {i : Instr} {s : State} {g : Guard}

/-- R249: an instruction whose effect is an access traps where the address is off the size. -/
theorem traps_misaligned {need : Need} {f : State → Thread → Res} {a : Word} {n : Nat} {kind : Acc}
    {k : State → Nat → Option Word → Res}
    (h : a.toNat % n ≠ 0) (hr : s.runs g need = true) (he : exec i s = run s g need f) (hf : f s s.me = s.access s.cur a n kind k) :
    Traps i s 0x04 a :=
  traps_of he hr (hf.trans (State.access_misaligned h ..))

/-- R338: the instructions on a word of 4 or 8 bytes. -/
theorem atomic_misaligned {op : AtomOp} {wide : Bool} {d : Reg} {base b : Src} {disp : BitVec 24} {reads : List Reg}
    (h : (baseDisp s.me base disp).toNat % (if wide then 8 else 4) ≠ 0)
    (hr : s.runs g { ext := .base, srcs := [base, b], reads := reads, dests := [d], outside := true } = true)
    (he : exec i s = s.runAtomic g op wide d base disp b reads) : Traps i s 0x04 (baseDisp s.me base disp) :=
  traps_misaligned h hr he rfl

end

/-- Settles O11: every access begins with the check of its address. -/
theorem misalignedAccessTrapsAlign : Obligations.MisalignedAccessTrapsAlign := by
  unfold Obligations.MisalignedAccessTrapsAlign
  refine ⟨fun s g z x d m h => ⟨fun hr => ⟨?_, ?_⟩, fun hr => ?_, fun hr => ?_, fun hr => ?_⟩,
    fun s g wide d base disp b h => ⟨fun hr => ⟨?_, fun op => ?_, fun op => ?_, ?_, ?_⟩, fun hr => ?_⟩⟩
  · exact traps_misaligned h hr (exec_ld g z x d m s) rfl
  · exact traps_misaligned h hr (exec_fetch g z x d m s) rfl
  · exact traps_misaligned h hr (exec_st g z d m s) rfl
  · exact traps_misaligned h hr (exec_ldf g z x d m s) rfl
  · exact traps_misaligned h hr (exec_stf g z x d m s) rfl
  · exact atomic_misaligned h hr (exec_aadd g wide d base disp b s)
  · exact atomic_misaligned h hr (exec_alog g wide d base disp b s op)
  · exact atomic_misaligned h hr (exec_amnx g wide d base disp b s op)
  · exact atomic_misaligned h hr (exec_axch g wide d base disp b s)
  · exact atomic_misaligned h hr (exec_afadd g wide d base disp b s)
  · exact atomic_misaligned h hr (exec_acas g wide d base disp b s)

end Sys2Proof.Machine
end

section
/-! Scalar floating-point comparison, signs and classes (R126, R181 to R183): the flag that FCMP writes and NV, FSGN's sign and
magnitude, and the bit that FCLS sets (O8). -/

namespace Sys2Proof.Machine

section
variable (g : Guard) (cc : FCond) (sg : Bool) (op : SgnOp) (fd : BitVec 3) (d : Reg) (a b : Src) (s : State)

theorem exec_fcmp : exec (.fcmp g cc sg fd a b) s = execFcmp g cc sg fd a b s := rfl
theorem exec_fsgn : exec (.fsgn g sg op d a b) s = execFsgn g sg op d a b s := rfl
theorem exec_fcls : exec (.fcls g sg d a) s = execFcls g sg d a s := rfl

end

theorem fsgn_scalarDest {g : Guard} {sg : Bool} {op : SgnOp} {d : Reg} {a b : Src} (h : (Instr.fsgn g sg op d a b).wf = true) :
    Reg.scalarDest d = true := by
  simp only [Instr.wf, Instr.operandsOk, Bool.and_eq_true] at h
  obtain ⟨⟨⟨hd, -⟩, -⟩, -⟩ := h
  exact gz_scalarDest hd

theorem fcls_scalarDest {g : Guard} {sg : Bool} {d : Reg} {a : Src} (h : (Instr.fcls g sg d a).wf = true) : Reg.scalarDest d = true := by
  simp only [Instr.wf, Instr.operandsOk, Bool.and_eq_true] at h
  obtain ⟨⟨hd, -⟩, -⟩ := h
  exact gz_scalarDest hd

/-! ### Bits of pw -/

/-- R52, R122: NV is bit 20 of pw. -/
theorem Fl.bits_nv (nv : Bool) : ({ nv := nv } : Fl).bits = if nv then 0x100000 else 0 := by
  cases nv <;> decide

theorem or_bits_nv (pw : BitVec 32) (nv : Bool) : pw ||| ({ nv := nv } : Fl).bits = if nv then pw ||| 0x100000 else pw := by
  rw [Fl.bits_nv]
  cases nv <;> simp

/-- R52: raising NV changes no other bit. -/
theorem getLsbD_or_bits_nv (pw : BitVec 32) (nv : Bool) (i : Nat) :
    (pw ||| ({ nv := nv } : Fl).bits).getLsbD i = if i = 20 then pw.getLsbD 20 || nv else pw.getLsbD i := by
  have hbits : ({ nv := nv } : Fl).bits.getLsbD i = (nv && decide (i = 20)) := by
    rw [Fl.bits_nv]
    cases nv with
    | false => simp
    | true =>
      rw [if_pos rfl, show (0x100000 : BitVec 32) = BitVec.twoPow 32 20 from rfl, BitVec.getLsbD_twoPow]
      simp [eq_comm]
  rw [BitVec.getLsbD_or, hbits]
  by_cases h : i = 20
  · simp [h]
  · simp [h]

/-- R173: writing a flag changes no other bit; f0 stays. -/
theorem getLsbD_pwFlag (pw : BitVec 32) (n : BitVec 3) (b : Bool) {i : Nat} (hi : i < 32) :
    (pwFlag pw n b).getLsbD i = if i = n.toNat ∧ n ≠ 0 then b else pw.getLsbD i := by
  have hbit : (1#32 <<< n.toNat).getLsbD i = decide (i = n.toNat) := by
    rw [← BitVec.twoPow_eq, BitVec.getLsbD_twoPow]
    simp [show n.toNat < 32 by omega, eq_comm]
  by_cases h0 : n = 0
  · rw [pwFlag, if_pos h0, if_neg (fun h => h.2 h0)]
  · rw [pwFlag, if_neg h0, if_congr (and_iff_left h0) rfl rfl]
    cases b with
    | false =>
      rw [if_neg Bool.false_ne_true, BitVec.getLsbD_and, BitVec.getLsbD_not, hbit, decide_eq_true hi]
      by_cases h : i = n.toNat <;> simp [h]
    | true =>
      rw [if_pos rfl, BitVec.getLsbD_or, hbit]
      by_cases h : i = n.toNat <;> simp [h]

/-! ### FCMP -/

/-- R182: FCMP completes with the flag written and NV raised. -/
theorem fcmp_completes {s : State} {g : Guard} {cc : FCond} {sg : Bool} {fd : BitVec 3} {a b : Src}
    (hr : s.runs g (fpNeed .z [a, b]) = true) :
    let c := fcondHolds cc (fpVal sg (s.me.reg a.reg)) (fpVal sg (s.me.reg b.reg))
    Completes (.fcmp g cc sg fd a b) s (s.outPw [a, b] (pwFlag (s.me.pw ||| ({ nv := c.2 } : Fl).bits) fd c.1)) := by
  intro c
  exact completes_ok (exec_fcmp g cc sg fd a b s) hr rfl
    (((State.Wrote.refl s).raise (by simp) _).setFlag (by simp) fd c.1) (.inr rfl) (.inr rfl)

/-! ### Fields of scalar operands -/

/-- R32, R178: an operand is a code in the low bits of its register. -/
theorem Fmt.value_mod (f : Fmt) (x : Nat) : f.value (x % 2 ^ f.width) = f.value x := by
  simp only [Fmt.value, Nat.mod_mod]

section
variable {f : Fmt} (hsg : f.sg = true)
include hsg

theorem Fmt.width_eq : f.width = f.mag + 1 := by rw [Fmt.width, if_pos hsg]

theorem Fmt.mod_width_mod_mag (x : Nat) : x % 2 ^ f.width % 2 ^ f.mag = x % 2 ^ f.mag :=
  Nat.mod_mod_of_dvd x (Nat.pow_dvd_pow 2 (by rw [Fmt.width_eq hsg]; omega))

theorem Fmt.testBit_mod_width (x : Nat) : (x % 2 ^ f.width).testBit f.mag = x.testBit f.mag := by
  rw [Nat.testBit_mod_two_pow, Fmt.width_eq hsg, decide_eq_true (Nat.lt_succ_self _), Bool.true_and]

theorem Fmt.expField_mod_width (x : Nat) : f.expField (x % 2 ^ f.width) = x / 2 ^ f.m % 2 ^ f.e := by
  rw [Fmt.expField, Fmt.mod_width_mod_mag hsg, Fmt.mag, Nat.add_comm, pow_add, Nat.mod_mul_right_div_self]

theorem Fmt.fracField_mod_width (x : Nat) : f.fracField (x % 2 ^ f.width) = x % 2 ^ f.m := by
  rw [Fmt.fracField, Fmt.mod_width_mod_mag hsg]
  exact Nat.mod_mod_of_dvd x (Nat.pow_dvd_pow 2 (Nat.le_add_left _ _))

end

/-- R178: the formats of the scalar instructions are wide ones with a sign. -/
theorem fpFmt_wide (sg : Bool) : (fpFmt sg).sg = true ∧ (fpFmt sg).e ≠ 0 ∧ (fpFmt sg).spm = 2 ∧ 1 ≤ (fpFmt sg).m := by
  cases sg <;> decide

/-! ### FSGN -/

/-- R34: the canonical NaN. -/
theorem nanCode_fpFmt (sg : Bool) : BitVec.ofNat 64 (fpFmt sg).nanCode = if sg then 0x7FC00000 else 0x7FF8000000000000 := by
  cases sg <;> decide

/-- R181: the magnitude of a code with another sign. -/
def Fmt.withSign (f : Fmt) (neg : Bool) (x : Word) : Word := BitVec.ofNat 64 (f.signBit neg + x.toNat % 2 ^ f.width % 2 ^ f.mag)

theorem Fmt.getLsbD_withSign {f : Fmt} (hsg : f.sg = true) (neg : Bool) (x : Word) {i : Nat} (hi : i < 64) :
    (f.withSign neg x).getLsbD i = if i < f.mag then x.getLsbD i else decide (i = f.mag) && neg := by
  have hsign : f.signBit neg = 2 ^ f.mag * neg.toNat := by cases neg <;> simp [Fmt.signBit, hsg]
  have hlow : x.toNat % 2 ^ f.mag < 2 ^ f.mag := Nat.mod_lt _ (Nat.two_pow_pos _)
  rw [Fmt.withSign, BitVec.getLsbD_ofNat, decide_eq_true hi, Bool.true_and, Fmt.mod_width_mod_mag hsg, hsign,
    Nat.testBit_two_pow_mul_add _ hlow]
  by_cases hmag : i < f.mag
  · rw [if_pos hmag, if_pos hmag, Nat.testBit_mod_two_pow, decide_eq_true hmag, Bool.true_and, BitVec.testBit_toNat]
  · rw [if_neg hmag, if_neg hmag]
    rcases Nat.eq_or_lt_of_le (Nat.le_of_not_lt hmag) with rfl | hlt
    · cases neg <;> simp
    · have hbit : neg.toNat.testBit (i - f.mag) = false :=
        Nat.testBit_lt_two_pow (Nat.lt_of_le_of_lt neg.toNat_le (Nat.one_lt_two_pow (by omega)))
      rw [hbit, decide_eq_false (by omega), Bool.false_and]

section
variable {s : State} {g : Guard} {sg : Bool} {op : SgnOp} {d : Reg} {a b : Src} (hd : Reg.scalarDest d = true)
  (hr : s.runs g (fpNeed d [a, b]) = true)
include hd hr

/-- R181: FSGN of a NaN. -/
theorem fsgn_nan (hnan : (fpVal sg (s.me.reg a.reg)).isNan = true) :
    Completes (.fsgn g sg op d a b) s { s.out [a, b] d (BitVec.ofNat 64 (fpFmt sg).nanCode) with
      pw := s.me.pw ||| ({ nv := (fpVal sg (s.me.reg a.reg)).isSig } : Fl).bits } :=
  completes_ok (exec_fsgn g sg op d a b s) hr (if_pos hnan)
    (((State.Wrote.refl s).raise (by simp) _).write rfl d hd _) (.inl (by simp [fpNeed])) (.inr rfl)

/-- R181: FSGN of any other value. -/
theorem fsgn_number (hnan : (fpVal sg (s.me.reg a.reg)).isNan = false) :
    Completes (.fsgn g sg op d a b) s (s.out [a, b] d ((fpFmt sg).withSign
      (SgnOp.app op ((s.me.reg a.reg).getLsbD (fpFmt sg).mag) ((s.me.reg b.reg).getLsbD (fpFmt sg).mag)) (s.me.reg a.reg))) := by
  have hf := completes_ok (exec_fsgn g sg op d a b s) hr (if_neg (ne_true_of_eq_false hnan)) ((State.Wrote.refl s).write rfl d hd _)
    (.inl (by simp [fpNeed])) (.inr rfl)
  rw [Fmt.testBit_mod_width (fpFmt_wide sg).1] at hf
  exact hf

end

/-! ### FCLS -/

/-- R183: the class of a code of `m` fraction bits and `e` exponent bits, as a bit number. -/
def classOf (m e : Nat) (x : Word) : Nat :=
  let neg := x.getLsbD (m + e)
  let exp := x.toNat / 2 ^ m % 2 ^ e
  let frac := x.toNat % 2 ^ m
  if exp = 2 ^ e - 1 then (if frac = 0 then (if neg then 0 else 7) else if 2 ^ (m - 1) ≤ frac then 9 else 8)
  else if exp = 0 then (if frac = 0 then (if neg then 3 else 4) else (if neg then 2 else 5))
  else (if neg then 1 else 6)

/-- R183: the class of a value is that of its code's fields. -/
theorem fpClass_value {f : Fmt} (hsg : f.sg = true) (he : f.e ≠ 0) (hspm : f.spm = 2) (hm : 1 ≤ f.m) (x : Word) :
    fpClass f (f.value x.toNat) = classOf f.m f.e x := by
  have hfrac : x.toNat % 2 ^ f.m < 2 ^ f.m := Nat.mod_lt _ (Nat.two_pow_pos _)
  have hsign : x.toNat.testBit f.mag = x.getLsbD (f.m + f.e) := by rw [BitVec.testBit_toNat, Fmt.mag, Nat.add_comm]
  rw [← Fmt.value_mod, value_eq_fields hsg he hspm (Nat.mod_lt _ (Nat.two_pow_pos _)), Fmt.expField_mod_width hsg,
    Fmt.fracField_mod_width hsg, Fmt.testBit_mod_width hsg, testBit_top hm hfrac, hsign, classOf]
  by_cases hones : x.toNat / 2 ^ f.m % 2 ^ f.e = 2 ^ f.e - 1
  · by_cases hzero : x.toNat % 2 ^ f.m = 0
    · simp only [if_pos hones, if_pos hzero, fpClass]
    · simp only [if_pos hones, if_neg hzero, fpClass, Bool.not_eq_true', decide_eq_false_iff_not, ite_not]
  · by_cases hexp : x.toNat / 2 ^ f.m % 2 ^ f.e = 0
    · simp only [if_neg hones, if_pos hexp, Num.of, fpClass, hfrac, if_true]
    · have hman : 2 ^ f.m + x.toNat % 2 ^ f.m ≠ 0 := (Nat.add_pos_left (Nat.two_pow_pos _) _).ne'
      simp only [if_neg hones, if_neg hexp, Num.of, fpClass, if_neg hman, if_neg (Nat.not_lt.2 (Nat.le_add_right _ _))]

theorem fpClass_fpVal (sg : Bool) (x : Word) :
    fpClass (fpFmt sg) (fpVal sg x) = classOf (if sg then 23 else 52) (if sg then 8 else 11) x := by
  obtain ⟨hsg, he, hspm, hm⟩ := fpFmt_wide sg
  rw [fpVal, fpClass_value hsg he hspm hm]
  cases sg <;> rfl

/-- Settles O8: the flag and NV are two updates of pw, and the sign and the class are read off the fields of the code. -/
theorem scalarFloatCompareSignAndClass : Obligations.ScalarFloatCompareSignAndClass := by
  unfold Obligations.ScalarFloatCompareSignAndClass
  refine ⟨fun s g cc sg fd a b _ hr => ?_, fun s g sg op d a b hwf hr => ⟨fun hnan => ?_, fun hnan => ?_⟩,
    fun s g sg d a hwf hr => ?_⟩
  · refine ⟨_, fcmp_completes hr, fun i hi => ?_⟩
    rw [getLsbD_pwFlag _ _ _ hi, getLsbD_or_bits_nv]
    cases cc <;> rfl
  · have h := fsgn_nan (op := op) (fsgn_scalarDest hwf) hr hnan
    rw [nanCode_fpFmt, or_bits_nv] at h
    exact h
  · refine ⟨_, fsgn_number (fsgn_scalarDest hwf) hr hnan, fun i hi => ?_⟩
    rw [Fmt.getLsbD_withSign (fpFmt_wide sg).1 _ _ hi]
    cases sg <;> cases op <;> rfl
  · have hd := fcls_scalarDest hwf
    have h := completes_ok (exec_fcls g sg d a s) hr rfl ((State.Wrote.refl s).write rfl d hd _) (.inl (by simp [fpNeed])) (.inr rfl)
    rw [fpClass_fpVal] at h
    exact h

end Sys2Proof.Machine
end

section
/-! The instructions that ask a launch unit, and the thermal table and the replays (R147, R156 to R161, R450) (O39). -/

namespace Sys2Proof.Machine

section
variable (g : Guard) (d : Reg) (a b : Src) (s : State)

theorem exec_launch : exec (.launch g d a) s = execLaunch g d a s := rfl
theorem exec_lsync : exec (.lsync g) s = execLsync g s := rfl
theorem exec_qctl : exec (.qctl g d a) s = execQctl g d a s := rfl
theorem exec_qctlWr : exec (.qctlWr g d a b) s = execQctlWr g d a b s := rfl
theorem exec_qctlRst : exec (.qctlRst g d a) s = execQctlRst g d a s := rfl
theorem exec_thrm : exec (.thrm g d a) s = execThrm g d a s := rfl
theorem exec_thrmSet : exec (.thrmSet g a b) s = execThrmSet g a b s := rfl
theorem exec_repl : exec (.repl g d a) s = execRepl g d a s := rfl
theorem exec_replQ : exec (.replQ g d a) s = execReplQ g d a s := rfl

end

/-! ### Addresses of lines (R156, R450) -/

theorem offLine {v : Word} (h : v.toNat % 128 ≠ 0) : (v.extractLsb' 0 7 != 0) = true :=
  bne_iff_ne.2 (mt (extractLsb'_low_eq_zero v 7).1 h)

theorem not_offLine {v : Word} (h : v.toNat % 128 = 0) : ¬ (v.extractLsb' 0 7 != 0) = true := by
  simp [(extractLsb'_low_eq_zero v 7).2 h]

/-! ### Requests to a launch unit (R156, R159) -/

/-- The thread notes the token of a request to a launch unit, and whether LSYNC waits for its answer (R158). -/
def Thread.noteAsk (t : Thread) (x : Nat × Bool) : Thread := { t with asks := t.asks ++ [x] }

theorem Thread.noteAsk_keeps (t : Thread) (x : Nat × Bool) (r : Reg) :
    (t.noteAsk x).reg r = t.reg r ∧ (t.noteAsk x).vreg r = t.vreg r ∧ (t.noteAsk x).full r = t.full r := by
  cases r <;> exact ⟨rfl, rfl, rfl⟩

theorem Thread.noteAsk_empty (t : Thread) (x : Nat × Bool) (d : Reg) (l : List Await) :
    ({ t.empty d with await := l } : Thread).noteAsk x = { (t.noteAsk x).empty d with await := l } := by
  cases d <;> rfl

/-- What an instruction asks for does not depend on the requests that its thread has noted. -/
theorem State.Asks.of_noteAsk {s t : State} {srcs : List Src} {d : Reg} {x : Nat × Bool}
    (h : (s.modThread s.cur (·.noteAsk x)).Asks t srcs d) : s.Asks t srcs d := by
  obtain ⟨hpc, hretired, hidle, hregs, hfull, hawaits, hbytes⟩ := h
  simp only [State.modThread_cur, State.me_modThread] at hpc hretired hregs hfull
  refine ⟨hpc, hretired, hidle, fun r hr => ?_, fun r => ?_, hawaits, hbytes⟩
  · obtain ⟨hreg, hvreg, -⟩ := s.me.noteAsk_keeps x r
    exact ⟨(hregs r hr).1.trans hreg, (hregs r hr).2.trans hvreg⟩
  · rw [hfull r, (s.me.noteAsk_keeps x r).2.2]

/-- The thread asks a launch unit: gd is empty until the answer with token `u.nextId` comes. -/
def State.askUnit (u : State) (d : Reg) (launch : Bool) : State :=
  (u.awaitReg u.cur d 8 false false 0 0).modThread u.cur (·.noteAsk (u.nextId, launch))

theorem State.me_askUnit (u : State) (d : Reg) (launch : Bool) : (u.askUnit d launch).thread u.cur =
    { (u.me.noteAsk (u.nextId, launch)).empty d with await := u.me.await ++ [⟨u.nextId, destOf d 8 false, false, 0, 0⟩] } := by
  rw [← Thread.noteAsk_empty, ← u.me_awaitReg d]
  exact State.thread_modThread_same _ _ _

theorem Thread.awaited_asked (t : Thread) (x : Nat × Bool) {d : Reg} (hd : d.isG = true) (l : List Await) (tok : Nat) :
    ({ (t.noteAsk x).empty d with await := l ++ [⟨tok, destOf d 8 false, false, 0, 0⟩] } : Thread).awaited d = true := by
  obtain ⟨k, rfl⟩ : ∃ k, d = .g k := by cases d <;> simp_all [Reg.isG]
  simp [Thread.awaited, destOf]

/-- R121, R156, R159: an instruction whose effect is a request to a launch unit goes on, and gd awaits the answer. -/
theorem asks_of_askUnit {i : Instr} {s u v : State} {g : Guard} {n : Need} {f : State → Thread → Res} {d : Reg} {launch : Bool}
    (he : exec i s = run s g n f) (hr : s.runs g n = true) (hf : f s s.me = .ok v) (hc : s.Cached u) (hn : n.dests ++ n.fills = [d])
    (hcur : v.cur = u.cur) (hthreads : v.threads = (u.askUnit d launch).threads) (hmem : v.mem = u.mem) :
    ∃ t, exec i s = .next t ∧ s.Asks t n.srcs d ∧ t.packages = v.packages ∧
      (t.thread s.cur).asks = s.me.asks ++ [(u.nextId, launch)] := by
  obtain ⟨hucur, hume⟩ := hc.cur_me
  have hvcur : v.cur = s.cur := hcur.trans hucur
  have hme : v.me = { (s.me.noteAsk (u.nextId, launch)).empty d with
      await := s.me.await ++ [⟨u.nextId, destOf d 8 false, false, 0, 0⟩] } := by
    rw [← hume, ← u.me_askUnit, State.me, State.thread, State.thread, hcur, hthreads]
  obtain ⟨t, ht, hafter⟩ := completes_as he hr hf hvcur
  have hasks := congrArg Thread.asks hafter.me.other
  rw [hvcur, hme] at hasks
  rw [hn] at hafter
  have hnoted := s.me_modThread (·.noteAsk (u.nextId, launch))
  refine ⟨t, ht, State.Asks.of_noteAsk (x := (u.nextId, launch)) ?_, (congrArg State.packages hafter.other : _), ?_⟩
  · refine State.After.asks (x := s.me.await ++ [⟨u.nextId, destOf d 8 false, false, 0, 0⟩]) (u := v) ?_ hvcur ?_ (fun x => ?_) fun hd => ?_
    · rw [hnoted]; exact hafter
    · rw [hnoted]; exact hme
    · rw [State.byte, hmem, hc.mem]; rfl
    · rw [hnoted]; exact Thread.awaited_asked _ _ hd _ _
  · refine hasks.trans ?_
    cases d <;> rfl

/-! ### LAUNCH and LSYNC -/

/-- R156: the request of the running thread for the launch of the packet at `p`; its token is `u.nextId`. -/
def State.launchReq (u : State) (p : Word) : LaunchReq :=
  ⟨u.nextId + 1, p, some (u.me.asker u.cur u.nextId false), 0, u.me.cluster, 0, none, none⟩

/-- R156: the request stands at the launch unit of the thread's package, and gd awaits the answer. -/
def State.launching (u : State) (d : Reg) (p : Word) : State :=
  (u.askUnit d true).bumpId.modPkg (pkgOf u.me.core) (fun k => { k with reqs := k.reqs ++ [u.launchReq p] })

theorem State.reqs_launching (u : State) (d : Reg) (p : Word) :
    ((u.launching d p).pkg (pkgOf u.me.core)).reqs = (u.pkg (pkgOf u.me.core)).reqs ++ [u.launchReq p] :=
  congrArg Package.reqs (State.pkg_modPkg_same _ _ _)

section
variable {s : State} {g : Guard} {d : Reg} {a : Src}
  (hr : s.runs g { ext := .sys, srcs := [a], dests := [d], outside := true } = true)
include hr

theorem launch_misaligned (h : (s.me.reg a.reg).toNat % 128 ≠ 0) : Traps (.launch g d a) s 0x04 (s.me.reg a.reg) :=
  traps_of (exec_launch g d a s) hr (if_pos (offLine h))

variable (halign : (s.me.reg a.reg).toNat % 128 = 0)
include halign

theorem launch_refused {c : Nat} (hfail : (s.resolve s.me.ctx (s.me.reg a.reg) .load).2 = .fail c) :
    Traps (.launch g d a) s c (s.me.reg a.reg) := by
  refine traps_of (exec_launch g d a s) hr ((if_neg (not_offLine halign)).trans ?_)
  obtain ⟨s1, hres⟩ : ∃ s1, s.resolve s.me.ctx (s.me.reg a.reg) .load = (s1, .fail c) := ⟨_, Prod.ext rfl hfail⟩
  rw [hres]

omit hr in
/-- R156: the request goes to the launch unit once the packet's address is checked and the earlier writes are performed. -/
theorem launch_effect {s1 : State} {x : Rslt} (hres : s.resolve s.me.ctx (s.me.reg a.reg) .load = (s1, x)) (hx : ∀ c, x ≠ .fail c)
    (hrel : s.me.domReleased = true) (hc : s.Cached s1) :
    ∃ f, exec (.launch g d a) s = run s g { ext := .sys, srcs := [a], dests := [d], outside := true } f ∧
      f s s.me = .ok (s1.launching d (s.me.reg a.reg)) := by
  obtain ⟨hcur, hme⟩ := hc.cur_me
  refine ⟨_, exec_launch g d a s, (if_neg (not_offLine halign)).trans ?_⟩
  rw [hres, State.launching, State.launchReq, State.askUnit, hme, hcur]
  cases x with
  | fail c => exact absurd rfl (hx c)
  | _ => exact if_neg (by simp [hrel])

/-- R156: the packet's address goes to the launch unit of the thread's own package. -/
theorem launch_asks {s1 : State} {x : Rslt} (hres : s.resolve s.me.ctx (s.me.reg a.reg) .load = (s1, x)) (hx : ∀ c, x ≠ .fail c)
    (hrel : s.me.domReleased = true) (hc : s.Cached s1) :
    ∃ t r who, exec (.launch g d a) s = .next t ∧ s.Asks t [a] d ∧
      (t.pkg (pkgOf s.me.core)).reqs = (s.pkg (pkgOf s.me.core)).reqs ++ [r] ∧ r.packet = s.me.reg a.reg ∧ r.who = some who ∧
      who.tid = s.cur ∧ r.cluster = s.me.cluster ∧ (t.thread s.cur).asks = s.me.asks ++ [(who.tok, true)] := by
  obtain ⟨f, he, hf⟩ := launch_effect halign hres hx hrel hc
  obtain ⟨t, ht, hasks, hpkgs, hnoted⟩ := asks_of_askUnit he hr hf hc rfl rfl rfl rfl
  obtain ⟨hcur, hme⟩ := hc.cur_me
  have hsame : s1.packages = s.packages := (congrArg State.packages hc.other : _)
  have hreqs := s1.reqs_launching d (s.me.reg a.reg)
  rw [State.pkg, ← hpkgs, State.pkg, hme, hsame] at hreqs
  exact ⟨t, _, _, ht, hasks, hreqs, rfl, rfl, hcur, by rw [State.launchReq, hme], hnoted⟩

end

section
variable {s : State} {g : Guard} (hr : s.runs g { ext := .sys, outside := true } = true)
include hr

theorem lsync_completes (h : ∀ x ∈ s.me.asks, x.2 = false) : Completes (.lsync g) s (s.outPw [] s.me.pw) :=
  completes_nothing (exec_lsync g s) hr (if_neg (by simpa using h)) rfl

theorem lsync_waits (h : ∃ x ∈ s.me.asks, x.2 = true) :
    ∃ t, exec (.lsync g) s = .next t ∧ (t.thread s.cur).wait = some .lsync ∧ (t.thread s.cur).pc = s.me.pc ∧
      (t.thread s.cur).retired = s.me.retired := by
  refine ⟨_, exec_of_wait (exec_lsync g s) hr (if_pos (List.any_eq_true.2 h)), ?_⟩
  rw [State.block, State.thread_modThread_same]
  exact ⟨rfl, rfl, rfl⟩

end

/-! ### QCTL -/

section
variable {i : Instr} {s : State} {g : Guard} {n : Need} {f : State → Thread → Res} {d : Reg} {form : Nat} {sel v : Word}
  (he : exec i s = run s g n f) (hr : s.runs g n = true) (hf : f s s.me = s.qctlIssue s.me d form sel v)
include he hr hf

theorem qctlIssue_refused (h : sel.extractLsb' 14 50 ≠ 0 ∨ s.pkgPresent (sel.extractLsb' 8 6).toNat = false) : Traps i s 0x1A sel :=
  traps_of he hr (hf.trans (if_pos (by simpa using h)))

/-- R159: the request goes to the launch unit that the selector names. -/
theorem qctlIssue_asks (hd : n.dests ++ n.fills = [d]) (hsel : sel.extractLsb' 14 50 = 0)
    (hp : s.pkgPresent (sel.extractLsb' 8 6).toNat = true) :
    ∃ t who, exec i s = .next t ∧ s.Asks t n.srcs d ∧
      (t.pkg (sel.extractLsb' 8 6).toNat).qctl = (s.pkg (sel.extractLsb' 8 6).toNat).qctl ++ [⟨who, form, sel, v⟩] ∧ who.tid = s.cur ∧
      (t.thread s.cur).asks = s.me.asks ++ [(who.tok, false)] := by
  let who := s.me.asker s.cur s.nextId false
  obtain ⟨t, ht, hasks, hpkgs, hnoted⟩ := asks_of_askUnit (u := s) (d := d) (launch := false)
    (v := (s.askUnit d false).modPkg (sel.extractLsb' 8 6).toNat (fun k => { k with qctl := k.qctl ++ [⟨who, form, sel, v⟩] })) he hr
    (hf.trans (if_neg (by rw [hsel, hp]; decide))) (.refl s) hd rfl rfl rfl
  refine ⟨t, who, ht, hasks, ?_, rfl, hnoted⟩
  rw [State.pkg, hpkgs]
  exact congrArg Package.qctl (State.pkg_modPkg_same _ _ _)

end

/-! ### THRM -/

/-- R161: a write of a rank that the table does not have changes nothing. -/
theorem thrmSet_outside {s : State} {g : Guard} {a b : Src}
    (hr : s.runs g { ext := .sys, priv := true, srcs := [a, b], outside := true } = true) (h : 35 < (s.me.reg a.reg).toNat) :
    Completes (.thrmSet g a b) s (s.outPw [a, b] s.me.pw) := by
  obtain ⟨t, ht, hafter⟩ := completes_ok (exec_thrmSet g a b s) hr (if_pos h) (.refl s) (.inr rfl) (.inr rfl)
  exact ⟨t, ht, hafter.takes (takesOf [a, b] [.z]) fun r hr => (mem_takesOf_z [a, b] [] r hr).symm⟩

/-- R147, R161: the entry keeps bits [17:8] and [5:0] of what is written. -/
theorem thrmSet_writes {s : State} {g : Guard} {a b : Src}
    (hr : s.runs g { ext := .sys, priv := true, srcs := [a, b], outside := true } = true) (h : (s.me.reg a.reg).toNat ≤ 35) :
    ∃ t, exec (.thrmSet g a b) s = .next t ∧ s.Goes t [a, b] ∧
      KMap.getD (t.die (dieOf s.me.core)).rank (s.me.reg a.reg).toNat 0 = s.me.reg b.reg &&& 0x3FF3F := by
  obtain ⟨t, ht, hafter⟩ := completes_as (exec_thrmSet g a b s) hr (if_neg (Nat.not_lt.2 h)) rfl
  refine ⟨t, ht, hafter.goes rfl rfl (fun _ => rfl) rfl, ?_⟩
  rw [State.die, show t.dies = _ from (congrArg State.dies hafter.other : _)]
  exact (congrArg (fun x : Die => KMap.getD x.rank _ 0) (State.die_modDie_same _ _ _)).trans (KMap.getD_set_same _ _ _ _)

/-! ### REPL -/

/-- R450: the word that `repl.q` reads of a launch. -/
def Launch.replWord (x : Launch) : Word := BitVec.ofNat 64 (if x.replState = 0 then 0 else 65536 * x.replays + x.replState)

theorem Launch.replWord_eq (x : Launch) : x.replWord = match x.state with
    | .running => BitVec.ofNat 64 (65536 * x.replays + 1)
    | .replaying => BitVec.ofNat 64 (65536 * x.replays + 2)
    | .committing => BitVec.ofNat 64 (65536 * x.replays + 3)
    | .built => if x.replays = 0 then 0 else BitVec.ofNat 64 (65536 * x.replays + 2)
    | .accepted | .over => 0 := by
  unfold Launch.replWord Launch.replState
  cases x.state with
  | built => by_cases h : x.replays = 0 <;> simp [h]
  | _ => rfl

section
variable {s : State} {g : Guard} {d : Reg} {a : Src} (hr : s.runs g (sysNeed [a] d) = true)
include hr

theorem repl_misaligned (h : (s.me.reg a.reg).toNat % 128 ≠ 0) :
    Traps (.repl g d a) s 0x04 (s.me.reg a.reg) ∧ Traps (.replQ g d a) s 0x04 (s.me.reg a.reg) :=
  have halign := offLine h
  ⟨traps_of (exec_repl g d a s) hr (if_pos halign), traps_of (exec_replQ g d a s) hr (if_pos halign)⟩

variable (hd : Reg.scalarDest d = true) (halign : (s.me.reg a.reg).toNat % 128 = 0)
include hd halign

/-- R450: no running launch has the save address. -/
theorem repl_none (h : ∀ id x, s.replFind s.me (s.me.reg a.reg) = some (id, x) → x.state ≠ .running) :
    Completes (.repl g d a) s (s.out [a] d 1) := by
  refine completes_write_as (exec_repl g d a s) hr ((if_neg (not_offLine halign)).trans ?_) rfl hd (.head _)
  cases hx : s.replFind s.me (s.me.reg a.reg) with
  | none => rfl
  | some p => exact if_neg (h p.1 p.2 hx)

theorem repl_starts {id : Nat} {x : Launch} (hx : s.replFind s.me (s.me.reg a.reg) = some (id, x)) (hst : x.state = .running) :
    CompletesAs (.repl g d a) s (s.modLaunch id (fun x => { x with state := .replaying })) (s.out [a] d 0) := by
  obtain ⟨ls, hls⟩ := s.modLaunch_eq id (fun x => { x with state := .replaying })
  have hcur : (s.modLaunch id (fun x => { x with state := .replaying })).cur = s.cur := by rw [hls]
  have h := completes_write_as (exec_repl g d a s) hr ((if_neg (not_offLine halign)).trans (by rw [hx]; exact if_pos hst)) hcur hd (.head _)
  rw [hls] at h ⊢
  exact h

theorem replQ_none (hx : s.replFind s.me (s.me.reg a.reg) = none) : Completes (.replQ g d a) s (s.out [a] d 0) := by
  refine completes_write_as (exec_replQ g d a s) hr ((if_neg (not_offLine halign)).trans ?_) rfl hd (.head _)
  rw [hx]

theorem replQ_some {id : Nat} {x : Launch} (hx : s.replFind s.me (s.me.reg a.reg) = some (id, x)) :
    Completes (.replQ g d a) s (s.out [a] d x.replWord) := by
  refine completes_write_as (exec_replQ g d a s) hr ((if_neg (not_offLine halign)).trans ?_) rfl hd (.head _)
  rw [hx]
  rfl

end

/-- Settles O39: LAUNCH and QCTL end as a request to a launch unit does, and THRM and REPL as one write of a register or of a table. -/
theorem launchInstructions : Obligations.LaunchInstructions := by
  unfold Obligations.LaunchInstructions
  refine ⟨fun s s1 g d a x _ hr => ⟨launch_misaligned hr, fun c halign => launch_refused hr halign, fun halign => launch_asks hr halign⟩,
    fun s g hr => ⟨lsync_completes hr, lsync_waits hr⟩,
    fun s g d a b i srcs form v _ hi => ?_,
    fun s g d a b hwf => ⟨fun hr => ?_, fun hr => ⟨thrmSet_outside hr, thrmSet_writes hr⟩⟩,
    fun s g d a hwf hr => ?_⟩
  · rcases hi with ⟨rfl, rfl, rfl, rfl, hr⟩ | ⟨rfl, rfl, rfl, rfl, hr⟩ | ⟨rfl, rfl, rfl, rfl, hr⟩
    · exact ⟨qctlIssue_refused (exec_qctl g d a s) hr rfl, qctlIssue_asks (exec_qctl g d a s) hr rfl rfl⟩
    · exact ⟨qctlIssue_refused (exec_qctlWr g d a b s) hr rfl, qctlIssue_asks (exec_qctlWr g d a b s) hr rfl rfl⟩
    · exact ⟨qctlIssue_refused (exec_qctlRst g d a s) hr rfl, qctlIssue_asks (exec_qctlRst g d a s) hr rfl rfl⟩
  · have hd : Reg.scalarDest d = true := gz_scalarDest (by simp [Instr.wf, Instr.operandsOk] at hwf; exact hwf.1.1)
    exact completes_write_as (exec_thrm g d a s) hr rfl rfl hd (.head _)
  · have hd : Reg.scalarDest d = true := gz_scalarDest (by simp [Instr.wf, Instr.operandsOk] at hwf; exact hwf.1.1)
    refine ⟨repl_misaligned hr, fun halign hx => ⟨repl_none hr hd halign (by simp [hx]), replQ_none hr hd halign hx⟩,
      fun id x halign hx => ?_⟩
    have hread := replQ_some hr hd halign hx
    rw [Launch.replWord_eq] at hread
    refine ⟨fun hst => repl_none hr hd halign fun id' x' hx' => ?_, fun hst => ⟨repl_starts hr hd halign hx hst, ?_⟩,
      fun hst => ?_, fun hst => ?_, fun hst => ?_, fun hst => ?_⟩
    · obtain ⟨-, rfl⟩ := Prod.mk.inj (Option.some.inj (hx.symm.trans hx'))
      exact hst
    all_goals rw [hst] at hread; exact hread

end Sys2Proof.Machine
end

section
/-! How a scalar instruction ends (R134, R163 to R168), with the results of the arithmetic ones (O1). -/

namespace Sys2Proof.Machine

/-! ### Destinations -/

theorem operandsOk_of_wf {i : Instr} (h : i.wf = true) : i.operandsOk = true := (Bool.and_eq_true_iff.mp h).1

theorem aluD_scalarDest {d : Reg} (h : aluD d = true) : Reg.scalarDest d = true := by
  cases d with
  | g | m | z => rfl
  | _ => cases h

theorem aluOk_scalarDest {d : Reg} {a : Src} {b : Opd} (h : aluOk d a b = true) : Reg.scalarDest d = true := by
  simp only [aluOk, Bool.and_eq_true, and_assoc] at h
  exact aluD_scalarDest h.1

theorem isG_scalarDest {d : Reg} (h : d.isG = true) : Reg.scalarDest d = true := gz_scalarDest (by rw [gz, h, Bool.true_or])

/-! ### Forms of one and of two operands -/

/-- R134: an instruction whose effect is one write of a scalar register. -/
theorem completes_write {i : Instr} {s : State} {g : Guard} {n : Need} {f : State → Thread → Res} {d : Reg} {x : Word}
    (he : exec i s = run s g n f) (hr : s.runs g n = true) (hf : f s s.me = .ok (s.write s.cur d x)) (hd : Reg.scalarDest d = true)
    (hn : n.dests ++ n.fills = [d]) : Completes i s (s.out n.srcs d x) := by
  have h := completes_write_as he hr hf rfl hd (hn ▸ List.mem_singleton_self d)
  rw [hn] at h
  exact h

/-- R168: a two-operand form writes what its function makes of its operands. -/
theorem completes_runAlu {i : Instr} {s : State} {g : Guard} {d : Reg} {a : Src} {b : Opd} {f : Word → Word → Word}
    (he : exec i s = runAlu s g d a b f) (hr : s.runs g (aluNeed d (a :: Opd.srcs b)) = true) (hd : Reg.scalarDest d = true) :
    Completes i s (s.out (a :: Opd.srcs b) d (f (s.me.reg a.reg) (Opd.val s.me b))) :=
  completes_write he hr rfl hd rfl

/-- A two-operand form whose function gives a result that stands in `rel`. -/
theorem alu2_of {mk : Guard → Bool → Reg → Src → Opd → Instr} {f : Bool → Word → Word → Word} {rel : Nat → Word → Word → Word → Prop}
    (he : ∀ g h d a b s, exec (mk g h d a b) s = runAlu s g d a b (f h))
    (hd : ∀ g h d a b, (mk g h d a b).operandsOk = true → Reg.scalarDest d = true)
    (hrel : ∀ h x y, rel (if h then 32 else 64) x y (f h x y)) : Alu2 mk rel := fun s g h d a b hwf hr =>
  ⟨_, hrel h _ _, completes_runAlu (he g h d a b s) hr (hd g h d a b (operandsOk_of_wf hwf))⟩

theorem alu1_of {mk : Guard → Bool → Reg → Src → Instr} {f : Bool → Word → Word} {rel : Nat → Word → Word → Prop}
    (he : ∀ g h d a s, exec (mk g h d a) s = runAlu1 s g d a (f h))
    (hd : ∀ g h d a, (mk g h d a).operandsOk = true → Reg.scalarDest d = true)
    (hrel : ∀ h x, rel (if h then 32 else 64) x (f h x)) : Alu1 mk rel := fun s g h d a hwf hr =>
  ⟨_, hrel h _, completes_write (he g h d a s) hr rfl (hd g h d a (operandsOk_of_wf hwf)) rfl⟩

/-! ### The two widths (R168) -/

theorem alu2_eq (f : (w : Nat) → BitVec w → BitVec w → BitVec w) (h : Bool) (x y : Word) :
    alu2 f h x y = (f (if h then 32 else 64) (x.setWidth _) (y.setWidth _)).signExtend 64 := by
  cases h with
  | false => simp [alu2]
  | true => rfl

theorem alu1_eq (f : (w : Nat) → BitVec w → BitVec w) (h : Bool) (x : Word) :
    alu1 f h x = (f (if h then 32 else 64) (x.setWidth _)).signExtend 64 := by
  cases h with
  | false => simp [alu1]
  | true => rfl

theorem aluShift_eq (f : (w : Nat) → BitVec w → Nat → BitVec w) (h : Bool) (x y : Word) :
    aluShift f h x y = (f (if h then 32 else 64) (x.setWidth _) y.toNat).signExtend 64 := by
  cases h with
  | false => simp [aluShift]
  | true => rfl

theorem width_cases (h : Bool) : (if h then 32 else 64) = 32 ∨ (if h then 32 else 64) = 64 := by
  cases h with
  | false => exact .inr rfl
  | true => exact .inl rfl

/-! ### Results as integers -/

theorem uval_eq (w : Nat) (x : Word) : uval w x = (x.setWidth w).toNat := (BitVec.toNat_setWidth w x).symm

/-- A result of w bits is an integer reduced to w bits. -/
theorem alu2_eq_sx {f : (w : Nat) → BitVec w → BitVec w → BitVec w} {n : Int} {h : Bool} {x y : Word}
    (hf : f (if h then 32 else 64) (x.setWidth _) (y.setWidth _) = BitVec.ofInt _ n) : alu2 f h x y = sx (if h then 32 else 64) n := by
  rw [alu2_eq, hf, sx]

/-- A two-operand form whose result is an integer function of its operands, reduced to w bits. -/
theorem alu2_of_int {mk : Guard → Bool → Reg → Src → Opd → Instr} {f : (w : Nat) → BitVec w → BitVec w → BitVec w}
    {n : Nat → Word → Word → Int} (he : ∀ g h d a b s, exec (mk g h d a b) s = runAlu s g d a b (alu2 f h))
    (hd : ∀ g h d a b, (mk g h d a b).operandsOk = aluOk d a b)
    (hf : ∀ w x y, f w (x.setWidth w) (y.setWidth w) = BitVec.ofInt w (n w x y)) :
    Alu2 mk (fun w x y r => r = sx w (n w x y)) :=
  alu2_of he (fun g h d a b hok => aluOk_scalarDest (hd g h d a b ▸ hok)) fun _ _ _ => alu2_eq_sx (hf _ _ _)

/-! ### Divisions -/

/-- R168: the divisor that DIVZ looks at. -/
theorem divisor_eq_zero_iff (h : Bool) (y : Word) :
    (if h then y.setWidth 32 == 0 else y == 0) = true ↔ uval (if h then 32 else 64) y = 0 := by
  rw [uval_eq]
  cases h with
  | false => simp [BitVec.toNat_eq]
  | true => simp [BitVec.toNat_eq]

theorem aluDiv_of {mk : Guard → Bool → Reg → Src → Opd → Instr} {f : (w : Nat) → BitVec w → BitVec w → BitVec w}
    {n : Nat → Word → Word → Int} (he : ∀ g h d a b s, exec (mk g h d a b) s = runDiv s g h d a b (alu2 f h))
    (hd : ∀ g h d a b, (mk g h d a b).operandsOk = (aluOk d a b && immNonzero b))
    (hf : ∀ w x y, f w (x.setWidth w) (y.setWidth w) = BitVec.ofInt w (n w x y)) : AluDiv mk (fun w x y => sx w (n w x y)) := by
  intro s g h d a b hwf hr
  have hok : (aluOk d a b && immNonzero b) = true := (hd g h d a b).symm.trans (operandsOk_of_wf hwf)
  refine ⟨fun hy => ?_, fun hy => traps_of (he g h d a b s) hr (if_pos ((divisor_eq_zero_iff h _).mpr hy))⟩
  dsimp only
  rw [← alu2_eq_sx (hf _ _ _)]
  exact completes_write (he g h d a b s) hr (if_neg (fun hz => hy ((divisor_eq_zero_iff h _).mp hz)))
    (aluOk_scalarDest (Bool.and_eq_true_iff.mp hok).1) rfl

/-! ### Operations of w bits as operations of integers -/

section
variable {w : Nat} (x y : BitVec w)

theorem sub_eq_ofInt : x - y = BitVec.ofInt w (x.toInt - y.toInt) := by
  rw [Int.sub_eq_add_neg, BitVec.ofInt_add, BitVec.ofInt_neg, BitVec.ofInt_toInt, BitVec.ofInt_toInt, BitVec.sub_eq_add_neg]

theorem sdiv_eq_ofInt : x.sdiv y = BitVec.ofInt w (x.toInt.tdiv y.toInt) := by
  rw [← BitVec.toInt_inj, BitVec.toInt_sdiv, BitVec.toInt_ofInt]

theorem srem_eq_ofInt : x.srem y = BitVec.ofInt w (x.toInt.tmod y.toInt) := by
  rw [← BitVec.toInt_srem, BitVec.ofInt_toInt]

theorem ofInt_toNat : BitVec.ofInt w x.toNat = x := by
  rw [BitVec.ofInt_natCast, BitVec.ofNat_toNat, BitVec.setWidth_eq]

end

section
variable {w : Nat} {val : BitVec w → Int} (hval : ∀ x, BitVec.ofInt w (val x) = x) {x y : BitVec w} {lt : Bool}
  (hlt : lt = decide (val x < val y))
include hval hlt

/-- The smaller of two operands, by an order on what they stand for. -/
theorem ite_eq_ofInt_min : (if lt then x else y) = BitVec.ofInt w (min (val x) (val y)) := by
  subst hlt
  by_cases h : val x < val y
  · rw [if_pos (decide_eq_true h), min_eq_left h.le, hval]
  · rw [if_neg (by simpa using h), min_eq_right (not_lt.mp h), hval]

theorem ite_eq_ofInt_max : (if lt then y else x) = BitVec.ofInt w (max (val x) (val y)) := by
  subst hlt
  by_cases h : val x < val y
  · rw [if_pos (decide_eq_true h), max_eq_right h.le, hval]
  · rw [if_neg (by simpa using h), max_eq_left (not_lt.mp h), hval]

end

theorem ult_eq_decide_cast {w : Nat} (x y : BitVec w) : x.ult y = decide ((x.toNat : Int) < y.toNat) := by
  rw [BitVec.ult_eq_decide, decide_eq_decide, Nat.cast_lt]

/-- Settles O1: each operation is the one on integers, reduced to the width. -/
theorem scalarArithmeticResults : Obligations.ScalarArithmeticResults := by
  unfold Obligations.ScalarArithmeticResults
  refine ⟨?add, ?sub, ?mul, ?mulh, ?mulhn, ?div, ?divn, ?rem, ?remn, ?min, ?max, ?minn, ?maxn⟩
  case add =>
    exact alu2_of_int (fun _ _ _ _ _ _ => rfl) (fun _ _ _ _ _ => rfl) fun w x y => by
      rw [sval, sval, BitVec.ofInt_add, BitVec.ofInt_toInt, BitVec.ofInt_toInt]
  case sub => exact alu2_of_int (fun _ _ _ _ _ _ => rfl) (fun _ _ _ _ _ => rfl) fun w x y => sub_eq_ofInt _ _
  case mul =>
    exact alu2_of_int (fun _ _ _ _ _ _ => rfl) (fun _ _ _ _ _ => rfl) fun w x y => by
      rw [sval, sval, BitVec.ofInt_mul, BitVec.ofInt_toInt, BitVec.ofInt_toInt]
  case mulh => exact alu2_of_int (fun _ _ _ _ _ _ => rfl) (fun _ _ _ _ _ => rfl) fun w x y => rfl
  case mulhn =>
    exact alu2_of_int (fun _ _ _ _ _ _ => rfl) (fun _ _ _ _ _ => rfl) fun w x y => by
      rw [mulHighN, BitVec.ofInt_natCast, uval_eq, uval_eq]
  case div => exact aluDiv_of (fun _ _ _ _ _ _ => rfl) (fun _ _ _ _ _ => rfl) fun w x y => sdiv_eq_ofInt _ _
  case divn =>
    exact aluDiv_of (fun _ _ _ _ _ _ => rfl) (fun _ _ _ _ _ => rfl) fun w x y => by
      rw [uval_eq, uval_eq, ← BitVec.toNat_udiv, ofInt_toNat]
  case rem => exact aluDiv_of (fun _ _ _ _ _ _ => rfl) (fun _ _ _ _ _ => rfl) fun w x y => srem_eq_ofInt _ _
  case remn =>
    exact aluDiv_of (fun _ _ _ _ _ _ => rfl) (fun _ _ _ _ _ => rfl) fun w x y => by
      rw [uval_eq, uval_eq, ← BitVec.toNat_umod, ofInt_toNat]
  case min =>
    exact alu2_of_int (fun _ _ _ _ _ _ => rfl) (fun _ _ _ _ _ => rfl) fun w x y =>
      ite_eq_ofInt_min (fun _ => BitVec.ofInt_toInt) (BitVec.slt_eq_decide ..)
  case max =>
    exact alu2_of_int (fun _ _ _ _ _ _ => rfl) (fun _ _ _ _ _ => rfl) fun w x y =>
      ite_eq_ofInt_max (fun _ => BitVec.ofInt_toInt) (BitVec.slt_eq_decide ..)
  case minn =>
    exact alu2_of_int (fun _ _ _ _ _ _ => rfl) (fun _ _ _ _ _ => rfl) fun w x y => by
      rw [uval_eq, uval_eq, Nat.cast_min]
      exact ite_eq_ofInt_min ofInt_toNat (ult_eq_decide_cast _ _)
  case maxn =>
    exact alu2_of_int (fun _ _ _ _ _ _ => rfl) (fun _ _ _ _ _ => rfl) fun w x y => by
      rw [uval_eq, uval_eq, Nat.cast_max]
      exact ite_eq_ofInt_max ofInt_toNat (ult_eq_decide_cast _ _)

end Sys2Proof.Machine
end

section
/-! Scalar bitwise operations and shifts (R168): each bit of the result (O2). -/

namespace Sys2Proof.Machine

/-! ### Results bit by bit -/

/-- R168: a result of w bits fills the word with copies of its top bit. -/
theorem extended_signExtend {w : Nat} (hw : w = 32 ∨ w = 64) {r : BitVec w} {p : Nat → Bool} (h : ∀ i, i < w → r.getLsbD i = p i) :
    Extended w (r.signExtend 64) p := by
  intro i hi
  rw [BitVec.getLsbD_signExtend, decide_eq_true hi, Bool.true_and, ← h (min i (w - 1)) (by omega)]
  by_cases hiw : i < w
  · rw [if_pos hiw, Nat.min_eq_left (by omega)]
  · rw [if_neg hiw, Nat.min_eq_right (by omega), BitVec.msb_eq_getLsbD_last]

theorem aluOk_and_scalarDest {d : Reg} {a : Src} {b : Opd} {c : Bool} (h : (aluOk d a b && c) = true) : Reg.scalarDest d = true :=
  aluOk_scalarDest (Bool.and_eq_true_iff.mp h).1

/-- A two-operand form whose result of w bits is given bit by bit. -/
theorem alu2_of_bits {mk : Guard → Bool → Reg → Src → Opd → Instr} {f : (w : Nat) → BitVec w → BitVec w → BitVec w}
    {p : Nat → Word → Word → Nat → Bool} (he : ∀ g h d a b s, exec (mk g h d a b) s = runAlu s g d a b (alu2 f h))
    (hd : ∀ g h d a b, (mk g h d a b).operandsOk = true → Reg.scalarDest d = true)
    (hbits : ∀ w x y i, i < w → (f w (x.setWidth w) (y.setWidth w)).getLsbD i = p w x y i) :
    Alu2 mk (fun w x y z => Extended w z (p w x y)) :=
  alu2_of he hd fun h x y => alu2_eq f h x y ▸ extended_signExtend (width_cases h) (hbits _ x y)

theorem shift_of_bits {mk : Guard → Bool → Reg → Src → Opd → Instr} {f : (w : Nat) → BitVec w → Nat → BitVec w}
    {p : Nat → Word → Word → Nat → Bool} (he : ∀ g h d a b s, exec (mk g h d a b) s = runAlu s g d a b (aluShift f h))
    (hd : ∀ g h d a b, (mk g h d a b).operandsOk = (aluOk d a b && immShift h b))
    (hbits : ∀ w x (y : Word) i, i < w → (f w (x.setWidth w) y.toNat).getLsbD i = p w x y i) :
    Alu2 mk (fun w x y z => Extended w z (p w x y)) :=
  alu2_of he (fun g h d a b hok => aluOk_and_scalarDest (hd g h d a b ▸ hok))
    fun h x y => aluShift_eq f h x y ▸ extended_signExtend (width_cases h) (hbits _ x y)

/-- R122: OR may also name pw. -/
theorem or_scalarDest {h : Bool} {d : Reg} {a : Src} {b : Opd} (hok : (aluOk d a b || orPwOk h d a b) = true) :
    Reg.scalarDest d = true := by
  rcases Bool.or_eq_true_iff.mp hok with hok | hok
  · exact aluOk_scalarDest hok
  · simp only [orPwOk, Bool.and_eq_true, Bool.or_eq_true] at hok
    obtain ⟨⟨-, hpw | hd⟩, -⟩ := hok
    · cases d with
      | pw => rfl
      | _ => cases hpw
    · exact aluD_scalarDest hd

/-! ### Shifts and rotation -/

theorem getLsbD_setWidth_of_lt {w i : Nat} (x : Word) (hi : i < w) : (x.setWidth w).getLsbD i = x.getLsbD i := by
  rw [BitVec.getLsbD_setWidth, decide_eq_true hi, Bool.true_and]

theorem getLsbD_shl {w i : Nat} (x : Word) (n : Nat) (hi : i < w) :
    (if n < w then x.setWidth w <<< n else 0).getLsbD i = (decide (n ≤ i) && x.getLsbD (i - n)) := by
  by_cases hn : n ≤ i
  · rw [if_pos (by omega), BitVec.getLsbD_shiftLeft, getLsbD_setWidth_of_lt x (by omega)]
    simp [hi, hn]
  · split_ifs <;> simp [hn, Nat.lt_of_not_le hn]

theorem getLsbD_shr {w i : Nat} (x : Word) (n : Nat) :
    (if n < w then x.setWidth w >>> n else 0).getLsbD i = (decide (i + n < w) && x.getLsbD (i + n)) := by
  by_cases hn : n < w
  · rw [if_pos hn, BitVec.getLsbD_ushiftRight, BitVec.getLsbD_setWidth, Nat.add_comm n i]
  · simp [hn, show ¬ i + n < w by omega]

/-- R168: a shift by the whole width leaves the sign. -/
theorem toInt_div_two_pow_width {w : Nat} (x : BitVec w) : x.toInt / 2 ^ w = if x.toInt < 0 then -1 else 0 := by
  have hlo := BitVec.le_two_mul_toInt (x := x)
  have hhi := BitVec.two_mul_toInt_lt (x := x)
  have hpos : (0 : Int) < 2 ^ w := by positivity
  split_ifs with hneg
  · exact (Int.ediv_eq_iff_of_pos hpos).mpr ⟨by omega, by omega⟩
  · exact Int.ediv_eq_zero_of_lt (by omega) (by omega)

theorem sshiftRight_eq_ofInt {w : Nat} (x : BitVec w) (n : Nat) :
    x.sshiftRight (min n w) = BitVec.ofInt w (if n < w then x.toInt / 2 ^ n else if x.toInt < 0 then -1 else 0) := by
  rw [BitVec.sshiftRight, Int.shiftRight_eq_div_pow, Nat.cast_pow, Nat.cast_ofNat]
  by_cases hn : n < w
  · rw [if_pos hn, Nat.min_eq_left hn.le]
  · rw [if_neg hn, Nat.min_eq_right (not_lt.mp hn), toInt_div_two_pow_width]

/-- R168: bit `i` of a word rotated left by `k`. -/
theorem getLsbD_rot {w i : Nat} (x : Word) {k : Nat} (hk : k < w) (hi : i < w) :
    ((x.setWidth w <<< k) ||| (x.setWidth w >>> (w - k))).getLsbD i = x.getLsbD ((i + w - k) % w) := by
  rw [BitVec.getLsbD_or, BitVec.getLsbD_shiftLeft, BitVec.getLsbD_ushiftRight]
  by_cases hik : k ≤ i
  · rw [show (i + w - k) % w = i - k by rw [show i + w - k = i - k + w by omega, Nat.add_mod_right, Nat.mod_eq_of_lt (by omega)],
      getLsbD_setWidth_of_lt x (show i - k < w by omega), BitVec.getLsbD_of_ge _ (w - k + i) (by omega)]
    simp [hi, hik]
  · rw [Nat.mod_eq_of_lt (by omega), show w - k + i = i + w - k by omega, getLsbD_setWidth_of_lt x (show i + w - k < w by omega)]
    simp [Nat.lt_of_not_le hik]

/-- Settles O2: each bit of the operation of w bits. -/
theorem scalarBitwiseAndShiftResults : Obligations.ScalarBitwiseAndShiftResults := by
  unfold Obligations.ScalarBitwiseAndShiftResults
  refine ⟨?and, ?or, ?xor, ?andn, ?shl, ?shr, ?sar, ?rot⟩
  case and =>
    exact alu2_of_bits (fun _ _ _ _ _ _ => rfl) (fun _ _ _ _ _ => aluOk_scalarDest) fun w x y i hi => by
      rw [BitVec.getLsbD_and, getLsbD_setWidth_of_lt x hi, getLsbD_setWidth_of_lt y hi]
  case or =>
    exact alu2_of_bits (fun _ _ _ _ _ _ => rfl) (fun _ _ _ _ _ => or_scalarDest) fun w x y i hi => by
      rw [BitVec.getLsbD_or, getLsbD_setWidth_of_lt x hi, getLsbD_setWidth_of_lt y hi]
  case xor =>
    exact alu2_of_bits (fun _ _ _ _ _ _ => rfl) (fun _ _ _ _ _ => aluOk_scalarDest) fun w x y i hi => by
      rw [BitVec.getLsbD_xor, getLsbD_setWidth_of_lt x hi, getLsbD_setWidth_of_lt y hi]
  case andn =>
    exact alu2_of_bits (fun _ _ _ _ _ _ => rfl) (fun _ _ _ _ _ => aluOk_scalarDest) fun w x y i hi => by
      rw [BitVec.getLsbD_and, BitVec.getLsbD_not, getLsbD_setWidth_of_lt x hi, getLsbD_setWidth_of_lt y hi, decide_eq_true hi,
        Bool.true_and]
  case shl =>
    exact shift_of_bits (fun _ _ _ _ _ _ => rfl) (fun _ _ _ _ _ => rfl)
      fun w x y i hi => getLsbD_shl x y.toNat hi
  case shr =>
    exact shift_of_bits (fun _ _ _ _ _ _ => rfl) (fun _ _ _ _ _ => rfl)
      fun w x y i _ => getLsbD_shr x y.toNat
  case sar =>
    exact alu2_of (fun _ _ _ _ _ _ => rfl) (fun _ _ _ _ _ => aluOk_and_scalarDest) fun h x y => by
      rw [aluShift_eq, sshiftRight_eq_ofInt]; rfl
  case rot =>
    exact shift_of_bits (fun _ _ _ _ _ _ => rfl) (fun _ _ _ _ _ => rfl)
      fun w x y i hi => getLsbD_rot x (Nat.mod_lt _ (by omega)) hi

end Sys2Proof.Machine
end

section
/-! Counts and reversals (R168): each bit of the result, or its number (O3). -/

namespace Sys2Proof.Machine

/-! ### Counts -/

/-- A number of at most w keeps its value when w bits of it fill a word. -/
theorem signExtend_ofNat_of_le {w n : Nat} (hw : w = 32 ∨ w = 64) (hn : n ≤ w) :
    (BitVec.ofNat w n).signExtend 64 = BitVec.ofNat 64 n := by
  rcases hw with rfl | rfl
  · have hmod : n % 2 ^ 32 = n := Nat.mod_eq_of_lt (by omega)
    rw [BitVec.signExtend_eq_setWidth_of_msb_false (BitVec.msb_eq_false_iff_two_mul_lt.mpr (by rw [BitVec.toNat_ofNat, hmod]; omega)),
      ← BitVec.ofNat_toNat, BitVec.toNat_ofNat, hmod]
  · exact BitVec.signExtend_eq _

/-- A one-operand form whose result is a count `c` of the bits of its operand. -/
theorem alu1_of_count {mk : Guard → Bool → Reg → Src → Instr} {c : (w : Nat) → BitVec w → Nat} {rel : Nat → Word → Nat → Prop}
    (he : ∀ g h d a s, exec (mk g h d a) s = runAlu1 s g d a (alu1 (fun w x => BitVec.ofNat w (c w x)) h))
    (hd : ∀ g h d a, (mk g h d a).operandsOk = (aluD d && aluS a)) (hle : ∀ w x, c w x ≤ w)
    (hrel : ∀ w x, rel w x (c w (x.setWidth w))) :
    Alu1 mk (fun w x z => ∃ n, n ≤ w ∧ z = BitVec.ofNat 64 n ∧ rel w x n) :=
  alu1_of he (fun g h d a hok => aluD_scalarDest (Bool.and_eq_true_iff.mp (hd g h d a ▸ hok)).1) fun h x =>
    ⟨_, hle _ _, by rw [alu1_eq, signExtend_ofNat_of_le (width_cases h) (hle _ _)], hrel _ x⟩

/-- The number of leading zero bits. -/
def leadingZeros (w : Nat) (x : BitVec w) : Nat := if x.toNat = 0 then w else w - 1 - x.toNat.log2

theorem leadingZeros_le (w : Nat) (x : BitVec w) : leadingZeros w x ≤ w := by
  unfold leadingZeros
  split_ifs <;> omega

theorem getLsbD_leadingZeros (w : Nat) (x : Word) :
    let n := leadingZeros w (x.setWidth w)
    (∀ i, i < n → x.getLsbD (w - 1 - i) = false) ∧ (n < w → x.getLsbD (w - 1 - n) = true) := by
  have hbit (i : Nat) (hi : i < w) : x.getLsbD i = (x.setWidth w).toNat.testBit i := by
    rw [BitVec.testBit_toNat, getLsbD_setWidth_of_lt x hi]
  have hlt := (x.setWidth w).isLt
  unfold leadingZeros
  generalize (x.setWidth w).toNat = m at hbit hlt
  by_cases h0 : m = 0
  · subst h0
    rw [if_pos rfl]
    exact ⟨fun i hi => by rw [hbit _ (by omega), Nat.zero_testBit], fun h => absurd h (lt_irrefl w)⟩
  · have hlog : m.log2 < w := (Nat.log2_lt h0).mpr hlt
    rw [if_neg h0]
    refine ⟨fun i hi => ?_, fun _ => ?_⟩
    · rw [hbit _ (by omega)]
      exact Nat.testBit_lt_two_pow (lt_of_lt_of_le Nat.lt_log2_self (Nat.pow_le_pow_right (by decide) (by omega)))
    · rw [hbit _ (by omega), show w - 1 - (w - 1 - m.log2) = m.log2 by omega]
      exact Nat.testBit_log2 h0

/-- The number of trailing zero bits. -/
def trailingZeros (w : Nat) (x : BitVec w) : Nat := ((List.range w).find? x.getLsbD).getD w

/-- The first one bit, or the width. -/
theorem trailingZeros_spec (w : Nat) (x : BitVec w) :
    trailingZeros w x ≤ w ∧ (∀ i, i < trailingZeros w x → x.getLsbD i = false) ∧
      (trailingZeros w x < w → x.getLsbD (trailingZeros w x) = true) := by
  unfold trailingZeros
  cases h : (List.range w).find? x.getLsbD with
  | none => exact ⟨le_rfl, by simpa using h, fun hlt => absurd hlt (lt_irrefl w)⟩
  | some n =>
    obtain ⟨hn, hmem, hfirst⟩ := List.find?_range_eq_some.mp h
    exact ⟨(List.mem_range.mp hmem).le, by simpa using hfirst, fun _ => hn⟩

theorem getLsbD_trailingZeros (w : Nat) (x : Word) :
    let n := trailingZeros w (x.setWidth w)
    (∀ i, i < n → x.getLsbD i = false) ∧ (n < w → x.getLsbD n = true) := by
  obtain ⟨hle, hzero, hone⟩ := trailingZeros_spec w (x.setWidth w)
  refine ⟨fun i hi => ?_, fun hlt => ?_⟩
  · rw [← getLsbD_setWidth_of_lt x (by omega : i < w), hzero i hi]
  · rw [← getLsbD_setWidth_of_lt x hlt, hone hlt]

theorem popc_eq_countP (w : Nat) (x : Word) :
    ((List.range w).filter (x.setWidth w).getLsbD).length = (List.range w).countP x.getLsbD := by
  rw [← List.countP_eq_length_filter]
  exact List.countP_congr fun i hi => by rw [getLsbD_setWidth_of_lt x (List.mem_range.mp hi)]

/-! ### Reversals -/

/-- Digits of `c` bits, the first one highest. -/
theorem testBit_foldl_digits {c : Nat} (hc : 0 < c) {dig : Nat → Nat} (hdig : ∀ i, dig i < 2 ^ c) (k j : Nat) :
    ((List.range k).foldl (fun n i => n * 2 ^ c + dig i) 0).testBit j = (decide (j < c * k) && (dig (k - 1 - j / c)).testBit (j % c)) := by
  induction k generalizing j with
  | zero => simp
  | succ k ih =>
    rw [List.range_succ, List.foldl_append, List.foldl_cons, List.foldl_nil, Nat.mul_comm,
      Nat.testBit_two_pow_mul_add _ (hdig k), Nat.mul_succ]
    by_cases hj : j < c
    · rw [if_pos hj, Nat.div_eq_of_lt hj, Nat.mod_eq_of_lt hj, decide_eq_true (by omega), Bool.true_and, Nat.add_sub_cancel, Nat.sub_zero]
    · have hdiv : j / c = (j - c) / c + 1 := Nat.div_eq_sub_div hc (by omega)
      rw [if_neg hj, ih, hdiv, Nat.mod_eq_sub_mod (by omega : c ≤ j), show k + 1 - 1 - ((j - c) / c + 1) = k - 1 - (j - c) / c by omega]
      exact congrArg (· && _) (decide_eq_decide.mpr (by omega))

theorem getLsbD_brev {w i : Nat} (x : Word) (hi : i < w) : (brev w (x.setWidth w)).getLsbD i = x.getLsbD (w - 1 - i) := by
  have h := testBit_foldl_digits (c := 1) one_pos (dig := fun i => if (x.setWidth w).getLsbD i then 1 else 0)
    (fun i => by split_ifs <;> decide) w i
  rw [brev, BitVec.getLsbD_ofNat, decide_eq_true hi, Bool.true_and]
  refine h.trans ?_
  rw [one_mul, decide_eq_true hi, Bool.true_and, Nat.div_one, Nat.mod_one, getLsbD_setWidth_of_lt x (by omega)]
  cases x.getLsbD (w - 1 - i) <;> rfl

theorem getLsbD_bswp {w i : Nat} (hw : 8 ∣ w) (x : Word) (hi : i < w) :
    (bswp w (x.setWidth w)).getLsbD i = x.getLsbD (w - 8 - i / 8 * 8 + i % 8) := by
  have h := testBit_foldl_digits (c := 8) (by decide) (dig := fun i => (x.setWidth w).toNat / 256 ^ i % 256)
    (fun i => Nat.mod_lt _ (by decide)) (w / 8) i
  obtain ⟨k, rfl⟩ := hw
  rw [bswp, BitVec.getLsbD_ofNat, decide_eq_true hi, Bool.true_and]
  refine h.trans ?_
  rw [Nat.mul_div_cancel_left k (by decide), decide_eq_true hi, Bool.true_and, show (256 : Nat) = 2 ^ 8 from rfl, ← pow_mul,
    Nat.testBit_mod_two_pow, Nat.testBit_div_two_pow, decide_eq_true (Nat.mod_lt i (by decide)), Bool.true_and, BitVec.testBit_toNat,
    getLsbD_setWidth_of_lt x (by omega)]
  congr 1
  omega

theorem alu1_of_bits {mk : Guard → Bool → Reg → Src → Instr} {f : (w : Nat) → BitVec w → BitVec w} {p : Nat → Word → Nat → Bool}
    (he : ∀ g h d a s, exec (mk g h d a) s = runAlu1 s g d a (alu1 f h))
    (hd : ∀ g h d a, (mk g h d a).operandsOk = (aluD d && aluS a))
    (hbits : ∀ w x i, w = 32 ∨ w = 64 → i < w → (f w (x.setWidth w)).getLsbD i = p w x i) :
    Alu1 mk (fun w x z => Extended w z (p w x)) :=
  alu1_of he (fun g h d a hok => aluD_scalarDest (Bool.and_eq_true_iff.mp (hd g h d a ▸ hok)).1) fun h x =>
    alu1_eq f h x ▸ extended_signExtend (width_cases h) fun i hi => hbits _ x i (width_cases h) hi

theorem clz_alu1 : Alu1 .clz (fun w a x => ∃ n, n ≤ w ∧ x = BitVec.ofNat 64 n ∧ (∀ i, i < n → a.getLsbD (w - 1 - i) = false) ∧
    (n < w → a.getLsbD (w - 1 - n) = true)) :=
  alu1_of_count (fun _ _ _ _ _ => rfl) (fun _ _ _ _ => rfl) leadingZeros_le getLsbD_leadingZeros

theorem ctz_alu1 : Alu1 .ctz (fun w a x => ∃ n, n ≤ w ∧ x = BitVec.ofNat 64 n ∧ (∀ i, i < n → a.getLsbD i = false) ∧
    (n < w → a.getLsbD n = true)) :=
  alu1_of_count (fun _ _ _ _ _ => rfl) (fun _ _ _ _ => rfl) (fun w x => (trailingZeros_spec w x).1) getLsbD_trailingZeros

theorem popc_alu1 : Alu1 .popc (fun w a x => x = BitVec.ofNat 64 ((List.range w).countP a.getLsbD)) :=
  alu1_of (fun _ _ _ _ _ => rfl) (fun _ _ _ _ hok => aluD_scalarDest (Bool.and_eq_true_iff.mp hok).1) fun h x => by
    rw [alu1_eq, popc, popc_eq_countP, signExtend_ofNat_of_le (width_cases h) (List.countP_le_length.trans_eq List.length_range)]

theorem brev_alu1 : Alu1 .brev (fun w a x => Extended w x (fun i => a.getLsbD (w - 1 - i))) :=
  alu1_of_bits (fun _ _ _ _ _ => rfl) (fun _ _ _ _ => rfl) fun _ x _ _ hi => getLsbD_brev x hi

theorem bswp_alu1 : Alu1 .bswp (fun w a x => Extended w x (fun i => a.getLsbD (w - 8 - i / 8 * 8 + i % 8))) :=
  alu1_of_bits (fun _ _ _ _ _ => rfl) (fun _ _ _ _ => rfl) fun _ x _ hw hi => getLsbD_bswp (by omega) x hi

end Sys2Proof.Machine
end

section
/-! EXT, DEP, SEL, LEA, MOVW and MOVH (R169 to R172), and with the counts and reversals O3. -/

namespace Sys2Proof.Machine

section
variable (g : Guard) (h sg : Bool) (fl : BitVec 3) (d : Reg) (a b c : Src) (o : Opd) (m : MemOp) (s : State)

theorem exec_ext : exec (.ext g h sg d a o) s = execExt g h sg d a o s := rfl
theorem exec_dep : exec (.dep g h d a b c) s = execDep g h d a b c s := rfl
theorem exec_sel : exec (.sel g h sg fl d a o) s = execSel g h sg fl d a o s := rfl
theorem exec_lea : exec (.lea g h d m) s = execLea g h d m s := rfl
theorem exec_movw (imm : BitVec 42) : exec (.movw g d imm) s = execMovw g d imm s := rfl
theorem exec_movh (imm : BitVec 22) : exec (.movh g d imm) s = execMovh g d imm s := rfl

end

/-! ### Fields (R169) -/

/-- A field of `n` bits as a signed number, in w bits. -/
theorem getLsbD_ofInt_sub_two_pow {w f n i : Nat} (hf : f < 2 ^ n) (hi : i < w) :
    (BitVec.ofInt w ((f : Int) - 2 ^ n)).getLsbD i = if i < n then f.testBit i else true := by
  have hneg : (f : Int) - 2 ^ n = Int.negSucc (2 ^ n - (f + 1)) := by
    have hcast : ((2 ^ n : Nat) : Int) = 2 ^ n := by norm_cast
    omega
  rw [hneg, BitVec.ofInt_negSucc_eq_not_ofNat, BitVec.getLsbD_not, BitVec.getLsbD_ofNat, Nat.testBit_two_pow_sub_succ hf]
  split_ifs with h <;> simp [hi, h]

/-- R169: the position and the length of a control word. -/
theorem field_pos (k : Word) : (k.extractLsb' 0 6).toNat = k.toNat % 64 := by
  rw [BitVec.extractLsb'_toNat, Nat.shiftRight_zero]

theorem field_len (k : Word) : (k.extractLsb' 8 7).toNat = k.toNat / 256 % 128 := by
  rw [BitVec.extractLsb'_toNat, Nat.shiftRight_eq_div_pow]

/-- R169: EXT bit by bit; above its field stand zeros or copies of the field's top bit. -/
theorem getLsbD_extField {w i : Nat} (sg : Bool) (x k : Word) (hi : i < w) :
    let pos := k.toNat % 64
    let len := min (k.toNat / 256 % 128) 64
    let at_ := fun i => decide (pos + i < w) && x.getLsbD (pos + i)
    (extField w sg (x.setWidth w) k).getLsbD i = if i < len then at_ i else sg && decide (0 < len) && at_ (len - 1) := by
  intro pos len at_
  have hat (j : Nat) (hj : j < len) : ((x.setWidth w).toNat / 2 ^ pos % 2 ^ len).testBit j = at_ j := by
    rw [Nat.testBit_mod_two_pow, Nat.testBit_div_two_pow, decide_eq_true hj, Bool.true_and, BitVec.testBit_toNat, BitVec.getLsbD_setWidth,
      Nat.add_comm j pos]
  have hlt : (x.setWidth w).toNat / 2 ^ pos % 2 ^ len < 2 ^ len := Nat.mod_lt _ (Nat.two_pow_pos _)
  have hzero (hlen : len ≤ i) : ((x.setWidth w).toNat / 2 ^ pos % 2 ^ len).testBit i = false :=
    Nat.testBit_lt_two_pow (lt_of_lt_of_le hlt (Nat.pow_le_pow_right (by decide) hlen))
  generalize hf : (x.setWidth w).toNat / 2 ^ pos % 2 ^ len = f at hat hlt hzero
  have hext : extField w sg (x.setWidth w) k =
      if sg && decide (0 < len) && f.testBit (len - 1) then BitVec.ofInt w ((f : Int) - 2 ^ len) else BitVec.ofNat w f := by
    rw [← hf, extField, field_pos, field_len]
  have hsign : (sg && decide (0 < len) && f.testBit (len - 1)) = (sg && decide (0 < len) && at_ (len - 1)) := by
    by_cases hlen : 0 < len
    · rw [hat _ (by omega)]
    · simp [hlen]
  rw [hext, hsign]
  by_cases hi' : i < len
  · rw [if_pos hi', ← hat i hi']
    split_ifs
    · rw [getLsbD_ofInt_sub_two_pow hlt hi, if_pos hi']
    · rw [BitVec.getLsbD_ofNat, decide_eq_true hi, Bool.true_and]
  · rw [if_neg hi']
    split_ifs with htop
    · rw [getLsbD_ofInt_sub_two_pow hlt hi, if_neg hi', htop]
    · rw [BitVec.getLsbD_ofNat, hzero (not_lt.mp hi'), Bool.and_false, Bool.eq_false_of_not_eq_true htop]

/-- R169: DEP bit by bit. -/
theorem getLsbD_depField {w i : Nat} (x y k : Word) (hi : i < w) :
    let pos := k.toNat % 64
    let len := min (k.toNat / 256 % 128) 64
    (depField w (x.setWidth w) (y.setWidth w) k).getLsbD i = if pos ≤ i ∧ i < pos + len then y.getLsbD (i - pos) else x.getLsbD i := by
  intro pos len
  have hmask : (BitVec.ofNat w ((2 ^ len - 1) * 2 ^ pos)).getLsbD i = decide (pos ≤ i ∧ i < pos + len) := by
    rw [BitVec.getLsbD_ofNat, decide_eq_true hi, Bool.true_and, Nat.testBit_mul_two_pow, Nat.testBit_two_pow_sub_one, Bool.decide_and]
    by_cases h : pos ≤ i
    · exact congrArg _ (decide_eq_decide.mpr (by omega))
    · simp [h]
  rw [depField, field_pos, field_len]
  change ((_ &&& ~~~ BitVec.ofNat w ((2 ^ len - 1) * 2 ^ pos)) ||| (_ &&& BitVec.ofNat w ((2 ^ len - 1) * 2 ^ pos))).getLsbD i = _
  rw [BitVec.getLsbD_or, BitVec.getLsbD_and, BitVec.getLsbD_and, BitVec.getLsbD_not, hmask, getLsbD_setWidth_of_lt x hi,
    BitVec.getLsbD_shiftLeft, getLsbD_setWidth_of_lt y (by omega : i - pos < w)]
  by_cases h : pos ≤ i ∧ i < pos + len
  · rw [decide_eq_true h, if_pos h, decide_eq_true hi, decide_eq_false (not_lt.mpr h.1)]; simp
  · rw [decide_eq_false h, if_neg h, decide_eq_true hi]; simp

/-! ### Words as integers -/

theorem setWidth_ofInt {w : Nat} (hw : w ≤ 64) (n : Int) : (BitVec.ofInt 64 n).setWidth w = BitVec.ofInt w n := by
  rw [← BitVec.signExtend_eq_setWidth_of_le _ hw, ← BitVec.toInt_inj, BitVec.toInt_signExtend_eq_toInt_bmod_of_le _ hw, BitVec.toInt_ofInt,
    BitVec.toInt_ofInt, Int.bmod_bmod_of_dvd (Nat.pow_dvd_pow 2 hw)]

/-- R168: a word of w bits, sign-extended. -/
theorem alu1_id_ofInt (h : Bool) (n : Int) : alu1 (fun _ x => x) h (BitVec.ofInt 64 n) = sx (if h then 32 else 64) n := by
  rw [alu1_eq, setWidth_ofInt (by cases h <;> decide), sx]

/-- R20: an effective address as an integer, modulo 2^64. -/
theorem ea_eq_ofInt (t : Thread) (m : MemOp) : MemOp.ea t m =
    BitVec.ofInt 64 ((t.reg m.base.reg).toInt + (t.reg m.index.reg).toInt * 2 ^ m.sc.toNat + m.disp.toInt) := by
  have hpow : BitVec.ofInt 64 (2 ^ m.sc.toNat) = BitVec.twoPow 64 m.sc.toNat := by
    rw [show (2 : Int) ^ m.sc.toNat = (2 ^ m.sc.toNat : Nat) by norm_cast, BitVec.ofInt_natCast]
    exact BitVec.eq_of_toNat_eq (by rw [BitVec.toNat_ofNat, BitVec.toNat_twoPow])
  rw [BitVec.ofInt_add, BitVec.ofInt_add, BitVec.ofInt_mul, BitVec.ofInt_toInt, BitVec.ofInt_toInt, hpow, ← BitVec.shiftLeft_eq_mul_twoPow]
  rfl

/-- R172: MOVH replaces the high 22 bits. -/
theorem append_low_eq (i : BitVec 22) (x : Word) : i ++ x.extractLsb' 0 42 = BitVec.ofNat 64 (i.toNat * 2 ^ 42 + x.toNat % 2 ^ 42) := by
  have hlow : x.toNat % 2 ^ 42 < 2 ^ 42 := Nat.mod_lt _ (by decide)
  have hlt : i.toNat * 2 ^ 42 + x.toNat % 2 ^ 42 < 2 ^ 64 := by omega
  refine BitVec.eq_of_toNat_eq ?_
  rw [BitVec.toNat_append, BitVec.extractLsb'_toNat, Nat.shiftRight_zero, ← Nat.shiftLeft_add_eq_or_of_lt hlow, Nat.shiftLeft_eq,
    BitVec.toNat_ofNat, Nat.mod_eq_of_lt hlt]

/-! ### The instructions -/

section
variable {s : State} {g : Guard} {h : Bool} {d : Reg}

theorem ext_completes {sg : Bool} {a : Src} {b : Opd} (hwf : (Instr.ext g h sg d a b).wf = true)
    (hr : s.runs g (aluNeed d (a :: Opd.srcs b)) = true) :
    Completes (.ext g h sg d a b) s (s.out (a :: Opd.srcs b) d
      ((extField (if h then 32 else 64) sg ((s.me.reg a.reg).setWidth _) (Opd.val s.me b)).signExtend 64)) := by
  rw [← alu1_eq (fun w x => extField w sg x (Opd.val s.me b))]
  exact completes_runAlu (exec_ext g h sg d a b s) hr (aluOk_and_scalarDest (operandsOk_of_wf hwf))

theorem dep_completes {a b c : Src} (hwf : (Instr.dep g h d a b c).wf = true) (hr : s.runs g (aluNeed d [a, b, c]) = true) :
    Completes (.dep g h d a b c) s (s.out [a, b, c] d
      ((depField (if h then 32 else 64) ((s.me.reg a.reg).setWidth _) ((s.me.reg b.reg).setWidth _) (s.me.reg c.reg)).signExtend 64)) := by
  have hok : (aluD d && aluS a && aluS b && aluS c) = true := operandsOk_of_wf hwf
  simp only [Bool.and_eq_true, and_assoc] at hok
  rw [← alu2_eq (fun w x y => depField w x y (s.me.reg c.reg))]
  exact completes_write (exec_dep ..) hr rfl (aluD_scalarDest hok.1) rfl

theorem sel_completes {neg : Bool} {fl : BitVec 3} {a : Src} {b : Opd} (hwf : (Instr.sel g h neg fl d a b).wf = true)
    (hr : s.runs g (aluNeed d (a :: Opd.srcs b)) = true) :
    Completes (.sel g h neg fl d a b) s (s.out (a :: Opd.srcs b) d
      (sx (if h then 32 else 64) ((if s.me.flag fl = !neg then s.me.reg a.reg else Opd.val s.me b).toInt))) := by
  have hcond : (s.me.flag fl = !neg) = ((s.me.flag fl != neg) = true) := by
    cases s.me.flag fl <;> cases neg <;> decide
  rw [← alu1_id_ofInt, BitVec.ofInt_toInt]
  simp only [hcond]
  exact completes_write (exec_sel ..) hr rfl (aluOk_scalarDest (operandsOk_of_wf hwf)) rfl

theorem lea_completes {m : MemOp} (hwf : (Instr.lea g h d m).wf = true) (hr : s.runs g (aluNeed d [m.base, m.index]) = true) :
    Completes (.lea g h d m) s (s.out [m.base, m.index] d (sx (if h then 32 else 64)
      ((s.me.reg m.base.reg).toInt + (s.me.reg m.index.reg).toInt * 2 ^ m.sc.toNat + m.disp.toInt))) := by
  have hok : (gz d && memOk m && m.sp == 0) = true := operandsOk_of_wf hwf
  simp only [Bool.and_eq_true, and_assoc] at hok
  rw [← alu1_id_ofInt, ← ea_eq_ofInt]
  exact completes_write (exec_lea ..) hr rfl (gz_scalarDest hok.1) rfl

end

/-- Settles O3: the counts and reversals bit by bit, the fields bit by bit, and the rest as one write. -/
theorem scalarCountReverseFieldAndAddressResults : Obligations.ScalarCountReverseFieldAndAddressResults := by
  unfold Obligations.ScalarCountReverseFieldAndAddressResults
  refine ⟨⟨clz_alu1, ctz_alu1, popc_alu1, brev_alu1, bswp_alu1⟩, fun s g h sg d a b hwf hr => ?ext, fun s g h d a b c hwf hr => ?dep,
    fun s g h neg fl d a b hwf hr => sel_completes hwf hr, fun s g h d m hwf hr => lea_completes hwf hr,
    fun s g d imm hwf hr => ?movw, fun s g d imm hwf hr => ?movh⟩
  case ext => exact ⟨_, ext_completes hwf hr, extended_signExtend (width_cases h) fun i hi => getLsbD_extField sg _ _ hi⟩
  case dep => exact ⟨_, dep_completes hwf hr, extended_signExtend (width_cases h) fun i hi => getLsbD_depField _ _ _ hi⟩
  case movw => exact completes_write (exec_movw ..) hr rfl (gz_scalarDest (operandsOk_of_wf hwf)) rfl
  case movh =>
    rw [← append_low_eq]
    exact completes_write (exec_movh ..) hr rfl (gz_scalarDest (operandsOk_of_wf hwf)) rfl

end Sys2Proof.Machine
end

section
/-! Comparison, flags and the fields of pw (R173 to R175) (O4). -/

namespace Sys2Proof.Machine

section
variable (g : Guard) (cc : ICond) (op : FlopOp) (f : PwField) (fd fx fy : BitVec 3) (nx ny : Bool) (d : Reg) (a : Src) (b : Opd)
  (s : State)

theorem exec_cmp : exec (.cmp g cc fd a b) s = execCmp g cc fd a b s := rfl
theorem exec_flop : exec (.flop g op fd nx fx ny fy) s = execFlop g op fd nx fx ny fy s := rfl
theorem exec_pwrd : exec (.pwrd g f d) s = execPwrd g f d s := rfl
theorem exec_pwwr : exec (.pwwr g f a) s = execPwwr g f a s := rfl

end

/-! ### Flags -/

/-- R173: an instruction whose effect is one write of a flag. -/
theorem completes_setFlag {i : Instr} {s : State} {g : Guard} {srcs : List Src} {f : State → Thread → Res} {fd : BitVec 3} {c : Bool}
    (he : exec i s = run s g (aluNeed .z srcs) f) (hr : s.runs g (aluNeed .z srcs) = true)
    (hf : f s s.me = .ok (s.setFlag s.cur fd c)) : Completes i s (s.outPw srcs (pwFlag s.me.pw fd c)) :=
  completes_ok he hr hf ((State.Wrote.refl s).setFlag (by simp) fd c) (.inr rfl) (.inr rfl)

theorem beq_eq_decide_toNat {w : Nat} (x y : BitVec w) : (x == y) = decide (x.toNat = y.toNat) :=
  decide_eq_decide.mpr BitVec.toNat_inj.symm

theorem bne_eq_decide_toNat {w : Nat} (x y : BitVec w) : (x != y) = decide (x.toNat ≠ y.toNat) := by
  rw [bne, beq_eq_decide_toNat, decide_not]

theorem not_decide_lt {α : Type} [LinearOrder α] (x y : α) : (!decide (x < y)) = decide (y ≤ x) := by
  rw [← decide_not, decide_eq_decide, not_lt]

/-! ### Fields of pw (R175) -/

/-- An update of pw by itself. -/
theorem State.Wrote.modPw {s t : State} {o : Out} (h : s.Wrote t o) (ho : o.reg ≠ .pw) (f : BitVec 32 → BitVec 32) :
    s.Wrote (t.modThread s.cur (fun x => { x with pw := f x.pw })) { o with pw := f o.pw } := by
  have hpw : (t.thread s.cur).pw = o.pw := h.pw.trans (if_neg ho)
  refine h.thread _ _ h.g h.v h.m (fun r => ?_) ?_ h.rnd h.retired h.marks ?_
  · rw [← h.full r]; cases r <;> rfl
  · rw [if_neg ho, hpw]
  · have hmask := h.mask
    simpa [Thread.mask] using hmask

/-- R175: a field of pw, right-aligned. -/
theorem setWidth_extractLsb'_eq_ofNat (pw : BitVec 32) (k n : Nat) :
    (pw.extractLsb' k n).setWidth 64 = BitVec.ofNat 64 (pw.toNat / 2 ^ k % 2 ^ n) := by
  rw [← BitVec.ofNat_toNat, BitVec.extractLsb'_toNat, Nat.shiftRight_eq_div_pow]

/-- R175: the bits under a mask are replaced by those of the source, shifted into place. -/
theorem getLsbD_replaced {pw m : BitVec 32} {x : Word} {sh i : Nat} {P : Prop} [Decidable P] (hm : m.getLsbD i = decide P)
    (hsh : P → sh ≤ i) (hi : i < 32) :
    ((pw &&& ~~~m) ||| ((x.setWidth 32 <<< sh) &&& m)).getLsbD i = if P then x.getLsbD (i - sh) else pw.getLsbD i := by
  rw [BitVec.getLsbD_or, BitVec.getLsbD_and, BitVec.getLsbD_and, BitVec.getLsbD_not, hm, decide_eq_true hi, BitVec.getLsbD_shiftLeft,
    getLsbD_setWidth_of_lt x (by omega : i - sh < 32)]
  by_cases hP : P
  · rw [if_pos hP, decide_eq_true hP, decide_eq_true hi, decide_eq_false (not_lt.mpr (hsh hP))]; simp
  · rw [if_neg hP, decide_eq_false hP]; simp

/-- R122, R175: the fields that PWWR may write. -/
theorem getLsbD_pwMasks {i : Nat} (hi : i < 32) :
    (0xFE : BitVec 32).getLsbD i = decide (1 ≤ i ∧ i ≤ 7) ∧ (0x700 : BitVec 32).getLsbD i = decide (8 ≤ i ∧ i ≤ 10) ∧
      (0x1F0000 : BitVec 32).getLsbD i = decide (16 ≤ i ∧ i ≤ 20) ∧ (0xE00000 : BitVec 32).getLsbD i = decide (21 ≤ i ∧ i ≤ 23) ∧
      pwMask.getLsbD i = decide ((1 ≤ i ∧ i ≤ 10) ∨ (16 ≤ i ∧ i ≤ 23)) := by
  decide +revert

/-- Settles O4: each instruction writes one flag, one field of pw, or one register. -/
theorem flagAndPwResults : Obligations.FlagAndPwResults := by
  unfold Obligations.FlagAndPwResults
  refine ⟨fun s g cc fd a b _ hr => ?cmp, fun s g op fd nx fx ny fy _ hr => ?flop, fun s g f d hwf hr => ?pwrd,
    fun s g f a hwf hr => ?pwwr⟩
  case cmp =>
    refine ⟨_, completes_setFlag (exec_cmp g cc fd a b s) hr rfl, fun i hi => ?_⟩
    rw [getLsbD_pwFlag _ _ _ hi]
    generalize s.me.reg a.reg = x
    generalize Opd.val s.me b = y
    refine if_congr Iff.rfl ?_ rfl
    cases cc with
    | eq => exact beq_eq_decide_toNat x y
    | ne => exact bne_eq_decide_toNat x y
    | lt | gt | ltn | gtn => rfl
    | ge | le | gen | len => exact not_decide_lt _ _
    | tst => exact bne_eq_decide_toNat (x &&& y) 0
    | ntst => exact beq_eq_decide_toNat (x &&& y) 0
  case flop =>
    refine ⟨_, completes_setFlag (exec_flop g op fd fx fy nx ny s) hr rfl, fun i hi => ?_⟩
    rw [getLsbD_pwFlag _ _ _ hi]
    cases op <;> rfl
  case pwrd =>
    have h := completes_write (exec_pwrd g f d s) hr rfl (isG_scalarDest (operandsOk_of_wf hwf)) rfl
    cases f with
    | flags =>
      have hlow := setWidth_extractLsb'_eq_ofNat s.me.pw 0 8
      rw [pow_zero, Nat.div_one] at hlow
      exact hlow ▸ h
    | st => exact setWidth_extractLsb'_eq_ofNat s.me.pw 8 3 ▸ h
    | fpf => exact setWidth_extractLsb'_eq_ofNat s.me.pw 16 5 ▸ h
    | rm => exact setWidth_extractLsb'_eq_ofNat s.me.pw 21 3 ▸ h
    | all => exact BitVec.ofNat_toNat 64 s.me.pw ▸ h
  case pwwr =>
    refine ⟨_, completes_ok (exec_pwwr g f a s) hr rfl ((State.Wrote.refl s).modPw (by simp) (fun pw => PwField.put f pw (s.me.reg a.reg)))
      (.inr rfl) (.inr rfl), fun i hi => ?_⟩
    obtain ⟨hflags, hst, hfpf, hrm, hall⟩ := getLsbD_pwMasks hi
    cases f with
    | flags => exact getLsbD_replaced (sh := 0) hflags (fun _ => Nat.zero_le i) hi
    | st => exact getLsbD_replaced (sh := 8) hst (fun h => h.1) hi
    | fpf => exact getLsbD_replaced (sh := 16) hfpf (fun h => h.1) hi
    | rm => exact getLsbD_replaced (sh := 21) hrm (fun h => h.1) hi
    | all => exact getLsbD_replaced (sh := 0) hall (fun _ => Nat.zero_le i) hi

end Sys2Proof.Machine
end

section
/-! Control transfer (R176): targets, links and ALIGN (O5). -/

namespace Sys2Proof.Machine

section
variable (g : Guard) (d : Reg) (a : Src) (s : State)

theorem exec_br (imm : BitVec 35) : exec (.br g imm) s = execBr g imm s := rfl
theorem exec_brl (imm : BitVec 35) : exec (.brl g d imm) s = execBrl g d imm s := rfl
theorem exec_jmpl (imm : BitVec 21) : exec (.jmpl g d a imm) s = execJmpl g d a imm s := rfl
theorem exec_loop (imm : BitVec 35) : exec (.loop g d imm) s = execLoop g d imm s := rfl
theorem exec_nop : exec (.nop g) s = execNop g s := rfl

end

/-! ### A transfer -/

theorem transfer_of_aligned (u : State) {tgt : Word} (h : tgt.toNat % 8 = 0) : transfer u tgt = .jump u tgt :=
  if_neg (by simp [(extractLsb'_low_eq_zero tgt 3).2 h])

theorem transfer_of_misaligned (u : State) {tgt : Word} (h : tgt.toNat % 8 ≠ 0) : transfer u tgt = .trap 0x04 tgt :=
  if_pos (bne_iff_ne.2 (mt (extractLsb'_low_eq_zero tgt 3).1 h))

/-- R176: an instruction whose effect, after its writes, is a transfer. -/
theorem goes_of_transfer {i : Instr} {s u : State} {g : Guard} {n : Need} {f : State → Thread → Res} {o : Out} {tgt tgt' : Word}
    (he : exec i s = run s g n f) (hr : s.runs g n = true) (hf : f s s.me = transfer u tgt) (htgt : tgt = tgt') (hw : s.Wrote u o)
    (hreg : o.reg ∈ n.dests ++ n.fills ∨ o.reg = .z) (hvreg : o.vreg ∈ n.dests ++ n.fills ∨ o.vreg = .z) :
    Goes i s tgt' { o with takes := takesOf n.srcs (n.dests ++ n.fills) } := by
  subst htgt
  exact ⟨fun h => completes_jump (o := o) he hr (hf.trans (transfer_of_aligned u h)) hw hreg hvreg,
    fun h => traps_of he hr (hf.trans (transfer_of_misaligned u h))⟩

/-- R176: a transfer after the write of a link or of a counter. -/
theorem goes_of_write {i : Instr} {s : State} {g : Guard} {n : Need} {f : State → Thread → Res} {d : Reg} {x tgt tgt' : Word}
    (he : exec i s = run s g n f) (hr : s.runs g n = true) (hf : f s s.me = transfer (s.write s.cur d x) tgt) (htgt : tgt = tgt')
    (hd : Reg.scalarDest d = true) (hn : n.dests ++ n.fills = [d]) : Goes i s tgt' (s.out n.srcs d x) := by
  have h := goes_of_transfer he hr hf htgt ((State.Wrote.refl s).write rfl d hd x) (.inl (hn ▸ List.mem_singleton_self d)) (.inr rfl)
  rw [hn] at h
  exact h

/-! ### Targets as integers -/

theorem relTarget_eq_ofInt (pc : Word) (imm : BitVec 35) :
    pc + 8 * imm.signExtend 64 = BitVec.ofInt 64 (pc.toInt + 8 * imm.toInt) := by
  rw [BitVec.ofInt_add, BitVec.ofInt_mul, BitVec.ofInt_toInt]; rfl

theorem regTarget_eq_ofInt (x : Word) (imm : BitVec 21) : x + imm.signExtend 64 = BitVec.ofInt 64 (x.toInt + imm.toInt) := by
  rw [BitVec.ofInt_add, BitVec.ofInt_toInt]; rfl

/-! ### LOOP -/

section
variable {s : State} {g : Guard} {d : Reg} {imm : BitVec 35} (hd : Reg.scalarDest d = true)
  (hr : s.runs g { aluNeed d [] with reads := [d] } = true)
include hd hr

theorem loop_ends (h1 : s.me.reg d = 1) : Completes (.loop g d imm) s (s.out [] d 0) := by
  have hx : s.me.reg d - 1 = 0 := sub_eq_zero.2 h1
  exact completes_write (exec_loop ..) hr ((if_pos hx).trans (by rw [hx])) hd rfl

theorem loop_branches (h1 : s.me.reg d ≠ 1) :
    Goes (.loop g d imm) s (BitVec.ofInt 64 (s.me.pc.toInt + 8 * imm.toInt)) (s.out [] d (s.me.reg d - 1)) := by
  have hx : s.me.reg d - 1 ≠ 0 := sub_ne_zero.2 h1
  exact goes_of_write (exec_loop ..) hr (if_neg hx) (relTarget_eq_ofInt _ imm) hd rfl

end

/-- Settles O5: each transfer goes to its target after the write of its link. -/
theorem controlTransferTargetsAndLinks : Obligations.ControlTransferTargetsAndLinks := by
  unfold Obligations.ControlTransferTargetsAndLinks
  refine ⟨fun s g imm _ hr => ?br, fun s g d imm hwf hr => ?brl, fun s g a imm _ hr => ?jmp, fun s g d a imm hwf hr => ?jmpl,
    fun s g d imm hwf hr => ?loop, fun s g _ hr => ?nop⟩
  case br => exact goes_of_transfer (exec_br ..) hr rfl (relTarget_eq_ofInt _ imm) (.refl s) (.inr rfl) (.inr rfl)
  case brl => exact goes_of_write (exec_brl ..) hr rfl (relTarget_eq_ofInt _ imm) (gz_scalarDest (operandsOk_of_wf hwf)) rfl
  case jmp => exact goes_of_transfer (exec_jmp ..) hr rfl (regTarget_eq_ofInt _ imm) (.refl s) (.inr rfl) (.inr rfl)
  case jmpl =>
    have hok : (gz d && gzipS a) = true := operandsOk_of_wf hwf
    exact goes_of_write (exec_jmpl ..) hr rfl (regTarget_eq_ofInt _ imm) (gz_scalarDest (Bool.and_eq_true_iff.mp hok).1) rfl
  case loop =>
    have hd := isG_scalarDest (operandsOk_of_wf hwf)
    split_ifs with h1
    · exact loop_ends hd hr h1
    · exact loop_branches hd hr h1
  case nop => exact completes_ok (exec_nop g s) hr rfl (.refl s) (.inr rfl) (.inr rfl)

end Sys2Proof.Machine
end

section
/-! Scalar floating-point arithmetic (R179): the exact result rounded once, with its flags and the generator (O6), and FCVT (R180)
(O7). -/

namespace Sys2Proof.Machine

section
variable (g : Guard) (sg : Bool) (rm : RM) (d : Reg) (a b c : Src) (s : State)

theorem exec_ffma : exec (.ffma g sg rm d a b c) s = execFfma g sg rm d a b c s := rfl
theorem exec_fsqrt : exec (.fsqrt g sg rm d a) s = execFsqrt g sg rm d a s := rfl
theorem exec_fmin : exec (.fmin g sg d a b) s = execFmin g sg d a b s := rfl
theorem exec_fmax : exec (.fmax g sg d a b) s = execFmax g sg d a b s := rfl
theorem exec_fcvt (dt ty : ETyp) : exec (.fcvt g rm dt ty d a) s = execFcvt g rm dt ty d a s := rfl

end

/-! ### One rounding -/

/-- R51: the value that one rounding uses. -/
theorem rnd1_value (s : State) (m : RM) : (s.rnd1 m).2 = rndUsed m s.me.rnd := by
  unfold State.rnd1 rndUsed
  split_ifs <;> rfl

/-- R51, R52: an effect that draws once from the generator, raises flags and writes a register. -/
theorem completes_rounded {i : Instr} {s : State} {g : Guard} {d : Reg} {srcs : List Src} {f : State → Thread → Res} {m : RM} {fl : Fl}
    {x : Word} (he : exec i s = run s g (fpNeed d srcs) f) (hr : s.runs g (fpNeed d srcs) = true) (hd : Reg.scalarDest d = true)
    (hf : f s s.me = .ok (((s.rnd1 m).1.raise s.cur fl.bits).write s.cur d x)) :
    Completes i s { s.out srcs d x with pw := s.me.pw ||| fl.bits, rnd := rndAfter m s.me.rnd } :=
  completes_ok he hr hf ((((State.Wrote.refl s).rnd1 m).raise (by simp) fl.bits).write rfl d hd x) (.inl (.head _)) (.inr rfl)

/-- R179: a form of FADD to FMAX completes with its exact result rounded once. -/
theorem completes_runFp {i : Instr} {s : State} {g : Guard} {sg : Bool} {rm : RM} {d : Reg} {srcs : List Src} {f : RM → Thread → Raw}
    (he : exec i s = runFp s g sg rm d srcs f) (hr : s.runs g (fpNeed d srcs) = true) (hd : Reg.scalarDest d = true) :
    Completes i s (s.outFp srcs d rm
      ((fpFmt sg).finish (rm.eff s.me.pw) (rndUsed (rm.eff s.me.pw) s.me.rnd) (f (rm.eff s.me.pw) s.me))) := by
  rw [← rnd1_value]
  exact completes_rounded he hr hd rfl

theorem gz_and_scalarDest {d : Reg} {p : Bool} (h : (gz d && p) = true) : Reg.scalarDest d = true :=
  gz_scalarDest (Bool.and_eq_true_iff.mp h).1

theorem gz_and_and_scalarDest {d : Reg} {p q : Bool} (h : (gz d && p && q) = true) : Reg.scalarDest d = true :=
  gz_and_scalarDest (Bool.and_eq_true_iff.mp h).1

/-- A two-operand form of R179. -/
theorem fp2_of {mk : Guard → Bool → RM → Reg → Src → Src → Instr} {op : RM → Num → Num → Raw}
    (he : ∀ g sg rm d a b s, exec (mk g sg rm d a b) s =
      runFp s g sg rm d [a, b] (fun m t => op m (fpVal sg (t.reg a.reg)) (fpVal sg (t.reg b.reg))))
    (hok : ∀ g sg rm d a b, (mk g sg rm d a b).operandsOk = (gz d && gzS a && gzS b)) : Fp2 mk op := by
  intro s g sg rm d a b hwf hr
  have h : (gz d && gzS a && gzS b) = true := hok g sg rm d a b ▸ operandsOk_of_wf hwf
  exact completes_runFp (he g sg rm d a b s) hr (gz_and_and_scalarDest h)

/-- Settles O6: every form rounds once. -/
theorem scalarFloatArithmeticRoundsOnce : Obligations.ScalarFloatArithmeticRoundsOnce := by
  unfold Obligations.ScalarFloatArithmeticRoundsOnce
  refine ⟨fp2_of (fun _ _ _ _ _ _ _ => rfl) (fun _ _ _ _ _ _ => rfl), fp2_of (fun _ _ _ _ _ _ _ => rfl) (fun _ _ _ _ _ _ => rfl),
    fp2_of (fun _ _ _ _ _ _ _ => rfl) (fun _ _ _ _ _ _ => rfl), fp2_of (fun _ _ _ _ _ _ _ => rfl) (fun _ _ _ _ _ _ => rfl),
    fun s g sg rm d a b c hwf hr => ?ffma, fun s g sg rm d a hwf hr => ?fsqrt, fun s g sg d a b hwf hr => ?fmin,
    fun s g sg d a b hwf hr => ?fmax⟩
  case ffma =>
    have hok : (gz d && gzS a && gzS b && gzS c) = true := operandsOk_of_wf hwf
    simp only [Bool.and_assoc] at hok
    exact completes_runFp (exec_ffma g sg rm d a b c s) hr (gz_and_scalarDest hok)
  case fsqrt => exact completes_runFp (exec_fsqrt g sg rm d a s) hr (gz_and_scalarDest (operandsOk_of_wf hwf))
  case fmin => exact completes_runFp (exec_fmin g sg d a b s) hr (gz_and_and_scalarDest (operandsOk_of_wf hwf))
  case fmax => exact completes_runFp (exec_fmax g sg d a b s) hr (gz_and_and_scalarDest (operandsOk_of_wf hwf))

/-! ### FCVT -/

/-- R38: which format register is invalid. -/
theorem badFmt_eq_some {fa fb r : BitVec 24} {l : List ETyp} (h : badFmt fa fb l = some r) :
    fmtValid r = false ∧ ((.fna ∈ l ∧ r = fa) ∨ (.fnb ∈ l ∧ r = fb)) := by
  obtain ⟨t, ht, hr⟩ := List.mem_filterMap.mp (List.mem_of_find?_eq_some h)
  refine ⟨by simpa using List.find?_some h, ?_⟩
  split_ifs at hr with hfna hfnb
  · exact .inl ⟨hfna ▸ ht, (Option.some.inj hr).symm⟩
  · exact .inr ⟨hfnb ▸ ht, (Option.some.inj hr).symm⟩

theorem badFmt_eq_none {fa fb : BitVec 24} {l : List ETyp} (h : badFmt fa fb l = none) :
    (.fna ∈ l → fmtValid fa = true) ∧ (.fnb ∈ l → fmtValid fb = true) := by
  have hall := List.find?_eq_none.mp h
  refine ⟨fun hl => ?_, fun hl => ?_⟩
  · simpa using hall fa (List.mem_filterMap.mpr ⟨.fna, hl, rfl⟩)
  · simpa using hall fb (List.mem_filterMap.mpr ⟨.fnb, hl, rfl⟩)

section
variable {s : State} {g : Guard} {rm : RM} {dt ty : ETyp} {d : Reg} {a : Src} (hr : s.runs g (fpNeed d [a]) = true)
include hr

theorem fcvt_traps {r : BitVec 24} (h : badFmt s.me.fa s.me.fb [ty, dt] = some r) :
    Traps (.fcvt g rm dt ty d a) s 0x19 (r.setWidth 64) :=
  traps_of (exec_fcvt g rm d a s dt ty) hr (by rw [h])

theorem fcvt_converts (hd : Reg.scalarDest d = true) (h : badFmt s.me.fa s.me.fb [ty, dt] = none) :
    let m := rm.eff s.me.pw
    let c := ETyp.convert s.me.fa s.me.fb dt m (rndUsed m s.me.rnd) (ETyp.num s.me.fa s.me.fb ty (s.me.reg a.reg).toNat)
    Completes (.fcvt g rm dt ty d a) s { s.outFp [a] d rm (0, c.2) with val := BitVec.ofInt 64 c.1 } := by
  intro m c
  refine completes_rounded (exec_fcvt g rm d a s dt ty) hr hd ?_
  rw [h]
  dsimp only
  rw [rnd1_value]
  rfl

end

/-- Settles O7: FCVT traps with the first invalid format register, and otherwise converts. -/
theorem scalarConvertValueOrFormatTrap : Obligations.ScalarConvertValueOrFormatTrap := by
  unfold Obligations.ScalarConvertValueOrFormatTrap
  intro s g rm dt ty d a hwf hr badA badB m c
  have hok : (gz d && gzS a && !(dt.isInt && ty.isInt) && (canRound ty dt || rm == .rne)) = true := operandsOk_of_wf hwf
  simp only [Bool.and_eq_true, and_assoc] at hok
  have hmem (t : ETyp) : t ∈ [ty, dt] ↔ dt = t ∨ ty = t := by simp [eq_comm, or_comm]
  cases hbad : badFmt s.me.fa s.me.fb [ty, dt] with
  | none =>
    obtain ⟨hfa, hfb⟩ := badFmt_eq_none hbad
    have hA : ¬ badA := fun ⟨hl, hv⟩ => by simp [hfa ((hmem _).mpr hl)] at hv
    have hB : ¬ badB := fun ⟨hl, hv⟩ => by simp [hfb ((hmem _).mpr hl)] at hv
    exact ⟨fun h => absurd h.1 hA, fun h => absurd h.1 hB, fun h => absurd h.1 hA, fun _ => fcvt_converts hr (gz_scalarDest hok.1) hbad⟩
  | some r =>
    have htrap := fcvt_traps (rm := rm) hr hbad
    obtain ⟨hv, ⟨hl, rfl⟩ | ⟨hl, rfl⟩⟩ := badFmt_eq_some hbad
    · have hA : badA := ⟨(hmem _).mp hl, hv⟩
      exact ⟨fun _ => htrap, fun h => absurd hA h.2, fun _ => .inl htrap, fun h => absurd hA h.1⟩
    · have hB : badB := ⟨(hmem _).mp hl, hv⟩
      exact ⟨fun h => absurd hB h.2, fun _ => htrap, fun _ => .inr htrap, fun h => absurd hB h.2⟩

end Sys2Proof.Machine
end

section
/-! Elementwise vector instructions (R187, R190, R192): what the loop over the elements leaves in the flags, the generator and the
cells of the register. -/

namespace Sys2Proof.Machine

/-! ### Flags and the generator along the elements -/

theorem ite_or_eq {w : Nat} (a b : Bool) (x : BitVec w) :
    (if (a || b) = true then x else 0) = (if a = true then x else 0) ||| (if b = true then x else 0) := by
  cases a <;> cases b <;> simp

/-- R52: the bits of the flags are disjoint. -/
theorem Fl.bits_eq_or (f : Fl) : f.bits = (if f.nx then 65536 else 0) ||| (if f.uf then 131072 else 0) |||
    (if f.ofl then 262144 else 0) ||| (if f.dz then 524288 else 0) ||| (if f.nv then 1048576 else 0) ||| (if f.clmp then 1024 else 0) := by
  obtain ⟨nx, uf, ofl, dz, nv, clmp⟩ := f
  revert nx uf ofl dz nv clmp
  decide

/-- R52: the flags of two elements are ORed. -/
theorem Fl.bits_or (f h : Fl) : (f.or h).bits = f.bits ||| h.bits := by
  simp only [Fl.bits_eq_or, Fl.or, ite_or_eq]
  ac_rfl

/-- R51, R192: the generator's state before element `n` is computed. -/
def rndBefore (m : RM) (r : BitVec 32) (on : Nat → Bool) (n : Nat) : BitVec 32 :=
  if m = .sr then rndStep^[((List.range n).filter on).length] r else r

theorem rndAt_eq_rndBefore (m : RM) (r : BitVec 32) (on : Nat → Bool) (i : Nat) : rndAt m r on i = rndBefore m r on (i + 1) := rfl

/-- R51: an active element whose rounding is stochastic takes one step of the generator. -/
theorem rndAt_of_on (m : RM) (r : BitVec 32) {on : Nat → Bool} {i : Nat} (h : on i = true) :
    rndAt m r on i = if m = .sr then rndStep (rndBefore m r on i) else rndBefore m r on i := by
  unfold rndAt rndBefore
  split
  · rw [List.range_succ, List.filter_append, List.length_append]
    simp [h, Function.iterate_succ_apply']
  · rfl

theorem rndAt_of_off (m : RM) (r : BitVec 32) {on : Nat → Bool} {i : Nat} (h : on i = false) : rndAt m r on i = rndBefore m r on i := by
  simp [rndAt, rndBefore, List.range_succ, h]

/-- R51: outside the stochastic mode the generator rests. -/
theorem rndAt_of_ne_sr {m : RM} (h : m ≠ .sr) (r : BitVec 32) (on : Nat → Bool) (i : Nat) : rndAt m r on i = r := if_neg h

/-! ### The loop -/

section
variable (t : ETyp) (w : Nat) (lane : Nat → Lane) (old : BitVec 1024)

/-- R192: one turn of the loop over the elements. -/
def loopStep (f : Nat → Vx → Vx × Nat) (p : Vx × Nat) (i : Nat) : Vx × Nat :=
  match lane i with
  | .active => ((f i p.1).1, p.2 + cellOf (ETyp.cell t) w t.signed (f i p.1).2 * 2 ^ (ETyp.cell t * i))
  | .zero => p
  | .keep => (p.1, p.2 + elemOf t (ETyp.cell t) old i * 2 ^ (ETyp.cell t * i))

theorem vloop_eq_foldl (x : Vx) (f : Nat → Vx → Vx × Nat) :
    vloop t w lane old x f = (((List.range t.count).foldl (loopStep t w lane old f) (x, 0)).1,
      BitVec.ofNat 1024 ((List.range t.count).foldl (loopStep t w lane old f) (x, 0)).2) := rfl

variable {t w lane old} {m : RM} {F : BitVec 32 → Nat → Nat × Fl} {f : Nat → Vx → Vx × Nat}

/-- The element that a loop computes at place `i`. -/
def roundedAt (m : RM) (r : BitVec 32) (lane : Nat → Lane) (F : BitVec 32 → Nat → Nat × Fl) (i : Nat) : Nat × Fl :=
  F (rndAt m r (fun j => lane j == .active) i) i

/-- What the loop has accumulated before element `n`. -/
structure LoopAt (t : ETyp) (w : Nat) (lane : Nat → Lane) (old : BitVec 1024) (m : RM) (F : BitVec 32 → Nat → Nat × Fl) (x : Vx)
    (n : Nat) (p : Vx × Nat) : Prop where
  rnd : p.1.rnd = rndBefore m x.rnd (fun j => lane j == .active) n
  flags : ∀ b, p.1.fl.bits.getLsbD b = (x.fl.bits.getLsbD b ||
    (List.range n).any (fun j => lane j == .active && (roundedAt m x.rnd lane F j).2.bits.getLsbD b))
  cells : p.2 = ((List.range n).map (fun i =>
    loopCell t w lane old (fun j => (roundedAt m x.rnd lane F j).1) i * 2 ^ (ETyp.cell t * i))).sum

/-- R51, R192: each turn of the loop computes its element with the generator's state at that element. -/
theorem LoopAt.succ (hf : ∀ i x, lane i = .active → f i x = x.rounding m (fun r => F r i)) {x : Vx} {n : Nat} {p : Vx × Nat}
    (h : LoopAt t w lane old m F x n p) : LoopAt t w lane old m F x (n + 1) (loopStep t w lane old f p n) := by
  obtain ⟨hrnd, hfl, hcells⟩ := h
  have hsum (q : Nat) (hq : q = loopCell t w lane old (fun j => (roundedAt m x.rnd lane F j).1) n * 2 ^ (ETyp.cell t * n)) :
      p.2 + q = ((List.range (n + 1)).map (fun i =>
        loopCell t w lane old (fun j => (roundedAt m x.rnd lane F j).1) i * 2 ^ (ETyp.cell t * i))).sum := by
    rw [List.sum_range_succ, hcells, hq]
  cases hl : lane n with
  | active =>
    have hon : (lane n == Lane.active) = true := by simp [hl]
    have hr : (if m = .sr then rndStep p.1.rnd else p.1.rnd) = rndAt m x.rnd (fun j => lane j == .active) n := by
      rw [rndAt_of_on (on := fun j => lane j == .active) m x.rnd hon, hrnd]
    have hstep : loopStep t w lane old f p n = ({ p.1 with
          rnd := rndAt m x.rnd (fun j => lane j == .active) n, fl := p.1.fl.or (roundedAt m x.rnd lane F n).2 },
        p.2 + cellOf (ETyp.cell t) w t.signed (roundedAt m x.rnd lane F n).1 * 2 ^ (ETyp.cell t * n)) := by
      simp only [loopStep, hl, hf n p.1 hl, Vx.rounding, hr, roundedAt]
    rw [hstep]
    refine ⟨rfl, fun b => ?_, hsum _ (by simp only [loopCell, hl])⟩
    simp only [Fl.bits_or, BitVec.getLsbD_or, hfl, List.range_succ, List.any_append, List.any_cons, List.any_nil, hon, Bool.true_and,
      Bool.or_false, Bool.or_assoc]
  | zero =>
    have hoff : (lane n == Lane.active) = false := by simp [hl]
    have hstep : loopStep t w lane old f p n = (p.1, p.2 + 0) := by simp only [loopStep, hl]; rfl
    rw [hstep]
    refine ⟨hrnd.trans (rndAt_of_off (on := fun j => lane j == .active) m x.rnd hoff).symm, fun b => ?_,
      hsum _ (by simp only [loopCell, hl, Nat.zero_mul])⟩
    simp only [hfl, List.range_succ, List.any_append, List.any_cons, List.any_nil, hoff, Bool.false_and, Bool.or_false]
  | keep =>
    have hoff : (lane n == Lane.active) = false := by simp [hl]
    have hstep : loopStep t w lane old f p n = (p.1, p.2 + elemOf t (ETyp.cell t) old n * 2 ^ (ETyp.cell t * n)) := by
      simp only [loopStep, hl]
    rw [hstep]
    refine ⟨hrnd.trans (rndAt_of_off (on := fun j => lane j == .active) m x.rnd hoff).symm, fun b => ?_,
      hsum _ (by simp only [loopCell, hl])⟩
    simp only [hfl, List.range_succ, List.any_append, List.any_cons, List.any_nil, hoff, Bool.false_and, Bool.or_false]

/-- R51, R192: the loop whose active elements are each rounded once, in ascending order. -/
theorem loopAt_foldl (hf : ∀ i x, lane i = .active → f i x = x.rounding m (fun r => F r i)) (x : Vx) (n : Nat) :
    LoopAt t w lane old m F x n ((List.range n).foldl (loopStep t w lane old f) (x, 0)) := by
  induction n with
  | zero => exact ⟨by simp [rndBefore], by simp, by simp⟩
  | succ n ih =>
    rw [List.range_succ, List.foldl_append]
    exact ih.succ hf

end

/-- R190: a vector instruction with a vector result, which may wait for further registers. -/
theorem completes_runV_vector {i : Instr} {s : State} {g : Guard} {k : VMask} {d : Reg} {srcs : List Src} {reads : List Reg}
    {ty : List ETyp} {rm : RM} {f : RM → Thread → Vx → Vx × BitVec 1024}
    (he : exec i s = runV s g (vneed k d srcs reads) ty rm (fun s v => s.writeV s.cur d v) f)
    (hr : s.runs g (vneed k d srcs reads) = true) (hb : badFmt s.me.fa s.me.fb ty = none) (hd : d.isV = true) {x : Vx} {v : BitVec 1024}
    (hf : f (rm.eff s.me.pw) s.me ⟨{}, s.me.rnd⟩ = (x, v)) :
    Completes i s { vreg := d, vec := v, pw := s.me.pw ||| x.fl.bits, rnd := x.rnd, takes := takesOf srcs [d], pc := s.me.pc + 8 } := by
  have h := completes_runV he hr hb ((State.Wrote.accumulated s _).writeV rfl d (.inl hd) _) (.inr rfl) (.inl (by simp [vneed]))
  rw [hf] at h
  exact h

/-- R187, R190, R192: a vector instruction whose effect is a loop in which each active element is rounded once is elementwise. -/
theorem elementwise_of_runV {i : Instr} {g : Guard} {k : VMask} {t : ETyp} {fmts : List ETyp} {d : Reg} {srcs : List Src}
    {reads : List Reg} {rm rm' : RM} {w : Thread → Nat} {lane : Thread → Nat → Lane} {f : Thread → RM → BitVec 32 → Nat → Nat × Fl}
    {e : RM → Thread → Nat → Vx → Vx × Nat}
    (he : ∀ s, exec i s = runV s g (vneed k d srcs reads) fmts rm' (fun s v => s.writeV s.cur d v)
      (fun m th x => vloop t (w th) (lane th) (th.vreg d) x (e m th)))
    (hd : i.wf = true → d.isV = true) (hw : ∀ th, w th ≤ ETyp.cell t)
    (hf : i.wf = true → ∀ (th : Thread) j x, lane th j = .active →
      e (rm'.eff th.pw) th j x = x.rounding (rm.eff th.pw) (fun r => f th (rm.eff th.pw) r j)) :
    Elementwise i g k t fmts d srcs reads rm w lane f := by
  intro s hwf hr hb m on
  obtain ⟨hrnd, hflags, hcells⟩ :=
    loopAt_foldl (t := t) (w := w s.me) (old := s.me.vreg d) (hf hwf s.me) ⟨{}, s.me.rnd⟩ t.count
  have hlt := loopCell_lt (hw s.me) (lane s.me) (s.me.vreg d) (fun j => (roundedAt m s.me.rnd (lane s.me) (f s.me m) j).1)
  have hcount : t.count - 1 + 1 = t.count := by cases t <;> rfl
  have h := completes_runV_vector (he s) hr hb (hd hwf) (vloop_eq_foldl ..)
  rw [hrnd, ← hcount, ← rndAt_eq_rndBefore] at h
  refine ⟨_, _, h, fun j hj => ?_, fun b _ => ?_⟩
  · rw [hcount, hcells, elemOf, toNat_ofNat_sum_digits (cell_mul_count t) hlt, digit_of_sum_digits hlt hj]
    rfl
  · have hnone : (Fl.bits {}).getLsbD b = false := BitVec.getLsbD_zero
    rw [hcount, BitVec.getLsbD_or, hflags, hnone, Bool.false_or]
    rfl

end Sys2Proof.Machine
end

section
/-! Vector arithmetic and functions (R192 to R194): each active element is the exact result, rounded once (O17). -/

namespace Sys2Proof.Machine

/-! ### Elementwise operations of up to three operands -/

/-- R192: an operation whose element is rounded once is elementwise. -/
theorem elem3_of_runElem {i : Instr} {g : Guard} {k : VMask} {t : ETyp} {d : Reg} {a b c : Src} {rm rm' : RM}
    {f : Thread → RM → BitVec 32 → Nat → Nat → Nat → Nat × Fl} {e : Thread → RM → Nat → Nat → Nat → Vx → Vx × Nat}
    (he : ∀ s, exec i s = runElem s g k t rm' d a b c e)
    (hf : i.operandsOk = true → ∀ th u v z x,
      e th (rm'.eff th.pw) u v z x = x.rounding (rm.eff th.pw) (fun r => f th (rm.eff th.pw) r u v z))
    (hd : i.operandsOk = true → d.isV = true := by simp +contextual [Instr.operandsOk]) : Elem3 i g k t d a b c rm f :=
  elementwise_of_runV (rm' := rm') he (fun hwf => hd (operandsOk_of_wf hwf)) (fun th => bits_le_cell t th.fa th.fb)
    (fun hwf th _ x _ => hf (operandsOk_of_wf hwf) th _ _ _ x)

/-- R51, R52: an element without flag, where the generator rests, leaves the accumulated ones. -/
theorem Vx.rounding_of_pure (x : Vx) {m : RM} (h : m ≠ .sr) (n : Nat) : x.rounding m (fun _ => (n, {})) = (x, n) := by
  have hfl : x.fl.or {} = x.fl := by simp [Fl.or]
  simp only [Vx.rounding, if_neg h, hfl]

/-- R193: an integer result wraps or is clamped, and raises nothing. -/
theorem intRes_eq_wrap (t : ETyp) (sat : Bool) (i : Int) : intRes t sat i = (ETyp.wrap t sat i, {}) := by
  have hle : t.lo ≤ t.hi := by cases t <;> decide
  have hclamp : max t.lo (min t.hi i) = if i < t.lo then t.lo else if t.hi < i then t.hi else i := by
    split_ifs <;> omega
  rw [intRes, ETyp.wrap, hclamp]

theorem RM.eff_ne_sr_of_isInt {t : ETyp} {rm : RM} (h : (t.isFloat || rm == .rne) = true) (ht : t.isInt = true) (pw : BitVec 32) :
    rm.eff pw ≠ .sr := by
  have hrne : rm = .rne := by simpa [ETyp.isFloat, ht] using h
  rw [hrne]
  exact RM.noConfusion

/-! ### The operations -/

section
variable {t : ETyp} (th : Thread) (x : Vx) (u v z : Nat)

/-- R192: an exact result rounded once. -/
theorem vfin_eq_rounding (m : RM) (r : Raw) : vfin th t m r x = x.rounding m (fun n => th.fin t m n r) := rfl

/-- R193: the fused forms. -/
theorem vFused_eq_rounding (m : RM) (na nc : Bool) :
    vFused na nc t th m u v z x = x.rounding m (fun r => th.fin t m r
      (fmaNum m (if na then (th.num t u).neg else th.num t u) (th.num t v) (if nc then (th.num t z).neg else th.num t z))) := rfl

/-- R193: an integer operation, or the exact floating one rounded once. -/
theorem vArith_eq_rounding {m : RM} (fop : RM → Num → Num → Raw) (iop : Int → Int → Int) (sat : Bool) (h : t.isInt = true → m ≠ .sr) :
    vArith fop iop sat t th m u v x = x.rounding m (fun r =>
      if t.isInt then intRes t sat (iop (t.intOf u) (t.intOf v)) else th.fin t m r (fop m (th.num t u) (th.num t v))) := by
  unfold vArith
  cases ht : t.isInt with
  | true => simp only [if_true, intRes_eq_wrap, x.rounding_of_pure (h ht)]
  | false => rfl

/-- R193: of two integers the smaller or larger, of two floating values that of R179. -/
theorem vMinMax_eq_rounding (max : Bool) :
    vMinMax max t th u v x = x.rounding .rtz (fun r =>
      if t.isInt then (if decide (t.intOf u < t.intOf v) != max then u else v, {})
      else th.fin t .rtz r (minMaxNum max (th.num t u) (th.num t v))) := by
  unfold vMinMax
  cases t.isInt with
  | true => exact (x.rounding_of_pure (m := .rtz) RM.noConfusion _).symm
  | false => rfl

/-- R193: the magnitude or the negation. -/
theorem vSign_eq_rounding (fop : Num → Num) (iop : Int → Int) (sat : Bool) :
    vSign fop iop sat t th u x = x.rounding .rtz (fun r =>
      if t.isInt then intRes t sat (iop (t.intOf u)) else th.fin t .rtz r ⟨fop (th.num t u), false, false⟩) := by
  unfold vSign
  cases t.isInt with
  | true => simp only [if_true, intRes_eq_wrap, x.rounding_of_pure (m := .rtz) RM.noConfusion]
  | false => rfl

end

/-- R193: VADD, VSUB and VMUL. -/
theorem elem3_of_vArith {i : Instr} {g : Guard} {k : VMask} {t : ETyp} {d : Reg} {a b : Src} {rm : RM} {sat : Bool}
    {fop : RM → Num → Num → Raw} {iop : Int → Int → Int}
    (he : ∀ s, exec i s = runElem s g k t rm d a b zSrc (fun th m u v _ x => vArith fop iop sat t th m u v x))
    (hok : i.operandsOk = (d.isV && a.reg.isV && vgzS b && k.ok && (t.isInt || !sat) && (t.isFloat || rm == .rne))) :
    Elem3 i g k t d a b zSrc rm (fun th m r x y _ =>
      if t.isInt then intRes t sat (iop (t.intOf x) (t.intOf y)) else th.fin t m r (fop m (th.num t x) (th.num t y))) :=
  elem3_of_runElem he
    (fun h th u v _ x => vArith_eq_rounding th x u v fop iop sat
      (fun ht => RM.eff_ne_sr_of_isInt (Bool.and_eq_true_iff.mp (hok ▸ h)).2 ht th.pw))
    (by rw [hok]; simp +contextual)

/-- R193: the fused forms. -/
theorem elem3_of_vFused {i : Instr} {g : Guard} {k : VMask} {t : ETyp} {d : Reg} {a b c : Src} {rm : RM} {na nc : Bool}
    (he : ∀ s, exec i s = runElem s g k t rm d a b c (fun th m u v w x => vFused na nc t th m u v w x))
    (hok : i.operandsOk = (d.isV && a.reg.isV && vgzS b && vzS c && k.ok && t.isFloat)) :
    Elem3 i g k t d a b c rm (fun th m r x y z => th.fin t m r
      (fmaNum m (if na then (th.num t x).neg else th.num t x) (th.num t y) (if nc then (th.num t z).neg else th.num t z))) :=
  elem3_of_runElem he (fun _ th u v z x => vFused_eq_rounding th x u v z _ na nc) (by rw [hok]; simp +contextual)

/-- R193: VMIN and VMAX. -/
theorem elem3_of_vMinMax {i : Instr} {g : Guard} {k : VMask} {t : ETyp} {d : Reg} {a b : Src} {max : Bool}
    (he : ∀ s, exec i s = runElem s g k t .rne d a b zSrc (fun th _ u v _ x => vMinMax max t th u v x))
    (hok : i.operandsOk = (d.isV && a.reg.isV && vgzS b && k.ok)) :
    Elem3 i g k t d a b zSrc .rtz (fun th m r x y _ =>
      if t.isInt then (if decide (t.intOf x < t.intOf y) != max then x else y, {})
      else th.fin t m r (minMaxNum max (th.num t x) (th.num t y))) :=
  elem3_of_runElem he (fun _ th u v _ x => vMinMax_eq_rounding th x u v max) (by rw [hok]; simp +contextual)

/-- R193: VABS and VNEG. -/
theorem elem3_of_vSign {i : Instr} {g : Guard} {k : VMask} {t : ETyp} {d : Reg} {a : Src} {sat : Bool} {fop : Num → Num}
    {iop : Int → Int} (he : ∀ s, exec i s = runElem s g k t .rne d a zSrc zSrc (fun th _ u _ _ x => vSign fop iop sat t th u x))
    (hok : i.operandsOk = (d.isV && a.reg.isV && k.ok && (t.isInt || !sat))) :
    Elem3 i g k t d a zSrc zSrc .rtz (fun th m r x _ _ =>
      if t.isInt then intRes t sat (iop (t.intOf x)) else th.fin t m r ⟨fop (th.num t x), false, false⟩) :=
  elem3_of_runElem he (fun _ th u _ _ x => vSign_eq_rounding th x u fop iop sat) (by rw [hok]; simp +contextual)

/-- R193, R194: a floating function of one operand. -/
theorem elem3_of_runFun {i : Instr} {g : Guard} {k : VMask} {t : ETyp} {d : Reg} {a : Src} {rm : RM} {f : Num → Raw}
    (he : ∀ s, exec i s = runFun s g k t rm d a f)
    (hok : i.operandsOk = (d.isV && a.reg.isV && k.ok && t.isFloat)) :
    Elem3 i g k t d a zSrc zSrc rm (fun th m r x _ _ => th.fin t m r (f (th.num t x))) :=
  elem3_of_runElem he (fun _ th u _ _ x => vfin_eq_rounding th x _ (f (th.num t u))) (by rw [hok]; simp +contextual)

/-- Settles O17: every operation rounds its element once, or is an integer one that takes no step of the generator. -/
theorem vectorElementwiseArithmeticAndFunctions : Obligations.VectorElementwiseArithmeticAndFunctions := by
  unfold Obligations.VectorElementwiseArithmeticAndFunctions
  refine ⟨⟨fun g sat t rm k d a b => ?vadd, fun g sat t rm k d a b => ?vsub, fun g sat t rm k d a b => ?vmul, fun g t rm k d a b c => ?vfma,
    fun g t rm k d a b c => ?vfms, fun g t rm k d a b c => ?vfnma, fun g t rm k d a b => ?vdiv, fun g t rm k d a => ?vsqrt,
    fun g t k d a b => ?vmin, fun g t k d a b => ?vmax, fun g sat t k d a => ?vabs, fun g sat t k d a => ?vneg⟩,
    fun g t rm k d a => ?vrcp, fun g t rm k d a => ?vrsq, fun g t rm k d a => ?vexp2, fun g t rm k d a => ?vlog2⟩
  case vadd => exact elem3_of_vArith (fop := addNum) (iop := (· + ·)) (fun _ => rfl) rfl
  case vsub => exact elem3_of_vArith (fop := fun m p q => addNum m p q.neg) (iop := (· - ·)) (fun _ => rfl) rfl
  case vmul => exact elem3_of_vArith (fop := fun _ p q => mulNum p q) (iop := (· * ·)) (fun _ => rfl) rfl
  case vfma => exact elem3_of_vFused (na := false) (nc := false) (fun _ => rfl) rfl
  case vfms => exact elem3_of_vFused (na := false) (nc := true) (fun _ => rfl) rfl
  case vfnma => exact elem3_of_vFused (na := true) (nc := false) (fun _ => rfl) rfl
  case vdiv =>
    exact elem3_of_runElem (rm' := rm)
      (e := fun th m u v _ x => vfin th t m (divNum (t.num th.fa th.fb u) (t.num th.fa th.fb v)) x) (fun _ => rfl)
      (fun _ th u v _ x => vfin_eq_rounding th x _ (divNum (th.num t u) (th.num t v)))
  case vsqrt => exact elem3_of_runFun (f := sqrtNum) (fun _ => rfl) rfl
  case vmin =>
    simpa only [Bool.bne_false, decide_eq_true_eq] using
      elem3_of_vMinMax (i := .vmin g t k d a b) (max := false) (fun _ => rfl) rfl
  case vmax =>
    simpa only [Bool.bne_true, Bool.not_eq_true', decide_eq_false_iff_not, ite_not] using
      elem3_of_vMinMax (i := .vmax g t k d a b) (max := true) (fun _ => rfl) rfl
  case vabs =>
    simpa only [Int.natCast_natAbs] using elem3_of_vSign (i := .vabs g sat t k d a) (fop := Num.abs) (iop := fun i => i.natAbs)
      (fun _ => rfl) rfl
  case vneg => exact elem3_of_vSign (fop := Num.neg) (iop := fun i => -i) (fun _ => rfl) rfl
  case vrcp => exact elem3_of_runFun (f := divNum (.of false 1 0)) (fun _ => rfl) rfl
  case vrsq => exact elem3_of_runFun (f := rsqrtNum) (fun _ => rfl) rfl
  case vexp2 => exact elem3_of_runFun (f := exp2Num) (fun _ => rfl) rfl
  case vlog2 => exact elem3_of_runFun (f := log2Num) (fun _ => rfl) rfl

end Sys2Proof.Machine
end

section
/-! Vector bitwise operations, shifts, selects and copies (R193, R195, R196): elementwise, with no flag and no step of the generator
(O18). -/

namespace Sys2Proof.Machine

/-! ### Operations that do not round -/

/-- R192: an effect that computes its elements without rounding is elementwise. -/
theorem elementwise_of_pure {i : Instr} {g : Guard} {k : VMask} {t : ETyp} {d : Reg} {srcs : List Src} {reads : List Reg}
    {w : Thread → Nat} {lane : Thread → Nat → Lane} {n : Thread → Nat → Nat}
    (he : ∀ s, exec i s = runV s g (vneed k d srcs reads) [t] .rne (fun s v => s.writeV s.cur d v)
      (fun _ th x => vloop t (w th) (lane th) (th.vreg d) x (fun j x => (x, n th j))))
    (hw : ∀ th, w th ≤ ETyp.cell t) (hd : i.operandsOk = true → d.isV = true := by simp +contextual [Instr.operandsOk]) :
    Elementwise i g k t [t] d srcs reads .rtz w lane (fun th _ _ j => (n th j, {})) :=
  elementwise_of_runV he (fun hwf => hd (operandsOk_of_wf hwf)) hw
    (fun _ th j x _ => (x.rounding_of_pure (m := .rtz) RM.noConfusion (n th j)).symm)

/-- R192: an operation of up to three operands that does not round is elementwise. -/
theorem elem3_of_pure {i : Instr} {g : Guard} {k : VMask} {t : ETyp} {d : Reg} {a b c : Src} {n : Nat → Nat → Nat → Nat}
    (he : ∀ s, exec i s = runElem s g k t .rne d a b c (fun _ _ u v z x => (x, n u v z))) (n' : Nat → Nat → Nat → Nat)
    (hn : i.operandsOk = true → ∀ u v z, n u v z = n' u v z)
    (hd : i.operandsOk = true → d.isV = true := by simp +contextual [Instr.operandsOk]) :
    Elem3 i g k t d a b c .rtz (fun _ _ _ x y z => (n' x y z, {})) :=
  elem3_of_runElem he
    (fun hok _ u v z x => hn hok u v z ▸ (x.rounding_of_pure (m := .rtz) RM.noConfusion (n u v z)).symm) hd

/-! ### Shifts -/

/-- R35: the bounds of an element's integer. -/
theorem intOf_bounds (t : ETyp) (n : Nat) : -(2 ^ t.fixedWidth : Nat) ≤ t.intOf n ∧ t.intOf n < (2 ^ t.fixedWidth : Nat) := by
  have hlt : n % 2 ^ t.fixedWidth < 2 ^ t.fixedWidth := Nat.mod_lt _ (Nat.two_pow_pos _)
  unfold ETyp.intOf
  dsimp only
  split <;> omega

/-- R193: a count from the width upwards shifts every bit out. -/
theorem vShift_left (t : ETyp) (u n : Nat) :
    vShift false t u n = if n < t.fixedWidth then u * 2 ^ n % 2 ^ t.fixedWidth else 0 := by
  simp only [vShift, Bool.false_eq_true, if_false]
  split_ifs with h
  · rw [Nat.min_eq_left h.le]
  · rw [Nat.min_eq_right (not_lt.mp h), Nat.mul_mod_left]

/-- R193: a count from the width upwards leaves copies of the sign. -/
theorem vShift_right (t : ETyp) (u n : Nat) :
    vShift true t u n = ETyp.wrap t false
      (if n < t.fixedWidth then t.intOf u / 2 ^ n else if t.intOf u < 0 then -1 else 0) := by
  obtain ⟨hlo, hhi⟩ := intOf_bounds t u
  have hpos : (0 : Int) < (2 ^ t.fixedWidth : Nat) := Int.natCast_pos.mpr (Nat.two_pow_pos _)
  simp only [vShift, if_true]
  congr 1
  split_ifs with h hneg
  · rw [Nat.min_eq_left h.le, Nat.cast_pow, Nat.cast_ofNat]
  · rw [Nat.min_eq_right (not_lt.mp h)]
    exact (Int.ediv_eq_iff_of_pos hpos).mpr (by omega)
  · rw [Nat.min_eq_right (not_lt.mp h)]
    exact Int.ediv_eq_zero_of_lt (not_lt.mp hneg) hhi

/-- R191: an immediate count lies below the width. -/
theorem lt_of_shiftIdxOk {t : ETyp} {n : BitVec 10} {p : Bool} (h : (p && shiftIdxOk t (.imm n)) = true) : n.toNat < t.fixedWidth :=
  of_decide_eq_true (Bool.and_eq_true_iff.mp h).2

/-! ### The instructions -/

/-- R185: an integer or wide element fits its cell. -/
theorem fixedWidth_le_cell (t : ETyp) : t.fixedWidth ≤ ETyp.cell t := by cases t <;> decide

/-- Settles O18: no operation rounds; the shifts by their lemmas. -/
theorem vectorBitsShiftsAndCopiesElementwise : Obligations.VectorBitsShiftsAndCopiesElementwise := by
  unfold Obligations.VectorBitsShiftsAndCopiesElementwise
  refine ⟨fun g t k d a b => ?vand, fun g t k d a b => ?vor, fun g t k d a b => ?vxor, fun g t k d a b => ?vshl, fun g t k d a n => ?vshlImm,
    fun g t k d a b => ?vshr, fun g t k d a n => ?vshrImm, fun g t k d a => ?vbcst, fun g t k d a b c => ?vsel, fun g t k d a => ?vmov,
    fun g t k step d a => ?vidx⟩
  case vand => exact elem3_of_pure (n := fun u v _ => u &&& v) (fun _ => rfl) _ (fun _ _ _ _ => rfl)
  case vor => exact elem3_of_pure (n := fun u v _ => u ||| v) (fun _ => rfl) _ (fun _ _ _ _ => rfl)
  case vxor => exact elem3_of_pure (n := fun u v _ => u ^^^ v) (fun _ => rfl) _ (fun _ _ _ _ => rfl)
  case vshl => exact elem3_of_pure (n := fun u v _ => vShift false t u v) (fun _ => rfl) _ (fun _ u v _ => vShift_left t u v)
  case vshlImm =>
    exact elem3_of_pure (n := fun u _ _ => vShift false t u n.toNat) (fun _ => rfl) _
      (fun hok u _ _ => (vShift_left t u n.toNat).trans (if_pos (lt_of_shiftIdxOk hok)))
  case vshr =>
    simp only [intRes_eq_wrap]
    exact elem3_of_pure (n := fun u v _ => vShift true t u v) (fun _ => rfl) _ (fun _ u v _ => vShift_right t u v)
  case vshrImm =>
    simp only [intRes_eq_wrap]
    exact elem3_of_pure (n := fun u _ _ => vShift true t u n.toNat) (fun _ => rfl) _
      (fun hok u _ _ => (vShift_right t u n.toNat).trans (by rw [if_pos (lt_of_shiftIdxOk hok)]))
  case vbcst => exact elem3_of_pure (n := fun _ v _ => v) (fun _ => rfl) _ (fun _ _ _ _ => rfl)
  case vsel => exact elementwise_of_pure (fun _ => rfl) (fun th => bits_le_cell t th.fa th.fb)
  case vmov => exact elementwise_of_pure (fun _ => rfl) (fun _ => le_refl _)
  case vidx =>
    simp only [intRes_eq_wrap]
    exact elementwise_of_pure (fun _ => rfl) (fun _ => fixedWidth_le_cell t)

end Sys2Proof.Machine
end

section
/-! VPUTL, VPERM, VROT, VCVT and VDQNT (R197 to R199, R201): where each element comes from, and what becomes of it (O19). -/

namespace Sys2Proof.Machine

/-! ### Conversion (R199) -/

/-- R199: the source of an element that has one. -/
theorem vcvtFrom_getD {st dt : ETyp} {hi : Bool} {j : Nat} (h : vcvtFrom st dt hi j ≠ none) :
    (vcvtFrom st dt hi j).getD j = if st.count = dt.count then j
      else if dt.count = 16 then (if hi then 16 else 0) + j else j - (if hi then 16 else 0) := by
  unfold vcvtFrom at h ⊢
  dsimp only at h ⊢
  generalize (if hi = true then 16 else 0) = o at h ⊢
  split_ifs at h ⊢ with heq h16 hin
  · rfl
  · rfl
  · rfl
  · exact absurd rfl h

/-- R199: between integer types an element is clamped, and any other one rounded once. -/
theorem vconvert_eq_rounding {st dt : ETyp} {m : RM} (th : Thread) (n : Nat) (x : Vx) (h : (st.isInt && dt.isInt) = true → m ≠ .sr) :
    vconvert st dt th m n x = x.rounding m (fun r => if st.isInt && dt.isInt then intRes dt true (st.intOf n) else
      (((ETyp.convert th.fa th.fb dt m r (st.num th.fa th.fb n)).1 % (2 ^ dt.bits th.fa th.fb : Nat)).toNat,
        (ETyp.convert th.fa th.fb dt m r (st.num th.fa th.fb n)).2)) := by
  unfold vconvert
  cases hint : st.isInt && dt.isInt with
  | true => simp only [if_true, intRes_eq_wrap, x.rounding_of_pure (h hint)]
  | false => rfl

theorem RM.eff_ne_sr_of_not_canRound {st dt : ETyp} {rm : RM} (h : (canRound st dt || rm == .rne) = true)
    (hint : (st.isInt && dt.isInt) = true) (pw : BitVec 32) : rm.eff pw ≠ .sr := by
  have hrne : rm = .rne := by simpa [canRound, hint] using h
  rw [hrne]
  exact RM.noConfusion

theorem vcvt_operandsOk {g : Guard} {hi : Bool} {dt ty : ETyp} {rm : RM} {k : VMask} {d : Reg} {a : Src}
    (h : (Instr.vcvt g hi dt ty rm k d a).wf = true) : d.isV = true ∧ (canRound ty dt || rm == .rne) = true := by
  have hok := operandsOk_of_wf h
  simp only [Instr.operandsOk, Bool.and_eq_true] at hok
  obtain ⟨⟨⟨⟨hd, -⟩, -⟩, hround⟩, -⟩ := hok
  exact ⟨hd, hround⟩

/-! ### Decoding of a block (R201) -/

theorem isV_of_wf_vdqnt {g cd t rm k d a} (h : (Instr.vdqnt g cd t rm k d a).wf = true) : d.isV = true := by
  have hok := operandsOk_of_wf h
  simp only [Instr.operandsOk, Bool.and_eq_true, and_assoc] at hok
  exact hok.1

/-- R54, R57, R201: one element of a block, rounded once. -/
theorem decodeOne_eq_rounding (f to_ : Fmt) (m : RM) (c code : Nat) (x : Vx) :
    decodeOne f to_ m c code x = x.rounding m (fun r =>
      if c = 0 then (0, {})
      else if c = 255 then (to_.nanCode, {})
      else to_.put m r (match f.value code with
        | .fin e => .fin { e with exp := e.exp + c - 127 }
        | n => n)) := rfl

/-! ### The instructions -/

/-- Settles O19: VPUTL, VPERM and VROT round nothing; VCVT and VDQNT round each element once, VCVT between integers none. -/
theorem vectorLanesPermutesAndConversionsElementwise : Obligations.VectorLanesPermutesAndConversionsElementwise := by
  unfold Obligations.VectorLanesPermutesAndConversionsElementwise
  refine ⟨fun g t d a b => ?vputl, fun g t k d a b => ?vperm, fun g t k d a b => ?vrot, fun g hi dt ty rm k d a => ?vcvt,
    fun g cd t rm k d a => ?vdqnt⟩
  case vputl => exact elementwise_of_pure (fun _ => rfl) (fun th => bits_le_cell t th.fa th.fb)
  case vperm => exact elementwise_of_pure (fun _ => rfl) (fun th => bits_le_cell t th.fa th.fb)
  case vrot => exact elementwise_of_pure (fun _ => rfl) (fun th => bits_le_cell t th.fa th.fb)
  case vcvt =>
    refine elementwise_of_runV (rm' := rm)
      (e := fun m th j x => vconvert ty dt th m (elemOf ty (ty.bits th.fa th.fb) (th.vreg a.reg) ((vcvtFrom ty dt hi j).getD j)) x)
      (fun s => ?_) (fun hwf => (vcvt_operandsOk hwf).1) (fun th => bits_le_cell dt th.fa th.fb) (fun hwf th j x hactive => ?_)
    · show execVcvt g hi dt ty rm k d a s = _
      simp only [execVcvt, Option.isNone_iff_eq_none]
      rfl
    · have hfrom : vcvtFrom ty dt hi j ≠ none := fun h => by
        rw [← vcvtFrom, if_pos h] at hactive
        cases hactive
      rw [vconvert_eq_rounding th _ x (fun hint => RM.eff_ne_sr_of_not_canRound (vcvt_operandsOk hwf).2 hint th.pw), vcvtFrom_getD hfrom]
  case vdqnt =>
    exact elementwise_of_runV (rm' := rm)
      (e := fun m th j x => decodeOne (VCodec.fmt th.fa th.fb cd) (t.fmt th.fa th.fb) m
        ((th.vreg a.reg).toNat / 2 ^ (32 * (VCodec.fmt th.fa th.fb cd).width) % 256)
        ((th.vreg a.reg).toNat / 2 ^ ((VCodec.fmt th.fa th.fb cd).width * j) % 2 ^ (VCodec.fmt th.fa th.fb cd).width) x)
      (fun _ => rfl) isV_of_wf_vdqnt (fun _ => fixedWidth_le_cell t) (fun _ th j x _ => decodeOne_eq_rounding _ _ _ _ _ x)

end Sys2Proof.Machine
end

section
/-! VCMP, VGETL and MOPS (R195, R197, R205): a mask bit by bit, and an element as a scalar (O20). -/

namespace Sys2Proof.Machine

section
variable (g : Guard) (t : ETyp) (d : Reg) (a : Src) (s : State)

theorem exec_vcmp (cc : Cond) (k : VMask) (b : Src) : exec (.vcmp g cc t k d a b) s = execVcmp g cc t k d a b s := rfl
theorem exec_vgetl (b : VIdx) : exec (.vgetl g t d a b) s = execVgetl g t d a b s := rfl
theorem exec_mops (op : MopsOp) : exec (.mops g op d a) s = execMops g op d a s := rfl

end

/-- R190: a vector instruction with a scalar result, made from what its elements give, that takes no step of the generator. -/
theorem completes_runV_scalar {α : Type} {i : Instr} {s : State} {g : Guard} {k : VMask} {d : Reg} {srcs : List Src} {ty : List ETyp}
    {rm : RM} {f : RM → Thread → Vx → Vx × α} (word : α → Word)
    (he : exec i s = runV s g (vneed k d srcs []) ty rm (fun s v => s.write s.cur d (word v)) f)
    (hr : s.runs g (vneed k d srcs []) = true) (hb : badFmt s.me.fa s.me.fb ty = none) (hd : Reg.scalarDest d = true) {fl : Fl}
    {v : α} (hf : f (rm.eff s.me.pw) s.me ⟨{}, s.me.rnd⟩ = (⟨fl, s.me.rnd⟩, v)) :
    Completes i s { s.out srcs d (word v) with pw := s.me.pw ||| fl.bits } := by
  have h := completes_runV he hr hb ((State.Wrote.accumulated s _).write rfl d hd _) (.inl (by simp [vneed])) (.inr rfl)
  rw [hf] at h
  exact h

/-! ### VCMP -/

/-- R182, R195: a comparison raises at most NV. -/
theorem vcond_flags (cc : Cond) (t : ETyp) (th : Thread) (a b : Nat) : ∃ nv, (vcond cc t th a b).2 = { nv := nv } := by
  unfold vcond
  split
  · exact ⟨false, rfl⟩
  · split
    · exact ⟨_, rfl⟩
    · exact ⟨false, rfl⟩

section
variable (cc : Cond) (t : ETyp) (k : VMask) (th : Thread) (d : Reg) (a b : Src)

/-- R195: bit `j` of the mask that a comparison writes. -/
def cmpBit (j : Nat) : Bool :=
  match VMask.lane k th j with
  | .active => (vcond cc t th (elemOf t (t.bits th.fa th.fb) (th.vreg a.reg) j) (vopd t (t.bits th.fa th.fb) th b j)).1
  | .zero => false
  | .keep => (th.mreg d).getLsbD j

/-- R195: one turn of the loop over the elements. -/
def cmpStep (p : Vx × Nat) (i : Nat) : Vx × Nat :=
  match VMask.lane k th i with
  | .active =>
    let r := vcond cc t th (elemOf t (t.bits th.fa th.fb) (th.vreg a.reg) i) (vopd t (t.bits th.fa th.fb) th b i)
    (p.1.raise r.2, p.2 + (if r.1 then 2 ^ i else 0))
  | .zero => p
  | .keep => (p.1, p.2 + (if (th.mreg d).getLsbD i then 2 ^ i else 0))

theorem cmpStep_eq (r : BitVec 32) (nv : Bool) (n i : Nat) : ∃ nv', cmpStep cc t k th d a b (⟨{ nv := nv }, r⟩, n) i =
    (⟨{ nv := nv' }, r⟩, n + (cmpBit cc t k th d a b i).toNat * 2 ^ (1 * i)) := by
  have hbit (c : Bool) : (if c = true then 2 ^ i else 0) = c.toNat * 2 ^ (1 * i) := by cases c <;> simp
  unfold cmpStep cmpBit
  cases VMask.lane k th i with
  | active =>
    obtain ⟨nv', hnv⟩ := vcond_flags cc t th (elemOf t (t.bits th.fa th.fb) (th.vreg a.reg) i) (vopd t (t.bits th.fa th.fb) th b i)
    exact ⟨nv || nv', by simp only [Vx.raise, hnv, hbit, Fl.or, Bool.or_self]⟩
  | zero => exact ⟨nv, by simp⟩
  | keep => exact ⟨nv, by simp only [hbit]⟩

/-- R195: the mask is put together from its bits, and at most NV is raised. -/
theorem vcmpMask_eq (r : BitVec 32) : ∃ nv, vcmpMask cc t k th d a b ⟨{}, r⟩ =
    (⟨{ nv := nv }, r⟩, ((List.range t.count).map (fun i => (cmpBit cc t k th d a b i).toNat * 2 ^ (1 * i))).sum) := by
  have hfold (n : Nat) : ∃ nv, (List.range n).foldl (cmpStep cc t k th d a b) (⟨{}, r⟩, 0) =
      (⟨{ nv := nv }, r⟩, ((List.range n).map (fun i => (cmpBit cc t k th d a b i).toNat * 2 ^ (1 * i))).sum) := by
    induction n with
    | zero => exact ⟨false, rfl⟩
    | succ n ih =>
      obtain ⟨nv, hnv⟩ := ih
      obtain ⟨nv', hstep⟩ := cmpStep_eq cc t k th d a b r nv
        ((List.range n).map (fun i => (cmpBit cc t k th d a b i).toNat * 2 ^ (1 * i))).sum n
      exact ⟨nv', by rw [List.range_succ, List.foldl_append, hnv, ← List.range_succ, List.sum_range_succ, ← hstep]; rfl⟩
  exact hfold t.count

end

/-- A number put together from bits holds each of them. -/
theorem testBit_of_sum_bits (p : Nat → Bool) (n j : Nat) :
    ((List.range n).map (fun i => (p i).toNat * 2 ^ (1 * i))).sum.testBit j = (decide (j < n) && p j) := by
  have hlt (i : Nat) : (p i).toNat < 2 ^ 1 := Bool.toNat_lt (p i)
  by_cases hj : j < n
  · have hdigit := digit_of_sum_digits hlt hj
    rw [Nat.one_mul, pow_one] at hdigit
    rw [Nat.testBit_eq_decide_div_mod_eq, hdigit, decide_eq_true hj]
    cases p j <;> rfl
  · have hsum := sum_digits_lt hlt n
    rw [Nat.one_mul] at hsum
    rw [Nat.testBit_lt_two_pow (hsum.trans_le (Nat.pow_le_pow_right (by decide) (not_lt.mp hj))), decide_eq_false hj, Bool.false_and]

theorem scalarDest_of_isM {d : Reg} (h : d.isM = true) : Reg.scalarDest d = true := by
  cases d <;> simp_all [Reg.isM, Reg.scalarDest]

/-! ### VGETL -/

/-- R197: an element that is no integer as a scalar. -/
theorem elemWord_of_not_isInt {t : ETyp} (ht : t.isInt = false) {w n : Nat} (hn : n < 2 ^ w) : elemWord t w n = BitVec.ofNat 64 n := by
  have hsigned : t.signed = false := by cases t <;> simp_all [ETyp.isInt, ETyp.signed]
  simp [elemWord, cellOf, hsigned, Nat.mod_eq_of_lt hn]

/-- R197: an element as a scalar, by its type. -/
theorem elemWord_of_lt (t : ETyp) (fa fb : BitVec 24) {n : Nat} (hn : n < 2 ^ t.bits fa fb) :
    elemWord t (t.bits fa fb) n = if t.isInt then BitVec.ofInt 64 (t.intOf n) else BitVec.ofNat 64 n := by
  cases ht : t.isInt with
  | true => rw [bits_of_isInt ht, elemWord_fixedWidth ht, if_pos rfl]
  | false => exact elemWord_of_not_isInt ht hn

/-! ### MOPS -/

theorem decide_exists_lt_eq_any (p : Nat → Bool) (i : Nat) : decide (∃ j < i, p j = true) = (List.range i).any p := by
  rw [Bool.eq_iff_iff, decide_eq_true_eq, List.any_eq_true]
  simp only [List.mem_range]

/-- R205: the lowest bit that is set. -/
theorem getLsbD_and_neg (x : BitVec 32) {i : Nat} (hi : i < 32) :
    (x &&& -x).getLsbD i = (x.getLsbD i && !(List.range i).any x.getLsbD) := by
  rw [BitVec.getLsbD_and, BitVec.getLsbD_neg, decide_exists_lt_eq_any, decide_eq_true hi]
  cases x.getLsbD i <;> simp

/-- Among the first places at which `p` holds there is one if `p` holds anywhere. -/
theorem any_range_first (p : Nat → Bool) (n : Nat) :
    (List.range n).any (fun j => p j && !(List.range j).any p) = (List.range n).any p := by
  induction n with
  | zero => rfl
  | succ n ih =>
    simp only [List.range_succ, List.any_append, ih, List.any_cons, List.any_nil]
    cases (List.range n).any p <;> cases p n <;> rfl

/-- R205: the bits below the lowest bit that is set; all bits where none is set. -/
theorem getLsbD_and_neg_sub_one (x : BitVec 32) {i : Nat} (hi : i < 32) :
    ((x &&& -x) - 1).getLsbD i = !(List.range (i + 1)).any x.getLsbD := by
  have hany : (List.range i).any (x &&& -x).getLsbD = (List.range i).any x.getLsbD := by
    rw [← any_range_first x.getLsbD, Bool.eq_iff_iff, List.any_eq_true, List.any_eq_true]
    refine exists_congr fun j => and_congr_right fun hj => ?_
    rw [getLsbD_and_neg x ((List.mem_range.mp hj).trans hi)]
  rw [show (x &&& -x) - 1 = ~~~(-(x &&& -x)) from (BitVec.not_neg _).symm, BitVec.getLsbD_not, BitVec.getLsbD_neg,
    decide_exists_lt_eq_any, hany, getLsbD_and_neg x hi, decide_eq_true hi, List.range_succ, List.any_append, List.any_cons, List.any_nil]
  cases (List.range i).any x.getLsbD <;> cases x.getLsbD i <;> rfl

/-- R205: each operation bit by bit. -/
theorem getLsbD_mopsApp (op : MopsOp) (th : Thread) (x : BitVec 32) {i : Nat} (hi : i < 32) :
    (MopsOp.app op th x).getLsbD i =
      match op with
      | .and b => x.getLsbD i && (th.mreg b.reg).getLsbD i
      | .or b => x.getLsbD i || (th.mreg b.reg).getLsbD i
      | .xor b => xor (x.getLsbD i) ((th.mreg b.reg).getLsbD i)
      | .andn b => x.getLsbD i && !(th.mreg b.reg).getLsbD i
      | .not => !x.getLsbD i
      | .first => x.getLsbD i && !(List.range i).any x.getLsbD
      | .below => !(List.range (i + 1)).any x.getLsbD := by
  cases op with
  | and b => exact BitVec.getLsbD_and
  | or b => exact BitVec.getLsbD_or
  | xor b => exact BitVec.getLsbD_xor
  | andn b => simp [MopsOp.app, hi]
  | not => simp [MopsOp.app, hi]
  | first => exact getLsbD_and_neg x hi
  | below =>
    have hzero : MopsOp.app .below th x = (x &&& -x) - 1 := by
      by_cases h : x = 0
      · subst h; rfl
      · exact if_neg h
    rw [hzero]
    exact getLsbD_and_neg_sub_one x hi

theorem scalarDest_of_mz {d : Reg} (h : mz d = true) : Reg.scalarDest d = true := by
  cases d <;> simp_all [mz, Reg.isM, Reg.isZ, Reg.scalarDest]

/-- Settles O20: the mask of VCMP and the operations of MOPS bit by bit, and the element of VGETL as a scalar. -/
theorem vectorCompareGetLaneAndMaskOperations : Obligations.VectorCompareGetLaneAndMaskOperations := by
  unfold Obligations.VectorCompareGetLaneAndMaskOperations
  refine ⟨fun s g cc t k d a b hwf hr hb => ?vcmp, fun s g t d a b hwf hr hb => ?vgetl, fun s g op d a hwf hr => ?mops⟩
  all_goals
    have hok := operandsOk_of_wf hwf
    simp only [Instr.operandsOk, Bool.and_eq_true, and_assoc] at hok
  case vcmp =>
    obtain ⟨nv, hmask⟩ := vcmpMask_eq cc t k s.me d a b s.me.rnd
    refine ⟨_, _, completes_runV_scalar (BitVec.ofNat 64) (exec_vcmp g t d a s cc k b) hr hb (scalarDest_of_isM hok.1) hmask,
      fun j hj => ?_, fun i _ hne => ?_⟩
    · rw [BitVec.getLsbD_ofNat, testBit_of_sum_bits, decide_eq_true (show j < 64 by omega), Bool.true_and]
      rfl
    · rw [getLsbD_or_bits_nv, if_neg hne]
  case vgetl =>
    refine completes_runV_out (exec_vgetl g t d a s b) hr hb (gz_scalarDest hok.1) ?_
    rw [← elemWord_of_lt t s.me.fa s.me.fb (elemOf_lt ..)]
  case mops =>
    have h := completes_runV_scalar (fun v : BitVec 32 => v.setWidth 64) (exec_mops g d a s op) hr rfl (scalarDest_of_mz hok.1) rfl
    have hpw : s.me.pw ||| Fl.bits {} = s.me.pw := BitVec.or_zero
    rw [hpw] at h
    exact ⟨_, h, fun i hi => getLsbD_mopsApp op s.me _ hi⟩

end Sys2Proof.Machine
end

section
/-! Format registers (R38, R190, R211): FMTBAD of vector instructions, and FMTLD (O23). -/

namespace Sys2Proof.Machine

section
variable (g : Guard) (t : ETyp) (rm : RM) (k : VMask) (d : Reg) (a b : Src) (s : State)

theorem exec_vmul (sat : Bool) : exec (.vmul g sat t rm k d a b) s = execVmul g sat t rm k d a b s := rfl
theorem exec_vdiv : exec (.vdiv g t rm k d a b) s = execVdiv g t rm k d a b s := rfl
theorem exec_vmin : exec (.vmin g t k d a b) s = execVmin g t k d a b s := rfl
theorem exec_vand : exec (.vand g t k d a b) s = execVand g t k d a b s := rfl
theorem exec_fmtld (op : FmtldOp) : exec (.fmtld g op) s = execFmtld g op s := rfl

end

/-! ### FMTBAD (R190) -/

/-- R190: an elementwise instruction whose format register is invalid traps with that register's value. -/
theorem traps_runElem {i : Instr} {s : State} {g : Guard} {k : VMask} {t : ETyp} {rm : RM} {d : Reg} {a b c : Src}
    {f : Thread → RM → Nat → Nat → Nat → Vx → Vx × Nat} {r : BitVec 24} (he : exec i s = runElem s g k t rm d a b c f)
    (hr : s.runs g (vneed k d [a, b, c] []) = true) (hb : badFmt s.me.fa s.me.fb [t] = some r) : Traps i s 0x19 (r.setWidth 64) := by
  unfold runElem runV at he
  exact traps_of he hr (by simp only [hb])

/-! ### FMTLD (R211) -/

/-- An instruction without destinations that leaves `u` but for what it writes of its thread completes as `u`. -/
theorem completes_as_wrote {i : Instr} {s u u' : State} {g : Guard} {n : Need} {f : State → Thread → Res} {pw : BitVec 32}
    (he : exec i s = run s g n f) (hr : s.runs g n = true) (hn : n.dests ++ n.fills = []) (hf : f s s.me = .ok u') (hc : u.cur = s.cur)
    (hw : u.Wrote u' { Out.none s with pw := pw }) : CompletesAs i s u (s.outPw n.srcs pw) := by
  have h := hw.retire (takesOf n.srcs []) n.outside (s.me.pc + 8) 0 false (by simp [Reg.tagged]) (by simp [Reg.tagged])
  rw [hc] at h
  exact ⟨_, by rw [he, run_eq f hr, hf, hn]; rfl, h.takes _ (fun r hr => (mem_takesOf_z n.srcs [] r hr).symm)⟩

section
variable {s : State} {g : Guard} {a : Src} {f : Thread → BitVec 24 → Thread}

theorem State.setFmt_valid {v : Word} (h : fmtValid (v.setWidth 24) = true) :
    s.setFmt v f = .ok (s.modThread s.cur (fun t => f t (v.setWidth 24))) := if_pos h

theorem State.setFmt_invalid {v : Word} (h : fmtValid (v.setWidth 24) = false) :
    s.setFmt v f = .trap 0x19 ((v.setWidth 24 : BitVec 24).setWidth 64) := if_neg (by simp [h])

/-- R211: a format register written with a valid value. -/
theorem fmtld_completes {i : Instr} (he : exec i s = run s g { ext := .vec, srcs := [a] } (fun s t => s.setFmt (t.reg a.reg) f))
    (hr : s.runs g { ext := .vec, srcs := [a] } = true) (hpw : ∀ t r, (f t r).pw = t.pw) (hrnd : ∀ t r, (f t r).rnd = t.rnd)
    (h : fmtValid ((s.me.reg a.reg).setWidth 24) = true) :
    CompletesAs i s (s.modThread s.cur (fun t => f t ((s.me.reg a.reg).setWidth 24))) (s.outPw [a] s.me.pw) := by
  refine completes_as_wrote he hr rfl (State.setFmt_valid h) rfl ?_
  have hw := State.Wrote.refl (s.modThread s.cur (fun t => f t ((s.me.reg a.reg).setWidth 24)))
  rwa [Out.none, State.me_modThread, hpw, hrnd] at hw

end

/-! ### FMTLD from a descriptor -/

/-- R7: a word read from memory holds its eight bytes. -/
theorem State.holds_peekW (s : State) (pa : Nat) : Holds s pa 8 false (s.peekW pa) := s.holds_extend_peek pa .w false

/-- The type of a descriptor is its upper four bits. -/
theorem extractLsb'_type_eq_three (v : Word) : v.extractLsb' 60 4 = 3 ↔ v.toNat / 2 ^ 60 = 3 := by
  have hlt : v.toNat / 2 ^ 60 < 2 ^ 4 := Nat.div_lt_of_lt_mul v.isLt
  rw [← BitVec.toNat_inj, BitVec.extractLsb'_toNat, Nat.shiftRight_eq_div_pow, Nat.mod_eq_of_lt hlt]
  rfl

/-- R211: the rounding mode of a descriptor, put into pw. -/
theorem getLsbD_put_rm (pw : BitVec 32) (v : Word) {i : Nat} (hi : i < 32) :
    (PwField.put .rm pw ((v.extractLsb' 5 3).setWidth 64)).getLsbD i = if 21 ≤ i ∧ i ≤ 23 then v.getLsbD (i - 16) else pw.getLsbD i := by
  refine (getLsbD_replaced (getLsbD_pwMasks hi).2.2.2.1 And.left hi).trans ?_
  split_ifs with h
  · rw [BitVec.getLsbD_setWidth, BitVec.getLsbD_extractLsb', decide_eq_true (show i - 21 < 64 by omega),
      decide_eq_true (show i - 21 < 3 by omega), show 5 + (i - 21) = i - 16 by omega]
    simp
  · rfl

section
variable {s s1 : State} {g : Guard} {n : BitVec 2} {pa : Nat} {leaf : Option Word} (hr : s.runs g { ext := .vec } = true)
include hr

/-- R211: no descriptor. -/
theorem fmtldFsh_zero (h : s.me.fsh[n.toNat]'n.isLt = 0) : Traps (.fmtld g (.fsh n)) s 0x1A 0 :=
  traps_of (exec_fmtld g s (.fsh n)) hr (if_pos h)

/-- R211: a misaligned descriptor. -/
theorem fmtldFsh_misaligned (h0 : s.me.fsh[n.toNat]'n.isLt ≠ 0) (h : (s.me.fsh[n.toNat]'n.isLt).toNat % 64 ≠ 0) :
    Traps (.fmtld g (.fsh n)) s 0x04 (s.me.fsh[n.toNat]'n.isLt) := by
  have hlow : (s.me.fsh[n.toNat]'n.isLt).extractLsb' 0 6 ≠ 0 := fun e => h ((extractLsb'_low_eq_zero _ 6).mp e)
  refine traps_of (exec_fmtld g s (.fsh n)) hr ((if_neg h0).trans (if_pos (by simpa using hlow)))

end

/-- R211: FMTLD reads a descriptor at a local home. -/
theorem fmtldFsh_reads {s s1 : State} (g : Guard) {n : BitVec 2} {pa : Nat} {leaf : Option Word} (h0 : s.me.fsh[n.toNat]'n.isLt ≠ 0)
    (halign : (s.me.fsh[n.toNat]'n.isLt).toNat % 64 = 0) (hl : s.local_ (s.me.fsh[n.toNat]'n.isLt) 8 .load s1 pa leaf)
    (hp : s1.poisoned pa 8 = false) (hst : s.me.storing pa 8 = false) (hf : s1.fencedFrom s.me.core pa = false) :
    ∃ f, exec (.fmtld g (.fsh n)) s = run s g { ext := .vec } f ∧
      f s s.me = s1.fmtFrom (s.me.fsh[n.toNat]'n.isLt) (s1.peekW pa) := by
  obtain ⟨hreach, hhome, hshadow, -, hgated⟩ := hl
  have hlow : (s.me.fsh[n.toNat]'n.isLt).extractLsb' 0 6 = 0 := (extractLsb'_low_eq_zero _ 6).mpr halign
  refine ⟨_, exec_fmtld g s (.fsh n), ?_⟩
  simp only [if_neg h0, hlow, (State.access_of_reach hreach).1, hhome, hst, hf, hshadow, s1.viewOf_false, hp, s1.view_eq_peek s.me hgated]
  rfl

/-- R211: a descriptor of another type. -/
theorem State.fmtFrom_bad {s : State} {p d : Word} (h : d.toNat / 2 ^ 60 ≠ 3) : s.fmtFrom p d = .trap 0x1A p := by
  have htype : d.extractLsb' 60 4 ≠ 3 := fun e => h ((extractLsb'_type_eq_three d).mp e)
  exact if_pos (by simpa using htype)

/-- R211: a descriptor of two valid formats: fa and fb are as in `modThread`, and the mode goes to pw. -/
theorem State.fmtFrom_good {s : State} {p d : Word} (h : d.toNat / 2 ^ 60 = 3) (hfa : fmtValid (d.extractLsb' 32 24) = true)
    (hfb : fmtValid (d.extractLsb' 8 24) = true) :
    s.fmtFrom p d = .ok ((s.modThread s.cur (fun t => { t with fa := d.extractLsb' 32 24, fb := d.extractLsb' 8 24 })).modThread s.cur
      (fun t => { t with pw := PwField.put .rm t.pw ((d.extractLsb' 5 3).setWidth 64) })) := by
  have htype : d.extractLsb' 60 4 = 3 := (extractLsb'_type_eq_three d).mpr h
  rw [State.modThread_modThread]
  simp [State.fmtFrom, htype, hfa, hfb]

/-- R211: FMTLD from a descriptor of two valid formats. -/
theorem fmtldFsh_completes {i : Instr} {s s1 : State} {g : Guard} {f : State → Thread → Res} {p d : Word}
    (he : exec i s = run s g { ext := .vec } f) (hr : s.runs g { ext := .vec } = true) (hc : s.Cached s1)
    (hf : f s s.me = s1.fmtFrom p d) (h : d.toNat / 2 ^ 60 = 3) (hfa : fmtValid (d.extractLsb' 32 24) = true)
    (hfb : fmtValid (d.extractLsb' 8 24) = true) :
    CompletesAs i s (s1.modThread s.cur (fun t => { t with fa := d.extractLsb' 32 24, fb := d.extractLsb' 8 24 }))
      (s.outPw [] (PwField.put .rm s.me.pw ((d.extractLsb' 5 3).setWidth 64))) := by
  obtain ⟨hcur, hme⟩ := hc.cur_me
  rw [← hcur]
  have hw := (State.Wrote.refl (s1.modThread s1.cur (fun t => { t with fa := d.extractLsb' 32 24, fb := d.extractLsb' 8 24 }))).modPw
    (by simp) (fun pw => PwField.put .rm pw ((d.extractLsb' 5 3).setWidth 64))
  rw [Out.none, State.me_modThread, hme] at hw
  exact completes_as_wrote he hr rfl (hf.trans (State.fmtFrom_good h hfa hfb)) hcur hw

/-- Settles O23: the check of R190 comes first in every vector instruction; FMTLD is read off its effect, branch by branch. -/
theorem formatRegistersAndFormatTraps : Obligations.FormatRegistersAndFormatTraps := by
  unfold Obligations.FormatRegistersAndFormatTraps
  refine ⟨fun s g k d a b rm t r hb hr => ⟨fun sat => ⟨?vadd, ?vmul⟩, ?vdiv, ?vmin, ?vand⟩, fun s g a hwf hr => ⟨?a, ?b, ?bad⟩,
    fun s s1 g n pa leaf hr => ⟨?zero, ?misaligned, fun h0 halign hl hp hst hf => ?reads⟩⟩
  case vadd => exact traps_runElem (exec_vadd g sat t rm k d a b s) hr hb
  case vmul => exact traps_runElem (exec_vmul g t rm k d a b s sat) hr hb
  case vdiv => exact traps_runElem (exec_vdiv g t rm k d a b s) hr hb
  case vmin => exact traps_runElem (exec_vmin g t k d a b s) hr hb
  case vand => exact traps_runElem (exec_vand g t k d a b s) hr hb
  case a => exact fmtld_completes (exec_fmtld g s (.a a)) hr (fun _ _ => rfl) (fun _ _ => rfl)
  case b => exact fmtld_completes (exec_fmtld g s (.b a)) hr (fun _ _ => rfl) (fun _ _ => rfl)
  case bad =>
    exact fun h => ⟨traps_of (exec_fmtld g s (.a a)) hr (State.setFmt_invalid h), traps_of (exec_fmtld g s (.b a)) hr (State.setFmt_invalid h)⟩
  case zero => exact fmtldFsh_zero hr
  case misaligned => exact fmtldFsh_misaligned hr
  case reads =>
    obtain ⟨f, he, hf⟩ := fmtldFsh_reads g h0 halign hl hp hst hf
    have hc := (State.access_of_reach hl.1).2
    refine ⟨s1.peekW pa, s1.holds_peekW pa, fun h => traps_of he hr (hf.trans (State.fmtFrom_bad h)), fun h hfa hfb => ?_⟩
    exact ⟨_, hc, fmtldFsh_completes he hr hc hf h hfa hfb, fun i hi => getLsbD_put_rm _ _ hi⟩

end Sys2Proof.Machine
end

section
/-! The words of a vector access (R206 to R208): elements of whole bytes fall into the words that hold them, each word with its
elements in ascending order. -/

namespace Sys2Proof.Machine

/-! ### Words -/

theorem wordOf_le (a : Nat) : wordOf a ≤ a := Nat.div_mul_le_self a 8

theorem wordOf_add_mod (a : Nat) : wordOf a + a % 8 = a := by unfold wordOf; omega

/-- R243: the home of an address is that of its word. -/
theorem homeOf_wordOf (a : Nat) : homeOf (wordOf a) = homeOf a := by
  have hhost : hostBase ≤ wordOf a ↔ hostBase ≤ a := by unfold hostBase wordOf; omega
  have htcm : tcmBase ≤ wordOf a ↔ tcmBase ≤ a := by unfold tcmBase wordOf; omega
  have hpool : poolBase ≤ wordOf a ↔ poolBase ≤ a := by unfold poolBase wordOf; omega
  have hdeck : deckBase ≤ wordOf a ↔ deckBase ≤ a := by unfold deckBase wordOf; omega
  have htcmNo : (wordOf a - tcmBase) / 262144 = (a - tcmBase) / 262144 := by unfold tcmBase wordOf; omega
  have hpoolNo : (wordOf a - poolBase) / 536870912 = (a - poolBase) / 536870912 ∧
      (wordOf a - poolBase) / 8388608 = (a - poolBase) / 8388608 := by unfold poolBase wordOf; omega
  have hdeckNo : (wordOf a - deckBase) / 134217728 = (a - deckBase) / 134217728 ∧
      (wordOf a - deckBase) % 134217728 / 128 = (a - deckBase) % 134217728 / 128 := by unfold deckBase wordOf; omega
  have hvault : wordOf a / 274877906944 = a / 274877906944 ∧ wordOf a / 8589934592 = a / 8589934592 := by unfold wordOf; omega
  simp only [homeOf, hhost, htcm, hpool, hdeck, htcmNo, hpoolNo, hdeckNo, hvault]

/-! ### Elements of whole bytes -/

/-- R35: the width of an element that is no narrow float is a number of bytes. -/
theorem fixedWidth_mod_eight {t : ETyp} (h : t.isNarrow = false) : t.fixedWidth % 8 = 0 := by
  cases t <;> simp_all [ETyp.isNarrow, ETyp.fixedWidth]

section
variable (t : ETyp) (addr : Nat → Nat)

/-- R186, R206: the one part of an element of whole bytes at `addr i`. -/
def partOf (i : Nat) : LanePart := ⟨ETyp.cell t * i, addr i % 8 * 8, t.fixedWidth, ETyp.cell t, t.signed⟩

/-- An element at a multiple of its bytes lies in one word. -/
theorem fit_of_aligned {a : Nat} (h : a % (t.fixedWidth / 8) = 0) : a % 8 * 8 + t.fixedWidth ≤ 64 := by
  cases t <;> simp [ETyp.fixedWidth] at h ⊢ <;> omega

theorem elemParts_of_aligned {i : Nat} (h : addr i % (t.fixedWidth / 8) = 0) :
    elemParts t t.fixedWidth i (addr i) 0 = [(wordOf (addr i), addr i, partOf t addr i)] := if_pos (fit_of_aligned t h)

/-- The words of whole-byte elements, from their indices. -/
def elemWords (is : List Nat) : List VWord :=
  is.foldl (fun ws i => addPart ws (wordOf (addr i)) (addr i) (partOf t addr i)) []

theorem vwords_eq_elemWords {is : List Nat} (h : ∀ i ∈ is, addr i % (t.fixedWidth / 8) = 0) :
    vwords t t.fixedWidth (is.map (fun i => (i, addr i, 0))) = elemWords t addr is := by
  have hflat : (is.map (fun i => (i, addr i, 0))).flatMap (fun e => elemParts t t.fixedWidth e.1 e.2.1 e.2.2) =
      is.map (fun i => (wordOf (addr i), addr i, partOf t addr i)) := by
    rw [List.flatMap_map, List.flatMap_congr (fun i hi => elemParts_of_aligned t addr (h i hi))]
    exact List.map_eq_flatMap.symm
  rw [vwords, hflat, List.foldl_map]
  rfl

end

/-! ### One more part -/

theorem va_addPart (ws : List VWord) (va first : Nat) (p : LanePart) :
    (addPart ws va first p).map VWord.va = if va ∈ ws.map VWord.va then ws.map VWord.va else ws.map VWord.va ++ [va] := by
  induction ws with
  | nil => rfl
  | cons x l ih =>
    rw [addPart]
    by_cases hx : x.va = va
    · simp [hx]
    · rw [if_neg hx, List.map_cons, ih]
      by_cases hl : va ∈ l.map VWord.va
      · rw [if_pos hl, List.map_cons, if_pos (List.mem_cons_of_mem _ hl)]
      · rw [if_neg hl, List.map_cons, if_neg (by simp only [List.mem_cons, not_or]; exact ⟨Ne.symm hx, hl⟩), List.cons_append]

/-- The words after one more part: those of other addresses, and the one at `va` with the part appended. -/
theorem mem_addPart {ws : List VWord} (hn : (ws.map VWord.va).Nodup) {va first : Nat} {p : LanePart} {x : VWord}
    (h : x ∈ addPart ws va first p) : (x.va ≠ va ∧ x ∈ ws) ∨ (∃ y ∈ ws, y.va = va ∧ x = { y with parts := y.parts ++ [p] }) ∨
      (va ∉ ws.map VWord.va ∧ x = ⟨va, first, [p]⟩) := by
  induction ws with
  | nil => simp_all [addPart]
  | cons y l ih =>
    rw [List.map_cons, List.nodup_cons] at hn
    obtain ⟨hy, hn⟩ := hn
    rw [addPart] at h
    split_ifs at h with hva
    · rcases List.mem_cons.mp h with rfl | hx
      · exact .inr (.inl ⟨y, List.mem_cons_self, hva, rfl⟩)
      · exact .inl ⟨fun e => hy (hva ▸ e ▸ List.mem_map_of_mem hx), List.mem_cons_of_mem y hx⟩
    · rcases List.mem_cons.mp h with rfl | hx
      · exact .inl ⟨hva, List.mem_cons_self⟩
      · rcases ih hn hx with ⟨hne, hmem⟩ | ⟨z, hz, hzva, rfl⟩ | ⟨hno, rfl⟩
        · exact .inl ⟨hne, List.mem_cons_of_mem y hmem⟩
        · exact .inr (.inl ⟨z, List.mem_cons_of_mem y hz, hzva, rfl⟩)
        · exact .inr (.inr ⟨by simp [hno, Ne.symm hva], rfl⟩)

/-! ### The words of a list of elements -/

/-- R208: the words of the elements `is`: of different addresses, each with the parts of its elements in their order, and with an
address of one of them. -/
structure WordsOf (t : ETyp) (addr : Nat → Nat) (is : List Nat) (ws : List VWord) : Prop where
  nodup : (ws.map VWord.va).Nodup
  parts : ∀ x ∈ ws, x.parts = (is.filter (fun i => wordOf (addr i) = x.va)).map (partOf t addr)
  first : ∀ x ∈ ws, ∃ i ∈ is, x.first = addr i ∧ x.va = wordOf (addr i)
  mem : ∀ i ∈ is, wordOf (addr i) ∈ ws.map VWord.va

theorem WordsOf.addPart {t : ETyp} {addr : Nat → Nat} {is : List Nat} {ws : List VWord} (h : WordsOf t addr is ws) (i : Nat) :
    WordsOf t addr (is ++ [i]) (addPart ws (wordOf (addr i)) (addr i) (partOf t addr i)) := by
  have hva := va_addPart ws (wordOf (addr i)) (addr i) (partOf t addr i)
  refine ⟨?_, fun x hx => ?_, fun x hx => ?_, fun k hk => ?_⟩
  · rw [hva]
    split_ifs with hin
    · exact h.nodup
    · exact List.nodup_append_comm.mp (List.nodup_cons.mpr ⟨hin, h.nodup⟩)
  · rcases mem_addPart h.nodup hx with ⟨hne, hmem⟩ | ⟨y, hy, hyva, rfl⟩ | ⟨hno, rfl⟩
    · rw [h.parts x hmem]
      simp [List.filter_append, Ne.symm hne]
    · simp [h.parts y hy, List.filter_append, hyva]
    · have hnone : is.filter (fun k => decide (wordOf (addr k) = wordOf (addr i))) = [] :=
        List.filter_eq_nil_iff.mpr fun k hk e => hno (of_decide_eq_true e ▸ h.mem k hk)
      simp [List.filter_append, hnone]
  · rcases mem_addPart h.nodup hx with ⟨hne, hmem⟩ | ⟨y, hy, hyva, rfl⟩ | ⟨hno, rfl⟩
    · obtain ⟨k, hk, hfirst⟩ := h.first x hmem
      exact ⟨k, List.mem_append_left _ hk, hfirst⟩
    · obtain ⟨k, hk, hfirst⟩ := h.first y hy
      exact ⟨k, List.mem_append_left _ hk, hfirst⟩
    · exact ⟨i, by simp, rfl, rfl⟩
  · rw [hva]
    rcases List.mem_append.mp hk with hk | hk
    · have := h.mem k hk
      split_ifs <;> simp_all
    · obtain rfl := List.mem_singleton.mp hk
      split_ifs <;> simp_all

theorem elemWords_spec (t : ETyp) (addr : Nat → Nat) (is : List Nat) : WordsOf t addr is (elemWords t addr is) := by
  induction is using List.reverseRecOn with
  | nil => exact ⟨List.nodup_nil, by simp [elemWords], by simp [elemWords], by simp⟩
  | append_singleton is i ih =>
    rw [elemWords, List.foldl_append]
    exact ih.addPart i

end Sys2Proof.Machine
end

section
/-! The checks of a vector access, and vector loads (R187, R206 to R209) from memory of the thread's own core or cluster. -/

namespace Sys2Proof.Machine

/-! ### The checks (R208) -/

/-- What the checks make of a word at a window address. -/
def VWord.checked (x : VWord) : VWord × Rslt := (x, .at x.first none)

/-- A word at a window address after its check. -/
def VWord.served (x : VWord) : VAt := ⟨x, x.va, none⟩

theorem State.resolveAll_of_own {s : State} {c : Ctx} {k : Acc} {ws : List VWord}
    (h : ∀ x ∈ ws, s.resolve c (BitVec.ofNat 64 x.first) k = (s, .at x.first none)) : s.resolveAll c k ws = (s, ws.map VWord.checked) := by
  induction ws with
  | nil => rfl
  | cons x l ih =>
    rw [State.resolveAll, h x List.mem_cons_self]
    dsimp only
    rw [ih (fun y hy => h y (List.mem_cons_of_mem x hy))]
    rfl

theorem failedWith_checked (ws : List VWord) (cause : Nat) : failedWith (ws.map VWord.checked) cause = none := by
  simp [failedWith, VWord.checked]

/-- R208: the checks let an aligned access of whole-byte elements to own windows through, and leave the state alone. -/
theorem State.vaccess_of_own {s : State} {t : ETyp} {l : List (Nat × Nat × Nat)} {ws : List VWord} {kind : Acc} {f : State → List VAt → Res}
    (hal : ∀ e ∈ l, e.2.1 % (t.fixedWidth / 8) = 0)
    (hres : ∀ x ∈ ws, s.resolve s.me.ctx (BitVec.ofNat 64 x.first) kind = (s, .at x.first none))
    (hva : ∀ x ∈ ws, wordOf x.first = x.va) : s.vaccess t l ws kind f = f s (ws.map VWord.served) := by
  have hfind : (if t.isNarrow then none else l.find? (fun e => decide (e.2.1 % (t.fixedWidth / 8) ≠ 0))) = none := by
    split_ifs
    · rfl
    · exact List.find?_eq_none.mpr fun e he => by simp [hal e he]
  have habsent : (ws.map VWord.checked).find? (fun p => decide (p.2 = .absent)) = none := by
    simp [VWord.checked]
  have hserved : (ws.map VWord.checked).filterMap (fun p => match p.2 with
      | .at pa leaf => some (⟨p.1, wordOf pa, leaf⟩ : VAt)
      | _ => none) = ws.map VWord.served := by
    rw [List.filterMap_map, ← List.filterMap_eq_map]
    refine List.filterMap_congr fun x hx => ?_
    simp [VWord.checked, VWord.served, hva x hx]
  rw [State.vaccess, hfind]
  dsimp only
  rw [State.resolveAll_of_own hres]
  simp only [failedWith_checked, Option.or_none, habsent]
  exact congrArg (f s) hserved

/-- R206, R208: what the elements `is` need to be accessed in memory of the thread's own core or cluster. -/
def State.Owns (s : State) (k : Acc) (t : ETyp) (addr : Nat → Nat) (is : List Nat) : Prop :=
  ∀ i ∈ is, addr i % (t.fixedWidth / 8) = 0 ∧ s.resolve s.me.ctx (BitVec.ofNat 64 (addr i)) k = (s, .at (addr i) none) ∧
    homeLocal s.me.core (homeOf (addr i)) = true ∧ s.poisoned (wordOf (addr i)) 8 = false

theorem State.owns_of_mine {s : State} {k : Acc} {t : ETyp} {addr : Nat → Nat} {is : List Nat}
    (h : ∀ i ∈ is, addr i % (t.fixedWidth / 8) = 0 ∧ s.mine k (addr i) (t.fixedWidth / 8)) : s.Owns k t addr is := by
  have hpos : 0 < t.fixedWidth / 8 := by cases t <;> decide
  intro i hi
  obtain ⟨hal, hmine⟩ := h i hi
  exact ⟨hal, hmine (addr i) le_rfl (by omega)⟩

theorem bits_of_not_isNarrow {t : ETyp} (h : t.isNarrow = false) (fa fb : BitVec 24) : t.bits fa fb = t.fixedWidth := by
  simp [ETyp.bits, h]

theorem badFmt_of_not_isNarrow {t : ETyp} (h : t.isNarrow = false) (fa fb : BitVec 24) : badFmt fa fb [t] = none := by
  cases t <;> simp_all [ETyp.isNarrow, badFmt]

/-- R206, R208: a vector memory instruction comes to the words of its elements. -/
theorem exec_of_runVmem {i : Instr} {s : State} {g : Guard} {n : Need} {t : ETyp} {kind : Acc}
    {elems : Thread → Nat → List (Nat × Nat × Nat)} {f : State → Thread → List VAt → Res} {is : List Nat} {addr : Nat → Nat}
    (he : exec i s = runVmem s g n t kind elems f) (ht : t.isNarrow = false)
    (hel : elems s.me t.fixedWidth = is.map (fun i => (i, addr i, 0))) (ho : s.Owns kind t addr is) :
    ∃ F, exec i s = run s g n F ∧ F s s.me = f s s.me ((elemWords t addr is).map VWord.served) := by
  have hspec := elemWords_spec t addr is
  refine ⟨_, he, ?_⟩
  simp only [badFmt_of_not_isNarrow ht, bits_of_not_isNarrow ht, hel]
  rw [vwords_eq_elemWords t addr (fun i hi => (ho i hi).1), State.vaccess_of_own]
  · intro e he
    obtain ⟨i, hi, rfl⟩ := List.mem_map.mp he
    exact (ho i hi).1
  · intro x hx
    obtain ⟨i, hi, hfirst, -⟩ := hspec.first x hx
    rw [hfirst]
    exact (ho i hi).2.1
  · intro x hx
    obtain ⟨i, hi, hfirst, hva⟩ := hspec.first x hx
    rw [hfirst, hva]

end Sys2Proof.Machine
end

section
/-! Vector loads (R187, R206, R207, R209): the register is put together from the words, and each element is the bytes at its address. -/

namespace Sys2Proof.Machine

/-! ### Elements of a register that is put together -/

/-- R186: an element of the bits of two registers. -/
theorem elemOf_or (t : ETyp) (w : Nat) (u v : BitVec 1024) (j : Nat) : elemOf t w (u ||| v) j = elemOf t w u j ||| elemOf t w v j := by
  simp only [elemOf, BitVec.toNat_or, ← Nat.shiftRight_eq_div_pow, Nat.shiftRight_or_distrib, Nat.or_mod_two_pow]

theorem sum_map_filter_eq_sum_map_ite (l : List Nat) (p : Nat → Bool) (f : Nat → Nat) :
    ((l.filter p).map f).sum = (l.map (fun i => if p i then f i else 0)).sum := by
  induction l with
  | nil => rfl
  | cons i l ih => cases hi : p i <;> simp [hi, ih]

section
variable {t : ETyp} {addr : Nat → Nat} {on : Nat → Bool}

/-- R206: the elements in a word, as digits of the register. -/
theorem elemOf_laneBits (va : Nat) (x : Word) {j : Nat} (hj : j < t.count) :
    elemOf t (ETyp.cell t) (laneBits ((((List.range t.count).filter on).filter (fun i => wordOf (addr i) = va)).map (partOf t addr)) x) j =
      if on j = true ∧ wordOf (addr j) = va then cellOf (ETyp.cell t) t.fixedWidth t.signed (x.toNat / 2 ^ (addr j % 8 * 8)) else 0 := by
  have hdigits : laneBits ((((List.range t.count).filter on).filter (fun i => wordOf (addr i) = va)).map (partOf t addr)) x =
      BitVec.ofNat 1024 ((List.range t.count).map (fun i => (if on i = true ∧ wordOf (addr i) = va then
        cellOf (ETyp.cell t) t.fixedWidth t.signed (x.toNat / 2 ^ (addr i % 8 * 8)) else 0) * 2 ^ (ETyp.cell t * i))).sum := by
    have hsum (l : List Nat) (f : Nat → Nat) : l.foldl (fun n i => n + f i) 0 = (l.map f).sum := by
      rw [List.sum_eq_foldl, List.foldl_map]
    rw [laneBits, List.foldl_map, List.filter_filter, hsum, sum_map_filter_eq_sum_map_ite]
    refine congrArg (fun l : List Nat => BitVec.ofNat 1024 l.sum) (List.map_congr_left fun i _ => ?_)
    by_cases hi : on i = true ∧ wordOf (addr i) = va
    · simp [hi, partOf]
    · rw [if_neg hi, if_neg (by simpa [and_comm] using hi), Nat.zero_mul]
  have hlt (i : Nat) : (if on i = true ∧ wordOf (addr i) = va then
      cellOf (ETyp.cell t) t.fixedWidth t.signed (x.toNat / 2 ^ (addr i % 8 * 8)) else 0) < 2 ^ ETyp.cell t := by
    split_ifs
    · exact cellOf_lt (fixedWidth_le_cell t) _ _
    · exact Nat.two_pow_pos _
  rw [hdigits, elemOf, toNat_ofNat_sum_digits (cell_mul_count t) hlt, digit_of_sum_digits hlt hj]

/-- R209: the bits of words, ORed into a register. -/
def orWords (s : State) (base : BitVec 1024) (ws : List VWord) : BitVec 1024 :=
  ws.foldl (fun b x => b ||| laneBits x.parts (s.peekW x.va)) base

/-- R209: an element of the register comes from the one word that holds it, whatever the other words are. -/
theorem elemOf_orWords (s : State) {ws : List VWord} {j : Nat} (hj : j < t.count)
    (hparts : ∀ x ∈ ws, x.parts = (((List.range t.count).filter on).filter (fun i => wordOf (addr i) = x.va)).map (partOf t addr))
    (base : BitVec 1024) :
    elemOf t (ETyp.cell t) (orWords s base ws) j =
      if on j = true ∧ wordOf (addr j) ∈ ws.map VWord.va then elemOf t (ETyp.cell t) base j |||
        cellOf (ETyp.cell t) t.fixedWidth t.signed ((s.peekW (wordOf (addr j))).toNat / 2 ^ (addr j % 8 * 8))
      else elemOf t (ETyp.cell t) base j := by
  induction ws generalizing base with
  | nil => simp [orWords]
  | cons x l ih =>
    have hx := elemOf_laneBits (addr := addr) (on := on) x.va (s.peekW x.va) hj
    rw [← hparts x List.mem_cons_self] at hx
    have hcons : orWords s base (x :: l) = orWords s (base ||| laneBits x.parts (s.peekW x.va)) l := rfl
    rw [hcons, ih (fun y hy => hparts y (List.mem_cons_of_mem x hy)), elemOf_or, hx, List.map_cons]
    by_cases hon : on j = true
    · by_cases hva : wordOf (addr j) = x.va
      · simp only [hon, hva, true_and, if_true, List.mem_cons, true_or, Nat.or_assoc, Nat.or_self, ite_self]
      · simp [hon, hva]
    · simp [hon]

end

/-- R7: the bytes at an address, out of the word that holds them. -/
theorem State.peekW_wordOf (s : State) {a w : Nat} (h : a % 8 * 8 + w ≤ 64) (c : Nat) (sx : Bool) (hw : w % 8 = 0) :
    cellOf c w sx ((s.peekW (wordOf a)).toNat / 2 ^ (a % 8 * 8)) = cellOf c w sx (s.peek a (w / 8)) := by
  have hmod : (s.peekW (wordOf a)).toNat / 2 ^ (a % 8 * 8) % 2 ^ w = s.peek a (w / 8) % 2 ^ w := by
    refine Nat.eq_of_testBit_eq fun i => ?_
    rw [Nat.testBit_mod_two_pow, Nat.testBit_mod_two_pow, Nat.testBit_div_two_pow, State.peekW, BitVec.testBit_toNat,
      BitVec.getLsbD_ofNat, State.testBit_peek, State.testBit_peek]
    by_cases hi : i < w
    · have hbyte : wordOf a + (i + a % 8 * 8) / 8 = a + i / 8 ∧ (i + a % 8 * 8) % 8 = i % 8 := by unfold wordOf; omega
      rw [hbyte.1, hbyte.2, decide_eq_true (show i + a % 8 * 8 < 64 by omega),
        decide_eq_true (show i < 8 * (w / 8) by omega), Bool.true_and, Bool.true_and]
    · rw [decide_eq_false hi, Bool.false_and, Bool.false_and]
  simp only [cellOf, hmod]

/-! ### The instructions -/

section
variable {s : State} {keep : Bool} {base : BitVec 1024} {ws : List VWord}

/-- R209: words at a local home are read directly. -/
theorem State.loadWords_of_own {n : Nat} (h : ∀ x ∈ ws, homeLocal s.me.core (homeOf x.va) = true) (hg : s.me.gated = []) :
    s.loadWords n keep base (ws.map VWord.served) = (s, orWords s base ws) := by
  induction ws generalizing base with
  | nil => rfl
  | cons x l ih =>
    have hview : s.view (s.thread s.cur) false x.va 8 = s.peek x.va 8 := s.view_eq_peek _ hg 8 x.va
    have hdirect : x.served.direct (s.thread s.cur) = true := h x List.mem_cons_self
    rw [List.map_cons, State.loadWords]
    dsimp only
    rw [if_pos hdirect, show leafShadow x.served.leaf = false from rfl, show x.served.pa = x.va from rfl, hview,
      ih (fun y hy => h y (List.mem_cons_of_mem x hy))]
    rfl

/-- R209: a vector load from own memory writes its register. -/
theorem State.vload_of_own {n} (h : ∀ x ∈ ws, homeLocal s.me.core (homeOf x.va) = true) (hp : ∀ x ∈ ws, s.poisoned x.va 8 = false)
    (hpair : s.paired s.me = false) (hg : s.me.gated = []) (haw : s.me.awaited (.v n) = false) :
    s.vload (.v n) keep base (ws.map VWord.served) = .ok (s.writeV s.cur (.v n) (orWords s base ws)) := by
  have hdirect (x : VAt) (hx : x ∈ ws.map VWord.served) : x.direct s.me = true := by
    obtain ⟨y, hy, rfl⟩ := List.mem_map.mp hx
    exact h y hy
  have hpoison : (ws.map VWord.served).find? (fun x => x.direct (s.thread s.cur) &&
      s.poisoned (s.viewOf (s.thread s.cur).domid (leafShadow x.leaf) x.pa) 8) = none := by
    refine List.find?_eq_none.mpr fun x hx => ?_
    obtain ⟨y, hy, rfl⟩ := List.mem_map.mp hx
    have hno : s.poisoned (s.viewOf (s.thread s.cur).domid (leafShadow y.served.leaf) y.served.pa) 8 = false := hp y hy
    simp [hno]
  have hfar : (ws.map VWord.served).filter (fun x => !x.direct (s.thread s.cur)) = [] :=
    List.filter_eq_nil_iff.mpr fun x hx => by
      have hx' : x.direct (s.thread s.cur) = true := hdirect x hx
      simp [hx']
  have haw' : (s.thread s.cur).awaited (.v n) = false := haw
  have hpair' : s.paired (s.thread s.cur) = false := hpair
  rw [State.vload]
  simp only [hpoison, hfar, List.find?_nil, hpair', Bool.false_and, Bool.false_eq_true, if_false, State.loadWords_of_own h hg, haw']

end

/-- R187: the cells of a register before a load: zero, but for those that are kept. -/
theorem elemOf_vbase (t : ETyp) (k : VMask) (th : Thread) (d : Reg) {j : Nat} (hj : j < t.count) :
    elemOf t (ETyp.cell t) (vbase t k th d) j =
      if VMask.lane k th j = .keep then elemOf t (ETyp.cell t) (th.vreg d) j else 0 := by
  obtain ⟨v, hloop, hcells⟩ := vloop_of_pure (t := t) le_rfl (VMask.lane k th) (th.vreg d) ⟨{}, 0⟩ (fun _ => 0)
  rw [vbase, hloop, hcells j hj, loopCell]
  cases VMask.lane k th j <;> simp [cellOf]

theorem awaited_of_runs {s : State} {g : Guard} {n : Need} (hr : s.runs g n = true) {r : Reg} (h : r ∈ n.dests) :
    s.me.awaited r = false := by
  simp only [State.runs, Bool.and_eq_true, List.all_eq_true, Bool.not_eq_true'] at hr
  exact hr.1.2 r h

/-- R206, R207: a vector load whose elements are those that `k` makes active, at `addr`. -/
theorem loadsElements_of_runVmem {i : Instr} {g : Guard} {t : ETyp} {k : VMask} {d : Reg} {srcs : List Src} {keep : Bool}
    {addr : Thread → Nat → Nat} {elems : Thread → Nat → List (Nat × Nat × Nat)}
    (he : ∀ s, exec i s = runVmem s g (vmemNeed k srcs [] [d]) t .load elems (fun s th l => s.vload d keep (vbase t k th d) l))
    (hel : t.isNarrow = false → ∀ th, elems th t.fixedWidth = ((List.range t.count).filter (VMask.on k th)).map (fun j => (j, addr th j, 0)))
    (hd : i.operandsOk = true → d.isV = true := by simp +contextual [Instr.operandsOk]) : LoadsElements i g t k d srcs addr := by
  intro s hwf ht hr hpair hgated hmine
  have hown : s.Owns .load t (addr s.me) ((List.range t.count).filter (VMask.on k s.me)) := State.owns_of_mine fun j hj => by
    obtain ⟨hj, hon⟩ := List.mem_filter.mp hj
    exact hmine j (List.mem_range.mp hj) hon
  have hspec := elemWords_spec t (addr s.me) ((List.range t.count).filter (VMask.on k s.me))
  obtain ⟨F, hexec, hF⟩ := exec_of_runVmem (he s) ht (hel ht s.me) hown
  obtain ⟨n, rfl⟩ : ∃ n, d = .v n := by
    have hv := hd (operandsOk_of_wf hwf)
    cases d <;> simp_all [Reg.isV]
  have hword (x : VWord) (hx : x ∈ elemWords t (addr s.me) ((List.range t.count).filter (VMask.on k s.me))) :
      homeLocal s.me.core (homeOf x.va) = true ∧ s.poisoned x.va 8 = false := by
    obtain ⟨j, hj, -, hva⟩ := hspec.first x hx
    rw [hva, homeOf_wordOf]
    exact (hown j hj).2.2
  have hload := State.vload_of_own (n := n) (keep := keep) (base := vbase t k s.me (.v n)) (fun x hx => (hword x hx).1)
    (fun x hx => (hword x hx).2) hpair hgated (awaited_of_runs hr (by simp [vmemNeed]))
  refine ⟨_, completes_ok hexec hr (hF.trans hload) ((State.Wrote.refl s).writeV rfl (.v n) (.inl rfl) _) (.inr rfl)
    (.inl (by simp [vmemNeed])), fun j hj => ?_⟩
  rw [elemOf_orWords s hj hspec.parts, elemOf_vbase t k s.me (.v n) hj]
  cases hlane : VMask.lane k s.me j with
  | active =>
    have hon : VMask.on k s.me j = true := by simp [VMask.on, hlane]
    have hin : j ∈ (List.range t.count).filter (VMask.on k s.me) := List.mem_filter.mpr ⟨List.mem_range.mpr hj, hon⟩
    rw [if_pos ⟨hon, hspec.mem j hin⟩, s.peekW_wordOf (fit_of_aligned t (hown j hin).1) _ _ (fixedWidth_mod_eight ht)]
    simp
  | zero => simp [VMask.on, hlane]
  | keep => simp [VMask.on, hlane]

/-! ### The three loads -/

section
variable (g : Guard) (t : ETyp) (k : VMask) (sc : BitVec 2) (d : Reg) (m : MemOp) (a b : Src) (s : State)

theorem exec_vld : exec (.vld g t d m) s = execVld g t d m s := rfl
theorem exec_vlds : exec (.vlds g t d m) s = execVlds g t d m s := rfl
theorem exec_vgth : exec (.vgth g t k sc d a b) s = execVgth g t k sc d a b s := rfl

end

/-- Without a mask every element is active. -/
theorem filter_on_allActive (th : Thread) (l : List Nat) : l.filter (VMask.on allActive th) = l :=
  List.filter_eq_self.mpr fun _ _ => rfl

/-- R206: the elements of VLD and VST. -/
theorem vseq_of_not_isNarrow {t : ETyp} (ht : t.isNarrow = false) (th : Thread) (ea : Word) :
    vseq t t.fixedWidth ea = ((List.range t.count).filter (VMask.on allActive th)).map
      (fun j => (j, (ea.toNat + t.fixedWidth * j / 8) % 2 ^ 64, 0)) := by
  rw [filter_on_allActive, vseq]
  refine List.map_congr_left fun j _ => ?_
  rw [Nat.mul_mod, fixedWidth_mod_eight ht, Nat.zero_mul, Nat.zero_mod]

/-- R207: the elements of VLDS and VSTS. -/
theorem vstride_eq (t : ETyp) (th : Thread) (base stride : Word) :
    vstride t base stride = ((List.range t.count).filter (VMask.on allActive th)).map
      (fun j => (j, (base + BitVec.ofNat 64 j * stride).toNat, 0)) := by
  rw [filter_on_allActive, vstride]

/-- R206: VLD. -/
theorem loadsElements_vld (g : Guard) (t : ETyp) (d : Reg) (m : MemOp) : LoadsElements (.vld g t d m) g t allActive d [m.base, m.index]
    (fun th j => ((MemOp.ea th m).toNat + t.fixedWidth * j / 8) % 2 ^ 64) :=
  loadsElements_of_runVmem (exec_vld g t d m) fun ht th => vseq_of_not_isNarrow ht th _

/-- R207: VLDS. -/
theorem loadsElements_vlds (g : Guard) (t : ETyp) (d : Reg) (m : MemOp) :
    LoadsElements (.vlds g t d m) g t allActive d [m.base, m.index]
      (fun th j => (th.reg m.base.reg + m.disp.signExtend 64 + BitVec.ofNat 64 j * (th.reg m.index.reg <<< m.sc.toNat)).toNat) :=
  loadsElements_of_runVmem (exec_vlds g t d m) fun _ th => vstride_eq t th _ _

/-- R207: VGTH. -/
theorem loadsElements_vgth (g : Guard) (t : ETyp) (k : VMask) (sc : BitVec 2) (d : Reg) (a b : Src) :
    LoadsElements (.vgth g t k sc d a b) g t k d [a, b]
      (fun th j => (th.reg a.reg + ((BitVec.ofNat 32 (laneOf (th.vreg b.reg) j)).signExtend 64 <<< sc.toNat)).toNat) :=
  loadsElements_of_runVmem (exec_vgth g t k sc d a b) fun _ _ => rfl

end Sys2Proof.Machine
end

section
/-! The bytes that a vector store writes (R206, R207): the parts of a word, its bytes, and the ranges they are joined into, down to
the bytes of memory one by one. -/

namespace Sys2Proof.Machine

/-! ### Elements -/

section
variable (t : ETyp) (addr : Nat → Nat) (v : BitVec 1024) (a : Nat)

/-- Byte `a` lies in element `i`. -/
abbrev InElem (i : Nat) : Prop := addr i ≤ a ∧ a < addr i + t.fixedWidth / 8

/-- R206: what element `i`, stored at `addr i`, leaves of a byte `b` at `a`. -/
def elemByte (b : Byte) (i : Nat) : Byte :=
  if InElem t addr a i then BitVec.ofNat 8 (elemOf t t.fixedWidth v i / 256 ^ (a - addr i)) else b

variable {t addr v a}

theorem elemByte_of_inElem {b : Byte} {i : Nat} (h : InElem t addr a i) :
    elemByte t addr v a b i = BitVec.ofNat 8 (elemOf t t.fixedWidth v i / 256 ^ (a - addr i)) := if_pos h

theorem elemByte_of_not_inElem {b : Byte} {i : Nat} (h : ¬ InElem t addr a i) : elemByte t addr v a b i = b := if_neg h

/-- A byte in no element stays. -/
theorem foldl_elemByte_of_none {is : List Nat} (h : ∀ i ∈ is, ¬ InElem t addr a i) (b : Byte) : is.foldl (elemByte t addr v a) b = b := by
  induction is generalizing b with
  | nil => rfl
  | cons i l ih =>
    rw [List.foldl_cons, elemByte_of_not_inElem (h i List.mem_cons_self)]
    exact ih (fun j hj => h j (List.mem_cons_of_mem i hj)) b

/-- R207: of ascending elements the last one that holds a byte gives it. -/
theorem foldl_elemByte_of_last {is : List Nat} (hs : is.Pairwise (· < ·)) {j : Nat} (hj : j ∈ is) (hin : InElem t addr a j)
    (hlast : ∀ l ∈ is, j < l → ¬ InElem t addr a l) (b : Byte) :
    is.foldl (elemByte t addr v a) b = BitVec.ofNat 8 (elemOf t t.fixedWidth v j / 256 ^ (a - addr j)) := by
  obtain ⟨l1, l2, rfl⟩ := List.append_of_mem hj
  have hafter (l : Nat) (hl : l ∈ l2) : j < l := (List.pairwise_cons.mp (List.pairwise_append.mp hs).2.1).1 l hl
  rw [List.foldl_append, List.foldl_cons, elemByte_of_inElem hin]
  exact foldl_elemByte_of_none (fun l hl => hlast l (by simp [hl]) (hafter l hl)) _

/-- An aligned element lies in the word of each of its bytes. -/
theorem wordOf_eq_of_inElem {i : Nat} (hal : addr i % (t.fixedWidth / 8) = 0) (h : InElem t addr a i) : wordOf (addr i) = wordOf a := by
  have hfit := fit_of_aligned t hal
  obtain ⟨hlo, hhi⟩ := h
  unfold wordOf
  omega

end

/-! ### The parts of a word -/

/-- R207: one part more of a word: its mask and its value. -/
def partStep (v : BitVec 1024) (p : Nat × Nat) (q : LanePart) : Nat × Nat :=
  (p.1 ||| (2 ^ q.bits - 1) * 2 ^ q.src,
    (p.2 &&& (2 ^ 64 - 1 - (2 ^ q.bits - 1) * 2 ^ q.src)) ||| v.toNat / 2 ^ q.dst % 2 ^ q.bits * 2 ^ q.src)

theorem wordBytes_eq (parts : List LanePart) (v : BitVec 1024) :
    wordBytes parts v = ((List.range 8).filter (fun i => (parts.foldl (partStep v) (0, 0)).1.testBit (8 * i))).map
      (fun i => (i, (parts.foldl (partStep v) (0, 0)).2 / 256 ^ i % 256)) := rfl

theorem testBit_ones_mul_two_pow (w k n : Nat) : ((2 ^ w - 1) * 2 ^ k).testBit n = decide (k ≤ n ∧ n < k + w) := by
  rw [Nat.testBit_mul_two_pow, Nat.testBit_two_pow_sub_one, Bool.eq_iff_iff]
  simp only [Bool.and_eq_true, decide_eq_true_eq]
  omega

theorem testBit_partStep_mask (v : BitVec 1024) (p : Nat × Nat) (q : LanePart) (n : Nat) :
    (partStep v p q).1.testBit n = (p.1.testBit n || decide (q.src ≤ n ∧ n < q.src + q.bits)) := by
  rw [partStep, Nat.testBit_or, testBit_ones_mul_two_pow]

/-- R207: a later part wins. -/
theorem testBit_partStep_value (v : BitVec 1024) (p : Nat × Nat) {q : LanePart} (hq : q.src + q.bits ≤ 64) {n : Nat} (hn : n < 64) :
    (partStep v p q).2.testBit n =
      if q.src ≤ n ∧ n < q.src + q.bits then v.toNat.testBit (q.dst + (n - q.src)) else p.2.testBit n := by
  have hmask : (2 ^ q.bits - 1) * 2 ^ q.src < 2 ^ 64 := by
    calc (2 ^ q.bits - 1) * 2 ^ q.src < 2 ^ q.bits * 2 ^ q.src :=
          Nat.mul_lt_mul_of_pos_right (Nat.sub_lt (Nat.two_pow_pos _) one_pos) (Nat.two_pow_pos _)
      _ = 2 ^ (q.bits + q.src) := (pow_add ..).symm
      _ ≤ 2 ^ 64 := Nat.pow_le_pow_right two_pos (by omega)
  rw [partStep, Nat.testBit_or, Nat.testBit_and, Nat.sub_sub, Nat.add_comm 1, Nat.testBit_two_pow_sub_succ hmask, testBit_ones_mul_two_pow,
    Nat.testBit_mul_two_pow, Nat.testBit_mod_two_pow, Nat.testBit_div_two_pow, decide_eq_true hn]
  by_cases hin : q.src ≤ n ∧ n < q.src + q.bits
  · have hlt : n - q.src < q.bits := by omega
    simp [hin, hlt, Nat.add_comm]
  · by_cases hle : q.src ≤ n
    · have hlt : ¬ n - q.src < q.bits := by omega
      simp [hin, hlt]
    · simp [hle]

/-! ### A word of elements -/

/-- A bit of a byte of a number. -/
theorem getLsbD_byte (x k : Nat) {i : Nat} (hi : i < 8) : (BitVec.ofNat 8 (x / 256 ^ k % 256)).getLsbD i = x.testBit (8 * k + i) := by
  rw [BitVec.getLsbD_ofNat, show (256 : Nat) ^ k = 2 ^ (8 * k) by rw [Nat.pow_mul], show (256 : Nat) = 2 ^ 8 from rfl,
    Nat.testBit_mod_two_pow, Nat.testBit_div_two_pow, Nat.add_comm i, decide_eq_true hi, Bool.true_and, Bool.true_and]

/-- A byte of a number, bit by bit. -/
theorem ofNat_byte_eq {x k : Nat} {b : Byte} (h : ∀ i, i < 8 → x.testBit (8 * k + i) = b.getLsbD i) : BitVec.ofNat 8 (x / 256 ^ k % 256) = b :=
  BitVec.eq_of_getLsbD_eq fun i hi => (getLsbD_byte x k hi).trans (h i hi)

/-- One element more, in the word's mask and value and in the byte `b` at `a`. -/
theorem partStep_byte {t : ETyp} {addr : Nat → Nat} (v : BitVec 1024) {i : Nat} (hal : addr i % (t.fixedWidth / 8) = 0)
    (hw : t.fixedWidth % 8 = 0) {a : Nat} (hword : wordOf (addr i) = wordOf a) (p : Nat × Nat) (b : Byte) :
    (if (partStep v p (partOf t addr i)).1.testBit (8 * (a % 8)) then
      BitVec.ofNat 8 ((partStep v p (partOf t addr i)).2 / 256 ^ (a % 8) % 256) else b) =
      elemByte t addr v a (if p.1.testBit (8 * (a % 8)) then BitVec.ofNat 8 (p.2 / 256 ^ (a % 8) % 256) else b) i := by
  have hfit := fit_of_aligned t hal
  have hplace (n : Nat) (hn : n < 8) : (addr i % 8 * 8 ≤ 8 * (a % 8) + n ∧ 8 * (a % 8) + n < addr i % 8 * 8 + t.fixedWidth) ↔
      InElem t addr a i := by
    unfold InElem
    unfold wordOf at hword
    omega
  have hmask : (partStep v p (partOf t addr i)).1.testBit (8 * (a % 8)) = (p.1.testBit (8 * (a % 8)) || decide (InElem t addr a i)) := by
    rw [testBit_partStep_mask]
    exact congrArg _ (decide_eq_decide.mpr (hplace 0 (by omega)))
  have hvalue (n : Nat) (hn : n < 8) : (partStep v p (partOf t addr i)).2.testBit (8 * (a % 8) + n) =
      if InElem t addr a i then v.toNat.testBit (ETyp.cell t * i + (8 * (a % 8) + n - addr i % 8 * 8)) else p.2.testBit (8 * (a % 8) + n) := by
    rw [testBit_partStep_value v p (q := partOf t addr i) hfit (by omega)]
    simp only [partOf, hplace n hn]
  by_cases hin : InElem t addr a i
  · rw [hmask, decide_eq_true hin, Bool.or_true, if_pos rfl, elemByte_of_inElem hin]
    refine ofNat_byte_eq fun n hn => ?_
    rw [hvalue n hn, if_pos hin, BitVec.getLsbD_ofNat, show (256 : Nat) ^ (a - addr i) = 2 ^ (8 * (a - addr i)) by rw [Nat.pow_mul], elemOf,
      Nat.testBit_div_two_pow, Nat.testBit_mod_two_pow, Nat.testBit_div_two_pow, decide_eq_true hn, Bool.true_and]
    obtain ⟨hlo, hhi⟩ := hin
    rw [decide_eq_true (show n + 8 * (a - addr i) < t.fixedWidth by omega), Bool.true_and]
    congr 1
    unfold wordOf at hword
    omega
  · rw [hmask, decide_eq_false hin, Bool.or_false, elemByte_of_not_inElem hin]
    have hbyte : BitVec.ofNat 8 ((partStep v p (partOf t addr i)).2 / 256 ^ (a % 8) % 256) = BitVec.ofNat 8 (p.2 / 256 ^ (a % 8) % 256) :=
      ofNat_byte_eq fun n hn => by
        rw [hvalue n hn, if_neg hin, getLsbD_byte _ _ hn]
    rw [hbyte]

section
variable {t : ETyp} {addr : Nat → Nat} (v : BitVec 1024) {is : List Nat} (hal : ∀ i ∈ is, addr i % (t.fixedWidth / 8) = 0)
  (hw : t.fixedWidth % 8 = 0)
include hw hal

/-- What a word's mask and value make of the byte `b` at `a`, as the elements do one by one. -/
theorem foldl_partStep_byte (a : Nat) (b : Byte) :
    let p := ((is.filter (fun i => wordOf (addr i) = wordOf a)).map (partOf t addr)).foldl (partStep v) (0, 0)
    (if p.1.testBit (8 * (a % 8)) then BitVec.ofNat 8 (p.2 / 256 ^ (a % 8) % 256) else b) = is.foldl (elemByte t addr v a) b := by
  induction is using List.reverseRecOn with
  | nil => simp
  | append_singleton l i ih =>
    obtain ⟨hl, hi⟩ : (∀ j ∈ l, addr j % (t.fixedWidth / 8) = 0) ∧ addr i % (t.fixedWidth / 8) = 0 := by
      simpa [or_imp, forall_and] using hal
    specialize ih hl
    rw [List.foldl_append, List.foldl_cons, List.foldl_nil, ← ih, List.filter_append]
    by_cases hword : wordOf (addr i) = wordOf a
    · rw [List.filter_singleton, decide_eq_true hword, cond_true, List.map_append, List.foldl_append]
      exact partStep_byte v hi hw hword _ b
    · have hno : ¬ InElem t addr a i := fun h => hword (wordOf_eq_of_inElem hi h)
      rw [List.filter_singleton, decide_eq_false hword, elemByte_of_not_inElem hno]
      simp

end

/-! ### The bytes of a word, in ranges -/

/-- What a range (address, length, value) that is stored leaves of a byte `b` at `a`. -/
def rangeByte (a : Nat) (b : Byte) (e : Nat × Nat × Word) : Byte :=
  if e.1 ≤ a ∧ a < e.1 + e.2.1 then BitVec.ofNat 8 (e.2.2.toNat / 256 ^ (a - e.1)) else b

/-- What one byte (place, value) of the word at `pa` leaves of a byte `b` at `a`. -/
def placeByte (pa a : Nat) (b : Byte) (p : Nat × Nat) : Byte := if a = pa + p.1 then BitVec.ofNat 8 p.2 else b

/-- One byte more in front is a range of its own, or joins the range that follows it. -/
theorem joinBytes_cons (pa i x : Nat) (l : List (Nat × Nat)) :
    joinBytes pa ((i, x) :: l) = (pa + i, 1, BitVec.ofNat 64 x) :: joinBytes pa l ∨
      ∃ n v r, joinBytes pa l = (pa + i + 1, n, v) :: r ∧
        joinBytes pa ((i, x) :: l) = (pa + i, n + 1, BitVec.ofNat 64 (x + 256 * v.toNat)) :: r := by
  rw [joinBytes]
  split
  · rename_i a n v r heq
    split_ifs with ha
    · exact .inr ⟨n, v, r, by rw [heq, ha], rfl⟩
    · exact .inl (by rw [heq])
  · rename_i heq
    exact .inl (by rw [heq])

/-- Every range begins at one of the bytes. -/
theorem start_of_mem_joinBytes {pa : Nat} {l : List (Nat × Nat)} {e : Nat × Nat × Word} (h : e ∈ joinBytes pa l) :
    ∃ p ∈ l, e.1 = pa + p.1 := by
  induction l generalizing e with
  | nil => simp [joinBytes] at h
  | cons p l ih =>
    have htail {e} (h : e ∈ joinBytes pa l) : ∃ q ∈ p :: l, e.1 = pa + q.1 := by
      obtain ⟨q, hq, he⟩ := ih h
      exact ⟨q, List.mem_cons_of_mem p hq, he⟩
    rcases joinBytes_cons pa p.1 p.2 l with hcons | ⟨n, v, r, htl, hcons⟩ <;> rw [hcons] at h
    · rcases List.mem_cons.mp h with rfl | h
      · exact ⟨p, List.mem_cons_self, rfl⟩
      · exact htail h
    · rcases List.mem_cons.mp h with rfl | h
      · exact ⟨p, List.mem_cons_self, rfl⟩
      · exact htail (htl ▸ List.mem_cons_of_mem _ h)

/-- A range is no longer than the bytes, and its value no longer than it. -/
theorem length_of_mem_joinBytes {pa : Nat} {l : List (Nat × Nat)} (hl : l.length ≤ 8) (hb : ∀ p ∈ l, p.2 < 256) {e : Nat × Nat × Word}
    (h : e ∈ joinBytes pa l) : e.2.1 ≤ l.length ∧ e.2.2.toNat < 256 ^ e.2.1 := by
  induction l generalizing e with
  | nil => simp [joinBytes] at h
  | cons p l ih =>
    rw [List.length_cons] at hl ⊢
    have hp := hb p List.mem_cons_self
    have htail {e} (h : e ∈ joinBytes pa l) := ih (by omega) (fun q hq => hb q (List.mem_cons_of_mem p hq)) h
    rcases joinBytes_cons pa p.1 p.2 l with hcons | ⟨n, v, r, htl, hcons⟩ <;> rw [hcons] at h
    · rcases List.mem_cons.mp h with rfl | h
      · refine ⟨by simp, ?_⟩
        simp only [BitVec.toNat_ofNat]
        omega
      · exact ⟨(htail h).1.trans (by omega), (htail h).2⟩
    · obtain ⟨hn, hv⟩ := htail (htl ▸ List.mem_cons_self)
      rcases List.mem_cons.mp h with rfl | h
      · refine ⟨Nat.succ_le_succ hn, ?_⟩
        simp only [BitVec.toNat_ofNat, Nat.pow_succ] at hv ⊢
        exact (Nat.mod_le _ _).trans_lt (by omega)
      · obtain ⟨hlen, hval⟩ := htail (htl ▸ List.mem_cons_of_mem _ h)
        exact ⟨hlen.trans (by omega), hval⟩

/-- A range of one byte. -/
theorem rangeByte_one {pa a : Nat} {b : Byte} {p : Nat × Nat} (hp : p.2 < 256) :
    rangeByte a b (pa + p.1, 1, BitVec.ofNat 64 p.2) = placeByte pa a b p := by
  have hval : (BitVec.ofNat 64 p.2).toNat = p.2 := by simp only [BitVec.toNat_ofNat]; omega
  by_cases ha : a = pa + p.1
  · simp only [rangeByte, placeByte, hval, ha]
    simp
  · rw [rangeByte, placeByte, if_neg ha, if_neg (by dsimp only; omega)]

/-- A range with one byte more in front. -/
theorem rangeByte_succ {pa a n : Nat} {b : Byte} {v : Word} {p : Nat × Nat} (hp : p.2 < 256) (hn : n < 8) (hv : v.toNat < 256 ^ n) :
    rangeByte a b (pa + p.1, n + 1, BitVec.ofNat 64 (p.2 + 256 * v.toNat)) =
      rangeByte a (placeByte pa a b p) (pa + p.1 + 1, n, v) := by
  have hval : (BitVec.ofNat 64 (p.2 + 256 * v.toNat)).toNat = p.2 + 256 * v.toNat := by
    have hpow : 256 ^ n ≤ 256 ^ 7 := Nat.pow_le_pow_right (by omega) (by omega)
    simp only [BitVec.toNat_ofNat]
    omega
  by_cases hin : pa + p.1 + 1 ≤ a ∧ a < pa + p.1 + 1 + n
  · have hk : a - (pa + p.1) = a - (pa + p.1 + 1) + 1 := by omega
    have hdiv : (p.2 + 256 * v.toNat) / 256 ^ (a - (pa + p.1 + 1) + 1) = v.toNat / 256 ^ (a - (pa + p.1 + 1)) := by
      rw [Nat.pow_succ', ← Nat.div_div_eq_div_mul, Nat.add_mul_div_left _ _ (by omega), Nat.div_eq_of_lt hp, Nat.zero_add]
    rw [rangeByte, if_pos (by dsimp only; omega), rangeByte, if_pos hin]
    simp only [hval, hk, hdiv]
  · by_cases ha : a = pa + p.1
    · rw [rangeByte, if_pos (by dsimp only; omega), rangeByte, if_neg hin, placeByte, if_pos ha]
      refine BitVec.eq_of_toNat_eq ?_
      simp only [hval, ha, BitVec.toNat_ofNat, Nat.sub_self, Nat.pow_zero, Nat.div_one]
      omega
    · rw [rangeByte, if_neg (by dsimp only; omega), rangeByte, if_neg hin, placeByte, if_neg ha]

/-- Bytes joined into ranges are the bytes. -/
theorem foldl_rangeByte_joinBytes {pa : Nat} {l : List (Nat × Nat)} (hl : l.length ≤ 8) (hb : ∀ p ∈ l, p.2 < 256) (a : Nat) (b : Byte) :
    (joinBytes pa l).foldl (rangeByte a) b = l.foldl (placeByte pa a) b := by
  induction l generalizing b with
  | nil => rfl
  | cons p l ih =>
    rw [List.length_cons] at hl
    have hp := hb p List.mem_cons_self
    have hb' (q) (hq : q ∈ l) := hb q (List.mem_cons_of_mem p hq)
    rcases joinBytes_cons pa p.1 p.2 l with hcons | ⟨n, v, r, htl, hcons⟩
    · rw [hcons, List.foldl_cons, List.foldl_cons, rangeByte_one hp, ih (by omega) hb']
    · obtain ⟨hn, hv⟩ := length_of_mem_joinBytes (by omega) hb' (htl ▸ List.mem_cons_self)
      rw [hcons, List.foldl_cons, List.foldl_cons, ← ih (by omega) hb', htl, List.foldl_cons, rangeByte_succ hp (by omega) hv]

/-- A byte of different places is that of its place. -/
theorem foldl_placeByte (pa a : Nat) (f : Nat → Nat) (l : List Nat) (b : Byte) :
    (l.map (fun i => (i, f i))).foldl (placeByte pa a) b = if pa ≤ a ∧ a - pa ∈ l then BitVec.ofNat 8 (f (a - pa)) else b := by
  induction l generalizing b with
  | nil => simp
  | cons i l ih =>
    rw [List.map_cons, List.foldl_cons, ih, placeByte]
    by_cases ha : a = pa + i
    · simp [ha]
    · have hmem : pa ≤ a ∧ a - pa ∈ i :: l ↔ pa ≤ a ∧ a - pa ∈ l := by
        rw [List.mem_cons]
        exact ⟨fun ⟨hle, hm⟩ => ⟨hle, hm.resolve_left (by omega)⟩, fun ⟨hle, hm⟩ => ⟨hle, .inr hm⟩⟩
      simp only [if_neg ha, hmem]

/-! ### All words -/

/-- The ranges of a word. -/
def VWord.ranges (v : BitVec 1024) (x : VWord) : List (Nat × Nat × Word) := joinBytes x.va (wordBytes x.parts v)

theorem length_wordBytes (parts : List LanePart) (v : BitVec 1024) : (wordBytes parts v).length ≤ 8 := by
  rw [wordBytes_eq, List.length_map]
  exact (List.length_filter_le ..).trans (by simp)

theorem wordBytes_lt {parts : List LanePart} {v : BitVec 1024} {p : Nat × Nat} (h : p ∈ wordBytes parts v) : p.1 < 8 ∧ p.2 < 256 := by
  rw [wordBytes_eq] at h
  obtain ⟨i, hi, rfl⟩ := List.mem_map.mp h
  exact ⟨List.mem_range.mp (List.mem_filter.mp hi).1, Nat.mod_lt _ (by omega)⟩

section
variable {t : ETyp} {addr : Nat → Nat} {is : List Nat} (v : BitVec 1024) (hal : ∀ i ∈ is, addr i % (t.fixedWidth / 8) = 0)
  (hw : t.fixedWidth % 8 = 0)
include hw hal

/-- R207: a word's ranges leave in its bytes what the elements leave, and no others are touched. -/
theorem foldl_rangeByte_ranges {x : VWord} (hx : wordOf x.va = x.va)
    (hparts : x.parts = (is.filter (fun i => wordOf (addr i) = x.va)).map (partOf t addr)) (a : Nat) (b : Byte) :
    (x.ranges v).foldl (rangeByte a) b = if wordOf a = x.va then is.foldl (elemByte t addr v a) b else b := by
  rw [VWord.ranges, foldl_rangeByte_joinBytes (length_wordBytes ..) (fun p hp => (wordBytes_lt hp).2), wordBytes_eq, foldl_placeByte]
  by_cases ha : wordOf a = x.va
  · have hplace : x.va ≤ a ∧ a - x.va = a % 8 := by unfold wordOf at ha; omega
    have hlt : a % 8 < 8 := Nat.mod_lt _ (by omega)
    rw [if_pos ha, hplace.2, hparts, ← ha, ← foldl_partStep_byte v hal hw a b]
    simp [ha, hplace.1, hlt]
  · have hno : ¬ (x.va ≤ a ∧ a - x.va < 8) := by unfold wordOf at ha hx; omega
    rw [if_neg ha, if_neg]
    rintro ⟨hle, hmem⟩
    exact hno ⟨hle, List.mem_range.mp (List.mem_filter.mp hmem).1⟩

/-- R207: the ranges of all words leave in each byte what the elements leave in it one after another. -/
theorem foldl_rangeByte_flatMap {ws : List VWord} (hspec : WordsOf t addr is ws) (a : Nat) (b : Byte) :
    (ws.flatMap (VWord.ranges v)).foldl (rangeByte a) b = is.foldl (elemByte t addr v a) b := by
  have hwords {l : List VWord} (hn : (l.map VWord.va).Nodup) (hl : ∀ x ∈ l, x ∈ ws) (b : Byte) :
      (l.flatMap (VWord.ranges v)).foldl (rangeByte a) b =
        if wordOf a ∈ l.map VWord.va then is.foldl (elemByte t addr v a) b else b := by
    induction l generalizing b with
    | nil => rfl
    | cons x l ih =>
      obtain ⟨hx, hn⟩ := List.nodup_cons.mp hn
      have hxva : wordOf x.va = x.va := by
        obtain ⟨i, -, -, hi⟩ := hspec.first x (hl x List.mem_cons_self)
        rw [hi]
        unfold wordOf
        omega
      rw [List.flatMap_cons, List.foldl_append, foldl_rangeByte_ranges v hal hw hxva (hspec.parts x (hl x List.mem_cons_self)),
        ih hn (fun y hy => hl y (List.mem_cons_of_mem x hy)), List.map_cons]
      by_cases ha : wordOf a = x.va
      · simp [ha, hx]
      · simp [ha]
  rw [hwords hspec.nodup (fun _ h => h)]
  split_ifs with ha
  · rfl
  · exact (foldl_elemByte_of_none (fun i hi hin => ha (wordOf_eq_of_inElem (hal i hi) hin ▸ hspec.mem i hi)) b).symm

end

end Sys2Proof.Machine
end

section
/-! Vector stores (R206 to R208, R412) to memory of the thread's own core or cluster, and the vector memory instructions (O22). -/

namespace Sys2Proof.Machine

/-! ### Writes one after another -/

/-- What writes of ranges at their homes leave: their bytes, threads but for their monitors' triggers, and every tag. -/
structure State.Stored (s t : State) (es : List (Nat × Nat × Word)) : Prop where
  recorded : s.Recorded t
  empties : t.empties = s.empties
  bytes : ∀ a, t.byte a = es.foldl (rangeByte a) (s.byte a)

namespace State.Stored

theorem refl (s : State) : s.Stored s [] := ⟨.refl s, rfl, fun _ => rfl⟩

theorem trans {s t u : State} {es es' : List (Nat × Nat × Word)} (h : s.Stored t es) (k : t.Stored u es') : s.Stored u (es ++ es') :=
  ⟨h.recorded.trans k.recorded, k.empties.trans h.empties, fun a => by rw [k.bytes, h.bytes, List.foldl_append]⟩

theorem perform (s : State) (pa n : Nat) (v : Word) : s.Stored (s.perform pa n v.toNat false) [(pa, n, v)] := by
  obtain ⟨hbytes, hempties, hthreads, -, hother⟩ := s.perform_spec pa n v.toNat false
  exact ⟨⟨hthreads, hother⟩, hempties, hbytes⟩

theorem foldl_perform (s : State) (dom : BitVec 12) (es : List (Nat × Nat × Word)) :
    s.Stored (es.foldl (fun s e => s.performFor dom false e.1 e.2.1 e.2.2.toNat false) s) es := by
  induction es generalizing s with
  | nil => exact .refl s
  | cons e l ih =>
    rw [List.foldl_cons, State.performFor_false]
    exact (perform s e.1 e.2.1 e.2.2).trans (ih _)

/-- A store leaves the running thread, and a thread its place. -/
theorem cur_eq {s t : State} {es : List (Nat × Nat × Word)} (h : s.Stored t es) : t.cur = s.cur :=
  (congrArg State.cur h.recorded.other : _)

theorem core_eq {s t : State} {es : List (Nat × Nat × Word)} (h : s.Stored t es) (k : Nat) : (t.thread k).core = (s.thread k).core :=
  (congrArg Thread.core (h.recorded.threads k) : _)

/-- R208: a word's ranges at a local home are stored directly. -/
theorem storeWord {s : State} {tid : Nat} {es : List (Nat × Nat × Word)}
    (h : ∀ e ∈ es, homeLocal (s.thread tid).core (homeOf e.1) = true) : s.Stored (s.storeWord tid false es) es := by
  match es with
  | [] => exact .refl s
  | [(pa, n, v)] =>
    rw [State.storeWord, State.store]
    simp only [h _ List.mem_cons_self, if_true, State.performFor_false]
    exact perform s pa n v
  | (pa, n, v) :: e :: l =>
    have hall : s.storeWord tid false ((pa, n, v) :: e :: l) =
        ((pa, n, v) :: e :: l).foldl (fun u e => u.performFor (s.thread tid).domid false e.1 e.2.1 e.2.2.toNat false) s :=
      if_pos (h _ List.mem_cons_self)
    rw [hall]
    exact foldl_perform s _ _

/-- R208: the words of a store, one after another. -/
theorem foldl_storeWord {s : State} {pieces : List (Bool × List (Nat × Nat × Word))} (hf : ∀ p ∈ pieces, p.1 = false)
    (h : ∀ p ∈ pieces, ∀ e ∈ p.2, homeLocal s.me.core (homeOf e.1) = true) :
    s.Stored (pieces.foldl (fun s p => s.storeWord s.cur p.1 p.2) s) (pieces.flatMap Prod.snd) := by
  induction pieces generalizing s with
  | nil => exact .refl s
  | cons p l ih =>
    have hword : s.Stored (s.storeWord s.cur p.1 p.2) p.2 := hf p List.mem_cons_self ▸ storeWord (h p List.mem_cons_self)
    refine hword.trans (ih (fun q hq => hf q (List.mem_cons_of_mem p hq)) fun q hq e he => ?_)
    rw [State.me, hword.core_eq, hword.cur_eq]
    exact h q (List.mem_cons_of_mem p hq) e he

/-- An instruction leaves its thread's monitor. -/
theorem mon_of_after {a b : Thread} {o : Out} (h : a.After b o) : b.mon = a.mon := (congrArg Thread.mon h.other : _)

/-- What is recorded of a state holds of one that differs in its threads only. -/
theorem recorded_other {s u u' : State}
    (h : { u with threads := s.threads, clusters := s.clusters, mem := s.mem, empties := s.empties, poison := s.poison } = s)
    (hother : { u' with threads := u.threads } = u) :
    { u' with threads := s.threads, clusters := s.clusters, mem := s.mem, empties := s.empties, poison := s.poison } = s :=
  (congrArg (fun x : State =>
    { x with threads := s.threads, clusters := s.clusters, mem := s.mem, empties := s.empties, poison := s.poison }) hother).trans h

/-- R412: an instruction that stores, and writes INH beside, leaves what `StoredAs` says. -/
theorem storedAs {s u u' t : State} {es : List (Nat × Nat × Word)} {inh : Bool} {o : Out} (h : s.Stored u es)
    (hme : u'.thread s.cur = { u.thread s.cur with inh := inh }) (hthreads : ∀ k, k ≠ s.cur → u'.thread k = u.thread k)
    (hother : { u' with threads := u.threads } = u) (ha : u'.After t o) : s.StoredAs t inh o t.byte s.tagFull := by
  obtain ⟨⟨hmon, hrest⟩, hempties, -⟩ := h
  obtain ⟨hme', hthreads', hcores', hother', -⟩ := ha
  have hrest' := recorded_other hrest hother
  have hcur : u'.cur = s.cur := (congrArg State.cur hrest' : _)
  have hmeEq : { s.me with mon := (t.thread s.cur).mon, inh := inh } = u'.me := by
    have hmask : (t.thread s.cur).mon = u'.me.mon := hcur ▸ mon_of_after hme'
    have e : { u.thread s.cur with mon := (s.thread s.cur).mon } = s.me := hmon s.cur
    rw [hmask, ← e, State.me, hcur, hme]
  refine ⟨?_, fun k hk => ?_, fun k => ?_, fun _ => rfl, fun a => ?_, ?_⟩
  · rw [hmeEq]
    rwa [hcur] at hme'
  · rw [hthreads' k (hcur ▸ hk), hthreads k hk]
    exact hmon k
  · have e : (u'.core k).mask = (s.core k).mask := (congrArg (fun x : State => (x.core k).mask) hrest' : _)
    exact (hcores' k).trans e
  · have e : t.empties = s.empties :=
      ((congrArg State.empties hother' : _) : t.empties = u'.empties).trans (((congrArg State.empties hother : _) : u'.empties = u.empties).trans hempties)
    rw [State.tagFull, State.tagFull, e]
  · have e := congrArg (fun x : State =>
      { x with threads := s.threads, cores := s.cores, clusters := s.clusters, mem := s.mem, empties := s.empties, poison := s.poison }) hother'
    exact e.trans (congrArg (fun x : State => { x with cores := s.cores }) hrest')

end State.Stored

/-! ### The effect of a vector store -/

/-- R412: a stack store writes INH of its thread and nothing else. -/
theorem State.stackStore_spec (u : State) (tid : Nat) (base : Reg) :
    (u.stackStore tid base).thread tid = { u.thread tid with inh := if base = .g 14 then false else (u.thread tid).inh } ∧
      (∀ k, k ≠ tid → (u.stackStore tid base).thread k = u.thread k) ∧ { u.stackStore tid base with threads := u.threads } = u := by
  unfold State.stackStore
  split_ifs
  · exact ⟨u.thread_modThread_same tid _, fun k hk => u.thread_modThread_ne _ (Ne.symm hk), rfl⟩
  · exact ⟨rfl, fun _ _ => rfl, rfl⟩

/-- R412: an instruction without destinations whose effect is a store completes with the stored bytes. -/
theorem State.Stored.completes {i : Instr} {s u : State} {g : Guard} {n : Need} {f : State → Thread → Res} {base : Reg}
    {es : List (Nat × Nat × Word)} (hu : s.Stored u es) (he : exec i s = run s g n f) (hr : s.runs g n = true)
    (hn : n.dests ++ n.fills = []) (hf : f s s.me = .ok (u.stackStore u.cur base)) :
    ∃ w, exec i s = .next w ∧ s.StoredAs w (s.inhAfter base) (s.outPw n.srcs s.me.pw) w.byte s.tagFull ∧
      ∀ a, w.byte a = es.foldl (rangeByte a) (s.byte a) := by
  rw [hu.cur_eq] at hf
  obtain ⟨hme, hthreads, hother⟩ := u.stackStore_spec s.cur base
  have hthread := hu.recorded.threads s.cur
  have hcur : (u.stackStore s.cur base).cur = s.cur := ((congrArg State.cur hother : _) : _ = u.cur).trans hu.cur_eq
  have hinh : (if base = .g 14 then false else (u.thread s.cur).inh) = s.inhAfter base := by
    rw [show (u.thread s.cur).inh = s.me.inh from (congrArg Thread.inh hthread : _)]
    rfl
  rw [hinh] at hme
  have hw := State.Wrote.refl (u.stackStore s.cur base)
  rw [Out.none, State.me, hcur, hme, show (u.thread s.cur).pw = s.me.pw from (congrArg Thread.pw hthread : _),
    show (u.thread s.cur).rnd = s.me.rnd from (congrArg Thread.rnd hthread : _)] at hw
  obtain ⟨w, hnext, hafter⟩ := completes_as_wrote he hr hn hf hcur hw
  refine ⟨w, hnext, hu.storedAs hme hthreads hother hafter, fun a => ?_⟩
  rw [hafter.bytes, State.byte, show (u.stackStore s.cur base).mem = u.mem from (congrArg State.mem hother : _), ← State.byte, hu.bytes]

theorem State.shadowAll_served (s : State) (t : Thread) (ws : List VWord) : s.shadowAll t (ws.map VWord.served) = (s, none) := by
  induction ws with
  | nil => rfl
  | cons x l ih => exact (congrArg (fun u : State => u.shadowAll t (l.map VWord.served)) (ite_self s)).trans ih

/-- R208: a vector store to own memory stores the ranges of its words. -/
theorem State.vstore_of_own {s : State} (v : BitVec 1024) (base : Option Reg) {ws : List VWord} (hpair : s.paired s.me = false)
    (h : ∀ x ∈ ws, wordOf x.va = x.va ∧ homeLocal s.me.core (homeOf x.va) = true) :
    ∃ u, s.Stored u (ws.flatMap (VWord.ranges v)) ∧
      s.vstore v base (ws.map VWord.served) = .ok (u.stackStore u.cur (base.getD .z)) := by
  have hpieces : (ws.map VWord.served).map (fun x => (leafShadow x.leaf, joinBytes x.pa (wordBytes x.word.parts v))) =
      ws.map (fun x => (false, x.ranges v)) := by
    rw [List.map_map]
    rfl
  refine ⟨(ws.map (fun x => (false, x.ranges v))).foldl (fun s p => s.storeWord s.cur p.1 p.2) s, ?_, ?_⟩
  · have hstored := State.Stored.foldl_storeWord (s := s) (pieces := ws.map (fun x => (false, x.ranges v))) (by simp) (fun p hp e he => by
      obtain ⟨x, hx, rfl⟩ := List.mem_map.mp hp
      obtain ⟨q, hq, hstart⟩ := start_of_mem_joinBytes he
      have hword : wordOf e.1 = x.va := by
        have hlt := (wordBytes_lt hq).1
        have hva := (h x hx).1
        unfold wordOf at hva ⊢
        omega
      rw [← homeOf_wordOf, hword]
      exact (h x hx).2)
    rwa [List.flatMap_map] at hstored
  · have hpair' : s.paired (s.thread s.cur) = false := hpair
    rw [State.vstore]
    simp only [State.shadowAll_served, hpair', hpieces, Bool.false_eq_true, if_false]
    cases base <;> rfl

/-! ### The instructions -/

/-- R206 to R208: a vector store whose elements are those that `k` makes active, at `addr`. -/
theorem storesElements_of_runVmem {i : Instr} {g : Guard} {t : ETyp} {k : VMask} {d : Reg} {srcs : List Src} (base : Option Reg)
    {addr : Thread → Nat → Nat} {elems : Thread → Nat → List (Nat × Nat × Nat)}
    (he : ∀ s, exec i s = runVmem s g (vmemNeed k srcs [d] []) t .store elems (fun s th l => s.vstore (th.vreg d) base l))
    (hel : t.isNarrow = false → ∀ th, elems th t.fixedWidth = ((List.range t.count).filter (VMask.on k th)).map (fun j => (j, addr th j, 0))) :
    StoresElements i g t k d srcs (base.getD .z) addr := by
  intro s _ ht hr hpair _ hmine in_
  have hown : s.Owns .store t (addr s.me) ((List.range t.count).filter (VMask.on k s.me)) := State.owns_of_mine fun j hj => by
    obtain ⟨hj, hon⟩ := List.mem_filter.mp hj
    exact hmine j (List.mem_range.mp hj) hon
  have hspec := elemWords_spec t (addr s.me) ((List.range t.count).filter (VMask.on k s.me))
  have hsorted : ((List.range t.count).filter (VMask.on k s.me)).Pairwise (· < ·) := List.pairwise_lt_range.filter _
  obtain ⟨F, hexec, hF⟩ := exec_of_runVmem (he s) ht (hel ht s.me) hown
  obtain ⟨u, hu, hstore⟩ := State.vstore_of_own (s.me.vreg d) base hpair (fun x hx => by
    obtain ⟨j, hj, -, hva⟩ := hspec.first x hx
    rw [hva, homeOf_wordOf]
    exact ⟨by unfold wordOf; omega, (hown j hj).2.2.1⟩)
  obtain ⟨w, hnext, hstored, hbytes⟩ := hu.completes hexec hr (by simp [vmemNeed]) (hF.trans hstore)
  have hbyte (a : Nat) : w.byte a =
      ((List.range t.count).filter (VMask.on k s.me)).foldl (elemByte t (addr s.me) (s.me.vreg d) a) (s.byte a) := by
    rw [hbytes, foldl_rangeByte_flatMap _ (fun i hi => (hown i hi).1) (fixedWidth_mod_eight ht) hspec]
  refine ⟨w, hnext, hstored, fun a hno => ?_, fun j a hj hon hin hlast => ?_⟩
  · rw [hbyte]
    refine foldl_elemByte_of_none (fun i hi => ?_) _
    obtain ⟨hi, hon⟩ := List.mem_filter.mp hi
    exact hno i (List.mem_range.mp hi) hon
  · rw [hbyte]
    refine foldl_elemByte_of_last hsorted (List.mem_filter.mpr ⟨List.mem_range.mpr hj, hon⟩) hin (fun l hl hlt => ?_) _
    obtain ⟨hl, hon⟩ := List.mem_filter.mp hl
    exact hlast l hlt (List.mem_range.mp hl) hon

/-! ### The three stores -/

section
variable (g : Guard) (t : ETyp) (k : VMask) (sc : BitVec 2) (d : Reg) (m : MemOp) (a b : Src) (s : State)

theorem exec_vst : exec (.vst g t d m) s = execVst g t d m s := rfl
theorem exec_vsts : exec (.vsts g t d m) s = execVsts g t d m s := rfl
theorem exec_vsct : exec (.vsct g t k sc d a b) s = execVsct g t k sc d a b s := rfl

end

/-- R206: VST. -/
theorem storesElements_vst (g : Guard) (t : ETyp) (d : Reg) (m : MemOp) :
    StoresElements (.vst g t d m) g t allActive d [m.base, m.index] m.base.reg
      (fun th j => ((MemOp.ea th m).toNat + t.fixedWidth * j / 8) % 2 ^ 64) :=
  storesElements_of_runVmem (some m.base.reg) (exec_vst g t d m) fun ht th => vseq_of_not_isNarrow ht th _

/-- R207: VSTS. -/
theorem storesElements_vsts (g : Guard) (t : ETyp) (d : Reg) (m : MemOp) :
    StoresElements (.vsts g t d m) g t allActive d [m.base, m.index] m.base.reg
      (fun th j => (th.reg m.base.reg + m.disp.signExtend 64 + BitVec.ofNat 64 j * (th.reg m.index.reg <<< m.sc.toNat)).toNat) :=
  storesElements_of_runVmem (some m.base.reg) (exec_vsts g t d m) fun _ th => vstride_eq t th _ _

/-- R207, R412: VSCT, which is no stack access. -/
theorem storesElements_vsct (g : Guard) (t : ETyp) (k : VMask) (sc : BitVec 2) (d : Reg) (a b : Src) :
    StoresElements (.vsct g t k sc d a b) g t k d [a, b] .z
      (fun th j => (th.reg a.reg + ((BitVec.ofNat 32 (laneOf (th.vreg b.reg) j)).signExtend 64 <<< sc.toNat)).toNat) :=
  storesElements_of_runVmem none (exec_vsct g t k sc d a b) fun _ _ => rfl

/-- Settles O22: the elements fall into the words that hold them; a load puts the register together word by word, and a store
writes each word's bytes, the last element of a byte's giving it. -/
theorem vectorMemoryReadsAndWritesItsElements : Obligations.VectorMemoryReadsAndWritesItsElements := by
  unfold Obligations.VectorMemoryReadsAndWritesItsElements
  exact ⟨⟨loadsElements_vld, loadsElements_vlds, loadsElements_vgth⟩, storesElements_vst, storesElements_vsts, storesElements_vsct⟩

end Sys2Proof.Machine
end
